-- ==== Sys2Proof/Word.lean ====
section
/-!
DEFINITION. Word.lean: the word types of the module and their plainest conversions.
Bytes are what payloads, packets and stored blocks are made of (R75, R230); a register is 32 bits wide (R4).
-/

namespace Sys2Proof

/-- One byte of a payload, a packet or a stored block. -/
abbrev Byte := BitVec 8

/-- One 32-bit register value (R4). -/
abbrev Word := BitVec 32

/-- A sparse table: entries in strictly rising key order. -/
abbrev KV (α : Type) := List (Nat × α)

/-- A sparse byte store: an unlisted address reads as zero, and no zero byte is listed. -/
abbrev Mem := List (Nat × Byte)

end Sys2Proof
end

