-- ==== Sys2Proof/Machine/StateHost.lean ====
section
/-!
DEFINITION. Machine/StateHost.lean: what the module holds of its Swerak ports, sessions, commands, replies, events and
contexts (chapters 3 and 4), of the Landing (chapter 2) and of the keeper with its pins (chapter 18).
-/

namespace Sys2Proof.Machine

/-- The two parts of R1. -/
inductive Part where
  | kz1280
  | kz640
  deriving DecidableEq, Repr

/-- The queue a command stands on (R83, R84). -/
inductive QueueKind where
  | admin
  | data
  | work
  deriving DecidableEq, Repr

/-- The class of a context (Table 4-1). -/
inductive Cls where
  | interactive
  | batch
  | housekeeping
  deriving DecidableEq, Repr

/-- The name of one command: its session, context, queue and tag (R83). An admin command has context 0 here. -/
structure CmdKey where
  session : Nat
  ctx     : Nat
  queue   : QueueKind
  tag     : Nat
  deriving DecidableEq, Repr

/-- A place on the media: member `member` of stripe `page` of band `band` of row `row` (R185). -/
structure MediaAddr where
  row    : Nat
  band   : Nat
  page   : Nat
  member : Nat
  deriving DecidableEq, Repr

/-- An act that becomes effective when a reply departs. -/
inductive Act where
  /-- R117: the port the write came in on is disabled. -/
  | disablePort (enable : Nat)
  /-- R103: release of the deferred-error entries with these identities. -/
  | releaseDeferred (ids : List Nat)
  /-- R102: the session number becomes free. -/
  | freeSession (session : Nat)
  /-- R127, R150: the context number becomes free. -/
  | freeContext (ctx : Nat)
  /-- R122: the Landing quota applies. -/
  | landingQuota (ctx : Nat) (mib : Nat)
  /-- R124: the class changes. -/
  | setClass (ctx : Nat) (cls : Cls)
  /-- R99, R113: what follows an OPEN_SESSION reply, and whether it resumed a held session. -/
  | afterOpen (session : Nat) (resumed : Bool)
  /-- R116: the queue's tags become free and its reset ends. -/
  | queueReset (ctx : Nat)
  /-- R503 and Table 17-5: the module acts as on an assertion of MOD_RESET_N, with this reset cause for the start that follows. -/
  | restart (cause : Nat)
  /-- The stream's last token reply has left (R152). -/
  | tokenOut (stream : Nat)
  /-- The reply of a WRITE has left: FLUSH covers its units (R244). -/
  | acknowledged (key : CmdKey)
  /-- The index that an INDEX_BUILD has built is READY (R292, Tables 9-2 and 9-13). -/
  | indexReady (index : Nat)
  deriving DecidableEq, Repr

/-- What a received command still waits for before its reply can be made. -/
inductive Wait where
  /-- Page reads of these places are outstanding (R160). -/
  | pages (need : List MediaAddr)
  /-- Segments of the map are being read for a lookup (R193). -/
  | segments (need : List Nat)
  /-- A WRITE held unacknowledged under R243 (or under R24). -/
  | hold
  /-- These write-buffer slots must become durable (R195, R241, R244). -/
  | durable (slots : List Nat)
  /-- The journal entries with numbers below this one must become durable (R304). -/
  | journaled (seq : Nat)
  /-- These bands must still be erased and journaled FREE, of so many in all (R221). -/
  | erased (bands : List Nat) (all : Nat)
  /-- Earlier commands that name the same volume must have completed (R249). -/
  | volume (vol : Nat)
  /-- The model placement of this slot must end (R403). -/
  | placed (slot : Nat)
  /-- A settling pass started after this receipt must publish (R305). -/
  | settled (index : Nat)
  /-- An INSERT held for a full silt list (R303). -/
  | silt (index : Nat)
  /-- A SEARCH walking its graph (R295). -/
  | search (index : Nat)
  /-- A tile program run in progress (R396). -/
  | run (handle : Nat)
  /-- The stream's next generation step (R413). -/
  | token (stream : Nat)
  /-- A scan whose reads are paused for want of staging (R270). -/
  | staging
  /-- The acknowledgements of a peer module (R467). -/
  | peer (crossing : Nat)
  /-- A completion that may not be produced for want of quota while held (R44). -/
  | quota (status : Nat) (sh : Bool) (payload : List Byte) (kib : Nat) (acts : List Act)
  /-- The settling pass that an index still runs ends first. -/
  | quiet (index : Nat)
  /-- Lines of a range being retired whose refetch runs (R61). -/
  | lines
  deriving DecidableEq, Repr

/-- How far a command has come. -/
inductive Phase where
  | arriving
  | received
  | waiting (w : Wait)
  | replied
  deriving DecidableEq, Repr

/-- An outstanding command (R83), from the arrival of its first packet to the departure of its reply. -/
structure Cmd where
  key      : CmdKey
  opcode   : Nat
  cls      : Nat
  /-- CONTEXT and QUEUE of the header as received: the target of the admin commands of R84. -/
  hdrCtx   : Nat
  hdrQueue : Nat
  port     : Nat
  totalLen : Nat
  /-- Accepted packets of the train: TRAIN_INDEX and payload (R78). -/
  parts    : KV (List Byte)
  /-- Every TRAIN_INDEX accepted so far, kept when the payloads are dropped (R78). -/
  seen     : List Nat
  /-- SEQUENCE of the last-received packet (R82). -/
  seq      : Nat
  phase    : Phase
  /-- Receipt order of the command, module-wide (R97). -/
  order    : Nat
  arrived  : Nat
  /-- Staged bytes charged to the context, in KiB (Table 2-2). -/
  stagedKib : Nat
  th : Bool
  lt : Bool
  fs : Bool
  ra : Bool
  /-- Admitted to the interactive promise, and still covered by it (R129, R153). -/
  admitted : Bool
  covered  : Bool
  /-- Pages whose contents have been delivered to this command. -/
  pagesIn  : List MediaAddr
  /-- Segments of the map in which this command's lookups have been answered (R193). -/
  segsIn   : List Nat
  /-- A count the command keeps while outstanding (units made durable, records done). -/
  tally    : Nat
  /-- For a FLUSH: the units that it covers, the write-buffer slots acknowledged before it was received (R244). -/
  covers   : List Nat
  /-- For an INSERT: the slots that it has taken (R302). -/
  ids      : List Nat
  /-- Map keys of units found unreadable while the command waited (R233, R246). -/
  lost     : List Nat
  deriving DecidableEq, Repr

/-- A reply that has been produced and has not yet departed (R91). -/
structure Reply where
  id      : Nat
  key     : CmdKey
  opcode  : Nat
  cls     : Nat
  hdrCtx  : Nat
  hdrQueue : Nat
  seq     : Nat
  status  : Nat
  cflags  : Nat
  payload : List Byte
  port    : Nat
  /-- A reply to a rejected packet, which frees no tag (R88, R89). -/
  reject  : Bool
  /-- Held because the session has no port (R112). -/
  held    : Bool
  /-- KiB charged to the context until departure (Table 2-2). -/
  kib     : Nat
  acts    : List Act
  /-- The volumes that its command named (R98). -/
  vols    : List Nat
  /-- Packets of its train that have left, and the port they left on (R80, R93). -/
  sent    : Nat
  on      : Option Nat
  deriving DecidableEq, Repr

/-- An event record (Table 3-19). -/
structure EventRec where
  code     : Nat
  severity : Nat
  kind     : Nat
  source   : Nat
  when_    : Nat
  ctx      : Nat
  args     : List Byte
  deriving DecidableEq, Repr

/-- A deferred-error log entry (Table 3-8). -/
structure Deferred where
  id       : Nat
  vol      : Nat
  ctx      : Nat
  firstLba : Nat
  blocks   : Nat
  cause    : Nat
  found    : Nat
  /-- Found during the present start (R99). -/
  atStart  : Bool
  deriving DecidableEq, Repr

/-- Whether a session number is free, open or held (R101, R112). -/
inductive SessPhase where
  | free
  | opened
  | held
  deriving DecidableEq, Repr

/-- One of the four sessions. -/
structure Session where
  phase    : SessPhase
  key      : Nat
  eventNo  : Nat
  mask     : Nat
  /-- SEQUENCE expected next (R81); none until the first packet after OPEN_SESSION. -/
  nextSeq  : Option Nat
  seqGaps  : Nat
  /-- Keeper count at which grace ends (R112). -/
  graceEnd : Nat
  queued   : List EventRec
  /-- Count of the EVENTS_DROPPED record, when there is one (R107). -/
  dropped  : Option Nat
  /-- A CLOSE_SESSION is outstanding. -/
  closing  : Bool
  deriving DecidableEq, Repr

/-- One Swerak port. -/
structure Port where
  lock      : Bool
  up        : Bool
  enabled   : Bool
  /-- Lost since it was last up, so that coming up raises PORT_RESTORED (R108). -/
  lost      : Bool
  lastBeat  : Nat
  lockLost  : Nat
  /-- Keeper count of the last HEARTBEAT sent on the port since it has lock (R109). -/
  beatSent  : Option Nat
  hdrErr    : Nat
  payErr    : Nat
  fecUncorr : Nat
  losses    : Nat
  dupPkts   : Nat
  fecCorr   : Nat
  deriving DecidableEq, Repr

/-- What has left the module: packets, flits, control words and SMBus answers, newest first. The model's own record. -/
inductive WireOut where
  | packet (port : Nat) (header payload : List Byte)
  | control (crossing : Nat) (word : List Nat)
  | flit (crossing position : Nat) (cls fseq : Nat) (body : List Byte)
  | smbus (bytes : List Byte)
  | peek (plot line : Nat) (bytes : List Byte)
  deriving DecidableEq, Repr

/-- A context (chapter 4). -/
structure Ctx where
  session    : Nat
  cls        : Cls
  strict     : Bool
  sramKib    : Nat
  landingMib : Nat
  maxPlots   : Nat
  sliceUs    : Nat
  /-- A CLOSE_CONTEXT (or CLOSE_SESSION) is outstanding. -/
  closing    : Bool
  /-- Torn down with this status, waiting for the reply that tells the session (R150). -/
  torn       : Option Nat
  /-- A fault was found while a CLOSE_CONTEXT was outstanding (Table 4-10). -/
  faulted    : Bool
  /-- A QUEUE_RESET on the data queue is outstanding (R116). -/
  resetting  : Bool
  stepNo     : Option Nat
  stepSize   : Nat
  /-- Keeper count when the context last ran any work (R482). -/
  lastRun    : Nat
  /-- Plots that its work wants (R131). -/
  want       : Nat
  deriving DecidableEq, Repr

/-- A leaky bucket (R65). -/
structure Bucket where
  level    : Nat
  armed    : Bool
  overflow : Bool
  deriving DecidableEq, Repr

/-- A memory line: of the Landing, or of a plot's SRAM (R55). -/
inductive Line where
  | landing (stack pch bank page line : Nat)
  | sram (plot line : Nat)
  deriving DecidableEq, Repr

/-- What a line that failed its check holds (Table 2-3). -/
inductive LineData where
  | flashBacked
  | writeData (slot : Nat)
  | peerData
  | produced
  | tombstone (index first last : Nat)
  | firmware
  | mapCache (units : List (Nat × Nat))
  | sramTile (modified : Bool) (inputsHeld : Bool)
  | sramAcc (inputsHeld : Bool)
  | weights (slot : Nat)
  | only
  deriving DecidableEq, Repr

/-- Whose ferry schedule it is (R45). -/
inductive SchedOwner where
  | model (slot : Nat)
  | program (ctx handle : Nat)
  deriving DecidableEq, Repr

/-- A tile that a ferry brings, and the plot it is brought to (R46). -/
structure TileAt where
  plot : Nat
  tile : Nat
  deriving DecidableEq, Repr

/-- A ferry that reads a line: its work, the context whose scratchpad it fills, and its destination (Table 2-4). -/
structure Ferried where
  owner : SchedOwner
  ctx   : Nat
  to_   : TileAt
  deriving DecidableEq, Repr

/-- A line as it was read: what it holds (Table 2-3), where a copy of it stands on flash, its bytes, the check read with them (R55), and the
ferries that were reading it (R61). -/
structure LineRead where
  data  : LineData
  flash : Option MediaAddr
  /-- The codeword of that member on which the line's bytes stand (R174). -/
  cw    : Nat
  bytes : List Byte
  crc   : Nat
  ferries : List Ferried
  deriving DecidableEq, Repr

/-- How a refetch ends, or what becomes of a line meanwhile (R56, R59, R61): a source gave a line with its check, every source
failed, or a writer has overwritten the whole line. -/
inductive RefetchEnd where
  | good (source : Nat) (bytes : List Byte) (crc : Nat)
  | failed
  | overwritten
  deriving DecidableEq, Repr

/-- A line whose refetch runs, or that is poisoned (R56, R59). -/
structure LineFault where
  line     : Line
  data     : LineData
  owner    : Option Nat
  /-- The page of flash that holds its copy, which the refetch reads (R58). -/
  flash    : Option MediaAddr
  readers  : List CmdKey
  /-- The ferries that were reading it: their tiles are not ready until the refetch ends (Table 2-4). -/
  ferries  : List Ferried
  poisoned : Bool
  deriving DecidableEq, Repr

/-- A memory error log entry (Table 2-6). -/
structure MemErr where
  kind   : Nat
  line   : Line
  source : Nat
  count  : Nat
  first  : Nat
  last   : Nat
  deriving DecidableEq, Repr

/-- One event on a line in the last 24 hours (R67). -/
structure LineEvent where
  line  : Line
  uncorr : Bool
  when_ : Nat
  deriving DecidableEq, Repr

/-- What a tick of the power loop reads beside the input: the stacks whose interactive reserve was fully used in more than half of the
millisecond, one bit each (R135), and the measured parts of the draw (R476). -/
structure LoopReading where
  reserveFull : Nat
  parts       : List Nat
  deriving DecidableEq, Repr

/-- A ferry schedule (R45 to R49). -/
structure Schedule where
  owner : SchedOwner
  lead  : Nat
  /-- LEAD_MIN, LEAD_MAX, LATE_LIMIT and SHALLOW_S as they stood at its last layer boundary (R72). -/
  leadMin : Nat
  leadMax : Nat
  lateLimit : Nat
  shallowS : Nat
  /-- The layer whose late arrival has been counted in this step (R47). -/
  layer : Option Nat
  /-- Keeper counts of recent late arrivals. -/
  lates : List Nat
  lastLate : Nat
  deriving DecidableEq, Repr

/-- A retirement received and not yet carried to its end: the receipt order of its command, its pages, and how many of them
are newly retired (R69). -/
structure Retiring where
  order : Nat
  pages : List Nat
  count : Nat
  deriving DecidableEq, Repr

/-- The Landing (chapter 2). -/
structure Landing where
  stacksUp   : Nat
  stacksDown : Nat
  selfRefresh : Bool
  /-- Retired pages by number, rising (R68). -/
  retired    : List Nat
  leakS      : Nat
  capacity   : Nat
  lastLeak   : Nat
  buckets    : List Bucket
  uncorr     : Nat
  corrected  : Nat
  uncorrected : Nat
  shallowS   : Nat
  lateLimit  : Nat
  leadMax    : Nat
  leadMin    : Nat
  lateArrivals : Nat
  leadCapped : Nat
  reservePct : Nat
  /-- Bit n set: the interactive reserve of stack n was fully used in more than half of the 1 µs windows of the last 1 ms (R135). -/
  reserveFull : Nat
  windowLayers : Nat
  faults     : List LineFault
  memLog     : List MemErr
  lineEvents : List LineEvent
  schedules  : List Schedule
  retiring   : List Retiring
  deriving DecidableEq, Repr

/-- One discrete input (R526). -/
structure InPin where
  asserted : Bool
  raw      : Bool
  chatter  : Bool
  count    : Nat
  deriving DecidableEq, Repr

/-- The keeper domain and what it holds (chapters 0 and 18). -/
structure Keeper where
  count      : Nat
  /-- KPR_STATUS.START_STAGE (Table 18-14). -/
  stage      : Nat
  startFault : Nat
  moduleGood : Bool
  thermtrip  : Bool
  holdupWeak : Bool
  modReset   : InPin
  pwrFail    : InPin
  throttle   : InPin
  tamper     : InPin
  cause      : Nat
  /-- The reset cause that the start to come will have (Table 18-15). -/
  nextCause  : Nat
  tripped    : Bool
  vinMin     : Nat
  vinCv      : Nat
  holdup     : Nat
  pecRequired : Bool
  fastPlus   : Bool
  led        : Nat
  /-- WRITE_PROTECT under R251 until this is cleared by WRITE_PROTECT_END. -/
  writeProtect : Bool
  releasedAt : Nat
  /-- Keeper count at which the module left reset at its last start (R504). -/
  startAt    : Nat
  supplyOk   : Bool
  powered    : Bool
  /-- Latched _HI halves: requester (0, 1 the ports, 2 management), _LO offset, value (R10). -/
  hiLatch    : List (Nat × Nat × Nat)
  /-- Input losses survived since last read, and the state of the hold-up test (Tables 18-18 and 18-19). -/
  losses     : Nat
  holdupState : Nat
  smbPointer : Nat
  smbStatus  : Nat
  /-- How far the last start came, until the next reset: 1 the fuses are read, 2 firmware runs, 3 the media are recovered (R11). -/
  idnAt      : Nat
  deriving DecidableEq, Repr

end Sys2Proof.Machine
end

