-- ==== Sys2Proof/Machine/StateMedia.lean ====
section
/-!
DEFINITION. Machine/StateMedia.lean: what the module holds of its sieves, dies, bands, map, journal, write buffer, root
records and volumes (chapters 5 to 7).
-/

namespace Sys2Proof.Machine

/-- The role of a die (Table 5-16); `rebuilding` is a member being rebuilt. -/
inductive DieRole where
  | member
  | rebuilding
  | spare
  | unresponsive
  | failed
  deriving DecidableEq, Repr

/-- What a die is doing (Table 5-16 OP). -/
inductive DieOp where
  | idle
  | read
  | continuousRead
  | program
  | erase
  | programSuspended
  | eraseSuspended
  deriving DecidableEq, Repr

/-- What the decoding of one page found (Tables 5-3 and 5-4): a read of a member reads a page on each plane that it needs. -/
structure PageResult where
  maxCorr : Nat
  retry   : Nat
  soft    : Bool
  /-- Bit n set: codeword n failed every step. -/
  cwBad   : Nat
  erased  : Bool
  /-- Not erased, and no codeword decodes with a valid header. -/
  indeterminate : Bool
  /-- The plane that the page stands on. -/
  plane   : Nat
  /-- The stream check of an armed unit mismatched (R182). -/
  mismatch : Bool
  deriving DecidableEq, Repr

/-- Who a page read is for. -/
inductive ReadFor where
  /-- A command that waits for the place. -/
  | cmd (k : CmdKey)
  /-- A segment of the map that a lookup missed (R193). -/
  | segment (n : Nat)
  /-- A refetch of a Landing line from flash (R58). -/
  | refetch (line : Line)
  /-- A copy that moves a unit out of its band (R200). -/
  | copy
  /-- The tilling pass, which rebuilds what it could not read (Table 6-11). -/
  | tilling
  /-- A search that waits for a record of its index (R295). -/
  | search (k : CmdKey) (id : Nat)
  deriving DecidableEq, Repr

/-- How far a page read has come. -/
inductive ReadStep where
  /-- Queued on its die. -/
  | queued
  /-- Its codewords were uncorrectable: it goes by read-around (R174). -/
  | rebuild
  /-- Its stream check mismatched: it is read again by read-around (R182). -/
  | recheck
  deriving DecidableEq, Repr

/-- A page read that a sieve has been given, in order of arrival (R166). -/
structure PageReq where
  place : MediaAddr
  cls   : Cls
  for_  : ReadFor
  /-- The codewords of the member that are needed: bit n for codeword n of its 16 (R174). -/
  cws   : Nat
  /-- SVE_CFG as it stood when the read was issued (R184). -/
  wbHighPct : Nat
  retryMax  : Nat
  corrHigh  : Nat
  step  : ReadStep
  /-- What the direct read that failed found, page by page (Table 5-3). -/
  found : List PageResult
  deriving DecidableEq, Repr

/-- A continuous read of a die (R164): the page that it reads next, and its class. -/
structure PageStream where
  next : MediaAddr
  cls  : Cls
  deriving DecidableEq, Repr

/-- One die (chapter 5). -/
structure Die where
  role      : DieRole
  row       : Nat
  op        : DieOp
  /-- Keeper count at which the operation began. -/
  began     : Nat
  erasePrio : Bool
  goodMin   : Nat
  /-- Keeper count of the last answered poll (R177). -/
  answered  : Nat
  /-- The role to return to when an unresponsive die answers again. -/
  was       : DieRole
  /-- The band and word line being programmed, and the band being erased, while `op` says so. -/
  line      : Option (Nat × Nat)
  erasing   : Option Nat
  /-- Block sets still to be rebuilt on this spare, each with its word lines done (R179). -/
  todo      : KV Nat
  /-- Blocks taken in place of bad ones: plane, block set, block (R186). -/
  replaced  : List (Nat × Nat × Nat)
  deriving DecidableEq, Repr

/-- One sieve. -/
structure Sieve where
  lane0 : Bool
  lane1 : Bool
  lost  : Bool
  /-- The test-model copy of this sieve is usable (R53). -/
  testOk : Bool
  /-- It holds a copy of the factory-bad bitmap (R203, Table 6-9 COPIES). -/
  bitmap : Bool
  /-- The media keys in the registers of its encryption engine, by number (R229). -/
  keys   : List Nat
  deriving DecidableEq, Repr

/-- Band states (Table 6-6). -/
inductive BandState where
  | free
  | opened
  | closed
  | relocating
  | erasing
  | retired
  deriving DecidableEq, Repr

/-- What an open band is written with. -/
inductive StripeKind where
  | host
  | copy
  | journal
  | reserve
  /-- A word line of a failed die's block set, rebuilt onto the spare (R179). -/
  | rebuild
  deriving DecidableEq, Repr

/-- One band (R185, R197). -/
structure Band where
  state  : BandState
  erases : Nat
  /-- Sequence number given when the band opened. -/
  seq    : Nat
  kind   : StripeKind
  /-- Member dies of the band's stripes: the sieves, rising (R214). -/
  sieves : List Nat
  /-- Word lines closed. -/
  filled : Nat
  /-- Volumes that the band has held (R221). -/
  held   : List Nat
  /-- Sieves whose erase of the block set has passed, while ERASING. -/
  erased : List Nat
  /-- Keeper count at which each word line closed, and, from 768 × (sieve + 1) on, at which a sieve's member of it was rebuilt (R223). -/
  progAt : KV Nat
  /-- A plane has no good block left for a bad one of this band: it is to be retired (R186). -/
  doomed : Bool
  /-- Erases after use in QLC mode (Table 6-14 WEAR_USED). -/
  wear   : Nat
  deriving DecidableEq, Repr

/-- A map entry (Table 6-4); an unmapped unit has none. -/
inductive MapEntry where
  | media (a : MediaAddr)
  | buffer (slot : Nat)
  | poisoned
  deriving DecidableEq, Repr

/-- A write-buffer slot: one 64 KiB unit held as two copies (R24). -/
structure Slot where
  vol    : Nat
  unit   : Nat
  ctx    : Nat
  data   : List Byte
  /-- The WRITE has been acknowledged. -/
  acked  : Bool
  writer : CmdKey
  /-- The map entry the slot replaced (Table 6-5 OLD). -/
  old    : Option MapEntry
  /-- Where its stripe stands, once assigned. -/
  place  : Option MediaAddr
  /-- Its stripe has closed and its journal entry is made. -/
  closed : Bool
  /-- The reply that acknowledged the WRITE has departed (R239, R244). -/
  departed : Bool
  deriving DecidableEq, Repr

/-- A journal entry (Table 6-5). -/
inductive JEntry where
  | map (vol unit : Nat) (new old : Option MapEntry) (slot : Option Nat)
  /-- A band-state change, with the band's erase count. -/
  | band (band : Nat) (state : BandState) (erases : Nat)
  /-- A tombstone bit of an index is set (R304). -/
  | tomb (index slot : Nat)
  /-- A settling pass has been published: what it linked and removed (R306). -/
  | pass (index : Nat) (linked tombs : List Nat)
  /-- FLUSH_DONE (R208). -/
  | flushDone
  deriving DecidableEq, Repr

/-- A copy being made of one live unit or of a weak one (R200). -/
structure CopyJob where
  vol  : Nat
  unit : Nat
  src  : MediaAddr
  /-- The source has been read. -/
  ready : Bool
  deriving DecidableEq, Repr

/-- A flush manifest entry (R208). -/
structure ManifestUnit where
  vol  : Nat
  unit : Nat
  ctx  : Nat
  withheld : Bool
  deriving DecidableEq, Repr

/-- What a programmed data member holds, as far as it is not the bytes of a logical unit. An item longer than a member stands in
consecutive members, each with its part. -/
inductive Body where
  | data
  /-- Entries of a map segment, by index within the segment (R192). -/
  | segment (entries : KV MapEntry)
  /-- The segment directory: the first member of each segment (R192). -/
  | directory (places : KV MediaAddr)
  | journal (entries : List JEntry)
  | manifest (units : List ManifestUnit)
  | pad
  deriving DecidableEq, Repr

/-- A programmed data member: the fields of its codeword headers (Table 6-2) and its item. -/
structure Member where
  kind : Nat
  vol  : Nat
  unit : Nat
  seq  : Nat
  body : Body
  part : Nat
  deriving DecidableEq, Repr

/-- A word line being programmed (R187): its data members in order. -/
structure WordLine where
  band : Nat
  wl   : Nat
  kind : StripeKind
  /-- What fills its data members: write-buffer slots and copies, each with its place; or the members of a journal stripe or of the map, from the
  first place on; and pads in all others. -/
  slots  : List (MediaAddr × Nat)
  copies : List (MediaAddr × CopyJob)
  items  : List Member
  /-- The sieves whose die has reported its program as passed (R188). -/
  done   : List Nat
  deriving DecidableEq, Repr

/-- A checkpoint under way (R196). -/
structure Checkpoint where
  /-- The dirty segments still to be written. -/
  rest  : List Nat
  /-- The band being written, the segments that it takes now, and their members from the next word line on. -/
  band  : Nat
  segs  : List Nat
  items : List Member
  /-- The directory's members are being written, or stand. -/
  dir   : Bool
  /-- The new directory, its own first member, and what the checkpoint root is to name: the first journal member to replay and the number of its
  first entry. -/
  places : KV MediaAddr
  dirAt  : Option MediaAddr
  head    : Option MediaAddr
  headSeq : Nat
  deriving DecidableEq, Repr

/-- A segment in the map cache (R193). -/
structure Segment where
  num   : Nat
  dirty : Bool
  deriving DecidableEq, Repr

/-- A grown-bad table entry (Table 6-13). -/
structure GrownBad where
  sieve : Nat
  channel : Nat
  position : Nat
  plane : Nat
  block : Nat
  cause : Nat
  when_ : Nat
  deriving DecidableEq, Repr

/-- Health log counters kept across resets (Table 6-14). -/
structure Health where
  hours        : Nat
  unclean      : Nat
  hostWritten  : Nat
  mediaWritten : Nat
  hostRead     : Nat
  factoryBad   : Nat
  /-- The fifteen ERRORS counts, in the order of Table 6-14. -/
  errors       : List Nat
  tillPasses   : Nat
  /-- TEMP: eight groups of 23 bins. -/
  temp         : List (List Nat)
  /-- Highest reading of each group in the running hour, and samples so far. -/
  hourMax      : List Nat
  hourSamples  : Nat
  deriving DecidableEq, Repr

/-- A volume (R225, R226, R248). -/
structure Volume where
  units    : Nat
  protect  : Bool
  appCheck : Bool
  appTag   : Nat
  sessions : Nat
  /-- The number of its media key among those the module has drawn (R227). -/
  key      : Nat
  /-- The key as CONFIGURATION keeps it, wrapped under K (R228, R508). -/
  wrapped  : List Byte
  deriving DecidableEq, Repr

/-- A root set as a bank holds it (R203, R204): its checkpoint root, and the sieve it stands on. -/
structure RootSet where
  seq    : Nat
  sieve  : Nat
  /-- The block set of the root area, and the pages of it. -/
  block  : Nat
  page   : Nat
  pages  : Nat
  checkpoint : Nat
  dir    : Option MediaAddr
  head   : Option MediaAddr
  headSeq : Nat
  /-- What its CONFIGURATION and GROWN_BAD records hold of the media: volumes, exported capacity, TILLING_DAYS and the grown-bad table. -/
  volumes  : KV Volume
  exported : Nat
  tillDays : Nat
  grownBad : List GrownBad
  deriving DecidableEq, Repr

/-- The media and what manages them (chapters 5 to 7). -/
structure Media where
  sieves     : List Sieve
  dies       : KV Die
  wbHighPct  : Nat
  retryMax   : Nat
  corrHigh   : Nat
  readsAround : Nat
  progSuspends : Nat
  eraseSuspends : Nat
  retried    : Nat
  soft       : Nat
  rebuildFailed : Nat
  uncorrectable : Nat
  dieSel     : Nat
  chkMismatch : Nat
  chkRepaired : Nat
  bands      : KV Band
  bandSeq    : Nat
  /-- Page reads given to the sieves, in order of arrival, and the continuous reads, by die (R164, R166). -/
  reads      : List PageReq
  streams    : KV PageStream
  /-- The page state words reported last: the place, and each page's plane and word (R160, Table 5-3). -/
  report     : Option (MediaAddr × List (Nat × Nat))
  /-- Factory-bad blocks, by the bit index of the bitmap (R161, R204). -/
  factoryBad : List Nat
  /-- Block sets of the rows that have fewer than 2,800 (R186). -/
  rowSets    : KV Nat
  /-- Map entries by owner × 2^40 + unit; an unlisted unit is unmapped. -/
  map        : KV MapEntry
  /-- The delta table: the units whose map changes the last start replayed from the journal, until a checkpoint has merged them (R210). -/
  delta      : List Nat
  /-- The map cache, most recently used first (R193), and the segment directory with its own first member (R192). -/
  segments   : List Segment
  directory  : KV MediaAddr
  dirPlace   : Option MediaAddr
  /-- Data bytes of logical units on flash, by place × 65,536 + byte. -/
  flash      : Mem
  /-- The programmed data members, by place (Table 6-2). -/
  members    : KV Member
  slots      : KV Slot
  nextSlot   : Nat
  copies     : List CopyJob
  lines      : List WordLine
  /-- The open journal stripe, newest entry first, and the keeper count of its first entry (R194). -/
  journal    : List JEntry
  journalAt  : Nat
  /-- The checkpoint under way, if one is (R196). -/
  check      : Option Checkpoint
  /-- Entries closed since the last checkpoint, and its keeper count (R196). -/
  journaled  : Nat
  checkpointAt : Nat
  checkpointSeq : Nat
  /-- Sequence number of the next journal entry to become durable, and of the last one in each journal band (R196). -/
  journalSeq : Nat
  journalEnd : KV Nat
  /-- What the newest checkpoint root names: the first journal member to replay, and its first entry's number (Table 6-9). -/
  headPlace  : Option MediaAddr
  headSeq    : Nat
  /-- Sequence number of the newest root set, and the newest set of banks A and B (R203, R204). -/
  rootSeq    : Nat
  bankA      : Option RootSet
  /-- The root sets that stand in some root area, the banks' newest and older ones (R203, R205). -/
  rootsLeft  : List RootSet
  bankB      : Option RootSet
  /-- Bands in the flush reserve (R207). -/
  reserve    : List Nat
  grownBad   : List GrownBad
  factoryRead : Bool
  /-- The margin as shipped (R217, Table 6-14). -/
  shippedMargin : Nat
  health     : Health
  /-- Margin below the spare floor: writes refused (R218). -/
  spareOut   : Bool
  /-- Exported capacity now, in units (R225, R250). -/
  exported   : Nat
  /-- Places the running tilling pass has read, the keeper count it began, and that of its last read. -/
  tilled     : List Nat
  tillStart  : Nat
  tillLast   : Nat
  tillDays   : Nat
  /-- Sieve whose loss is being re-striped (R215). -/
  restriping : List Nat
  /-- A warning flush runs until every acknowledged unit is durable (R528). -/
  flushAll   : Bool
  /-- Units of a flush manifest that did not become durable: volume, unit and the cause to record (R209, R546). -/
  manifest   : List (Nat × Nat × Nat)
  /-- The last shutdown wrote FLUSH_DONE (R208). -/
  flushDone  : Bool
  deferred   : List Deferred
  nextDeferred : Nat
  volumes    : KV Volume
  deriving DecidableEq, Repr

end Sys2Proof.Machine
end

