-- ==== Sys2Proof/Machine/StateWork.lean ====
section
/-!
DEFINITION. Machine/StateWork.lean: what the module holds of predicates and scans, vector indexes and searches, and plots
(chapters 8 to 10).
-/

namespace Sys2Proof.Machine

/-- A predicate term (Table 8-3), as loaded. -/
structure Term where
  op      : Nat
  type_   : Nat
  clauses : Nat
  field   : Nat
  span    : Nat
  plen    : Nat
  flags   : Nat
  a       : Nat
  b       : Nat
  pattern : List Byte
  deriving DecidableEq, Repr

/-- A record layout (Table 8-1). -/
structure Layout where
  kind    : Nat
  flags   : Nat
  align   : Nat
  columns : Nat
  record  : Nat
  widths  : List Nat
  deriving DecidableEq, Repr

/-- A loaded predicate (R259 to R264). -/
structure Pred where
  target  : Nat
  layout  : Layout
  proj    : List (Nat × Nat)
  clauses : Nat
  terms   : List Term
  deriving DecidableEq, Repr

/-- The copies a scan took at its receipt (R264) and how it stands (R270). -/
structure Scan where
  key    : CmdKey
  pred   : Pred
  /-- KiB charged as results awaiting departure, from its receipt; 0 when its context's headroom did not cover them (R270). -/
  kib    : Nat
  /-- The sieves whose predicate engines hold its program (R266). -/
  sieves : List Nat
  paused : Bool
  staged : Nat
  /-- KiB of survivors that plots or the port have drained. -/
  drained : Nat
  deriving DecidableEq, Repr

/-- One slot of an index (Tables 9-1 and 9-6): node record, code-column entry and rerank vector. -/
structure Node where
  live    : Bool
  silt    : Bool
  tomb    : Bool
  removed : Bool
  payload : Nat
  attr    : Nat
  nums    : List Nat
  norm    : Nat
  rscale  : Nat
  code    : List Byte
  rerank  : List Byte
  /-- The neighbour entries of its record: ID and code (Table 9-6). -/
  nbrs    : KV (List Byte)
  deriving DecidableEq, Repr

/-- Index states (Table 9-2). -/
inductive IndexState where
  | empty
  | building
  | ready
  | dormant
  | emptyDormant
  deriving DecidableEq, Repr

/-- A settling pass (R306): the silt entries and tombstones it took, and who started before it. -/
structure Pass where
  linked  : List Nat
  tombs   : List Nat
  /-- Receipt order of the newest command received when it started. -/
  started : Nat
  /-- The silt entries linked and the node records rewritten, once the changed units have been written (R306). -/
  links   : Option (Nat × Nat)
  deriving DecidableEq, Repr

/-- A vector index (Table 9-4 and chapter 9). -/
structure Index where
  owner     : Nat
  state     : IndexState
  distance  : Nat
  subq      : Nat
  codeBits  : Nat
  degree    : Nat
  numeric   : Nat
  vecType   : Nat
  dim       : Nat
  sessions  : Nat
  rerankStore : Bool
  capacity  : Nat
  siltMax   : Nat
  hotMib    : Nat
  numTypes  : List Nat
  beam      : Nat
  width     : Nat
  hopMax    : Nat
  rerank    : Nat
  settlePct : Nat
  units     : Nat
  codebook  : List Byte
  /-- The node records in the hot region (Table 9-1). -/
  hot       : List Nat
  entry     : Nat
  nodes     : KV Node
  siltList  : List Nat
  pass      : Option Pass
  /-- Landing MiB charged to the owner (Table 9-1). -/
  landMib   : Nat
  /-- Tombstone lines that are uncorrectable: first and last slot (R559). -/
  badTombs  : List (Nat × Nat)
  /-- Slots removed, with the receipt order before which searches must reply (R307). -/
  quarantine : List (Nat × Nat)
  /-- The owner has ended: searches received before this receipt order complete, and the index is then DORMANT (R309). -/
  ending    : Option Nat
  /-- The free number of its key, and the key as CONFIGURATION keeps it, wrapped under K (R228, R279). -/
  key       : Nat
  wrapped   : List Byte
  deriving DecidableEq, Repr

/-- Phases of a search (R295). -/
inductive SearchPhase where
  | walk
  | fallback
  /-- The walk and the fallback have ended; the silt sweep goes on (R298). -/
  | sweep
  | rerank
  deriving DecidableEq, Repr

/-- A candidate in a beam or result list. -/
structure Cand where
  id       : Nat
  est      : Nat
  visited  : Bool
  source   : Nat
  dist     : Nat
  deriving DecidableEq, Repr

/-- A search in flight. -/
structure Search where
  key      : CmdKey
  /-- The plot whose search engine runs it (R330). -/
  plot     : Nat
  index    : Nat
  k        : Nat
  beamMax  : Nat
  width    : Nat
  hopMax   : Nat
  rerank   : Nat
  fallbackOff : Bool
  fallbackMax : Nat
  query    : List Byte
  qType    : Nat
  filter   : Option Pred
  interactive : Bool
  arrived  : Nat
  phase    : SearchPhase
  beam     : List Cand
  matches_ : List Cand
  seen     : List Nat
  rounds   : Nat
  awaiting : List Nat
  /-- Segments of the silt sweep still to be measured: number and slots (R298). -/
  sweep    : KV (List Nat)
  /-- Data read from flash and not yet returned over the mesh: record, whether it could be read, and by read-around (R174, R331). -/
  read     : List (Nat × Bool × Bool)
  /-- Data returned and not yet processed by the engine: record, whether it could be read, and the state of its page (R331). -/
  returned : List (Nat × Bool × Bool)
  /-- The walk was cut at the deadline (R299). -/
  cut      : Bool
  /-- Number of the free value that the distance table's scale is. -/
  free     : Nat
  estimate : Nat
  /-- Fallback ran (R300), and whether it skipped unreadable units (R297). -/
  fell     : Bool
  skipped  : Bool
  /-- The sieves whose predicate engines hold its filter while it falls back (R266, R300). -/
  sieves   : List Nat
  deriving DecidableEq, Repr

/-- Why a resident context is blocked (Table 4-8), with its predicted remaining wait in µs; none is unbounded. -/
structure Blocked where
  outside : Bool
  wait    : Option Nat
  deriving DecidableEq, Repr

/-- A context resident on a plot (R130). Numbers from 1,024 on are the settling passes of the indexes (R118, R135); 65,535 is
a context that has ended and leaves at the plot's next boundary. -/
structure Resident where
  ctx      : Nat
  cls      : Cls
  sramKib  : Nat
  sliceUs  : Nat
  /-- Remaining µs of the slice, and whether it is a remainder to run first (R134). -/
  leftUs   : Nat
  remainder : Bool
  /-- µs by which atomic sections overran earlier slices, still to be deducted (R144). -/
  owedUs   : Nat
  /-- Keeper count since which it is runnable. -/
  since    : Nat
  blocked  : Bool
  /-- Marked for swap-out, with the interactive context that caused it (R132, R137, R141). -/
  out      : Option (Option Nat)
  deriving DecidableEq, Repr

/-- A tile resident in a plot's scratchpad (R32): its context, program handle and number, its bytes, its tile-ready flag (R46), and
whether it was written since its last write-back (R35). -/
structure Held where
  ctx      : Nat
  handle   : Nat
  tile     : Nat
  bytes    : Nat
  ready    : Bool
  modified : Bool
  deriving DecidableEq, Repr

/-- A tile instruction or engine step that a plot has issued and that has not ended: its command and sequence, its unit, the tiles
that it reads and writes, and the keeper count of its issue (R34, R375). -/
structure Flight where
  key      : CmdKey
  seq      : Nat
  handle   : Nat
  unit     : Nat
  reads    : List Nat
  writes   : List Nat
  at_      : Nat
  deriving DecidableEq, Repr

/-- A shadow set: the instruction whose first stationary block the shadow registers of an array hold (R318, R320). -/
structure Shadow where
  key      : CmdKey
  seq      : Nat
  pc       : Nat
  deriving DecidableEq, Repr

/-- A hand-on block header and its pairs (Table 10-4). -/
structure HandOn where
  chain : Nat
  from_ : Nat
  block : Nat
  last  : Bool
  peer  : Bool
  step  : Nat
  crc   : Nat
  pairs : List (Nat × Nat)
  deriving DecidableEq, Repr

/-- A swap that runs on a plot (R139). -/
structure Swap where
  ctx    : Nat
  out    : Bool
  /-- The interactive context that caused it (R138). -/
  cause  : Option Nat
  began  : Nat
  /-- For a swap-in, the plot whose image it brings back. -/
  img    : Nat
  deriving DecidableEq, Repr

/-- A context's image in the Landing after a swap-out of a plot, or, not `saved`, a context that no plot has taken up yet. -/
structure Image where
  ctx    : Nat
  plot   : Nat
  /-- Keeper count since which it is runnable there (R132, R141). -/
  since  : Nat
  blocked : Bool
  /-- The interactive context that is charged for the swap-in (R138). -/
  cause  : Option Nat
  saved  : Bool
  /-- The rest of the slice, whether it is a remainder, and what is to be deducted (R134, R144). -/
  leftUs : Nat
  remainder : Bool
  owedUs : Nat
  /-- The tiles that the swap-in brings back (R139). -/
  tiles  : List Held
  deriving DecidableEq, Repr

/-- Roles of a plot (Table 10-11). -/
inductive PlotRole where
  | active
  | spare
  | retired
  | sounding
  deriving DecidableEq, Repr

/-- A physical plot (chapter 10). -/
structure Plot where
  role     : PlotRole
  logical  : Option Nat
  /-- Unclocked under R477. -/
  parked   : Bool
  residents : List Resident
  running  : Option Nat
  /-- Contexts that the placement engine has given the plot and that join at its next boundary (R123, R131). -/
  claims   : List Nat
  swap     : Option Swap
  tiles    : List Held
  /-- What has issued and not ended, oldest first; the tiles it names are pinned (R34). -/
  flights  : List Flight
  window   : List (Option HandOn)
  /-- The shadow set of each array. -/
  shadow   : List (Option Shadow)
  cause    : Nat
  bucket   : Bucket
  /-- Keeper counts of uncorrectable lines and of overflows in the last 24 hours (Table 10-6). -/
  uncorrAt : List Nat
  overflowAt : List Nat
  /-- Keeper count of the last answer of the mover and the mesh port. -/
  moverAt  : Nat
  /-- Marked by RESTORE_SPARE for sounding at the next cold start, and marks used (R549). -/
  marked   : Bool
  restores : Nat
  /-- Logical number still to be taken over after the teardowns (R338). -/
  vacating : Option Nat
  deriving DecidableEq, Repr

/-- The plots and what the PLT block reports. -/
structure Plots where
  list     : KV Plot
  images   : List Image
  /-- The segment that the silt sweep of an index stands at on a plot, by plot × 64 + index (R298). -/
  sweeps   : KV Nat
  sel      : Nat
  sramCorr : Nat
  sramUncorr : Nat
  extended : Bool
  soundMs  : Nat
  soundFailed : Nat
  sounding : Bool
  chainResend : Nat
  chkMismatch : Nat
  stalls   : Nat
  deriving DecidableEq, Repr

end Sys2Proof.Machine
end

