-- ==== Sys2Proof/Machine/StateRun.lean ====
section
/-!
DEFINITION. Machine/StateRun.lean: what the module holds of tile programs and their runs, models and generation streams
(chapters 11 to 14).
-/

namespace Sys2Proof.Machine

/-- A tile declaration (Table 12-6; bytes 5:0 also in Table 13-2). -/
structure TileDecl where
  rows      : Nat
  cols      : Nat
  format    : Nat
  axisCols  : Bool
  span      : Nat
  bf16Scale : Bool
  learned   : Bool
  scaleGrad : Bool
  raw       : Bool
  source    : Nat
  dataOff   : Nat
  dataLen   : Nat
  io        : Nat
  vrow      : Nat
  vcol      : Nat
  modelTile : Nat
  deriving DecidableEq, Repr

/-- A tile's contents: elements in stored order (R31, R344) and scale entries (R349), as bytes. -/
structure Tile where
  elems  : List Byte
  scales : List Byte
  deriving DecidableEq, Repr

/-- One problem of a quadrant descriptor (R378). -/
structure QProblem where
  a   : Nat
  b   : Nat
  out : Nat
  m   : Nat
  n   : Nat
  k   : Nat
  transA : Bool
  transB : Bool
  deriving DecidableEq, Repr

/-- A chain of the image (Table 12-5): member sequences in order, 255 for a peer's. -/
structure Chain where
  members  : List Nat
  external : Bool
  deriving DecidableEq, Repr

/-- A parameter entry (Table 14-1). -/
structure Param where
  w      : Nat
  g      : Nat
  uses   : Nat
  rule   : Nat
  round  : Nat
  scales : Bool
  b1     : Nat
  b2     : Nat
  state  : Nat
  mult   : Nat
  decay  : Nat
  modelTile : Nat
  deriving DecidableEq, Repr

/-- A loaded tile program (R393, R395). -/
structure Program where
  image  : List Byte
  /-- Slot and count of the model it names. -/
  model  : Option Nat
  tiles  : List TileDecl
  qdescs : List (List QProblem)
  chains : List Chain
  params : List Param
  /-- Each sequence: offset of its first instruction, and how many. -/
  seqs   : List (Nat × Nat)
  chainBase : Nat
  /-- Constant and persistent tiles at their homes. -/
  homes  : KV Tile
  /-- Frozen blocks of each parameter entry (R435). -/
  frozen : KV (List Nat)
  kib    : Nat
  deriving DecidableEq, Repr

/-- An open accumulation group (R321): pairs of FP32 sum and compensation. -/
structure Group where
  rows  : Nat
  cols  : Nat
  pairs : List (Nat × Nat)
  /-- Pairs already handed on or merged of the hand-on in progress. -/
  moved : Nat
  deriving DecidableEq, Repr

/-- Why a sequence does not go on. -/
inductive SeqBlock where
  | none
  | tile (t : Nat)
  | token
  | slot
  | handOn
  | peer
  deriving DecidableEq, Repr

/-- An open atomic section (R145): its bound in µs, the keeper count of its first instruction's issue, and the count since which
it waits on outside input. -/
structure Section where
  bound     : Nat
  start     : Option Nat
  blockedAt : Option Nat
  deriving DecidableEq, Repr

/-- One sequence of a run. -/
structure Seq where
  pc    : Nat
  ended : Bool
  block : SeqBlock
  /-- Keeper count since which it waits for a peer (R469). -/
  waitAt : Option Nat
  /-- First instruction of a segment, no late arrival of which has been counted (R45, R47). -/
  fresh : Bool
  section_ : Option Section
  groups : KV Group
  /-- Logical plot the sequence runs on. -/
  plot  : Nat
  deriving DecidableEq, Repr

/-- A run of a tile program (R396). -/
structure Run where
  key    : CmdKey
  ctx    : Nat
  handle : Nat
  seqs   : List Seq
  tokens : KV Nat
  check  : Nat
  skips  : Nat
  nonfinite : Nat
  issued : Nat
  tiles  : KV Tile
  eta    : Nat
  frozen : KV (List Nat)
  /-- Blocks in hand-on slots, and copies the senders keep (R326): chain, receiving member, block. -/
  sent   : List (Nat × Nat × HandOn)
  landed : List (Nat × Nat × HandOn)
  /-- Blocks that were asked for again after a failed check (R326, R340). -/
  again  : List (Nat × Nat × HandOn)
  /-- Chain steps (R325), by chain × 16 + member. -/
  steps  : KV Nat
  late   : Bool
  deriving DecidableEq, Repr

/-- A record of a TRAIN_STEP: extent, unit and ordinal, whether it is kept, and its bytes (R438). -/
structure TrainRec where
  extent : Nat
  unit   : Nat
  ord    : Nat
  kept   : Bool
  body   : List Byte
  deriving DecidableEq, Repr

/-- A TRAIN_STEP in progress (R438 to R442). -/
structure Train where
  key      : CmdKey
  handle   : Nat
  update   : Bool
  maxMicro : Nat
  rows     : Nat
  /-- Records still to be used, in order; the unreadable unit at which they stop, with its cause and the place after it. -/
  recs     : List TrainRec
  stop     : Option (Nat × Nat)
  after    : Option (Nat × Nat)
  /-- Unreadable units skipped, with their causes. -/
  bad      : List (Nat × Nat)
  eta      : Nat
  frozen   : KV (List Nat)
  micro    : Nat
  used     : Nat
  filtered : Nat
  check    : Nat
  skips    : Nat
  nonfinite : Nat
  /-- Sums of the output tiles: pairs by tile. -/
  sums     : KV (List (Nat × Nat))
  kib      : Nat
  deriving DecidableEq, Repr

/-- How a model slot stands (Table 13-3 STATE). -/
inductive ModelState where
  | placing
  | placed
  | unavailable
  | stored
  | empty
  deriving DecidableEq, Repr

/-- A model slot (chapter 13). -/
structure Model where
  state    : ModelState
  image    : List Byte
  units    : Nat
  count    : Nat
  loader   : Nat
  sessions : Nat
  early    : Bool
  /-- Homes and window charged to the loader, in KiB. -/
  homeKib  : Nat
  windowKib : Nat
  windowLayers : Nat
  group    : Nat
  members  : Nat
  placement : Nat
  firstLayer : Nat
  lastLayer : Nat
  shards   : Nat
  /-- The number of the image's media key, and the key wrapped as CONFIGURATION keeps it (R399, R508). -/
  key      : Nat
  wrapped  : List Byte
  /-- The loader has ended: commands received before this receipt order complete, and the model is then unloaded (R406). -/
  ending   : Option Nat
  /-- Streams that closed when the model became unavailable, with their contexts: a command that names one completes
  WEIGHTS_UNAVAILABLE (R63, Table 13-11). -/
  lost     : List (Nat × Nat)
  deriving DecidableEq, Repr

/-- A generation stream (R410). -/
structure Stream where
  ctx    : Nat
  cls    : Cls
  admitted : Bool
  /-- Its GEN_OPEN reply has departed (R129). -/
  opened : Bool
  slot   : Nat
  maxContext : Nat
  prompt : List Nat
  tokens : List Nat
  /-- Position of the last token; none before the first. -/
  pos    : Option Nat
  /-- Replies of the last four positions: position, token, END_KIND. -/
  replies : List (Nat × Nat × Nat)
  ended  : Nat
  stops  : List Nat
  sample : Bool
  temperature : Nat
  topP   : Nat
  topK   : Nat
  seed   : Nat
  kvKib  : Nat
  /-- Keeper count at which the previous token reply left (R152). -/
  lastOut : Nat
  deriving DecidableEq, Repr

/-- A step of a model that has begun and not ended: a generation step of a class, or an embedding, on a slot. It advances the commands of its
keys, runs on the plots of a context, and has still to read the layers from a tile on (R45, R46, R413). -/
structure ModelStep where
  slot  : Nat
  batch : Bool
  keys  : List CmdKey
  ctx   : Nat
  next  : Nat
  deriving DecidableEq, Repr

end Sys2Proof.Machine
end

