-- ==== Sys2Proof/Machine/StateLinks.lean ====
section
/-!
DEFINITION. Machine/StateLinks.lean: what the module holds of its lanes and crossings (chapter 15), of power, thermal
limits and accounting (chapter 16), and of firmware, life cycle and keys (chapter 17).
-/

namespace Sys2Proof.Machine

/-- Lane roles (Table 15-12). -/
inductive LaneRole where
  | active
  | spareUnused
  | spareInUse
  | standby
  | failed
  | channelFault
  | untrained
  deriving DecidableEq, Repr

/-- Lane states (Table 15-12). -/
inductive LaneState where
  | down
  | training
  | up
  deriving DecidableEq, Repr

/-- One lane transceiver (R448). -/
structure Lane where
  role     : LaneRole
  state    : LaneState
  /-- Position served; none for a spare that serves none. -/
  position : Option Nat
  crossing : Option Nat
  peerPos  : Option Nat
  peerSerial : Nat
  peerDomain : Nat
  uncorr   : Nat
  crcFail  : Nat
  restores : Nat
  /-- Training failures running (R450). -/
  fails    : Nat
  /-- Keeper count of the last training attempt (R449). -/
  tried    : Nat
  deriving DecidableEq, Repr

/-- Crossing states (Table 15-14). -/
inductive CrossState where
  | free
  | trained
  | awaiting
  | up
  | down
  deriving DecidableEq, Repr

/-- A sequenced flit kept for resending (R455). -/
structure HeldFlit where
  fseq   : Nat
  cls    : Nat
  body   : List Byte
  sentAt : Nat
  resent : Nat
  deriving DecidableEq, Repr

/-- A flit that waits to be sent: its kind and class, its transfer, and its place in it. -/
structure OutFlit where
  kind   : Nat
  cls    : Nat
  stream : Nat
  last   : Bool
  off    : Nat
  pay    : List Byte
  deriving DecidableEq, Repr

/-- A transfer being received on a crossing. -/
structure Transfer where
  stream : Nat
  cls    : Nat
  bytes  : List Byte
  deriving DecidableEq, Repr

/-- A crossing (R452, R453). -/
structure Crossing where
  state    : CrossState
  serial   : Nat
  enabled  : Bool
  acceptCopy : Bool
  width    : Nat
  standby  : Nat
  peerStep : Nat
  peerCause : Nat
  peerDomain : Nat
  txSeq    : Nat
  rxSeq    : Nat
  unacked  : List HeldFlit
  queue    : List OutFlit
  /-- Credits held, and buffers the peer says it has freed, per class (R457). -/
  credits  : List Nat
  freedSeen : List Nat
  freed    : List Nat
  transfers : List Transfer
  /-- Hand-on slots returned, per chain: count seen (R465). -/
  slotsSeen : KV Nat
  slotsFree : KV Nat
  lastValid : Nat
  lastSent : Nat
  lastEvent : Nat
  /-- A NAK has gone for the FSEQ now expected (R455). -/
  nakked   : Bool
  /-- Sequenced flits sent: the sender goes round the crossing's positions with it (R454). -/
  turn     : Nat
  deriving DecidableEq, Repr

/-- An EXTERNAL chain bound by CHAIN_SETUP (R463). -/
structure Binding where
  ctx     : Nat
  handle  : Nat
  chain   : Nat
  members : List Nat
  /-- The last step of each local member (R325). -/
  steps   : KV Nat
  /-- Slots returned to the sender since CHAIN_SETUP, and blocks that came before a run. -/
  returned : Nat
  early   : List HandOn
  deriving DecidableEq, Repr

/-- A PEER_COPY in progress (R467). -/
structure PeerCopy where
  key    : CmdKey
  crossing : Nat
  /-- Transfer number of the unit now at the peer, and units made durable there. -/
  stream : Nat
  done   : Nat
  deriving DecidableEq, Repr

/-- A unit received for a peer's PEER_COPY: crossing, transfer and write-buffer slot, and the status it is answered with once the slot has
gone. -/
structure Incoming where
  crossing : Nat
  stream : Nat
  slot   : Nat
  status : Nat
  deriving DecidableEq, Repr

/-- The link layer (chapter 15). -/
structure Links where
  lanes     : KV Lane
  crossings : KV Crossing
  laneErrLimit : Nat
  retryLimit : Nat
  domain    : Nat
  laneSel   : Nat
  xSel      : Nat
  resent    : Nat
  downs     : Nat
  lanesFailed : Nat
  bindings  : KV Binding
  copies    : List PeerCopy
  /-- Units received for a peer's PEER_COPY and not yet answered. -/
  incoming  : List Incoming
  /-- Next transfer number. -/
  nextStream : Nat
  /-- Keeper counts of the last THROTTLE sent (R468). -/
  lastThrottle : Nat
  deriving DecidableEq, Repr

/-- What deep idle makes of the module (Table 16-9 STATE). -/
inductive IdleState where
  | running
  | deepIdle
  | waking
  deriving DecidableEq, Repr

/-- A phase hint (R482). -/
structure Hint where
  ctx    : Nat
  kind   : Nat
  starts : Nat
  ends   : Nat
  plots  : Nat
  /-- Clock steps that batch work of other contexts is held down by while the hint lasts (R482). -/
  step   : Nat
  deriving DecidableEq, Repr

/-- Limits the power loop can apply, in the order of Table 16-1. -/
inductive Limit where
  | landing
  | flash
  | batchStep
  | interactiveStep
  | park
  deriving DecidableEq, Repr

/-- Power and temperature (chapter 16). -/
structure Power where
  idle      : IdleState
  capW      : Nat
  inputW    : Nat
  /-- Measured power of plots, Landing, flash, links, ports and control, and conversion, in watts (Table 16-12). -/
  parts     : List Nat
  deepIdleS : Nat
  throttleMs : Nat
  overCap   : Nat
  /-- Limits in force, newest first (R476, R477). -/
  limits    : List Limit
  belowMs   : Nat
  hints     : List Hint
  /-- CAUSE bits last announced (R481). -/
  cause     : Nat
  temps     : List Nat
  warn      : List Nat
  peak      : Nat
  warning   : Bool
  warnGroup : Nat
  limitW    : Nat
  limitAt   : Nat
  coolSince : Option Nat
  idleSince : Nat
  deriving DecidableEq, Repr

/-- An accounting record (Table 16-7), as its 160 bytes with its SEQ. -/
structure AccRecord where
  seq   : Nat
  ctx   : Nat
  bytes : List Byte
  deriving DecidableEq, Repr

/-- What a context's open interval has gathered. -/
structure AccCounts where
  cls      : Nat
  session  : Nat
  macsInt8 : Nat
  macsInt4 : Nat
  macsBf16 : Nat
  landing  : Nat
  reads    : Nat
  programs : Nat
  flits    : Nat
  plotUs   : Nat
  /-- Modelled and attributed energy (R489), in units of 10^-14 J. -/
  model    : Nat
  energy   : Nat
  waitUs   : Nat
  covered  : Nat
  exceeded : Nat
  exempt   : Nat
  thReplies : Nat
  final    : Bool
  /-- Of the running 100 ms window: modelled energy, plot-µs and Landing bytes. -/
  winModel : Nat
  winUs    : Nat
  winLanding : Nat
  deriving DecidableEq, Repr

/-- What an accounting interval has gathered (R492). -/
structure AccInterval where
  start    : Nat
  counts   : KV AccCounts
  /-- Contexts that have ended in the interval, with their numbers. -/
  closed   : List (Nat × AccCounts)
  /-- Work of no context. -/
  nobody   : AccCounts
  /-- Measured energy M, in µJ. -/
  measured : Nat
  /-- FLAGS bits 0, 1 and 3 that have held in some window. -/
  flags    : Nat
  deriving DecidableEq, Repr

/-- Energy accounting (chapter 16). -/
structure Accounting where
  intervalS : Nat
  nextIntervalS : Nat
  segStart  : Nat
  segFirst  : Nat
  cur       : AccInterval
  /-- The interval as last journaled, and the keeper count of that (R495). -/
  journaled : Option AccInterval
  journalAt : Nat
  /-- T and M of the last window, in µJ. -/
  modelled  : Nat
  lastM     : Nat
  drift     : Bool
  calFault  : Bool
  calibrating : Bool
  disagree  : Nat
  above     : Nat
  below     : Nat
  faultAt   : Nat
  calibratedAt : Nat
  calFaults : Nat
  drifts    : Nat
  prices    : List Nat
  standingUj : Nat
  nextSeq   : Nat
  oldest    : Nat
  records   : List AccRecord
  prevHash  : List Byte
  deriving DecidableEq, Repr

/-- Life-cycle states (Table 17-4). -/
inductive LifeState where
  | blank
  | provisioned
  | owned
  | service
  | retired
  deriving DecidableEq, Repr

/-- Firmware slot states (Table 17-12). -/
inductive FwState where
  | empty
  | valid
  | trialPending
  | staging
  deriving DecidableEq, Repr

/-- A firmware slot (Tables 17-2 and 17-12). -/
structure FwSlot where
  state   : FwState
  version : Nat
  svn     : Nat
  keyIndex : Nat
  flags   : Nat
  hdrHash : List Byte
  serial  : Nat
  /-- Bytes staged so far, the announced length, and the session that stages. -/
  staged  : List Byte
  length  : Nat
  session : Nat
  deriving DecidableEq, Repr

/-- Trust and life cycle (chapter 17). -/
structure Security where
  life      : LifeState
  unlocked  : Bool
  /-- The media keys unwrapped in the vault, by number (R229). -/
  vault     : List Nat
  tamperBits : Nat
  tampers   : Nat
  slot0     : FwSlot
  slot1     : FwSlot
  booted    : Nat
  preferred : Nat
  trial     : Bool
  recovery  : Bool
  rollback  : Nat
  revoked   : Nat
  fails     : Nat
  holdoffEnd : Nat
  measure   : List Byte
  transitions : Nat
  wipes     : Nat
  vaultFaults : Nat
  certificate : List Byte
  challenge : Option (List Byte)
  /-- LIFE_CYCLE root record (Table 17-6). -/
  baseSerial : Nat
  mediaSetId : Nat
  ownerGen  : Nat
  verifier  : List Byte
  kekSalt   : List Byte
  mediaTransitions : Nat
  /-- Vault entries: the module keys, and K while it is there (R26, R508, R513). -/
  moduleKeys : Bool
  kek       : List Byte
  /-- Bands still to be erased for a life-cycle transition (R506). -/
  erasing   : Bool
  retiredFuse : Bool
  deriving DecidableEq, Repr

/-- What the parts of a module turn out to be at one start (R28, R161, R334, R177, R557). -/
structure StartEnv where
  /-- Stacks that fail initialisation, one bit each. -/
  stacksDown : Nat
  /-- Physical plots that fail sounding, and its duration in ms. -/
  plotsFail  : List Nat
  soundMs    : Nat
  /-- Dies that fail identification or training. -/
  diesFail   : List Nat
  /-- The self-test output mismatched (R534). -/
  testFail   : Bool
  /-- Layers of the built-in test model whose read from a sieve mismatches: layer and sieve (R53). -/
  testBad    : List (Nat × Nat)
  /-- Firmware slots whose stored image fails its signature or hash, one bit each (R499). -/
  slotsBad   : Nat
  /-- Root sets that do not read back valid, by sequence number (R205). -/
  rootsBad   : List Nat
  /-- Pages of the bands left OPEN that read INDETERMINATE (R211). -/
  openBad    : Nat
  /-- Factory-bad blocks that the marker scan finds: die, plane, block (R161). -/
  factoryBad : List (Nat × Nat × Nat)
  /-- Input voltage in units of 10 mV. -/
  vinCv      : Nat
  deriving DecidableEq, Repr

end Sys2Proof.Machine
end

