-- ==== Sys2Proof/Syntax.lean ====
section
/-!
DEFINITION. Syntax.lean: the commands the module takes, one constructor for each row of spec/opcode_table.json. A row that
runs a received packet command names it by its key (session, context, queue, tag: R83), a tile instruction names the run
and the sequence whose next instruction it is, and a row for an event carries what the event found.
-/

namespace Sys2Proof

open Sys2Proof.Machine

/-- The commands of the module. -/
inductive Instr where
  /-- R88: PACKET_ARRIVAL. -/
  | packetArrival (port : Nat) (header payload : List Byte)
  /-- R101: OPEN_SESSION. -/
  | openSession (k : CmdKey)
  /-- R110: HEARTBEAT. -/
  | heartbeat (port : Nat)
  /-- R2: IDENTIFY. -/
  | identify (k : CmdKey)
  /-- R103: GET_LOG. -/
  | getLog (k : CmdKey)
  /-- R105: SET_EVENT_MASK. -/
  | setEventMask (k : CmdKey)
  /-- R212: SET_TILLING_DAYS. -/
  | setTillingDays (k : CmdKey)
  /-- R492: SET_ACCOUNT_INTERVAL. -/
  | setAccountInterval (k : CmdKey)
  /-- R470: SET_SYMPATHETIC_THROTTLE. -/
  | setSympatheticThrottle (k : CmdKey)
  /-- R104: REG_READ. -/
  | regRead (k : CmdKey)
  /-- R10: LO_READ_LATCH. -/
  | loReadLatch (requester offset : Nat)
  /-- R71: REG_WRITE. -/
  | regWrite (k : CmdKey)
  /-- R117: PRT_PORT_CFG_WRITE. -/
  | prtPortCfgWrite (k : CmdKey)
  /-- R106: PRT_ALERT_CLEAR. -/
  | prtAlertClear (k : CmdKey)
  /-- R66: LND_BUCKET_CFG_WRITE. -/
  | lndBucketCfgWrite (k : CmdKey)
  /-- R72: LND_FERRY_CFG_WRITE. -/
  | lndFerryCfgWrite (k : CmdKey)
  /-- R72: LND_RESERVE_CFG_WRITE. -/
  | lndReserveCfgWrite (k : CmdKey)
  /-- R72: LND_STREAM_CFG_WRITE. -/
  | lndStreamCfgWrite (k : CmdKey)
  /-- R65: LND_ERR_STATUS_CLEAR. -/
  | lndErrStatusClear (k : CmdKey)
  /-- R184: SVE_CFG_WRITE. -/
  | sveCfgWrite (k : CmdKey)
  /-- R183: SVE_DIE_SEL_WRITE. -/
  | sveDieSelWrite (k : CmdKey)
  /-- R341: PLT_SEL_WRITE. -/
  | pltSelWrite (k : CmdKey)
  /-- R342: PLT_OVERFLOW_CLEAR. -/
  | pltOverflowClear (k : CmdKey)
  /-- R473: LNK_SEL_WRITE. -/
  | lnkSelWrite (k : CmdKey)
  /-- R474: PWR_CAP_WRITE. -/
  | pwrCapWrite (k : CmdKey)
  /-- R490: ACC_CTRL_RECAL. -/
  | accCtrlRecal (k : CmdKey)
  /-- R516: SEC_TAMPER_CLEAR. -/
  | secTamperClear (k : CmdKey)
  /-- R502: FW_STAGE. -/
  | fwStage (k : CmdKey)
  /-- R503: FW_COMMIT_TRIAL. -/
  | fwCommitTrial (k : CmdKey)
  /-- R503: FW_COMMIT_CONFIRM. -/
  | fwCommitConfirm (k : CmdKey)
  /-- R503: FW_COMMIT_REVERT. -/
  | fwCommitRevert (k : CmdKey)
  /-- R514: ATTEST_REPORT. -/
  | attestReport (k : CmdKey)
  /-- R497: ATTEST_CERTIFICATE. -/
  | attestCertificate (k : CmdKey)
  /-- R507: ATTEST_CHALLENGE. -/
  | attestChallenge (k : CmdKey)
  /-- R511: ATTEST_UNLOCK. -/
  | attestUnlock (k : CmdKey)
  /-- R505: ATTEST_TRANSITION. -/
  | attestTransition (k : CmdKey)
  /-- R102: CLOSE_SESSION. -/
  | closeSession (k : CmdKey)
  /-- R119: CREATE_CONTEXT. -/
  | createContext (k : CmdKey)
  /-- R122: SET_QUOTA. -/
  | setQuota (k : CmdKey)
  /-- R124: SET_CLASS. -/
  | setClass (k : CmdKey)
  /-- R127: CLOSE_CONTEXT. -/
  | closeContext (k : CmdKey)
  /-- R116: QUEUE_RESET. -/
  | queueReset (k : CmdKey)
  /-- R232: READ. -/
  | read (k : CmdKey)
  /-- R241: WRITE. -/
  | write (k : CmdKey)
  /-- R244: FLUSH. -/
  | flush (k : CmdKey)
  /-- R245: DISCARD. -/
  | discard (k : CmdKey)
  /-- R246: SECURE_DISCARD. -/
  | secureDiscard (k : CmdKey)
  /-- R247: VERIFY. -/
  | verify (k : CmdKey)
  /-- R250: REDUCE_CAPACITY. -/
  | reduceCapacity (k : CmdKey)
  /-- R248: VOLUME_CREATE. -/
  | volumeCreate (k : CmdKey)
  /-- R249: VOLUME_DELETE. -/
  | volumeDelete (k : CmdKey)
  /-- R264: LOAD_PREDICATE. -/
  | loadPredicate (k : CmdKey)
  /-- R269: SCAN. -/
  | scan (k : CmdKey)
  /-- R272: SCAN_EMBED. -/
  | scanEmbed (k : CmdKey)
  /-- R273: SCAN_AGGREGATE. -/
  | scanAggregate (k : CmdKey)
  /-- R270: SCAN_READ_RESUME. -/
  | scanReadResume (k : CmdKey) (drainedKib : Nat)
  /-- R283: INDEX_CREATE_NEW. -/
  | indexCreateNew (k : CmdKey)
  /-- R284: INDEX_CREATE_OPEN. -/
  | indexCreateOpen (k : CmdKey)
  /-- R291: INDEX_BUILD. -/
  | indexBuild (k : CmdKey)
  /-- R302: INSERT. -/
  | insert (k : CmdKey)
  /-- R303: INSERT_HOLD_RELEASE. -/
  | insertHoldRelease (k : CmdKey)
  /-- R304: DELETE. -/
  | delete (k : CmdKey)
  /-- R295: SEARCH. -/
  | search (k : CmdKey)
  /-- R299: SEARCH_DEADLINE. -/
  | searchDeadline (k : CmdKey)
  /-- R305: SETTLE. -/
  | settle (k : CmdKey)
  /-- R305: SETTLING_PASS_START. -/
  | settlingPassStart (index : Nat)
  /-- R306: SETTLING_PUBLISH. -/
  | settlingPublish (index : Nat)
  /-- R310: INDEX_DROP. -/
  | indexDrop (k : CmdKey)
  /-- R402: MODEL_LOAD_IMPORT. -/
  | modelLoadImport (k : CmdKey)
  /-- R403: MODEL_LOAD_PLACE. -/
  | modelLoadPlace (k : CmdKey)
  /-- R402: MODEL_LOAD_QUERY. -/
  | modelLoadQuery (k : CmdKey)
  /-- R403: MODEL_PLACEMENT_END. -/
  | modelPlacementEnd (slot : Nat)
  /-- R405: MODEL_UNLOAD. -/
  | modelUnload (k : CmdKey)
  /-- R417: EMBED. -/
  | embed (k : CmdKey)
  /-- R411: GEN_OPEN. -/
  | genOpen (k : CmdKey)
  /-- R414: GEN_STEP. -/
  | genStep (k : CmdKey)
  /-- R413: GENERATION_STEP. -/
  | generationStep (slot : Nat) (batch : Bool)
  /-- R416: GEN_CLOSE. -/
  | genClose (k : CmdKey)
  /-- R438: TRAIN_STEP. -/
  | trainStep (k : CmdKey)
  /-- R432: SET_STEP. -/
  | setStep (k : CmdKey)
  /-- R443: UPDATE. -/
  | update (k : CmdKey)
  /-- R435: FREEZE_BLOCKS. -/
  | freezeBlocks (k : CmdKey)
  /-- R435: THAW_BLOCKS. -/
  | thawBlocks (k : CmdKey)
  /-- R444: CHECKPOINT_SAVE. -/
  | checkpointSave (k : CmdKey)
  /-- R445: CHECKPOINT_RESTORE. -/
  | checkpointRestore (k : CmdKey)
  /-- R446: CHECKPOINT_EXPORT. -/
  | checkpointExport (k : CmdKey)
  /-- R393: PROGRAM_LOAD. -/
  | programLoad (k : CmdKey)
  /-- R396: PROGRAM_RUN. -/
  | programRun (k : CmdKey)
  /-- R482: PHASE_HINT. -/
  | phaseHint (k : CmdKey)
  /-- R482: PHASE_HINT_EXPIRY. -/
  | phaseHintExpiry (ctx : Nat)
  /-- R461: CROSSING_ENABLE. -/
  | crossingEnable (k : CmdKey)
  /-- R461: CROSSING_DISABLE. -/
  | crossingDisable (k : CmdKey)
  /-- R461: CROSSING_QUERY. -/
  | crossingQuery (k : CmdKey)
  /-- R463: CHAIN_SETUP. -/
  | chainSetup (k : CmdKey)
  /-- R467: PEER_COPY. -/
  | peerCopy (k : CmdKey)
  /-- R462: SET_DOMAIN. -/
  | setDomain (k : CmdKey)
  /-- R69: RETIRE_RANGE. -/
  | retireRange (k : CmdKey)
  /-- R549: RESTORE_SPARE_PLOT. -/
  | restoreSparePlot (k : CmdKey)
  /-- R550: RESTORE_SPARE_LANE. -/
  | restoreSpareLane (k : CmdKey) (loopback retrained : Bool)
  /-- R322: MM. -/
  | mm (k : CmdKey) (seq : Nat)
  /-- R317: MMQ. -/
  | mmq (k : CmdKey) (seq : Nat)
  /-- R322: CLOSE. -/
  | close (k : CmdKey) (seq : Nat)
  /-- R379: ADD. -/
  | add (k : CmdKey) (seq : Nat)
  /-- R379: SUB. -/
  | sub (k : CmdKey) (seq : Nat)
  /-- R379: MUL. -/
  | mul (k : CmdKey) (seq : Nat)
  /-- R379: FMA. -/
  | fma (k : CmdKey) (seq : Nat)
  /-- R379: MIN. -/
  | min (k : CmdKey) (seq : Nat)
  /-- R379: MAX. -/
  | max (k : CmdKey) (seq : Nat)
  /-- R379: LT. -/
  | lt (k : CmdKey) (seq : Nat)
  /-- R379: SELECT. -/
  | select (k : CmdKey) (seq : Nat)
  /-- R379: EXP. -/
  | exp (k : CmdKey) (seq : Nat)
  /-- R379: RECIP. -/
  | recip (k : CmdKey) (seq : Nat)
  /-- R379: RSQRT. -/
  | rsqrt (k : CmdKey) (seq : Nat)
  /-- R379: TANH. -/
  | tanh (k : CmdKey) (seq : Nat)
  /-- R379: SIGMOID. -/
  | sigmoid (k : CmdKey) (seq : Nat)
  /-- R379: GELU. -/
  | gelu (k : CmdKey) (seq : Nat)
  /-- R379: SOFTPLUS. -/
  | softplus (k : CmdKey) (seq : Nat)
  /-- R379: D_TANH. -/
  | dTanh (k : CmdKey) (seq : Nat)
  /-- R379: D_SIGMOID. -/
  | dSigmoid (k : CmdKey) (seq : Nat)
  /-- R379: D_GELU. -/
  | dGelu (k : CmdKey) (seq : Nat)
  /-- R379: D_SOFTPLUS. -/
  | dSoftplus (k : CmdKey) (seq : Nat)
  /-- R379: ROW_SUM. -/
  | rowSum (k : CmdKey) (seq : Nat)
  /-- R379: ROW_MAX. -/
  | rowMax (k : CmdKey) (seq : Nat)
  /-- R379: COL_SUM. -/
  | colSum (k : CmdKey) (seq : Nat)
  /-- R379: COL_MAX. -/
  | colMax (k : CmdKey) (seq : Nat)
  /-- R379: MASK_UPPER. -/
  | maskUpper (k : CmdKey) (seq : Nat)
  /-- R380: CONVERT. -/
  | convert (k : CmdKey) (seq : Nat)
  /-- R381: COPY. -/
  | copy (k : CmdKey) (seq : Nat)
  /-- R381: FILL. -/
  | fill (k : CmdKey) (seq : Nat)
  /-- R382: CHAIN_SEND. -/
  | chainSend (k : CmdKey) (seq : Nat)
  /-- R382: CHAIN_RECV. -/
  | chainRecv (k : CmdKey) (seq : Nat)
  /-- R383: TABLE. -/
  | table (k : CmdKey) (seq : Nat)
  /-- R383: SCORE. -/
  | score (k : CmdKey) (seq : Nat)
  /-- R383: TOPK. -/
  | topk (k : CmdKey) (seq : Nat)
  /-- R384: CHECK_WRITE. -/
  | checkWrite (k : CmdKey) (seq : Nat)
  /-- R384: COMPARE. -/
  | compare (k : CmdKey) (seq : Nat)
  /-- R428: STEP. -/
  | stepRule (k : CmdKey) (seq : Nat)
  /-- R428: SIGN. -/
  | signRule (k : CmdKey) (seq : Nat)
  /-- R428: SIGN_DECAY. -/
  | signDecay (k : CmdKey) (seq : Nat)
  /-- R428: ADAM_BC. -/
  | adamBc (k : CmdKey) (seq : Nat)
  /-- R386: SIGNAL. -/
  | signal (k : CmdKey) (seq : Nat)
  /-- R386: WAIT. -/
  | wait (k : CmdKey) (seq : Nat)
  /-- R388: SECTION_OPEN. -/
  | sectionOpen (k : CmdKey) (seq : Nat)
  /-- R388: SECTION_CLOSE. -/
  | sectionClose (k : CmdKey) (seq : Nat)
  /-- R387: HALT_IF. -/
  | haltIf (k : CmdKey) (seq : Nat)
  /-- R387: END. -/
  | endSeq (k : CmdKey) (seq : Nat)
  /-- R123: TILE_BOUNDARY. -/
  | tileBoundary (plot ranUs : Nat)
  /-- R132: SLICE_END. -/
  | sliceEnd (plot : Nat)
  /-- R139: SWAP_OUT_END. -/
  | swapOutEnd (plot : Nat)
  /-- R139: SWAP_IN_END. -/
  | swapInEnd (plot : Nat)
  /-- R46: TILE_READY. -/
  | tileReady (owner : SchedOwner) (tile : TileAt) (ctx : Nat)
  /-- R48: FERRY_LEAD_SHALLOW. -/
  | ferryLeadShallow (owner : SchedOwner)
  /-- R326: HAND_ON_BLOCK_ARRIVAL. -/
  | handOnBlockArrival (k : CmdKey) (chain member : Nat) (crcOk : Bool)
  /-- R331: SEARCH_DATA_RETURN. -/
  | searchDataReturn (k : CmdKey) (id : Nat) (ok around : Bool)
  /-- R337: PLOT_HANG. -/
  | plotHang (plot : Nat)
  /-- R337: MOVER_TIMEOUT. -/
  | moverTimeout (plot : Nat)
  /-- R338: SPARE_PLOT_TAKEOVER. -/
  | sparePlotTakeover (plot : Nat)
  /-- R56: LINE_CHECK_FAIL. -/
  | lineCheckFail (line : Line) (data : LineRead) (owner : Option Nat) (readers : List CmdKey)
  /-- R56: REFETCH_COMPLETE. -/
  | refetchComplete (line : Line) (res : RefetchEnd)
  /-- R27: VAULT_LINE_FAIL. -/
  | vaultLineFail (kind index : Nat)
  /-- R65: BUCKET_LEAK. -/
  | bucketLeak
  /-- R160: PAGE_READ_COMPLETE. -/
  | pageReadComplete (a : MediaAddr) (cls : Cls) (res : List PageResult)
  /-- R174: READ_AROUND_COMPLETE. -/
  | readAroundComplete (a : MediaAddr) (ok : Bool)
  /-- R201: PROGRAM_COMPLETE. -/
  | programComplete (band wl sieve : Nat) (kind : StripeKind) (failed : Option Nat)
  /-- R202: ERASE_COMPLETE. -/
  | eraseComplete (band sieve : Nat) (failed : Option Nat)
  /-- R168: SUSPEND_RESUME. -/
  | suspendResume (die : Nat)
  /-- R194: JOURNAL_STRIPE_TIMEOUT. -/
  | journalStripeTimeout
  /-- R196: MAP_CHECKPOINT. -/
  | mapCheckpoint
  /-- R199: GARBAGE_COLLECTION. -/
  | garbageCollection
  /-- R243: WRITE_HOLD_RELEASE. -/
  | writeHoldRelease (k : CmdKey)
  /-- R212: TILLING_READ. -/
  | tillingRead (a : MediaAddr) (res : List PageResult)
  /-- R557: SPARE_DIE_CHECK. -/
  | spareDieCheck (die : Nat) (ok : Bool)
  /-- R177: DIE_UNRESPONSIVE. -/
  | dieUnresponsive (die : Nat)
  /-- R177: DIE_FAILED. -/
  | dieFailed (die : Nat)
  /-- R179: DIE_REBUILD_END. -/
  | dieRebuildEnd (die : Nat)
  /-- R157: SIEVE_LANE_FAIL. -/
  | sieveLaneFail (sieve lane : Nat)
  /-- R214: SIEVE_LOST. -/
  | sieveLost (sieve : Nat)
  /-- R215: RESTRIPE_END. -/
  | restripeEnd (sieve : Nat)
  /-- R109: HEARTBEAT_SEND. -/
  | heartbeatSend
  /-- R110: PORT_HEARTBEAT_TIMEOUT. -/
  | portHeartbeatTimeout (port : Nat)
  /-- R110: PORT_LOCK_TIMEOUT. -/
  | portLockTimeout (port : Nat)
  /-- R114: GRACE_EXPIRY. -/
  | graceExpiry (session : Nat)
  /-- R449: LANE_TRAINING_END. -/
  | laneTrainingEnd (position : Nat) (peer : Option (Nat × Nat × Nat))
  /-- R449: LANE_RETRAIN_TIMER. -/
  | laneRetrainTimer
  /-- R450: LANE_FAIL. -/
  | laneFail (lane : Nat) (loopback : Bool)
  /-- R458: CONTROL_FLIT_SEND. -/
  | controlFlitSend (crossing : Nat)
  /-- R458: CROSSING_LOSS_TIMEOUT. -/
  | crossingLossTimeout (crossing : Nat)
  /-- R455: FLIT_RESEND_TIMEOUT. -/
  | flitResendTimeout (crossing : Nat)
  /-- R455: DATA_FLIT_RECEIVE. -/
  | dataFlitReceive (crossing lane : Nat) (flit : List Byte)
  /-- R465: CHAIN_FLIT_RECEIVE. -/
  | chainFlitReceive (crossing lane : Nat) (flit : List Byte)
  /-- R457: CREDIT. -/
  | credit (crossing cls freed : Nat)
  /-- R455: ACK. -/
  | ack (crossing fseq : Nat)
  /-- R455: NAK. -/
  | nak (crossing fseq : Nat)
  /-- R468: THROTTLE. -/
  | throttle (crossing step cause : Nat)
  /-- R465: SLOT_FREE. -/
  | slotFree (crossing chain returned : Nat)
  /-- R466: CHAIN_ABORT. -/
  | chainAbort (crossing chain : Nat)
  /-- R462: DOMAIN. -/
  | domain (crossing domain : Nat)
  /-- R458: DOWN. -/
  | down (crossing : Nat)
  /-- R468: THROTTLE_REPEAT. -/
  | throttleRepeat
  /-- R476: POWER_LOOP_TICK. -/
  | powerLoopTick (inputW vinCv : Nat) (parts : LoopReading)
  /-- R484: THERMAL_SAMPLE. -/
  | thermalSample (temps : List Nat)
  /-- R485: THERMAL_LIMIT_STEP. -/
  | thermalLimitStep
  /-- R483: DEEP_IDLE_ENTRY. -/
  | deepIdleEntry
  /-- R489: ACCOUNTING_WINDOW. -/
  | accountingWindow (measuredUj : Nat)
  /-- R490: RECALIBRATION_START. -/
  | recalibrationStart
  /-- R490: RECALIBRATION_END. -/
  | recalibrationEnd (ok : Bool) (prices : List Nat)
  /-- R492: ACCOUNTING_INTERVAL_END. -/
  | accountingIntervalEnd
  /-- R495: ACCOUNTING_JOURNAL. -/
  | accountingJournal
  /-- R532: POWER_ON. -/
  | powerOn (env : StartEnv)
  /-- R523: HOLDUP_TEST_END. -/
  | holdupTestEnd (energyDj : Nat)
  /-- R504: TRIAL_TIMEOUT. -/
  | trialTimeout (env : StartEnv)
  /-- R545: SUPERVISOR_TIMEOUT. -/
  | supervisorTimeout
  /-- R527: MOD_RESET_N_ASSERT. -/
  | modResetNAssert
  /-- R532: MOD_RESET_N_RELEASE. -/
  | modResetNRelease (env : StartEnv)
  /-- R528: PWR_FAIL_WARN_N_ASSERT. -/
  | pwrFailWarnNAssert
  /-- R527: PWR_FAIL_WARN_N_RELEASE. -/
  | pwrFailWarnNRelease
  /-- R527: WRITE_PROTECT_END. -/
  | writeProtectEnd
  /-- R480: THROTTLE_N_ASSERT. -/
  | throttleNAssert
  /-- R527: THROTTLE_N_RELEASE. -/
  | throttleNRelease
  /-- R512: TAMPER_N_ASSERT. -/
  | tamperNAssert
  /-- R527: TAMPER_N_RELEASE. -/
  | tamperNRelease
  /-- R512: GLITCH_TAMPER. -/
  | glitchTamper (clock : Bool)
  /-- R526: INPUT_CHATTER_START. -/
  | inputChatterStart (input edges : Nat)
  /-- R526: INPUT_CHATTER_END. -/
  | inputChatterEnd (input edges : Nat) (low : Bool)
  /-- R521: INPUT_LOSS. -/
  | inputLoss (vinCv : Nat) (lost : List (Nat × Nat))
  /-- R522: INPUT_RESTORED. -/
  | inputRestored (env : StartEnv)
  /-- R537: SMB_SET_OFFSET. -/
  | smbSetOffset (offset : Nat) (pec : Option Bool)
  /-- R537: SMB_READ. -/
  | smbRead (pec : Option Bool)
  /-- R537: SMB_WRITE. -/
  | smbWrite (value : Nat) (pec : Option Bool)
  /-- R537: SMB_LAST_STATUS. -/
  | smbLastStatus (pec : Option Bool)
  /-- R538: SMB_ALERT_RESPONSE. -/
  | smbAlertResponse
  /-- R83: REPLY_DEPARTURE. -/
  | replyDeparture (id : Nat)
  /-- R109: PORT_LOCK_GAINED. -/
  | portLockGained (port : Nat)
  /-- R73: FRAME_DISCARDED. -/
  | frameDiscarded (port uncorrected corrected : Nat)
  /-- R177: DIE_POLL_ANSWERED. -/
  | diePollAnswered (die : Nat)
  /-- R542: KEEPER_POWER_LOSS. -/
  | keeperPowerLoss
  /-- R36: HOST_PEEK. -/
  | hostPeek (plot line : Nat)
  deriving DecidableEq, Repr

end Sys2Proof
end

