-- ==== Sys2Proof/Machine/Bytes.lean ====
section
/-!
DEFINITION. Machine/Bytes.lean: little-endian fields, sorted tables, sparse bytes, CRC-32C, SHA-256, HMAC and HKDF.
-/

namespace Sys2Proof.Machine

/-- The number that bytes give, least significant first (00 R4, 03 Table 3-1). -/
def leNat : List Byte → Nat
  | [] => 0
  | b :: bs => b.toNat + 256 * leNat bs

/-- The low n bytes of a number, least significant first. -/
def leBytes : Nat → Nat → List Byte
  | 0, _ => []
  | n + 1, v => BitVec.ofNat 8 v :: leBytes n (v / 256)

/-- n bytes of p from offset off; bytes past the end are left out. -/
def slice (p : List Byte) (off n : Nat) : List Byte := (p.drop off).take n

/-- The little-endian field of n bytes at offset off. -/
def fieldAt (p : List Byte) (off n : Nat) : Nat := leNat (slice p off n)

/-- Bits hi:lo of a number. -/
def bits (v hi lo : Nat) : Nat := v / 2 ^ lo % 2 ^ (hi + 1 - lo)

/-- Bit n of a number. -/
def bit (v n : Nat) : Bool := v / 2 ^ n % 2 = 1

/-- 1 for true. -/
def b2n (b : Bool) : Nat := if b then 1 else 0

/-- Do all these bytes read 0? -/
def allZero (p : List Byte) : Bool := p.all (· = 0#8)

/-- n zero bytes. -/
def zeros (n : Nat) : List Byte := List.replicate n 0#8

/-- p, padded with zeros or cut to n bytes. -/
def fit (p : List Byte) (n : Nat) : List Byte := p.take n ++ zeros (n - p.length)

/-- p, padded with zeros to a multiple of n bytes. -/
def padTo (p : List Byte) (n : Nat) : List Byte := p ++ zeros ((n - p.length % n) % n)

/-- v rounded up to a multiple of n. -/
def roundUp (v n : Nat) : Nat := (v + n - 1) / n * n

/-- The quotient rounded up. -/
def ceilDiv (v n : Nat) : Nat := (v + n - 1) / n

/-- p with n bytes at off replaced. -/
def patch (p : List Byte) (off : Nat) (q : List Byte) : List Byte :=
  p.take off ++ q ++ p.drop (off + q.length)

/-- A count that stays at its largest value. -/
def satAdd (width v n : Nat) : Nat := min (2 ^ width - 1) (v + n)

/-- A register image built from fields, each at its low bit. -/
def packFields (fs : List (Nat × Nat)) : Nat := fs.foldl (fun acc f => acc + f.2 * 2 ^ f.1) 0

/-- Bits of a register, bit n from the nth value. -/
def bitSet (l : List Bool) : Nat := (l.zipIdx.map fun b => if b.1 then 2 ^ b.2 else 0).sum

/-- The value of a key of a sorted table. -/
def kvGet {α : Type} (k : Nat) : KV α → Option α
  | [] => none
  | (j, v) :: t => if j = k then some v else kvGet k t

/-- The table with a key set, kept in strictly rising key order. -/
def kvSet {α : Type} (k : Nat) (v : α) : KV α → KV α
  | [] => [(k, v)]
  | (j, w) :: t => if k < j then (k, v) :: (j, w) :: t else if k = j then (k, v) :: t else (j, w) :: kvSet k v t

/-- The table without a key. -/
def kvDel {α : Type} (k : Nat) : KV α → KV α
  | [] => []
  | (j, w) :: t => if j = k then t else (j, w) :: kvDel k t

/-- The lowest number below n that is no key, counting from 0. -/
def kvFree {α : Type} (t : KV α) (n : Nat) : Option Nat := (List.range n).find? fun k => (kvGet k t).isNone

/-- The table with one entry changed, when it has one. -/
def kvMod {α : Type} (k : Nat) (f : α → α) (t : KV α) : KV α :=
  match kvGet k t with
  | none => t
  | some v => kvSet k (f v) t

/-- The keys of a table are strictly rising. -/
def kvSorted {α : Type} : KV α → Bool
  | [] => true
  | [_] => true
  | (a, _) :: (b, y) :: t => decide (a < b) && kvSorted ((b, y) :: t)

/-- The byte at an address; an unlisted address reads 0 (log entry 5). -/
def memGet (m : Mem) (a : Nat) : Byte := (kvGet a m).getD 0#8

/-- The store with one byte written, in canonical form. -/
def memSet (m : Mem) (a : Nat) (b : Byte) : Mem := if b = 0#8 then kvDel a m else kvSet a b m

/-- The canonical form: strictly rising addresses and no zero byte listed. -/
def memWf (m : Mem) : Bool := kvSorted m && m.all fun c => decide (c.2 ≠ 0#8)

/-- n bytes from an address. -/
def memRead (m : Mem) (a n : Nat) : List Byte := (List.range n).map fun i => memGet m (a + i)

/-- The store with bytes written from an address. -/
def memWrite (m : Mem) (a : Nat) : List Byte → Mem
  | [] => m
  | b :: bs => memWrite (memSet m a b) (a + 1) bs

/-- The store with n bytes from an address reading 0. -/
def memClear (m : Mem) (a n : Nat) : Mem := m.filter fun c => !(decide (a ≤ c.1) && decide (c.1 < a + n))

/-- One byte into the CRC-32C register (R75, reflected form of 0x1EDC6F41). -/
def crcByte (c : Nat) (b : Byte) : Nat :=
  (List.range 8).foldl (fun c _ => if c % 2 = 1 then Nat.xor (c / 2) 0x82F63B78 else c / 2) (Nat.xor c b.toNat)

/-- CRC-32C of bytes from an initial register value, inverted at the end. -/
def crcFrom (init : Nat) (p : List Byte) : Nat := Nat.xor (p.foldl crcByte init) 0xFFFFFFFF

/-- CRC-32C (R75). -/
def crc32c (p : List Byte) : Nat := crcFrom 0xFFFFFFFF p

/-- The largest number of fewer than n bits whose k-th power is at most v. -/
def rootFloor (k n v : Nat) : Nat :=
  (List.range n).reverse.foldl (fun r i => if (r + 2 ^ i) ^ k ≤ v then r + 2 ^ i else r) 0

/-- The first 64 primes: the set bits of this number. -/
def shaPrimes : List Nat :=
  (List.range 312).filter fun n =>
    bit 0x8800200A20A08208028228800800A28028208820A00A08800228A20208828828208A20A08A28AC n

/-- The round constants of SHA-256: the first 32 fraction bits of the cube roots of the first 64 primes. -/
def shaK : List Nat := shaPrimes.map fun p => rootFloor 3 35 (p * 2 ^ 96) % 2 ^ 32

/-- The initial hash value of SHA-256: the first 32 fraction bits of the square roots of the first eight primes. -/
def shaInit : List Nat := (shaPrimes.take 8).map fun p => rootFloor 2 35 (p * 2 ^ 64) % 2 ^ 32

/-- A 32-bit rotation to the right. -/
def rotr (v n : Nat) : Nat := v / 2 ^ n + v % 2 ^ n * 2 ^ (32 - n)

/-- The message schedule: the last sixteen words, newest first, stepped on. -/
def shaNextW (w : List Nat) : Nat :=
  let a := w.getD 14 0
  let b := w.getD 1 0
  let s0 := Nat.xor (Nat.xor (rotr a 7) (rotr a 18)) (a / 2 ^ 3)
  let s1 := Nat.xor (Nat.xor (rotr b 17) (rotr b 19)) (b / 2 ^ 10)
  (w.getD 15 0 + s0 + w.getD 6 0 + s1) % 2 ^ 32

/-- One round on the eight working words. -/
def shaRound (h : List Nat) (k w : Nat) : List Nat :=
  match h with
  | [a, b, c, d, e, f, g, i] =>
    let s1 := Nat.xor (Nat.xor (rotr e 6) (rotr e 11)) (rotr e 25)
    let ch := Nat.xor (Nat.land e f) (Nat.land (2 ^ 32 - 1 - e) g)
    let t1 := i + s1 + ch + k + w
    let s0 := Nat.xor (Nat.xor (rotr a 2) (rotr a 13)) (rotr a 22)
    let maj := Nat.xor (Nat.xor (Nat.land a b) (Nat.land a c)) (Nat.land b c)
    [(t1 + s0 + maj) % 2 ^ 32, a, b, c, (d + t1) % 2 ^ 32, e, f, g]
  | _ => h

/-- One 64-byte block. -/
def shaBlock (h : List Nat) (blk : List Byte) : List Nat :=
  let w16 := (List.range 16).map fun i => leNat (slice blk (4 * i) 4).reverse
  let r := shaK.foldl (fun (acc : List Nat × List Nat × Nat) k =>
      let wi := if acc.2.2 < 16 then w16.getD acc.2.2 0 else shaNextW acc.2.1
      (shaRound acc.1 k wi, (wi :: acc.2.1).take 16, acc.2.2 + 1)) (h, [], 0)
  (h.zip r.1).map fun p => (p.1 + p.2) % 2 ^ 32

/-- SHA-256. -/
def sha256 (p : List Byte) : List Byte :=
  let m := p ++ 0x80#8 :: zeros ((119 - p.length % 64) % 64) ++ (leBytes 8 (8 * p.length)).reverse
  let h := (List.range (m.length / 64)).foldl (fun h i => shaBlock h (slice m (64 * i) 64)) shaInit
  h.flatMap fun v => (leBytes 4 v).reverse

/-- HMAC-SHA256. -/
def hmac (key msg : List Byte) : List Byte :=
  let k := fit (if key.length > 64 then sha256 key else key) 64
  let pad := fun (c : Byte) => k.map fun b => b ^^^ c
  sha256 (pad 0x5c#8 ++ sha256 (pad 0x36#8 ++ msg))

/-- HKDF-SHA256 with at most 255 blocks (RFC 5869). -/
def hkdf (ikm salt info : List Byte) (n : Nat) : List Byte :=
  let prk := hmac salt ikm
  let t := (List.range (ceilDiv n 32)).foldl
    (fun (acc : List Byte × List Byte) i =>
      let b := hmac prk (acc.2 ++ info ++ [BitVec.ofNat 8 (i + 1)])
      (acc.1 ++ b, b)) ([], [])
  t.1.take n

/-- The bytes of an ASCII string. -/
def ascii (s : String) : List Byte := s.toList.map fun c => BitVec.ofNat 8 c.toNat

/-- One element changed by position. -/
def setAt {α : Type} (l : List α) (i : Nat) (f : α → α) : List α :=
  l.zipIdx.map fun p => if p.2 = i then f p.1 else p.1

end Sys2Proof.Machine
end

