-- ==== Sys2Proof/Machine/Cipher.lean ====
section
/-!
DEFINITION. Machine/Cipher.lean: AES-256 as far as it encrypts, XTS over a 4 KiB data unit (R227), and AES key wrap (R508).
-/

namespace Sys2Proof.Machine

/-- Bytes added without carry. -/
def xorBytes (a b : List Byte) : List Byte := (a.zip b).map fun p => p.1 ^^^ p.2

/-- A product in the field of AES, by doubling the first factor over the bits of the second. -/
def gfMul (a b : Byte) : Byte :=
  ((List.range 8).foldl (fun (acc : Byte × Byte) i =>
    (if b.getLsbD i then acc.1 ^^^ acc.2 else acc.1, (acc.2 <<< 1) ^^^ (if acc.2.getLsbD 7 then 0x1b#8 else 0#8))) (0#8, a)).1

/-- The substitution of one byte: its inverse in the field, its 254th power, and the affine map. -/
def aesSub (a : Byte) : Byte :=
  let inv := (List.range 253).foldl (fun x _ => gfMul x a) a
  inv ^^^ inv.rotateLeft 1 ^^^ inv.rotateLeft 2 ^^^ inv.rotateLeft 3 ^^^ inv.rotateLeft 4 ^^^ 0x63#8

/-- The 60 words of the schedule of a 32-byte key, four bytes each; grown from the last eight. -/
def aesKeys (key : List Byte) : List (List Byte) :=
  let first := (List.range 8).map fun i => slice key (4 * i) 4
  ((List.range 52).foldl (fun (acc : List (List Byte) × Byte) i =>
    let ws := acc.1
    let last := ws.getLastD []
    let turned := match last with
      | a :: t => (t ++ [a]).map aesSub
      | [] => []
    let mixed :=
      if i % 8 = 0 then xorBytes turned [acc.2, 0#8, 0#8, 0#8]
      else if i % 8 = 4 then last.map aesSub else last
    (ws ++ [xorBytes (ws.getD i []) mixed], if i % 8 = 0 then gfMul acc.2 2#8 else acc.2)) (first, 1#8)).1

/-- Rows shifted: byte r + 4c comes from column c + r. -/
def aesShift (s : List Byte) : List Byte := (List.range 16).map fun i => s.getD (i % 4 + 4 * ((i / 4 + i % 4) % 4)) 0#8

/-- Columns mixed. -/
def aesMix (s : List Byte) : List Byte :=
  (List.range 16).map fun i =>
    let at_ := fun (n : Nat) => s.getD (i / 4 * 4 + (i + n) % 4) 0#8
    gfMul 2#8 (at_ 0) ^^^ gfMul 3#8 (at_ 1) ^^^ at_ 2 ^^^ at_ 3

/-- One 16-byte block under a schedule: fourteen rounds, the last without mixing. -/
def aesBlock (ks : List (List Byte)) (p : List Byte) : List Byte :=
  let rk := fun (r : Nat) => (slice' ks (4 * r)).flatten
  (List.range 14).foldl (fun s r =>
    let t := aesShift (s.map aesSub)
    xorBytes (if r = 13 then t else aesMix t) (rk (r + 1))) (xorBytes p (rk 0))
where
  slice' (l : List (List Byte)) (i : Nat) : List (List Byte) := (l.drop i).take 4

/-- The next tweak: doubled in the field of 2^128, least significant byte first. -/
def xtsNext (t : List Byte) : List Byte :=
  let v := leNat t
  leBytes 16 (if bit v 127 then Nat.xor (v * 2 % 2 ^ 128) 0x87 else v * 2)

/-- One data unit of whole blocks under a 64-byte key: the first half encrypts the data, the second the tweak (R227). -/
def xtsEncrypt (key : List Byte) (unit : Nat) (data : List Byte) : List Byte :=
  let k1 := aesKeys (key.take 32)
  let t0 := aesBlock (aesKeys (key.drop 32)) (leBytes 16 unit)
  ((List.range (data.length / 16)).foldl (fun (acc : List Byte × List Byte) i =>
    (acc.1 ++ xorBytes (aesBlock k1 (xorBytes (slice data (16 * i) 16) acc.2)) acc.2, xtsNext acc.2)) ([], t0)).1

/-- A key of n eight-byte parts wrapped under a 32-byte key: n + 1 parts (R508). -/
def aesWrap (kek key : List Byte) : List Byte :=
  let ks := aesKeys kek
  let n := key.length / 8
  let r := (List.range (6 * n)).foldl (fun (acc : List Byte × List Byte) i =>
    let at_ := 8 * (i % n)
    let b := aesBlock ks (acc.1 ++ slice acc.2 at_ 8)
    (xorBytes (b.take 8) (leBytes 8 (i + 1)).reverse, patch acc.2 at_ (b.drop 8))) (List.replicate 8 0xA6#8, key)
  r.1 ++ r.2

end Sys2Proof.Machine
end

