-- ==== Sys2Proof/Config.lean ====
section
/-!
DEFINITION. Config.lean: what the spec leaves open. Every constant here has no body: nothing can evaluate it, so a proof
holds whatever it is. A constant indexed by a number is applied to State.free, a counter that the step advances.
-/

namespace Sys2Proof

/-- The RESUME_KEY that an OPEN_SESSION issues (R101); the spec does not say how it is drawn. -/
opaque Config.resumeKey : Nat → BitVec 64

/-- A challenge of ATTEST CHALLENGE (R507). -/
opaque Config.challenge : Nat → BitVec 256

/-- MEDIA_SET_ID and KEK_SALT drawn at a take-over of fresh media (R510). -/
opaque Config.mediaSetId : Nat → BitVec 64
opaque Config.kekSalt : Nat → BitVec 256

/-- The device secret in the fuses (Table 17-1). -/
opaque Config.deviceSecret : BitVec 256

/-- SLH-DSA (R497): the verdict on a signature under a vendor key, and the module's own signatures and public keys. -/
opaque Config.vendorVerify : Nat → List Byte → List Byte → Bool
opaque Config.slhSign : List Byte → List Byte → Nat → BitVec 8
opaque Config.slhPublic : List Byte → BitVec 256

/-- The next token of a stream and the end it makes (R413, R415): the model's arithmetic has no stated bit-exact result. -/
opaque Config.token : Nat → Nat

/-- Element codes of an embedding (R401, R417): run, the input's identifiers, and element. -/
opaque Config.embeddingOf : Nat → List Nat → Nat → BitVec 32

/-- Counts of a step of a model's own programs, by step (Table 16-6): the programs' work is not stated. -/
opaque Config.stepWork : Nat → Nat → BitVec 32

/-- Codebook bytes of an index build (R292): k-means gives no stated result. -/
opaque Config.codebook : Nat → Nat → BitVec 8

/-- Graph neighbours that a build or a settling pass chooses (R292, R306). -/
opaque Config.neighbour : Nat → Nat → Nat

/-- The code that stands for an index state in an INDEX_CREATE reply (Table 9-2 gives none). -/
opaque Config.indexStateCode : Nat → BitVec 8

/-- The scale of a distance table as a binary32 value (R288). -/
opaque Config.tableScale : Nat → BitVec 32

/-- The order in which a tie of the placement engine or of media housekeeping is taken. -/
opaque Config.pick : Nat → Nat

/-- A vector-unit function result within the errors of Table 10-5: function code and operand. -/
opaque Config.vecFn : Nat → BitVec 32 → BitVec 32

/-- The random bits of stochastic rounding (R360): whether the neighbour farther from zero is taken. -/
opaque Config.stochastic : Nat → Nat → Bool

/-- A floating scan sum within BOUND (R275), as binary64. -/
opaque Config.scanSum : Nat → BitVec 64

/-- Which zero a minimum or maximum returns when the extreme is a zero (R274). -/
opaque Config.zeroSign : Nat → Bool

/-- The dynamic scale of a span group that holds a NaN, and the zero point beside a scale of 0 (R358). -/
opaque Config.scaleCode : Nat → BitVec 16
opaque Config.zeroPoint : Nat → BitVec 8

/-- The order in which a plot adds interval sums or lanes (R328, R363): free counter, element, position. -/
opaque Config.order : Nat → Nat → Nat → BitVec 16

/-- The value that a forward pass wrote against a learned scale, as binary32 (R366): free counter and element. -/
opaque Config.forward : Nat → Nat → BitVec 32

/-- A derivative operation's result (R379): function code, A and B. -/
opaque Config.vecGrad : Nat → BitVec 32 → BitVec 32 → BitVec 32

/-- A NaN's payload where only a NaN is promised. -/
opaque Config.nan : Nat → BitVec 32

/-- Bytes of an optimiser step whose functions carry an error (R428). -/
opaque Config.adam : Nat → Nat → BitVec 32

/-- The pages of block set 7 of a root area that the factory-bad bitmap and the test model take (R203): the model's length is not stated. -/
opaque Config.areaPages : Nat

/-- Whether the filter that follows a search's exact visited set takes an unvisited node for a visited one (R332). -/
opaque Config.filterSees : Nat → Nat → Bool

/-- The pseudo-channel on which the placement engine begins a tile's home, by its owner's number and the tile (R29). -/
opaque Config.firstPiece : Nat → Nat → Nat

/-- The page of its pseudo-channel in which a piece of a tile's home lies, by its owner's number, the tile and the piece (R29). -/
opaque Config.piecePage : Nat → Nat → Nat → Nat

/-- The page to which a retired Landing page's lines are relocated (R69). -/
opaque Config.newPage : Nat → Nat

/-- µs to flush the oldest 64 MiB of the write buffer at the flash write rate in force (Table 4-8), by stacks in service. -/
opaque Config.flushUs : Nat → Nat

/-- SHA-256 of the CONFIGURATION record that a start loads (R500); the spec does not give the record's bytes. -/
opaque Config.configHash : Nat → BitVec 256

/-- The media key that a VOLUME_CREATE draws, by free counter (R227). -/
opaque Config.volumeKey : Nat → BitVec 512

/-- The 304 parity bytes of a codeword, by its data and header (R159): the spec does not give the LDPC code. -/
opaque Config.ldpc : List Byte → Nat → BitVec 8

/-- Bytes 1 to 15 of the journal entry FLUSH_DONE (R208). -/
opaque Config.flushDone : Nat → BitVec 8

/-- The byte that stands for VOLUME where the owner of a unit is an index, in a codeword header, a journal entry and a flush manifest (Tables 6-2 and 6-5,
R208), by index. -/
opaque Config.ownerByte : Nat → BitVec 8

/-- Bytes of the journal entry of a tombstone bit, by index and slot (R304), and of a published settling pass, by index (R306). -/
opaque Config.tombEntry : Nat → Nat → Nat → BitVec 8
opaque Config.passEntry : Nat → Nat → BitVec 8

/-- Bytes of the silt directory of an index, by the slots in it (R302). -/
opaque Config.siltBytes : List Nat → Nat → BitVec 8

/-- The distance of a query with an element that is no number, or of norm zero under cosine, from a vector (R287): by free counter and slot. -/
opaque Config.openDistance : Nat → Nat → BitVec 32

/-- The sieve that would hold a unit of the write buffer before its stripe is assigned, by slot (R258). -/
opaque Config.bufferSieve : Nat → Nat

/-- The pages that a root set takes, by root set: with the body of CONFIGURATION its length is not stated (R203, R204). -/
opaque Config.rootPages : Nat → Nat

/-- The body of the root record CONFIGURATION, by root set (R204). -/
opaque Config.configBody : Nat → List Byte

/-- Whether a program or model image that has been written to its store on flash reads back with every stream check matching (R182, R393,
R402). -/
opaque Config.storeGood : Nat → Bool

/-- Whether such a mismatch is repaired by read-around (R182). -/
opaque Config.storeRepaired : Nat → Bool

/-- The standing draw modelled from the rails at start-up, in µJ a 100 ms window (Table 16-6). -/
opaque Config.standing : Nat

end Sys2Proof
end

