-- ==== Sys2Proof/Machine/State.lean ====
section
/-!
DEFINITION. Machine/State.lean: the state of the module, its reset, and the ways a step can stop.
-/

namespace Sys2Proof.Machine

/-- The module's whole state. -/
structure State where
  /-- Commands that wait, first in first out. -/
  pending   : List Instr
  part      : Part
  serial    : Nat
  slotAddr  : Nat
  keeper    : Keeper
  ports     : List Port
  alert     : Bool
  sessions  : List Session
  cmds      : List Cmd
  replies   : List Reply
  /-- Next receipt order, reply identity and event-log position. -/
  nextOrder : Nat
  nextReply : Nat
  events    : List EventRec
  /-- Events written since each port's last heartbeat (Table 3-12). -/
  newEvents : Nat
  wire      : List WireOut
  contexts  : KV Ctx
  landing   : Landing
  media     : Media
  preds     : KV Pred
  scans     : List Scan
  indexes   : KV Index
  searches  : List Search
  plots     : Plots
  programs  : KV Program
  runs      : List Run
  trains    : List Train
  models    : KV Model
  streams   : KV Stream
  /-- Steps of models in progress. -/
  steps     : List ModelStep
  links     : Links
  power     : Power
  acct      : Accounting
  sec       : Security
  sympathetic : Bool
  starts    : Nat
  cold      : Bool
  /-- Counter of the free values taken so far: the model's own field. -/
  free      : Nat
  deriving DecidableEq, Repr

/-- Why the module's model stops. -/
inductive Fault where
  /-- A host peek names an exchange-window line that no plot has (R25, R36). Raised by HOST_PEEK only; safe: the model stops
  where no such access exists. -/
  | noSuchLine
  deriving DecidableEq, Repr

/-- Why a command has no meaning here. -/
inductive Refusal where
  /-- The command is not modelled yet. Raised by an arm of exec; safe: the model stops where the module goes on. -/
  | notModelled (mnemonic : String)
  deriving DecidableEq, Repr

/-- A free session number: EVENT_MASK 0 and nothing queued (R101, Table 3-18). -/
def Session.free : Session :=
  ⟨.free, 0, 0, 0, none, 0, 0, [], none, false⟩

/-- A port out of reset: enabled, without lock and not up (Tables 3-24 and 3-26). -/
def Port.reset : Port :=
  ⟨false, false, true, false, 0, 0, none, 0, 0, 0, 0, 0, 0⟩

/-- A bucket at level 0 and armed (R66). -/
def Bucket.reset : Bucket := ⟨0, true, false⟩

/-- An input that reads released. -/
def InPin.released : InPin := ⟨false, false, false, 0⟩

/-- The keeper as it leaves reset at power-on (Table 18-6 step 2, Tables 18-14 to 18-22). -/
def Keeper.reset : Keeper :=
  { count := 0, stage := 1, startFault := 0, moduleGood := false, thermtrip := false, holdupWeak := true,
    modReset := InPin.released, pwrFail := InPin.released, throttle := InPin.released, tamper := InPin.released, cause := 1,
    nextCause := 1, tripped := false, vinMin := 65535, vinCv := 0, holdup := 0, pecRequired := false, fastPlus := false, led := 0,
    writeProtect := false, releasedAt := 0, startAt := 0, supplyOk := true, powered := true, hiLatch := [], losses := 0,
    holdupState := 0, smbPointer := 0, smbStatus := 0, idnAt := 0 }

/-- The Landing after reset (Tables 2-8 to 2-17): no stack in service yet, nothing granted, buckets empty and armed. -/
def Landing.reset : Landing :=
  ⟨0, 0, false, [], 10, 64, 0, List.replicate 6 Bucket.reset, 0, 0, 0, 60, 4, 3, 1, 0, 0, 40, 0, 8, [], [], [], [], []⟩

/-- A sieve that has not been brought up (Tables 5-7 and 5-8). -/
def Sieve.reset : Sieve := ⟨false, false, false, true, true, []⟩

/-- The health counters as shipped. -/
def Health.shipped : Health :=
  ⟨0, 0, 0, 0, 0, 0, List.replicate 15 0, 0, List.replicate 8 (List.replicate 23 0), List.replicate 8 0, 0⟩

/-- Exported units as shipped (R225). -/
def Part.exportedUnits : Part → Nat
  | .kz1280 => 19531250000
  | .kz640 => 9765625000

/-- The margin as shipped (R217). -/
def Part.marginShipped : Part → Nat
  | .kz1280 => 91879
  | .kz640 => 45919

/-- The media after reset, as shipped (chapters 5 to 7). -/
def Media.reset (p : Part) : Media :=
  { sieves := List.replicate 16 Sieve.reset, dies := [], wbHighPct := 75, retryMax := 7, corrHigh := 160, readsAround := 0,
    progSuspends := 0, eraseSuspends := 0, retried := 0, soft := 0, rebuildFailed := 0, uncorrectable := 0, dieSel := 0,
    chkMismatch := 0, chkRepaired := 0, bands := [], bandSeq := 0, reads := [], streams := [], report := none, factoryBad := []
    rowSets := [], map := [], delta := [], segments := [], directory := [], dirPlace := none, flash := [], members := [], slots := []
    nextSlot := 0, copies := [], lines := [], journal := [], journalAt := 0, journaled := 0, checkpointAt := 0,
    check := none, checkpointSeq := 0, journalSeq := 0, journalEnd := [], headPlace := none, headSeq := 0, rootSeq := 0, bankA := none, bankB := none, rootsLeft := []
    reserve := (List.range 32).map fun r => r * 2800 + 8, grownBad := [], factoryRead := false
    shippedMargin := p.marginShipped, health := Health.shipped
    spareOut := false, exported := p.exportedUnits, tilled := [], tillStart := 0, tillLast := 0, tillDays := 7, restriping := []
    flushAll := false, manifest := [], flushDone := true, deferred := [], nextDeferred := 0, volumes := [] }

/-- The plots after reset, as shipped: none listed apart from its default (Tables 10-9 to 10-19). -/
def Plots.reset : Plots :=
  ⟨[], [], [], 0, 0, 0, false, 0, 0, false, 0, 0, 0⟩

/-- The link layer after reset (Tables 15-8 to 15-16). -/
def Links.reset : Links :=
  ⟨[], [], 16, 16, 0, 0, 0, 0, 0, 0, [], [], [], 0, 0⟩

/-- Power and temperature after reset (Tables 16-9 to 16-17). -/
def Power.reset : Power :=
  ⟨.running, 1250, 0, List.replicate 6 0, 30, 0, 0, [], 0, [], 0, List.replicate 8 0,
    [95, 85, 70, 70, 70, 70, 100, 45], 0, false, 0, 1250, 0, none, 0⟩

/-- Empty counts of the work that belongs to no context. -/
def AccCounts.none : AccCounts :=
  ⟨255, 255, 0, 0, 0, 0, 0, 0, 0, 0, 0, 0, 0, 0, 0, 0, 0, false, 0, 0, 0⟩

/-- An interval that begins. -/
def AccInterval.begin (start : Nat) : AccInterval := ⟨start, [], [], AccCounts.none, 0, 0⟩

/-- Accounting after reset, as shipped (Tables 16-18 to 16-21). The prices are those of Table 16-6, in units of 10^-14 J:
INT8, INT4 and BF16 multiply-accumulates, Landing bytes, pages read, pages programmed, flits and plot-µs. -/
def Accounting.reset : Accounting :=
  { intervalS := 60, nextIntervalS := 60, segStart := 0, segFirst := 0, cur := AccInterval.begin 0,
    journaled := Option.none, journalAt := 0, modelled := 0, lastM := 0, drift := false,
    calFault := false, calibrating := false, disagree := 0, above := 0, below := 0, faultAt := 0, calibratedAt := 0,
    calFaults := 0, drifts := 0, prices := [25, 14, 100, 1300, 600000000, 6000000000, 1200000, 20000000],
    standingUj := 0, nextSeq := 0, oldest := 0, records := [], prevHash := List.replicate 32 0 }

/-- An empty firmware slot. -/
def FwSlot.empty : FwSlot := ⟨.empty, 0, 0, 0, 0, List.replicate 32 0, 0, [], 0, 0⟩

/-- Trust and life cycle after reset, in BLANK with a valid image in slot 0 (Tables 17-10 to 17-16). -/
def Security.reset : Security :=
  { life := .blank, unlocked := false, tamperBits := 0, tampers := 0, slot0 := { FwSlot.empty with state := .valid },
    slot1 := FwSlot.empty, booted := 0, preferred := 0, trial := false, recovery := false, rollback := 0, revoked := 0,
    fails := 0, holdoffEnd := 0, measure := List.replicate 32 0, transitions := 0, wipes := 0, vaultFaults := 0,
    certificate := [], challenge := Option.none, baseSerial := 0, mediaSetId := 0, ownerGen := 0,
    verifier := List.replicate 32 0, kekSalt := List.replicate 32 0, mediaTransitions := 0, moduleKeys := false, kek := [], vault := [],
    erasing := false, retiredFuse := false }

/-- The module right after reset: the keeper has just left reset at power-on, the boot ROM stage has begun, and no packet
has been served (Table 18-6 step 2). Values kept across resets are as shipped. -/
def State.reset : State :=
  { pending := [], part := .kz1280, serial := 0, slotAddr := 7, keeper := Keeper.reset,
    ports := [Port.reset, Port.reset], alert := false,
    sessions := [Session.free, Session.free, Session.free, Session.free], cmds := [], replies := [], nextOrder := 0,
    nextReply := 0, events := [], newEvents := 0, wire := [], contexts := [], landing := Landing.reset,
    media := Media.reset .kz1280, preds := [], scans := [], indexes := [], searches := [], plots := Plots.reset,
    programs := [], runs := [], trains := [], models := [], streams := [], steps := [], links := Links.reset, power := Power.reset,
    acct := Accounting.reset, sec := Security.reset, sympathetic := false, starts := 0, cold := true, free := 0 }

end Sys2Proof.Machine
end

