-- ==== Sys2Proof/Machine/Operands.lean ====
section
/-!
DEFINITION. Machine/Operands.lean: the operand forms of the module's commands: the packet header, the opcode table, the
fields of payloads that name volumes, ranges and objects, and the command a key names.
-/

namespace Sys2Proof.Machine

open Sys2Proof

/-- The packet header (Table 3-1). -/
structure Header where
  magic   : Nat
  version : Nat
  opcode  : Nat
  flags   : Nat
  cls     : Nat
  tag     : Nat
  queue   : Nat
  ctx     : Nat
  session : Nat
  payLen  : Nat
  index   : Nat
  total   : Nat
  seq     : Nat
  payCrc  : Nat
  hdrCrc  : Nat
  deriving DecidableEq, Repr

/-- The header's fields, reserved ones ignored (Table 3-1, R76). -/
def decodeHeader (h : List Byte) : Header :=
  let w := fun i => fieldAt h (4 * i) 4
  { magic := bits (w 0) 15 0, version := bits (w 0) 23 16, opcode := bits (w 0) 31 24, flags := bits (w 1) 11 0,
    cls := bits (w 1) 13 12, tag := bits (w 1) 18 14, queue := bits (w 1) 19 19, ctx := bits (w 1) 29 20,
    session := bits (w 1) 31 30, payLen := bits (w 2) 16 0, index := bits (w 2) 31 24, total := bits (w 3) 24 0,
    seq := w 4, payCrc := w 6, hdrCrc := w 7 }

/-- FLAGS bits of Table 3-2. -/
def Header.isReply (h : Header) : Bool := bit h.flags 0
def Header.isAdmin (h : Header) : Bool := bit h.flags 1
def Header.isTrain (h : Header) : Bool := bit h.flags 2

/-- Packets of a payload of n bytes (R77). -/
def trainLen (n : Nat) : Nat := if n ≤ 65536 then 1 else ceilDiv n 65536

/-- PAYLOAD_LEN, TOTAL_LEN, TRAIN and TRAIN_INDEX obey R77. -/
def Header.lenOk (h : Header) (payload : List Byte) : Bool :=
  let n := trainLen h.total
  decide (h.total ≤ 16777216) && decide (h.index < n) && decide (h.payLen = payload.length) &&
    (h.isTrain == decide (n > 1)) && decide (h.payLen = min 65536 (h.total - 65536 * h.index))

/-- What Table 3-4 says of an opcode: its queue, and the classes that may issue it. -/
structure OpInfo where
  admin       : Bool
  data        : Bool
  interactive : Bool
  batch       : Bool
  deriving DecidableEq, Repr

/-- Opcodes that interactive and batch contexts may issue (Table 3-4). -/
def opsBoth : List Nat :=
  [0x20, 0x21, 0x22, 0x23, 0x30, 0x42, 0x43, 0x44, 0x52, 0x53, 0x54, 0x55, 0x70, 0x71, 0x72, 0x81, 0x90]

/-- Opcodes that batch contexts alone may issue (Table 3-4). -/
def opsBatch : List Nat :=
  [0x24, 0x25, 0x26, 0x27, 0x28, 0x31, 0x32, 0x33, 0x40, 0x41, 0x45, 0x46, 0x50, 0x51, 0x60, 0x61, 0x62, 0x63, 0x64, 0x80,
   0x82, 0x83, 0x91]

/-- Admin opcodes that a node may send (Table 3-4; EVENT is the module's own). -/
def opsAdmin : List Nat := [0x00, 0x01, 0x02, 0x03, 0x04, 0x05, 0x06, 0x07, 0x08, 0x09, 0x0B, 0x10, 0x11, 0x12, 0x13, 0x14]

/-- Table 3-4; none for an unassigned opcode and for EVENT. -/
def opInfo (op : Nat) : Option OpInfo :=
  let data := decide (op / 16 = 2) || decide (op / 16 = 9)
  if opsAdmin.contains op then some ⟨true, false, true, true⟩
  else if opsBoth.contains op then some ⟨false, data, true, true⟩
  else if opsBatch.contains op then some ⟨false, data, false, true⟩
  else none

/-- The packet travels on the opcode's queue: ADMIN for an admin opcode, else the context's data or work queue that QUEUE names
(R84, R90). -/
def OpInfo.fits (i : OpInfo) (h : Header) : Bool := (h.isAdmin == i.admin) && (i.admin || (decide (h.queue = 0) == i.data))

/-- The admin commands whose CONTEXT names a target context (R84). -/
def opsTarget : List Nat := [0x11, 0x12, 0x13, 0x14]

/-- The whole payload of a command whose packets are in (R77). -/
def Cmd.payload (c : Cmd) : List Byte := c.parts.flatMap fun p => p.2

/-- CLASS of Table 4-1. -/
def Cls.code : Cls → Nat
  | .interactive => 0
  | .batch => 1
  | .housekeeping => 2

/-- An extent of Table 8-8. -/
structure Extent where
  vol   : Nat
  first : Nat
  units : Nat
  deriving DecidableEq, Repr

/-- The extent at an offset of a payload, and whether its reserved bytes are 0 (Table 8-8). -/
def extentAt (p : List Byte) (off : Nat) : Extent × Bool :=
  (⟨fieldAt p off 1, fieldAt p (off + 3) 5, fieldAt p (off + 8) 5⟩,
    decide (fieldAt p (off + 1) 2 = 0) && decide (fieldAt p (off + 13) 3 = 0))

/-- n extents from an offset. -/
def extentsAt (p : List Byte) (off n : Nat) : List (Extent × Bool) := (List.range n).map fun i => extentAt p (off + 16 * i)

/-- The extents a command names, by opcode: scans, INDEX_BUILD, TRAIN_STEP, MODEL_LOAD import, CHECKPOINT, PEER_COPY. -/
def Cmd.extents (c : Cmd) : List Extent :=
  let p := c.payload
  match c.opcode with
  | 0x31 => (extentsAt p 16 (min 16 (fieldAt p 1 1))).map (·.1)
  | 0x32 => (extentsAt p 16 (min 16 (fieldAt p 1 1))).map (·.1)
  | 0x33 => (extentsAt p 16 (min 16 (fieldAt p 1 1))).map (·.1)
  | 0x41 => (extentsAt p 64 (min 16 (fieldAt p 1 1))).map (·.1)
  | 0x60 => (extentsAt p 32 (min 16 (fieldAt p 3 1))).map (·.1)
  | 0x50 => if fieldAt p 0 1 = 1 then [(extentAt p 16).1] else []
  | 0x64 => if fieldAt p 0 1 = 1 ∨ fieldAt p 0 1 = 2 then [(extentAt p 16).1] else []
  | 0x82 => [(extentAt p 8).1]
  | _ => []

/-- OUTPUT_MAX of a SCAN or SCAN_EMBED (Table 8-8). -/
def outputMaxOk (n : Nat) : Bool := decide (n % 65536 = 0) && decide (2097152 ≤ n) && decide (n ≤ 16711680)

/-- The volumes a received command names (R98, R249). What it names stands in the packet of TRAIN_INDEX 0: without it, it names none. -/
def Cmd.volumes (c : Cmd) : List Nat :=
  let p := c.payload
  if (kvGet 0 c.parts).isNone then [] else
  match c.opcode with
  | 0x20 | 0x21 | 0x23 | 0x24 | 0x25 | 0x27 | 0x28 => [fieldAt p 0 1]
  | 0x22 => if bit (fieldAt p 1 1) 0 then [] else [fieldAt p 0 1]
  | 0x26 => if bit (fieldAt p 1 1) 0 then [fieldAt p 0 1] else []
  | 0x53 => (List.range (fieldAt p 10 1)).map fun i => fieldAt p (64 + 4 * fieldAt p 8 2 + 16 * i) 1
  | _ => c.extents.map (·.vol)

/-- The logical range of a data-queue command: volume, first block and blocks (Table 7-2); whole volumes for the volume
commands. -/
def Cmd.range (c : Cmd) : Option (Nat × Nat × Nat) :=
  let p := c.payload
  match c.opcode with
  | 0x20 | 0x21 | 0x23 | 0x24 | 0x25 => some (fieldAt p 0 1, fieldAt p 4 8, fieldAt p 12 4)
  | 0x27 | 0x28 => some (fieldAt p 0 1, 0, 2 ^ 64)
  | 0x26 => if bit (fieldAt p 1 1) 0 then some (fieldAt p 0 1, 0, 2 ^ 64) else none
  | _ => none

/-- Kinds of object whose work commands keep their order (R97). -/
inductive Object where
  | stream (n : Nat)
  | index (n : Nat)
  | model (slot : Nat)
  | program (handle : Nat)
  | predicate (handle : Nat)
  deriving DecidableEq, Repr

/-- The objects a work-queue command names (R97): stream, index, model, program and its chains. -/
def Cmd.objects (c : Cmd) : List Object :=
  let p := c.payload
  let b := fun i => fieldAt p i 1
  match c.opcode with
  | 0x30 => [.predicate (b 0)]
  | 0x40 => [.index (b 0)]
  | 0x41 | 0x42 | 0x43 | 0x44 | 0x45 | 0x46 => [.index (b 0)]
  | 0x50 => [.model (b 1)]
  | 0x51 => [.model (if fieldAt p 0 4 = 0xFFFFFFFF then b 4 else b 0 % 64)]
  | 0x52 | 0x53 => [.model (b 0 % 64)]
  | 0x54 => [.stream (fieldAt p 0 2)]
  | 0x55 => if p = [] then [] else [.stream (fieldAt p 0 2)]
  | 0x32 => [.model (b 8 % 64)]
  | 0x70 => .program (b 0) :: if fieldAt p 4 4 = 0xFFFFFFFF then [] else [.model (b 4 % 64)]
  | 0x60 | 0x62 | 0x63 | 0x71 | 0x81 => [.program (b 0)]
  | 0x64 => .program (b 1) :: if b 0 = 3 then [.model (b 2)] else []
  | _ => []

/-- Two logical ranges overlap on one volume (R97). -/
def rangesOverlap : Option (Nat × Nat × Nat) → Option (Nat × Nat × Nat) → Bool
  | some (v, f, n), some (w, g, m) => decide (v = w) && decide (f < g + m) && decide (g < f + n)
  | _, _ => false

/-- The command only reads the index or model it names: SCAN_EMBED, SEARCH, EMBED, GEN_OPEN. Two of these show no order, except two
GEN_OPENs: each takes the lowest free stream number. -/
def Cmd.reader (c : Cmd) : Bool := [0x32, 0x44, 0x52, 0x53].contains c.opcode
def Cmd.readers (d c : Cmd) : Bool := d.reader && c.reader && !(decide (d.opcode = 0x53) && decide (c.opcode = 0x53))

/-- The commands that R433 orders with SET_STEP, and whether one of them has still to make the check of R434. -/
def opsStep : List Nat := [0x60, 0x62, 0x63, 0x64, 0x70, 0x71]
def Cmd.unchecked (c : Cmd) : Bool :=
  match c.phase with
  | .received => true
  | .waiting (.pages _) => true
  | .waiting (.segments _) => true
  | _ => false

/-- The order of SET_STEP among the commands of its context (R433). -/
def Cmd.stepBefore (d c : Cmd) : Bool :=
  (decide (d.opcode = 0x61) && (decide (c.opcode = 0x61) || opsStep.contains c.opcode)) ||
    (decide (c.opcode = 0x61) && opsStep.contains d.opcode && d.unchecked)

/-- Must d take effect before c, both being received, when d came first (R97)? -/
def Cmd.before (d c : Cmd) : Bool :=
  match d.key.queue, c.key.queue with
  | .admin, .admin => decide (d.key.session = c.key.session)
  | .data, .data => (decide (d.key.ctx = c.key.ctx) || (decide (d.opcode = 0x24) && decide (c.opcode = 0x21))) && rangesOverlap d.range c.range
  | .work, .work => decide (d.key.ctx = c.key.ctx) && (d.stepBefore c || (!d.readers c && d.objects.any fun o => c.objects.contains o))
  | _, _ => false

/-- Has the command been received, with its reply still to be made? -/
def Cmd.live (c : Cmd) : Bool :=
  match c.phase with
  | .received => true
  | .waiting _ => true
  | _ => false

/-- The outstanding command of a key. -/
def findCmd (k : CmdKey) (s : State) : Option Cmd := s.cmds.find? fun c => decide (c.key = k)

/-- It is the command's turn: no command that must come before it is still live (R97). -/
def isTurn (c : Cmd) (s : State) : Bool :=
  s.cmds.all fun d => !(d.live && decide (d.order < c.order) && d.before c)

end Sys2Proof.Machine
end

