-- ==== Sys2Proof/Machine/Flags.lean ====
section
/-!
DEFINITION. Machine/Flags.lean: completion flags (Table 3-7), what sets them, and the port, session and link conditions
that status bits report.
-/

namespace Sys2Proof.Machine

open Sys2Proof

/-- Keeper counts in a microsecond, a millisecond and a second: a count is 40 ns (R3). -/
def countsUs : Nat := 25
def countsMs : Nat := 25000
def countsS : Nat := 25000000

/-- The keeper count now. -/
def State.now (s : State) : Nat := s.keeper.count

/-- Has this time passed since a count? -/
def State.since (s : State) (t span : Nat) : Bool := decide (t + span ≤ s.now)

/-- The session of a number; a number above 3 is none (R4). -/
def State.session (s : State) (n : Nat) : Session := s.sessions.getD n Session.free

/-- The port of a number. -/
def State.port (s : State) (n : Nat) : Port := s.ports.getD n { Port.reset with enabled := false }

/-- Ports up, bit n for port n. -/
def State.portsUp (s : State) : Nat := b2n (s.port 0).up + 2 * b2n (s.port 1).up

/-- The lowest-numbered port that is up (R105). -/
def State.lowPort (s : State) : Option Nat := if (s.port 0).up then some 0 else if (s.port 1).up then some 1 else none

/-- Sessions held, and open or held, bit n for session n (Table 3-24). -/
def State.heldBits (s : State) : Nat :=
  ((List.range 4).map fun n => if (s.session n).phase = .held then 2 ^ n else 0).sum
def State.openBits (s : State) : Nat :=
  ((List.range 4).map fun n => if (s.session n).phase = .free then 0 else 2 ^ n).sum

/-- The module is throttled: some CAUSE bit is set (R96, R481). -/
def State.throttled (s : State) : Bool := decide (s.power.cause ≠ 0)

/-- A deferred error is pending for a context or one of the volumes a command names (R98). -/
def State.deferredFor (s : State) (ctx : Option Nat) (vols : List Nat) : Bool :=
  s.media.deferred.any fun d => decide (ctx = some d.ctx) || vols.contains d.vol

/-- The context a command belongs to; admin commands have none, whichever context they name as their target: DE of such a reply does not
speak of that context's entries (DESIGN CHOICE, log entry 180). -/
def CmdKey.context (k : CmdKey) : Option Nat := if k.queue = .admin then none else some k.ctx

/-- CFLAGS of a reply (Table 3-7). -/
def State.cflags (s : State) (c : Cmd) (sh : Bool) : Nat :=
  b2n (s.deferredFor c.key.context c.volumes) + 2 * b2n (c.th || s.throttled) + 4 * b2n c.lt + 8 * b2n c.fs +
    16 * b2n sh + 32 * b2n c.ra

/-- Is a context admitted to the promise's treatment: while it has a stream, from its GEN_OPEN reply to its GEN_CLOSE reply, an
admitted search, or a PROGRAM_RUN or EMBED outstanding (R129)? -/
def State.ctxAdmitted (s : State) (ctx : Nat) : Bool :=
  match kvGet ctx s.contexts with
  | none => false
  | some x =>
    decide (x.cls = .interactive) &&
      ((s.streams.any fun st => decide (st.2.ctx = ctx) && st.2.admitted && st.2.opened) ||
        (s.replies.any fun r => decide (r.opcode = 0x55) && decide (r.status = 0) && decide (r.key.context = some ctx)) ||
        s.cmds.any fun c => decide (c.key.context = some ctx) &&
          ((decide (c.opcode = 0x44) && c.admitted) || decide (c.opcode = 0x71) || decide (c.opcode = 0x52)))

/-- The cap in force: the least of CAP_W, the thermal limit and the 600 W of THROTTLE_N (R474, R480, R485). -/
def State.capInForce (s : State) : Nat :=
  min (min s.power.capW s.power.limitW) (if s.keeper.throttle.asserted then 600 else 1250)

/-- The module-wide conditions of the promise hold: cap 700 W or more, THROTTLE_N released, no thermal warning in force and
a port up (Table 4-11). -/
def State.promiseOk (s : State) : Bool :=
  decide (700 ≤ s.capInForce) && !s.keeper.throttle.asserted && !s.power.warning && decide (s.portsUp ≠ 0)

/-- A command outstanding when a module-wide condition fails is exempt for its whole life (R153). -/
def lapsePromise (s : State) : State :=
  if s.promiseOk then s else { s with cmds := s.cmds.map fun c => { c with covered := false } }

/-- Every command outstanding while the module is throttled carries TH, one whose reply has still to depart among them (R83, R96). -/
def markThrottled (s : State) : State :=
  if s.throttled then
    { s with
      cmds := s.cmds.map fun c => { c with th := true }
      replies := s.replies.map fun r => { r with cflags := Nat.lor r.cflags 2 } }
  else s

end Sys2Proof.Machine
end

