-- ==== Sys2Proof/Machine/Ops.lean ====
section
/-!
DEFINITION. Machine/Ops.lean: the named operations over the module's sessions, ports, commands, replies, events and quotas.
Every meaning is written over these.
-/

namespace Sys2Proof.Machine

open Sys2Proof

/-- What a meaning answers. -/
abbrev Out := Host.Outcome State Fault Refusal

/-- The keeper count moves on by one, 40 ns (R3); it is 64 bits wide. -/
def keeperTick (s : State) : State := { s with keeper := { s.keeper with count := (s.keeper.count + 1) % 2 ^ 64 } }

/-- Changes to one part of the state. -/
def modSession (n : Nat) (f : Session → Session) (s : State) : State := { s with sessions := setAt s.sessions n f }
def modPort (n : Nat) (f : Port → Port) (s : State) : State := { s with ports := setAt s.ports n f }
def modCtx (n : Nat) (f : Ctx → Ctx) (s : State) : State := { s with contexts := kvMod n f s.contexts }
def modCmd (k : CmdKey) (f : Cmd → Cmd) (s : State) : State :=
  { s with cmds := s.cmds.map fun c => if c.key = k then f c else c }
def modMedia (f : Media → Media) (s : State) : State := { s with media := f s.media }
def modLanding (f : Landing → Landing) (s : State) : State := { s with landing := f s.landing }
def modPower (f : Power → Power) (s : State) : State := { s with power := f s.power }
def modKeeper (f : Keeper → Keeper) (s : State) : State := { s with keeper := f s.keeper }
def modSec (f : Security → Security) (s : State) : State := { s with sec := f s.sec }
def modLinks (f : Links → Links) (s : State) : State := { s with links := f s.links }
def modAcct (f : Accounting → Accounting) (s : State) : State := { s with acct := f s.acct }
def modPlots (f : Plots → Plots) (s : State) : State := { s with plots := f s.plots }

/-- The number of a fresh free value, and the state with it taken (log entry 6). -/
def takeFree (s : State) : Nat × State := (s.free, { s with free := s.free + 1 })

/- Accounting (R488) -/

/-- Empty counts of a context (Table 16-7). -/
def AccCounts.start (cls session : Nat) : AccCounts := { AccCounts.none with cls := cls, session := session }

/-- The eight priced counts, in the order of Table 16-6. -/
def AccCounts.priced (a : AccCounts) : List Nat :=
  [a.macsInt8, a.macsInt4, a.macsBf16, a.landing, a.reads, a.programs, a.flits, a.plotUs]

/-- Counts changed, with the modelled energy of what was added (Table 16-6). -/
def AccCounts.charge (prices : List Nat) (f : AccCounts → AccCounts) (a : AccCounts) : AccCounts :=
  let b := f a
  let added := (prices.zip (b.priced.zip a.priced)).map fun p => p.1 * (p.2.1 - p.2.2)
  { b with winModel := b.winModel + added.sum, winUs := b.winUs + (b.plotUs - a.plotUs), winLanding := b.winLanding + (b.landing - a.landing) }

/-- The interval now gathered, changed. -/
def modInterval (f : AccInterval → AccInterval) (s : State) : State := modAcct (fun a => { a with cur := f a.cur }) s

/-- The counts of a context in the running interval. -/
def State.countsOf (s : State) (n : Nat) : AccCounts :=
  (kvGet n s.acct.cur.counts).getD (match kvGet n s.contexts with
    | none => AccCounts.none
    | some x => AccCounts.start x.cls.code x.session)

/-- The context that pays for a resident's work: a settling pass counts for the owner of its index (R305). -/
def State.payer (s : State) (n : Nat) : Nat := if n < 1024 then n else ((kvGet (n - 1024) s.indexes).map (·.owner)).getD n

/-- An activity count is charged to a context, or to none (R488). -/
def account (ctx : Option Nat) (f : AccCounts → AccCounts) (s : State) : State :=
  let g := AccCounts.charge s.acct.prices f
  match ctx.bind fun n => (kvGet (s.payer n) s.contexts).map fun _ => s.payer n with
  | none => modInterval (fun i => { i with nobody := g i.nobody }) s
  | some n => modInterval (fun i => { i with counts := kvSet n (g (s.countsOf n)) i.counts }) s

/- Packets -/

/-- A header with its checks (Table 3-1, R75, R76). -/
def mkHeader (opcode flags cls tag queue ctx session index total seq status cflags : Nat) (payload : List Byte) : List Byte :=
  let w0 := 0xD2E1 + 0x10000 + opcode * 2 ^ 24
  let w1 := flags + cls * 2 ^ 12 + tag * 2 ^ 14 + queue * 2 ^ 19 + ctx * 2 ^ 20 + session * 2 ^ 30
  let w2 := payload.length + index * 2 ^ 24
  let crc := if payload = [] then 0 else crc32c payload
  let h := [w0, w1, w2, total, seq, status + cflags * 2 ^ 16, crc].flatMap (leBytes 4)
  h ++ leBytes 4 (crc32c h)

/-- A packet leaves on a port. -/
def emit (port : Nat) (header payload : List Byte) (s : State) : State := { s with wire := .packet port header payload :: s.wire }

/-- CFLAGS as a reply leaves: DE as it stands now (R98), the rest as the reply was made and as throttling has added since. -/
def State.flagsOf (s : State) (r : Reply) : Nat := b2n (s.deferredFor r.key.context r.vols) + r.cflags / 2 * 2

/-- The next packet of a reply, in TRAIN_INDEX order (R77, R80, R91). -/
def emitReply (r : Reply) (port : Nat) (s : State) : State :=
  let flags := 1 + 2 * b2n (decide (r.key.queue = .admin)) + 4 * b2n (decide (trainLen r.payload.length > 1)) + 8 * b2n r.held
  let body := slice r.payload (65536 * r.sent) 65536
  emit port (mkHeader r.opcode flags r.cls r.key.tag r.hdrQueue r.hdrCtx r.key.session r.sent r.payload.length r.seq r.status
    (s.flagsOf r) body) body s

/- Events (R105 to R108) -/

/-- The twelve ARGS bytes from fields, each at its byte of the record (Table 3-19). -/
def evArgs (fs : List (Nat × Nat × Nat)) : List Byte :=
  fs.foldl (fun a f => patch a (f.1 - 20) (leBytes f.2.1 f.2.2)) (zeros 12)

/-- An event record's 32 bytes (Table 3-19). -/
def EventRec.bytes (e : EventRec) : List Byte :=
  leBytes 2 e.code ++ leBytes 1 e.severity ++ leBytes 1 e.kind ++ leBytes 4 e.source ++ leBytes 8 e.when_ ++
    leBytes 2 e.ctx ++ zeros 2 ++ e.args

/-- An event goes to the log once: the latest 1,024 records (Table 3-9), PRT_ALERT.PENDING set (R106). -/
def logEvent (e : EventRec) (s : State) : State :=
  { s with events := (s.events ++ [e]).drop (s.events.length + 1 - 1024), newEvents := s.newEvents + 1, alert := true }

/-- An EVENT packet goes out on the lowest-numbered port that is up, with the session's next event number (R82, R105). -/
def sendEvent (n : Nat) (e : EventRec) (s : State) : State :=
  match s.lowPort with
  | none => s
  | some p =>
    let num := (s.session n).eventNo + 1
    let ctx := if e.ctx = 0xFFFF then 0 else e.ctx
    emit p (mkHeader 0x0A 2 0 0 0 ctx n 0 32 (num % 2 ^ 32) 0 0 e.bytes) e.bytes
      (modSession n (fun x => { x with eventNo := num }) s)

/-- The act follows the reply that opened or resumed the session. -/
def Act.opensSession (n : Nat) : Act → Bool
  | .afterOpen m _ => decide (m = n)
  | _ => false

/-- An OPEN_SESSION reply of the session has still to depart, or replies held for it: its events come after them (R113). -/
def State.opening (s : State) (n : Nat) : Bool := s.replies.any fun r => r.acts.any (Act.opensSession n) || (r.held && decide (r.key.session = n))

/-- A held session queues the event: 256 places, the oldest dropped and counted when full (R107). An event that comes after the resume, while
the OPEN_SESSION reply or a held reply has still to depart, goes into the same places under the same rule (DESIGN CHOICE, log entry 179). -/
def queueEvent (e : EventRec) (x : Session) : Session :=
  if x.queued.length < 256 then { x with queued := x.queued ++ [e] }
  else { x with queued := x.queued.drop 1 ++ [e], dropped := some (satAdd 32 (x.dropped.getD 0) 1) }

/-- Delivery of an event to one session, unless its EVENT_MASK suppresses the event's group (R105, Table 3-18). -/
def deliver (e : EventRec) (s : State) (n : Nat) : State :=
  let x := s.session n
  if bit x.mask (e.code / 256) then s
  else match x.phase with
    | .free => s
    | .held => modSession n (queueEvent e) s
    | .opened => if s.opening n then modSession n (queueEvent e) s else sendEvent n e s

/-- The sessions an event goes to: the owner of its context, or all (R105). -/
def eventSessions (ctx : Nat) (s : State) : List Nat :=
  if ctx = 0xFFFF then [0, 1, 2, 3]
  else match kvGet ctx s.contexts with
    | none => []
    | some x => [x.session]

/-- An event is raised: logged once and delivered (R105). -/
def raise (code sev kind source ctx : Nat) (args : List Byte) (s : State) : State :=
  let e : EventRec := ⟨code, sev, kind, source, s.now, ctx, args⟩
  (eventSessions ctx s).foldl (deliver e) (logEvent e s)

/- Quotas (R37 to R44) -/

/-- Landing pages that stacks not down have lost to retirement, those being retired among them (R68, R69). Pages are numbered
in order of stack. -/
def State.retiredUp (s : State) : Nat :=
  ((s.landing.retired ++ s.landing.retiring.flatMap fun r => r.pages).eraseDups.filter fun p => !bit s.landing.stacksDown (p / 32768)).length

/-- The quota pool in MiB: 346 GiB less the stacks down and the pages retired on the others (Tables 2-1 and 2-9, R28). -/
def State.poolMib (s : State) : Nat :=
  let down := ((List.range 6).filter fun i => bit s.landing.stacksDown i).length
  354304 - 65536 * down - 2 * s.retiredUp

/-- The Landing quotas that a SET_QUOTA has given a context and whose reply has still to depart (R122). -/
def State.quotasDue (s : State) (n : Nat) : List Nat :=
  s.replies.flatMap fun r => r.acts.filterMap fun a => match a with
    | .landingQuota m mib => if m = n then some mib else none
    | _ => none

/-- The Landing quota that a context is granted in the pool: the one in force, or a greater one that is due (R38, R122). -/
def State.grantOf (s : State) (n : Nat) (x : Ctx) : Nat := (s.quotasDue n).foldl max x.landingMib

/-- Granted Landing quotas, in MiB. -/
def State.grantedMib (s : State) : Nat := (s.contexts.map fun c => s.grantOf c.1 c.2).sum

/-- KiB in staging of bytes received, rounded up to 4 KiB (Table 2-2). -/
def kib4 (bytes : Nat) : Nat := 4 * ceilDiv bytes 4096

/-- KiB of a reply held or awaiting departure: its bytes with the packet headers (Tables 2-2 and 3-23). -/
def replyKib (payload : List Byte) : Nat := kib4 (payload.length + 32 * trainLen payload.length)

/-- Plots that a context holds: those it is resident on (R42). -/
def State.plotsHeld (s : State) (ctx : Nat) : Nat :=
  (s.plots.list.filter fun p => p.2.residents.any fun r => decide (r.ctx = ctx)).length

/-- Charges other than the swap allowance against a context's Landing quota, in KiB (Table 2-2). A rejection to another session that named
the context is none of its. -/
def State.chargedKib (s : State) (ctx : Nat) : Nat :=
  (s.cmds.map fun c => if c.key.context = some ctx then c.stagedKib else 0).sum +
  (s.replies.map fun r => if r.key.context = some ctx ∧ (kvGet ctx s.contexts).any (fun x => decide (x.session = r.key.session))
    then r.kib else 0).sum +
  (s.programs.map fun p => if p.1 / 16 = ctx then p.2.kib else 0).sum +
  (s.streams.map fun t => if t.2.ctx = ctx then t.2.kvKib else 0).sum +
  (s.models.map fun m => if (m.2.state = .placing ∨ m.2.state = .placed ∨ m.2.state = .unavailable) ∧ m.2.loader = ctx
    then m.2.homeKib + m.2.windowKib else 0).sum +
  (s.indexes.map fun x => if x.2.owner = ctx then 1024 * x.2.landMib else 0).sum +
  (s.scans.map fun q => if q.key.context = some ctx then q.kib else 0).sum +
  (s.trains.map fun q => if q.key.context = some ctx then q.kib else 0).sum

/-- Landing headroom in KiB: the quota less the charges other than the swap allowance (R42). -/
def State.headroomKib (s : State) (ctx : Nat) : Nat :=
  match kvGet ctx s.contexts with
  | none => 0
  | some x => 1024 * x.landingMib - s.chargedKib ctx

/-- An allocation fits: within the headroom, with 256 KiB left over for a batch context (R43). -/
def State.fits (s : State) (ctx kib : Nat) : Bool :=
  match kvGet ctx s.contexts with
  | none => false
  | some x =>
    decide (s.chargedKib ctx + kib + (if x.cls = .batch then 256 else 0) ≤ 1024 * x.landingMib)

/-- What a command itself stages, left out: its payload, a scan's results and a training step's (Table 2-2). -/
def withoutOwn (k : CmdKey) (s : State) : State :=
  { s with
    cmds := s.cmds.map fun c => if c.key = k then { c with stagedKib := 0 } else c
    scans := s.scans.filter fun q => decide (q.key ≠ k)
    trains := s.trains.filter fun q => decide (q.key ≠ k) }

/-- A command's results may be staged: they fit, what the command itself has staged left out of account, or their completion must be
held, which is not produced until it fits (R43, R44). -/
def State.resultsFit (s : State) (c : Cmd) (kib : Nat) : Bool :=
  decide ((s.session c.key.session).phase = .held) || (withoutOwn c.key s).fits c.key.ctx kib

/- Replies (R91 to R97) -/

/-- What a reply is charged until it departs (Table 2-2): an admin reply belongs to no context; a reply without payload is staged
only when it is held (R14). -/
def waitKib (q : QueueKind) (held : Bool) (payload : List Byte) (kib : Nat) : Nat :=
  if q = .admin then 0 else if held ∨ payload ≠ [] then max kib (replyKib payload) else kib

/-- A reply is produced for a command: its payload leaves staging, its flags are taken, and it waits to depart (R91, R96).
`kib` is what more than its bytes it is charged while it waits. -/
def putReply (c : Cmd) (status : Nat) (sh : Bool) (payload : List Byte) (kib : Nat) (acts : List Act) (s : State) : State :=
  let held := decide ((s.session c.key.session).phase = .held) && decide (c.opcode ≠ 0)
  let r : Reply :=
    { id := s.nextReply, key := c.key, opcode := c.opcode, cls := c.cls, hdrCtx := c.hdrCtx, hdrQueue := c.hdrQueue,
      seq := c.seq, status := status, cflags := s.cflags c sh, payload := payload, port := c.port, reject := false,
      held := held, kib := waitKib c.key.queue held payload kib, acts := acts, vols := c.volumes, sent := 0, on := none }
  modCmd c.key (fun c => { c with phase := .replied, parts := [], stagedKib := 0 })
    { s with
      replies := s.replies ++ [r]
      nextReply := s.nextReply + 1
      landing := { s.landing with faults := s.landing.faults.map fun f => { f with readers := f.readers.filter fun k => decide (k ≠ c.key) } }
      scans := s.scans.filter fun q => decide (q.key ≠ c.key)
      trains := s.trains.filter fun q => decide (q.key ≠ c.key) }

/-- The key of the command a header names (R83). -/
def Header.key (h : Header) : CmdKey :=
  ⟨h.session, if h.isAdmin then 0 else h.ctx, if h.isAdmin then .admin else if h.queue = 0 then .data else .work, h.tag⟩

/-- A command whose first packet is at hand. -/
def Header.newCmd (h : Header) (port : Nat) (s : State) : Cmd :=
  { key := h.key, opcode := h.opcode, cls := h.cls, hdrCtx := h.ctx, hdrQueue := h.queue, port := port,
    totalLen := h.total, parts := [], seen := [], seq := h.seq, phase := .arriving, order := 0, arrived := s.now, stagedKib := 0,
    th := s.throttled, lt := false, fs := false, ra := false, admitted := decide (h.cls = 0) && !h.isAdmin,
    covered := decide (h.cls = 0) && !h.isAdmin && s.promiseOk, pagesIn := [], segsIn := [], tally := 0, covers := [], ids := [], lost := [] }

/-- The volumes that a packet names: those of its command's first fields, which the packet of TRAIN_INDEX 0 carries (R98). -/
def Header.volumes (h : Header) (payload : List Byte) (s : State) : List Nat :=
  if h.isAdmin ∨ h.index ≠ 0 then [] else ({ h.newCmd 0 s with parts := [(0, payload)] } : Cmd).volumes

/-- The reply to a packet that fails a check (R88): it mirrors the header, carries the packet's SEQUENCE (R82) and frees no
tag. It is held like any other while its session is held, one to an OPEN_SESSION apart (R112 to R114, Table 3-3). A first packet that is
rejected makes no command: its tag is not held until the reply departs, and a later packet of its train begins a new command (DESIGN
CHOICE, log entry 181). -/
def rejectPacket (h : Header) (port status : Nat) (payload : List Byte) (s : State) : State :=
  let held := decide ((s.session h.session).phase = .held) && decide (h.opcode ≠ 0)
  let r : Reply :=
    { id := s.nextReply, key := h.key, opcode := h.opcode, cls := h.cls, hdrCtx := h.ctx, hdrQueue := h.queue, seq := h.seq,
      status := status, cflags := 2 * b2n s.throttled, payload := [], port := port, reject := true, held := held,
      kib := waitKib h.key.queue held [] 0, acts := [], vols := h.volumes payload s, sent := 0, on := none }
  { s with replies := s.replies ++ [r], nextReply := s.nextReply + 1 }

/-- The completion of a live command. One that must be held and does not fit the context's quota is not produced yet
(R44). -/
def complete (c : Cmd) (status : Nat) (sh : Bool) (payload : List Byte) (kib : Nat) (acts : List Act) (s : State) : State :=
  match c.key.context with
  | none => putReply c status sh payload kib acts s
  | some x =>
    if (s.session c.key.session).phase = .held ∧ !(withoutOwn c.key s).fits x (waitKib c.key.queue true payload kib) then
      modCmd c.key (fun c => { c with phase := .waiting (.quota status sh payload kib acts), stagedKib := 0 }) s
    else putReply c status sh payload kib acts s

/-- A completion with a status and a payload, charged its bytes alone. -/
def reply (c : Cmd) (status : Nat) (payload : List Byte) (s : State) : State := complete c status false payload 0 [] s

/-- A completion with a status and no payload. -/
def fail (c : Cmd) (status : Nat) (s : State) : State := reply c status [] s

/-- Status codes (Table 3-6). -/
def stOk : Nat := 0x0000
def stOkShort : Nat := 0x0001
def stBadHeader : Nat := 0x0101
def stUnknownOpcode : Nat := 0x0102
def stInvalid : Nat := 0x0103
def stTagInUse : Nat := 0x0104
def stQueueFull : Nat := 0x0105
def stBadPayload : Nat := 0x0106
def stQuota : Nat := 0x0201
def stContextClosed : Nat := 0x0202
def stAborted : Nat := 0x0203
def stTransferLost : Nat := 0x0204
def stClassNotAdmitted : Nat := 0x0205
def stMediaUncorrectable : Nat := 0x0301
def stSpareExhausted : Nat := 0x0302
def stWriteProtected : Nat := 0x0303
def stEndToEnd : Nat := 0x0304
def stMemoryUncorrectable : Nat := 0x0401
def stStepStale : Nat := 0x0402
def stFrozen : Nat := 0x0403
def stBoundOverrun : Nat := 0x0404
def stPlotRetired : Nat := 0x0405
def stWeightsUnavailable : Nat := 0x0406
def stChainBroken : Nat := 0x0501
def stPeerUnreachable : Nat := 0x0502
def stSignature : Nat := 0x0601
def stLifecycle : Nat := 0x0602

/- Which commands are served (R501, R534, Table 17-4) -/

/-- The commands of R501 that are packets with a reply. -/
def opsR501 : List Nat := [0x00, 0x0B, 0x01, 0x02, 0x05, 0x07, 0x08]

/-- Is the opcode served now? Recovery mode and a halted start serve the commands of R501 (and GET_LOG after a halt); each
life-cycle state serves those of Table 17-4. FW_STAGE and FW_COMMIT are refused in RETIRED (R503). -/
def State.serves (s : State) (op : Nat) : Bool :=
  if s.keeper.stage = 8 then
    opsR501.contains op || (decide (op = 0x03) && decide (s.keeper.startFault ≠ 1))
  else match s.sec.life with
    | .owned => true
    | .blank => opsR501.contains op || [0x03, 0x09].contains op
    | .provisioned => opsR501.contains op || [0x03, 0x09].contains op
    | .service => opsR501.contains op || [0x03, 0x09, 0x06].contains op
    | .retired => [0x00, 0x0B, 0x01, 0x02, 0x05, 0x03, 0x09].contains op

/-- Life-cycle codes (Table 17-4). -/
def LifeState.code : LifeState → Nat
  | .blank => 0
  | .provisioned => 1
  | .owned => 2
  | .service => 3
  | .retired => 4

/-- Media keys are in place: the commands that need them are not held back (R228, R281, R512). -/
def State.keysPresent (s : State) : Bool := decide (s.sec.life = .owned) && s.sec.unlocked

/-- The control complex serves packets: MODULE_GOOD released, or recovery mode or a halted start (R533, R534). -/
def State.serving (s : State) : Bool := decide (s.keeper.stage = 5) || decide (s.keeper.stage = 8)

/-- The command stalls on a memory line whose refetch runs (R56). -/
def State.stalled (s : State) (k : CmdKey) : Bool := s.landing.faults.any fun f => !f.poisoned && f.readers.contains k

/-- Run a received command of an opcode at its turn (R97). A command of another opcode, one not received, or one whose turn
has not come is left as it is (log entry 3); an opcode not served completes LIFECYCLE_DENIED. -/
def withCmd (op : Nat) (k : CmdKey) (f : Cmd → State → State) (s : State) : State :=
  match findCmd k s with
  | none => s
  | some c =>
    if c.opcode = op ∧ c.phase = .received ∧ isTurn c s ∧ s.serving ∧ !s.stalled k then
      if s.serves op then f c s else fail c stLifecycle s
    else s

/-- As withCmd, for the target context of an admin command: CONTEXT_CLOSED once the target is closing, torn down or gone
(Tables 3-21 and 4-10). -/
def withTarget (op : Nat) (k : CmdKey) (f : Cmd → Ctx → State → State) (s : State) : State :=
  withCmd op k (fun c s =>
    match kvGet c.hdrCtx s.contexts with
    | none => fail c stContextClosed s
    | some x => if x.session = k.session ∧ !x.closing ∧ x.torn = none then f c x s else fail c stContextClosed s) s

/-- A VOLUME_DELETE of a volume that the command names was received before it and has still to take effect: the command comes
after it (R249). -/
def State.deleteAhead (s : State) (c : Cmd) : Bool :=
  s.cmds.any fun d => d.live && decide (d.opcode = 0x28) && decide (d.order < c.order) && c.volumes.contains (fieldAt d.payload 0 1)

/-- As withCmd, for a command of a context. -/
def withCtx (op : Nat) (k : CmdKey) (f : Cmd → Ctx → State → State) (s : State) : State :=
  withCmd op k (fun c s =>
    match kvGet k.ctx s.contexts with
    | none => s
    | some x => if s.deleteAhead c then s else f c x s) s

/-- The session's access mask lets it in (R226). -/
def maskAllows (mask session : Nat) : Bool := bit mask session

/-- The lapse of a deferred-error binding when a context ends: the entry stays bound to the volume (R98, Table 3-8). -/
def unbindDeferred (ctx : Nat) (s : State) : State :=
  modMedia (fun m => { m with deferred := m.deferred.map fun d => if d.ctx = ctx then { d with ctx := 0xFFFF } else d }) s

end Sys2Proof.Machine
end

