-- ==== Sys2Proof/Machine/Parts.lean ====
section
/-!
DEFINITION. Machine/Parts.lean: plots, lanes, dies and crossings by number, with what one reads as before anything has
changed it; spares; control words to peers; chains that break.
-/

namespace Sys2Proof.Machine

open Sys2Proof

/- Plots (chapter 10) -/

/-- A physical plot as shipped: plots 0 to 255 hold the logical numbers 0 to 255, 256 to 271 are spare (log entry 8). -/
def Plot.shipped (p : Nat) : Plot :=
  { role := if p < 256 then .active else .spare, logical := if p < 256 then some p else none, parked := false,
    residents := [], running := none, claims := [], swap := none, tiles := [], flights := [], window := [none, none],
    shadow := [none, none], cause := 0, bucket := Bucket.reset, uncorrAt := [], overflowAt := [], moverAt := 0, marked := false,
    restores := 0, vacating := none }

/-- The physical plot of a number, 0 to 271. -/
def State.plot (s : State) (p : Nat) : Plot := (kvGet p s.plots.list).getD (Plot.shipped p)

/-- One plot changed; there are 272. -/
def modPlot (p : Nat) (f : Plot → Plot) (s : State) : State :=
  if p < 272 then modPlots (fun x => { x with list := kvSet p (f (s.plot p)) x.list }) s else s

/-- Every listed plot changed. -/
def mapPlots (f : Plot → Plot) (s : State) : State :=
  modPlots (fun x => { x with list := x.list.map fun p => (p.1, f p.2) }) s

/-- SRAM charged to a context on a plot, in KiB: the tiles resident there, and 16 KiB for each of its searches on the plot's engine
(R32, R330). -/
def State.sramOn (s : State) (p n : Nat) : Nat :=
  ceilDiv (((s.plot p).tiles.filter fun t => decide (t.ctx = n)).map (·.bytes)).sum 1024 +
    16 * (s.searches.filter fun q => decide (q.key.context = some n) && decide (q.plot = p)).length

/-- Searches on a plot's engine (R330). -/
def State.searchesOn (s : State) (p : Nat) : Nat := (s.searches.filter fun q => decide (q.plot = p)).length

/-- Interactive work holds the plot: an interactive context is resident or has been given it (Table 4-6). -/
def State.heldInteractive (s : State) (q : Plot) : Bool :=
  (q.residents.any fun r => decide (r.cls = .interactive)) ||
    q.claims.any fun n => (kvGet n s.contexts).any fun x => decide (x.cls = .interactive)

/-- Plots that interactive work holds. -/
def State.interactivePlots (s : State) : Nat := (s.plots.list.filter fun p => s.heldInteractive p.2).length

/-- Interactive pressure: more than 96 plots held, or the reserve of a stack fully used in more than half of the last 1 ms (R135). -/
def State.pressure (s : State) : Bool := decide (96 < s.interactivePlots) || decide (s.landing.reserveFull ≠ 0)

/-- Hand-on blocks leave the exchange windows. -/
def dropBlocks (hs : List HandOn) (s : State) : State :=
  if hs = [] then s
  else mapPlots (fun p => { p with window := p.window.map fun w => match w with
    | some h => if hs.contains h then none else some h
    | none => none }) s

/-- The plots in a role. -/
def State.plotsIn (s : State) (r : PlotRole) : List Nat := (List.range 272).filter fun p => decide ((s.plot p).role = r)


/-- Plots now clocked: active ones, not parked, while the module runs (Table 10-9, log entry 8). -/
def State.awakePlots (s : State) : Nat :=
  if s.keeper.stage = 5 ∧ s.power.idle = .running then
    ((List.range 272).filter fun p => ((s.plot p).role == .active) && !(s.plot p).parked).length
  else 0

/-- The lowest-numbered unused spare plot that passed sounding (R338). -/
def State.sparePlot (s : State) : Option Nat :=
  (List.range 272).find? fun p => (s.plot p).role == .spare && !(s.plot p).marked

/-- Unused spare plots. -/
def State.sparePlots (s : State) : Nat := (s.plotsIn .spare).length

/-- Active logical plots: the numbers that a plot serves, and those of retired plots that an unused spare is still to take
(Table 0-11, R12, R338). -/
def State.activePlots (s : State) : Nat :=
  ((List.range 272).filter fun p => ((s.plot p).role == .active) && (s.plot p).logical.isSome).length +
    min s.sparePlots ((List.range 272).filter fun p => (s.plot p).vacating.isSome).length

/- Lanes (chapter 15) -/

/-- Lane 13g + i serves position 12g + i; lane 13g + 12 is the spare of group g (R448, R553). -/
def Lane.shipped (l : Nat) : Lane :=
  { role := if l % 13 = 12 then .spareUnused else .untrained, state := .down,
    position := if l % 13 = 12 then none else some (12 * (l / 13) + l % 13), crossing := none, peerPos := none,
    peerSerial := 0, peerDomain := 0, uncorr := 0, crcFail := 0, restores := 0, fails := 0, tried := 0 }

/-- The lane of a number, 0 to 51. -/
def State.lane (s : State) (l : Nat) : Lane := (kvGet l s.links.lanes).getD (Lane.shipped l)

/-- One lane changed; there are 52. -/
def modLane (l : Nat) (f : Lane → Lane) (s : State) : State :=
  if l < 52 then modLinks (fun x => { x with lanes := kvSet l (f (s.lane l)) x.lanes }) s else s

/-- The lane that serves a position (R448). -/
def State.laneAt (s : State) (pos : Nat) : Option Nat :=
  (List.range 52).find? fun l => decide ((s.lane l).position = some pos) && decide ((s.lane l).role ≠ .failed)

/-- The unused spare of a lane group, if there is one. -/
def State.groupSpare (s : State) (g : Nat) : Option Nat :=
  ((List.range 13).map (13 * g + ·)).find? fun l => decide ((s.lane l).role = .spareUnused)

/-- Unused spare lanes. -/
def State.spareLanes (s : State) : Nat := ((List.range 4).filter fun g => (s.groupSpare g).isSome).length

/-- Up lanes whose peer reports a serial number (R452). -/
def State.lanesTo (s : State) (serial : Nat) : List Nat :=
  (List.range 52).filter fun l => decide ((s.lane l).state = .up) && decide ((s.lane l).peerSerial = serial) &&
    (s.lane l).position.isSome

/-- The crossing of a number. -/
def State.crossing (s : State) (n : Nat) : Option Crossing := kvGet n s.links.crossings

/-- One crossing changed. -/
def modCrossing (n : Nat) (f : Crossing → Crossing) (s : State) : State :=
  modLinks (fun x => { x with crossings := kvMod n f x.crossings }) s

/-- The crossing enabled to a serial number. -/
def State.crossingTo (s : State) (serial : Nat) : Option Nat :=
  (s.links.crossings.find? fun c => decide (c.2.serial = serial)).map (·.1)

/-- An up crossing to a serial number. -/
def State.upTo (s : State) (serial : Nat) : Option Nat :=
  (s.links.crossings.find? fun c => decide (c.2.serial = serial) && decide (c.2.state = .up)).map (·.1)

/-- The crossings that are up. -/
def State.upCrossings (s : State) : List Nat :=
  (s.links.crossings.filter fun c => decide (c.2.state = .up)).map (·.1)

/-- A control word of eight bytes leaves on a crossing (R456, Table 15-2). -/
def sendControl (x : Nat) (word : List Nat) (s : State) : State :=
  modCrossing x (fun c => { c with lastSent := s.now })
    { s with wire := .control x (word ++ List.replicate (8 - word.length) 0) :: s.wire }

/-- The same word on every up crossing. -/
def sendAll (word : List Nat) (s : State) : State := s.upCrossings.foldl (fun s x => sendControl x word s) s

/-- The bytes of a number, for a control word. -/
def wordBytes (n v : Nat) : List Nat := (leBytes n v).map (·.toNat)

/-- Peers next to a local member of a bound chain (R463, R466). -/
def Binding.peers (b : Binding) (me : Nat) : List Nat :=
  ((List.range b.members.length).flatMap fun i =>
    if b.members.getD i 0 = me then
      (if i = 0 then [] else [b.members.getD (i - 1) me]) ++ (if i + 1 < b.members.length then [b.members.getD (i + 1) me] else [])
    else []).filter fun m => decide (m ≠ me)

/-- CHAIN_ABORT to the chain's neighbours on peers, other than one it came from, and the binding ends (R463, R466). -/
def breakChain (fid : Nat) (from_ : Option Nat) (s : State) : State :=
  match kvGet fid s.links.bindings with
  | none => s
  | some b =>
    let s := ((b.peers s.serial).filter fun m => decide (some m ≠ from_)).foldl (fun s m =>
      match s.upTo m with
      | none => s
      | some x => sendControl x (6 :: wordBytes 4 fid) s) s
    modLinks (fun l => { l with bindings := kvDel fid l.bindings }) s

/-- The bound chains of a context's program. -/
def State.boundTo (s : State) (ctx handle : Nat) : List Nat :=
  (s.links.bindings.filter fun b => decide (b.2.ctx = ctx) && decide (b.2.handle = handle)).map (·.1)

/- Clock steps (R470, R477, R480, R482) -/

/-- A peer that announces a CAUSE of its own: one whose only CAUSE is bit 3 steps nobody (R470). -/
def Crossing.throttled (c : Crossing) : Bool := decide (c.state = .up) && decide (c.peerCause ≠ 0) && decide (c.peerCause ≠ 8)

/-- The context runs work on a bound chain, or a stream on a shard, shared with the peer of a crossing (R470). -/
def State.sharesWith (s : State) (ctx : Nat) (c : Crossing) : Bool :=
  (s.links.bindings.any fun b => decide (b.2.ctx = ctx) && b.2.members.contains c.serial && s.runs.any fun r =>
    decide (r.ctx = ctx) && decide (r.handle = b.2.handle)) ||
    s.streams.any fun t => decide (t.2.ctx = ctx) && (match kvGet t.2.slot s.models with
      | none => false
      | some m => decide (m.placement = 1))

/-- The step that sympathetic throttling holds a plot down to: the highest STEP of a throttled peer that its work is shared with. -/
def State.sympathyStep (s : State) (q : Plot) : Nat :=
  if s.sympathetic then
    match q.running with
    | none => 0
    | some n => (s.links.crossings.map fun c => if c.2.throttled && s.sharesWith n c.2 then c.2.peerStep else 0).foldl max 0
  else 0

/-- The plot runs interactive work. -/
def Plot.interactive (q : Plot) : Bool := q.residents.any fun r => decide (some r.ctx = q.running) && decide (r.cls = .interactive)

/-- The step that hints of other contexts hold a plot's batch work down to (R482). -/
def State.hintStep (s : State) (q : Plot) : Nat :=
  if q.interactive ∨ s.power.hints.any fun h => decide (q.running = some h.ctx) then 0
  else (s.power.hints.map (·.step)).foldl max 0

/-- The clock step of a plot (Table 16-2): the power loop's for its work, THROTTLE_N's, a hint's and a peer's, whichever is
lowest in clock. -/
def State.clockOf (s : State) (p : Nat) : Nat :=
  let q := s.plot p
  let kind := if q.interactive then Limit.interactiveStep else .batchStep
  let loop := (s.power.limits.filter fun l => decide (l = kind)).length
  let pin := if s.keeper.throttle.asserted ∧ s.keeper.stage = 5 then 2 else 0
  min 3 (max (max loop pin) (max (s.hintStep q) (s.sympathyStep q)))

/-- The lowest clock step in use: the highest step code of an active plot (Table 16-9). -/
def State.stepMin (s : State) : Nat :=
  (((List.range 272).filter fun p => ((s.plot p).role == .active) && !(s.plot p).parked).map s.clockOf).foldl max 0

/- Dies and sieves (chapter 5) -/

/-- Dies on a channel (Table 0-1). -/
def Part.diesPerChannel : Part → Nat
  | .kz1280 => 24
  | .kz640 => 12

/-- Spare dies of a sieve as shipped, and rows of member dies (Table 0-1, R163). -/
def Part.spares : Part → Nat
  | .kz1280 => 4
  | .kz640 => 2
def Part.rows : Part → Nat
  | .kz1280 => 188
  | .kz640 => 94

/-- Dies of a sieve. -/
def Part.sieveDies (p : Part) : Nat := 8 * p.diesPerChannel

/-- All dies. -/
def Part.dies (p : Part) : Nat := 16 * p.sieveDies

/-- The sieve, channel and position of a die number. -/
def State.dieSieve (s : State) (d : Nat) : Nat := d / s.part.sieveDies
def State.dieChannel (s : State) (d : Nat) : Nat := d / s.part.diesPerChannel % 8
def State.diePos (s : State) (d : Nat) : Nat := d % s.part.diesPerChannel

/-- An unused spare, one that does not answer among them until it is failed (R12, R557). -/
def Die.unused (d : Die) : Bool := decide (d.role = .spare) || (decide (d.role = .unresponsive) && decide (d.was = .spare))

/-- Unused spare dies of one sieve. -/
def State.spareOf (s : State) (die : Nat → Die) (v : Nat) : Nat :=
  ((List.range s.part.sieveDies).filter fun i => (die (v * s.part.sieveDies + i)).unused).length

end Sys2Proof.Machine
end

