-- ==== Sys2Proof/Machine/Bands.lean ====
section
/-!
DEFINITION. Machine/Bands.lean: dies and their block sets, bands and their stripes, the places of data members, root sets, the
map and its cache, and the journal (chapters 5 and 6).
-/

namespace Sys2Proof.Machine

open Sys2Proof

/- Dies (R163, R178) -/

/-- A die as shipped (R163, Table 5-1): a spare, or the member of the row that its number among the dies that are not spare
gives, in order of position and then of channel. Its blocks count as good until the markers are read. -/
def Die.shipped (p : Part) (d : Nat) : Die :=
  let n := p.diesPerChannel
  let ch := d / n % 8
  let pos := d % n
  let step := match p with
    | .kz1280 => 2
    | .kz640 => 4
  let last := decide (pos = n - 1)
  let spare := last && decide (ch % step = 0)
  { role := if spare then .spare else .member, row := if spare then 255 else if last then 8 * pos + ch - ceilDiv (ch + 1) step else 8 * pos + ch,
    op := .idle, began := 0, erasePrio := false, goodMin := 2800, answered := 0, was := if spare then .spare else .member, line := none,
    erasing := none, todo := [], replaced := [] }

/-- The die of a number. -/
def State.die (s : State) (d : Nat) : Die := (kvGet d s.media.dies).getD (Die.shipped s.part d)

/-- One die changed. -/
def modDie (d : Nat) (f : Die → Die) (s : State) : State :=
  if d < s.part.dies then modMedia (fun m => { m with dies := kvSet d (f (s.die d)) m.dies }) s else s

/-- The dies of a sieve. -/
def State.diesOf (s : State) (sieve : Nat) : List Nat := (List.range s.part.sieveDies).map fun i => sieve * s.part.sieveDies + i

/-- The die that serves a row on a sieve, if one does. -/
def State.rowDie (s : State) (row sieve : Nat) : Option Nat :=
  (s.diesOf sieve).find? fun d => decide ((s.die d).row = row) && decide ((s.die d).role ≠ .failed) && decide ((s.die d).role ≠ .spare)

/-- The die that a place lies on. -/
def State.dieAt (s : State) (a : MediaAddr) : Option Nat := s.rowDie a.row a.member

/-- A sieve is in service (Table 5-7). -/
def Sieve.up (v : Sieve) : Bool := (v.lane0 || v.lane1) && !v.lost

/-- The sieve of a number. -/
def State.sieve (s : State) (v : Nat) : Sieve := s.media.sieves.getD v Sieve.reset

/-- Lost sieves. -/
def State.lostSieves (s : State) : List Nat := (List.range 16).filter fun v => (s.sieve v).lost

/-- The sieves with a serving member of a row, rising: the members of a new band (R180, R214). -/
def State.rowSieves (s : State) (row : Nat) : List Nat :=
  (List.range 16).filter fun v => !(s.sieve v).lost && (s.rowDie row v).isSome

/-- Unused spares of a sieve as Table 5-13 gives them: 0 for a lost sieve (R12). -/
def State.sieveSpares (s : State) (v : Nat) : Nat := if (s.sieve v).lost then 0 else s.spareOf s.die v

/- Block sets (R161, R186) -/

/-- A number put into a rising list. -/
def insertNat (n : Nat) : List Nat → List Nat
  | [] => [n]
  | m :: t => if n < m then n :: m :: t else if n = m then m :: t else m :: insertNat n t

/-- The bit index of a block in the factory-bad bitmap (R204). -/
def blockBit (d plane block : Nat) : Nat := (d * 4 + plane) * 2800 + block

/-- The factory-bad blocks of a plane, rising. -/
def State.factoryBadOn (s : State) (d plane : Nat) : List Nat :=
  (s.media.factoryBad.filter fun b => decide (b / 2800 = d * 4 + plane)).map (· % 2800)

/-- A grown-bad entry stands for a block of this plane. -/
def State.onPlane (s : State) (d plane : Nat) (g : GrownBad) : Bool :=
  decide (g.sieve = s.dieSieve d) && decide (g.channel = s.dieChannel d) && decide (g.position = s.diePos d) && decide (g.plane = plane)

/-- Good blocks of a plane now. -/
def State.goodOn (s : State) (d plane : Nat) : Nat :=
  2800 - (s.factoryBadOn d plane).length - (s.media.grownBad.filter (s.onPlane d plane)).length

/-- The fewest good blocks on a plane of a die: its block sets (R186, Table 5-16). -/
def State.fewestGood (s : State) (d : Nat) : Nat := ((List.range 4).map (s.goodOn d)).foldl min 2800

/-- The n-th block of a plane that is not factory-bad. -/
def nthGood (bad : List Nat) (n : Nat) : Nat := bad.foldl (fun x b => if b ≤ x then x + 1 else x) n

/-- The block that a die's block-set table names on a plane for a block set (R186). -/
def State.blockOf (s : State) (d plane b : Nat) : Option Nat :=
  match (s.die d).replaced.find? fun r => decide (r.1 = plane) && decide (r.2.1 = b) with
  | some r => some r.2.2
  | none =>
    let x := nthGood (s.factoryBadOn d plane) b
    if x < 2800 then some x else none

/-- Block sets that a row uses: its die with the fewest gives them (R186). -/
def State.rowSets (s : State) (row : Nat) : Nat := (kvGet row s.media.rowSets).getD 2800

/-- The factory-bad blocks are recorded: each die's fewest good blocks and each row's block sets follow (R161, R186). -/
def recordMarkers (l : List (Nat × Nat × Nat)) (s : State) : State :=
  let l := l.filter fun b => decide (b.1 < s.part.dies) && decide (b.2.1 < 4) && decide (b.2.2 < 2800)
  let s := modMedia (fun m => { m with factoryBad := l.foldl (fun t b => insertNat (blockBit b.1 b.2.1 b.2.2) t) m.factoryBad }) s
  (l.map (·.1)).eraseDups.foldl (fun s d =>
    let n := s.fewestGood d
    let row := (s.die d).row
    let s := modDie d (fun x => { x with goodMin := n }) s
    if row < 255 then modMedia (fun m => { m with rowSets := kvSet row (min n (s.rowSets row)) m.rowSets }) s else s) s

/- Bands (R185, R197) -/

/-- A band that has never been opened: FREE, never erased in use. -/
def Band.fresh : Band := ⟨.free, 0, 0, .host, [], 0, [], [], [], false, 0⟩

/-- The band of a key, row × 2,800 + band. -/
def State.band (s : State) (k : Nat) : Band := (kvGet k s.media.bands).getD Band.fresh

/-- One band changed. -/
def modBand (k : Nat) (f : Band → Band) (s : State) : State :=
  modMedia (fun m => { m with bands := kvSet k (f (s.band k)) m.bands }) s

/-- The key of a place's band. -/
def MediaAddr.bandKey (a : MediaAddr) : Nat := a.row * 2800 + a.band

/-- The bands of the module: block sets 0 to 7 of row 0 are the root areas (R186). -/
def State.isBand (s : State) (k : Nat) : Bool :=
  decide (k / 2800 < s.part.rows) && decide (k % 2800 < s.rowSets (k / 2800)) && (decide (k / 2800 ≠ 0) || decide (8 ≤ k % 2800))

/-- How many there are. -/
def State.bandCount (s : State) : Nat := s.part.rows * 2800 - (s.media.rowSets.map fun r => 2800 - r.2).sum - 8

/-- Bands of this kind are in SLC mode: 768 pages a block, one page a program (Table 5-2, R185, R194, R207). -/
def StripeKind.slc (k : StripeKind) : Bool := decide (k = .journal) || decide (k = .reserve)

/-- Stripes of a word line; a band has 768 word lines: 3,072 stripes, or 768 in SLC mode (R185, R187). -/
def StripeKind.lineStripes (k : StripeKind) : Nat := if k.slc then 1 else 4

/-- FREE bands outside the flush reserve (R198). -/
def State.freePool (s : State) : Nat :=
  s.bandCount - (s.media.bands.filter fun b => decide (b.2.state ≠ .free) && s.isBand b.1).length - s.media.reserve.length

/-- Free-pool levels (Table 6-7). -/
def Part.poolTarget : Part → Nat
  | .kz1280 => 1536
  | .kz640 => 768
def Part.poolLow : Part → Nat
  | .kz1280 => 512
  | .kz640 => 256
def Part.poolFloor : Part → Nat
  | .kz1280 => 64
  | .kz640 => 32
def Part.spareFloor : Part → Nat
  | .kz1280 => 1024
  | .kz640 => 512
def Part.journalBands : Part → Nat
  | .kz1280 => 64
  | .kz640 => 32

/-- Map segments of a full map (R192). -/
def Part.mapSegments : Part → Nat
  | .kz1280 => 23284
  | .kz640 => 11642

/-- Data units of a QLC band now: 15 members of 3,072 stripes on a whole module, one fewer for each lost sieve (R214). -/
def State.bandUnits (s : State) : Nat := 3072 * (15 - s.lostSieves.length)

/-- Rows one member short for want of a spare (R180). -/
def State.shortRows (s : State) : Nat :=
  ((s.media.dies.filter fun d => decide (d.2.role = .failed) && decide (d.2.row < 255)).map fun d => d.2.row).eraseDups.length

/-- The margin in bands (R217): usable bands less those of the exported capacity, the map, the journal and the reserve. A row
one member short loses a fifteenth of its bands (log entry 12). -/
def State.margin (s : State) : Nat :=
  let usable := s.bandCount - (s.media.bands.filter fun b => decide (b.2.state = .retired) && s.isBand b.1).length - ceilDiv (2744 * s.shortRows) 15
  usable - ceilDiv s.media.exported s.bandUnits - ceilDiv (64 * s.part.mapSegments) s.bandUnits - s.part.journalBands - 32

/- Members and word lines (R185, R187, R214) -/

/-- Members of a stripe: parity lies on the (p mod n)th of its sieves. -/
def paritySieve (sieves : List Nat) (page : Nat) : Nat := sieves.getD (page % sieves.length) 0

/-- The data members of a stripe, by ascending sieve with the parity sieve skipped. -/
def stripePlaces (k page : Nat) (sieves : List Nat) : List MediaAddr :=
  (sieves.filter fun v => decide (v ≠ paritySieve sieves page)).map fun v => ⟨k / 2800, k % 2800, page, v⟩

/-- The data members of word line wl of a band of a kind, in filling order. -/
def linePlaces (kind : StripeKind) (k wl : Nat) (sieves : List Nat) : List MediaAddr :=
  (List.range kind.lineStripes).flatMap fun i => stripePlaces k (kind.lineStripes * wl + i) sieves

/-- The number of a place, and where its bytes stand in the store of logical data. -/
def MediaAddr.num (a : MediaAddr) : Nat := ((a.row * 2800 + a.band) * 3072 + a.page) * 16 + a.member
def MediaAddr.base (a : MediaAddr) : Nat := a.num * 65536

/-- The bytes of a member that holds a logical unit. -/
def State.member (s : State) (a : MediaAddr) : List Byte := memRead s.media.flash a.base 65536

/-- A data member is programmed: its codeword headers and, for a logical unit, its bytes. -/
def putMember (a : MediaAddr) (x : Member) (bytes : List Byte) (s : State) : State :=
  modMedia (fun m => { m with
    members := kvSet a.num x m.members
    flash := if x.body = .data then memWrite (memClear m.flash a.base 65536) a.base bytes else m.flash }) s

/-- The members of a band are gone: it is erased. -/
def wipeBand (k : Nat) (s : State) : State :=
  let n := 3072 * 16
  modMedia (fun m => { m with
    members := m.members.filter fun x => decide (x.1 / n ≠ k)
    flash := memClear m.flash (k * n * 65536) (n * 65536) }) s

/- Root sets (R203, R204) -/

/-- The sieve that holds a bank: the lowest in service among its eight. -/
def Media.bankSieve (m : Media) (first : Nat) : Option Nat := (List.range' first 8).find? fun v => (m.sieves.getD v Sieve.reset).up

/-- The pages of a root set, in SLC mode: the body of CONFIGURATION has no stated length (log entry 154). -/
def rootPages (n : Nat) : Nat := 1 + Config.rootPages n % 768

/-- Where the next set of a bank goes: after its last one, or in the next of block sets 0 to 6, from page 0, when it does not fit there or
a fresh block set is wanted (R203, R249). -/
def nextRoot (last : Option RootSet) (v n : Nat) (fresh : Bool) : Nat × Nat :=
  match last with
  | none => (0, 0)
  | some r =>
    if r.sieve ≠ v then (0, 0)
    else if fresh ∨ 768 < r.page + r.pages + n then ((r.block + 1) % 7, 0)
    else (r.block, r.page + r.pages)

/-- A root set is written: one number higher than the last, to bank A when it is even and to bank B when it is odd. The block set that it
opens is erased first. -/
def Media.writeRoot (fresh : Bool) (m : Media) : Media :=
  let n := m.rootSeq + 1
  let even := decide (n % 2 = 0)
  match m.bankSieve (if even then 0 else 8) with
  | none => { m with rootSeq := n, bankA := if even then none else m.bankA, bankB := if even then m.bankB else none }
  | some v =>
    let at_ := nextRoot (if even then m.bankA else m.bankB) v (rootPages n) fresh
    let set : RootSet := ⟨n, v, at_.1, at_.2, rootPages n, m.checkpointSeq, m.dirPlace, m.headPlace, m.headSeq, m.volumes, m.exported, m.tillDays,
      m.grownBad⟩
    let kept := if at_.2 = 0 then m.rootsLeft.filter fun r => decide (r.sieve ≠ v) || decide (r.block ≠ at_.1) else m.rootsLeft
    { m with
      rootSeq := n, rootsLeft := kept ++ [set]
      bankA := if even then some set else m.bankA, bankB := if even then m.bankB else some set }

/-- A change of configuration writes one root set, or two, so that both banks name it. -/
def writeRoot (s : State) : State := modMedia (Media.writeRoot false) s
def writeRoots (s : State) : State := writeRoot (writeRoot s)

/-- Two root sets are written, one in each bank and each into a freshly erased block set, and every other block set from 0 to 6 of both
root areas is erased: no copy of what they leave out remains (R249). -/
def renewRoots (s : State) : State :=
  let s := modMedia (fun m => Media.writeRoot true (Media.writeRoot true m)) s
  modMedia (fun m => { m with rootsLeft := m.rootsLeft.filter fun r => decide (m.rootSeq < r.seq + 2) }) s

/- The map and its cache (R191 to R193) -/

/-- The owner number under which the units of an index are mapped: volumes have 0 to 255 (DESIGN CHOICE, log entry 198). -/
def indexOwner (i : Nat) : Nat := 256 + i

/-- The key of a unit of an owner. -/
def unitKey (owner unit : Nat) : Nat := owner * 2 ^ 40 + unit

/-- The segment that a unit's entry stands in, and its index there (log entry 151). -/
def segmentOf (key : Nat) : Nat := key / 2 ^ 40 * 2 ^ 21 + key % 2 ^ 40 / 838860
def segmentIndex (key : Nat) : Nat := key % 2 ^ 40 % 838860

/-- The map entry of a unit; none is unmapped. -/
def State.entry (s : State) (owner unit : Nat) : Option MapEntry := kvGet (unitKey owner unit) s.media.map

/-- A segment is used: it is the most recently used one, and a full cache gives up its least recently used clean segment (R193). -/
def touch (n : Nat) (dirty : Bool) (l : List Segment) : List Segment :=
  let d := dirty || l.any fun g => decide (g.num = n) && g.dirty
  let rest := l.filter fun g => decide (g.num ≠ n)
  let kept := if rest.length < 6144 then rest else match rest.reverse.find? fun g => !g.dirty with
    | some g => rest.filter fun x => decide (x.num ≠ g.num)
    | none => rest
  ⟨n, d⟩ :: kept

/-- The segments that lookups miss: not in the cache, and written on flash (R192, R193). -/
def State.missing (s : State) (segs : List Nat) : List Nat :=
  if s.media.directory = [] then []
  else (segs.filter fun n =>
    !(s.media.segments.any fun g => decide (g.num = n)) && (kvGet n s.media.directory).isSome).eraseDups

/-- A unit's map entry replaced: its segment is dirty. -/
def setEntry (owner unit : Nat) (e : Option MapEntry) (m : Media) : Media :=
  { m with
    segments := touch (segmentOf (unitKey owner unit)) true m.segments
    map := match e with
      | none => kvDel (unitKey owner unit) m.map
      | some e => kvSet (unitKey owner unit) e m.map }

/-- The units whose data stand on the media, each with its place: as the map has them, and the old content of a unit that an unacknowledged write
has replaced in the map (R231). -/
def State.liveUnits (s : State) : List (Nat × MediaAddr) :=
  (s.media.map.filterMap fun e => match e.2 with
    | .media a => some (e.1, a)
    | _ => none) ++
  s.media.slots.filterMap fun x => if x.2.acked then none else match x.2.old with
    | some (.media a) => some (unitKey x.2.vol x.2.unit, a)
    | _ => none

/-- The unit whose data stand at a place: its key. -/
def State.unitAt (s : State) (a : MediaAddr) : Option Nat := (s.liveUnits.find? fun e => decide (e.2 = a)).map (·.1)

/-- The units that live in a band: key and place. -/
def State.liveIn (s : State) (k : Nat) : List (Nat × MediaAddr) := s.liveUnits.filter fun e => decide (e.2.bandKey = k)

/-- The map segments that live in a band, and whether the directory does (R192). -/
def State.segmentsIn (s : State) (k : Nat) : List Nat := (s.media.directory.filter fun d => decide (d.2.bandKey = k)).map (·.1)
def State.mapIn (s : State) (k : Nat) : Bool := !(s.segmentsIn k).isEmpty || s.media.dirPlace.any fun a => decide (a.bandKey = k)

/-- A journal band still holds entries that a start from either bank would replay (R196). -/
def State.journalNeeded (s : State) (k : Nat) : Bool :=
  decide ((s.band k).kind = .journal) && match s.media.bankA, s.media.bankB with
    | some a, some b => decide (min a.headSeq b.headSeq ≤ (kvGet k s.media.journalEnd).getD 0)
    | _, _ => true

/-- The 64 members of a segment, in band order from its first (R192). -/
def State.segmentPlaces (s : State) (n : Nat) : List MediaAddr :=
  match kvGet n s.media.directory with
  | none => []
  | some a =>
    let b := s.band a.bandKey
    let all := (List.range 80).flatMap fun i => stripePlaces a.bandKey (a.page + i) b.sieves
    ((all.dropWhile fun x => decide (x ≠ a)).take 64)

/-- The contents of a unit as a read returns them; none when it is poisoned (R232, R239). -/
def State.unitData (s : State) (owner unit : Nat) : Option (List Byte) :=
  match s.entry owner unit with
  | none => some (zeros 65536)
  | some .poisoned => none
  | some (.buffer n) => some ((kvGet n s.media.slots).map (·.data) |>.getD (zeros 65536))
  | some (.media a) => some (s.member a)

/-- The places that reading these units needs: those on the media (R232, R239). -/
def State.placesOf (s : State) (owner : Nat) (units : List Nat) : List MediaAddr :=
  units.filterMap fun u => match s.entry owner u with
    | some (.media a) => some a
    | _ => none

/- Health (Table 6-14) -/

/-- One of the fifteen ERRORS counts goes up. -/
def bumpErr (i n : Nat) (s : State) : State :=
  modMedia (fun m => { m with health := { m.health with errors := setAt m.health.errors i fun c => satAdd 32 c n } }) s

def modHealth (f : Health → Health) (s : State) : State := modMedia (fun m => { m with health := f m.health }) s

/- The journal (R194) -/

/-- An entry is appended to the open journal stripe. -/
def journal (e : JEntry) (s : State) : State :=
  modMedia (fun m => { m with journal := e :: m.journal, journalAt := if m.journal = [] then s.now else m.journalAt }) s

/-- A band changes state, and the change is journaled (R194, R197). -/
def setBand (k : Nat) (st : BandState) (s : State) : State :=
  journal (.band k st (s.band k).erases) (modBand k (fun b => { b with state := st }) s)

/-- A unit's entry is replaced and the change journaled (R194). -/
def remap (owner unit : Nat) (e : Option MapEntry) (s : State) : State :=
  journal (.map owner unit e (s.entry owner unit) none) (modMedia (setEntry owner unit e) s)

/-- A unit is unmapped (R245). -/
def unmap (owner unit : Nat) (s : State) : State :=
  match s.entry owner unit with
  | none => s
  | some _ => remap owner unit none s

/-- A unit is poisoned (R213, R233, R556). -/
def poison (owner unit : Nat) (s : State) : State := remap owner unit (some .poisoned) s

/-- The mapped units of an owner from a first unit, below an end. -/
def State.mappedIn (s : State) (owner first end_ : Nat) : List Nat :=
  (s.media.map.filter fun e => decide (unitKey owner first ≤ e.1) && decide (e.1 < unitKey owner (min end_ (2 ^ 40)))).map fun e => e.1 % 2 ^ 40

/-- Every unit of an owner is unmapped, and what the write buffer and copies under way hold of it is dropped (R249, R292, R310). -/
def dropUnits (owner : Nat) (s : State) : State :=
  modMedia (fun m => { m with slots := m.slots.filter fun x => decide (x.2.vol ≠ owner), copies := m.copies.filter fun j => decide (j.vol ≠ owner) })
    ((s.mappedIn owner 0 (2 ^ 40)).foldl (fun s u => unmap owner u s) s)

/-- The number of the next journal entry to be made. -/
def State.journalNext (s : State) : Nat :=
  s.media.journalSeq + ((s.media.lines.map fun l => (l.items.map fun x => match x.body with
    | .journal es => es.length
    | _ => 0).sum).sum) + s.media.journal.length

/- Opening a band (R188, R199) -/

/-- The lowest number from k on, within n, that a test accepts. -/
def findFrom (f : Nat → Bool) : Nat → Nat → Option Nat
  | 0, _ => none
  | n + 1, k => if f k then some k else findFrom f n (k + 1)

/-- A FREE band outside the reserve that a stripe of two members or more can be laid in. -/
def State.canOpen (s : State) (k : Nat) : Bool :=
  s.isBand k && decide ((s.band k).state = .free) && !(s.band k).doomed && !s.media.reserve.contains k && decide (2 ≤ (s.rowSieves (k / 2800)).length)

/-- The lowest-numbered FREE band that has never been opened. -/
def State.freshBand (s : State) : Option Nat := findFrom (fun k => (kvGet k s.media.bands).isNone && s.canOpen k) (s.part.rows * 2800) 0

/-- The FREE band with the lowest erase count, the lowest-numbered of equals (R199, log entry 152). -/
def State.bestFree (s : State) : Option Nat :=
  let listed := ((s.media.bands.filter fun b => s.canOpen b.1).map fun b => (b.2.erases, b.1)).foldl (fun (best : Option (Nat × Nat)) x =>
    match best with
    | none => some x
    | some y => if x.1 < y.1 then some x else best) none
  match listed with
  | some (0, k) => some k
  | some (_, k) => some (s.freshBand.getD k)
  | none => s.freshBand

/-- A band opens with the sieves of its row that serve (R180, R188, R214). -/
def openBand (k : Nat) (kind : StripeKind) (s : State) : State :=
  let seq := s.media.bandSeq + 1
  setBand k .opened (modMedia (fun m => { m with bandSeq := seq })
    (modBand k (fun b => { b with kind := kind, seq := seq, sieves := s.rowSieves (k / 2800), filled := 0, progAt := [] }) s))

/-- Word line wl of a band has closed; with the last, the band is CLOSED (Table 6-6). -/
def lineClosed (k wl : Nat) (s : State) : State :=
  let now := s.now
  let s := modBand k (fun b => { b with filled := wl + 1, progAt := kvSet wl now b.progAt }) s
  if wl + 1 = 768 then setBand k .closed s else s

/-- One word line is written whole: its items in filling order, then pads, and parity (R187, R188). The pages of the members that no
context pays for are charged to none (R488). -/
def writeLine (k wl : Nat) (items : List (Member × List Byte)) (paid : Nat) (s : State) : State :=
  let b := s.band k
  let places := linePlaces b.kind k wl b.sieves
  let pad : Member × List Byte := (⟨6, 255, 0, b.seq, .pad, 0⟩, [])
  let s := places.zipIdx.foldl (fun s p => let x := items.getD p.2 pad; putMember p.1 { x.1 with seq := b.seq } x.2 s) s
  let s := account none (fun c => { c with programs := c.programs + 4 * (places.length + b.kind.lineStripes - paid) }) s
  lineClosed k wl (modHealth (fun h => { h with mediaWritten := satAdd 64 h.mediaWritten places.length }) s)

/-- The band that the next journal stripe goes to: an OPEN journal band, or a FREE one that is opened (R188, R194). -/
def journalBand (s : State) : Option (Nat × State) :=
  match s.media.bands.find? fun b => decide (b.2.state = .opened) && decide (b.2.kind = .journal) && decide (b.2.filled < 768) with
  | some b => some (b.1, s)
  | none => s.bestFree.map fun k => (k, openBand k .journal s)

/-- The data members of a journal stripe: 4,096 entries each, the rest KIND 0x06 (R194). -/
def journalItems (first : Nat) (es : List JEntry) : List Member :=
  (List.range (ceilDiv es.length 4096)).map fun i => ⟨3, 255, first + 4096 * i, 0, .journal ((es.drop (4096 * i)).take 4096), 0⟩

/-- Entries that one stripe of a journal band holds: 4,096 in each data member, 61,440 in a stripe 16 wide (R194). -/
def State.journalRoom (s : State) (k : Nat) : Nat := 4096 * ((s.band k).sieves.length - 1)

/-- The journal stripe being programmed: its entries are not durable yet. -/
def State.journalLine (s : State) : Option WordLine := s.media.lines.find? fun l => decide (l.kind = .journal)

/-- The entries of a journal stripe. -/
def WordLine.entries (l : WordLine) : List JEntry := l.items.flatMap fun x => match x.body with
  | .journal es => es
  | _ => []

/-- The open journal stripe is closed to new entries and its programs begin, one stripe at a time: the oldest entries that it holds, or all (R188,
R194, log entry 200). -/
def beginJournal (s : State) : State :=
  if s.media.journal = [] ∨ s.journalLine.isSome then s
  else match journalBand s with
    | none => s
    | some (k, s) =>
      let es := s.media.journal.reverse.take (s.journalRoom k)
      modMedia (fun m => { m with
        journal := m.journal.take (m.journal.length - es.length)
        lines := m.lines ++ [⟨k, (s.band k).filled, .journal, [], [], journalItems m.journalSeq es, []⟩] }) s

/-- A write-buffer slot goes; a later slot of its unit that had replaced it now replaces what stands for it (R231). -/
def freeSlot (n : Nat) (to_ : Option MapEntry) (m : Media) : Media :=
  { m with slots := (kvDel n m.slots).map fun x => (x.1, if x.2.old = some (.buffer n) then { x.2 with old := to_ } else x.2) }

/-- One entry has become durable: a written unit leaves the write buffer, a copy flips if its unit still stands at its source, or is the old content
of one being written, and an erased band is FREE, or restores a flush reserve that is short (R194, R195, R200, R202, R207). -/
def entryDurable (e : JEntry) (s : State) : State :=
  match e with
  | .map o u new old (some n) =>
    let s := modMedia (freeSlot n new) s
    if s.entry o u = old then modMedia (setEntry o u new) s else s
  | .map o u (some (.media a)) old none =>
    let moved := fun (x : Slot) => if x.vol = o ∧ x.unit = u ∧ x.old = old then { x with old := some (.media a) } else x
    let s := modMedia (fun m => { m with slots := m.slots.map fun x => (x.1, moved x.2) }) s
    if s.entry o u = old then modMedia (setEntry o u (some (.media a))) s else s
  | .band k .free _ =>
    let short := decide (s.media.reserve.length < 32) && !s.media.reserve.any (fun r => decide (r / 2800 = k / 2800)) && decide (s.keeper.stage = 5)
    modMedia (fun m => { m with reserve := if short then m.reserve ++ [k] else m.reserve })
      (modBand k (fun b => { b with state := .free, held := [], erased := [], filled := 0, sieves := [], progAt := [] }) s)
  | _ => s

/-- A journal stripe has closed: its entries are durable. FLUSH counts the units that have become so. The padding of a stripe that closes early
does not count as journal written (DESIGN CHOICE, log entry 153). -/
def journalClosed (k : Nat) (es : List JEntry) (s : State) : State :=
  let s := modMedia (fun m => { m with
    journaled := m.journaled + es.length, journalSeq := m.journalSeq + es.length
    journalEnd := kvSet k (m.journalSeq + es.length - 1) m.journalEnd }) s
  let s := es.foldl (fun s e => entryDurable e s) s
  let freed := (es.filter fun e => match e with
    | .map _ _ _ _ (some _) => true
    | _ => false).length
  { s with cmds := s.cmds.map fun c => match c.phase with
      | .waiting (.durable _) => { c with tally := c.tally + (if c.opcode = 0x22 then freed else 0) }
      | _ => c }

end Sys2Proof.Machine
end

