-- ==== Sys2Proof/Machine/Images.lean ====
section
/-!
DEFINITION. Machine/Images.lean: what a model image declares, where its homes lie in the Landing, and when the model is in streaming mode
(R29, R51 to R54, R400, R403).
-/

namespace Sys2Proof.Machine

open Sys2Proof

/- Model images (Tables 13-1 and 13-2) -/

/-- Fields of an image's header. -/
def imgKind (m : List Byte) : Nat := fieldAt m 5 1
def imgLayers (m : List Byte) : Nat := fieldAt m 6 2
def imgTiles (m : List Byte) : Nat := fieldAt m 8 4
def imgVocab (m : List Byte) : Nat := fieldAt m 12 4
def imgContext (m : List Byte) : Nat := fieldAt m 16 4
def imgKvLayer (m : List Byte) : Nat := fieldAt m 20 4
def imgInput (m : List Byte) : Nat := fieldAt m 24 2
def imgOutFormat (m : List Byte) : Nat := fieldAt m 32 1
def imgOutDim (m : List Byte) : Nat := fieldAt m 34 2

/-- An entry of the layer table: first tile, tiles, bytes. -/
def imgLayer (m : List Byte) (l : Nat) : Nat × Nat × Nat :=
  let o := fieldAt m 40 4 + 16 * l
  (fieldAt m o 4, fieldAt m (o + 4) 4, fieldAt m (o + 8) 8)

/-- Bytes of a tile of the image at its home. -/
def imgTileBytes (m : List Byte) (n : Nat) : Nat := fieldAt m (fieldAt m 36 4 + 32 * n + 16) 4

/-- The layer of a tile. -/
def imgLayerOf (m : List Byte) (tile : Nat) : Option Nat :=
  (List.range (imgLayers m)).find? fun i => decide ((imgLayer m i).1 ≤ tile) && decide (tile < (imgLayer m i).1 + (imgLayer m i).2.1)

/-- KiB rounded up to 2 MiB. -/
def kib2m (bytes : Nat) : Nat := 2048 * ceilDiv bytes 2097152

/-- Bytes of some layers. -/
def layersBytes (m : List Byte) (first n : Nat) : Nat := ((List.range n).map fun i => (imgLayer m (first + i)).2.2).sum

/-- KiB of the streaming window: WINDOW_LAYERS layers of the largest one's bytes (R52). -/
def windowKib (m : List Byte) (first n layers : Nat) : Nat :=
  kib2m (min n layers * ((List.range n).map fun i => (imgLayer m (first + i)).2.2).foldl max 0)

/-- The first tile of the layers that this module holds, and the tile after the last. -/
def Model.firstTile (m : Model) : Nat := (imgLayer m.image m.firstLayer).1
def Model.endTile (m : Model) : Nat := let l := imgLayer m.image m.lastLayer; l.1 + l.2.1

/-- The number that a model's tiles have among a context's tiles on a plot, in place of a program's handle (R32). -/
def modelHandle (slot : Nat) : Nat := 1024 + slot

/- Homes (R29, R69) -/

/-- Where the pieces of 64 KiB of a tile's home lie in the Landing: stack and pseudo-channel, of the stacks in service. Consecutive pieces
lie in different pseudo-channels; where the first lies the placement engine chooses (R29, log entry 177). -/
def State.pieces (s : State) (owner tile bytes : Nat) : List (Nat × Nat) :=
  let up := (List.range 6).filter (bit s.landing.stacksUp)
  (List.range (ceilDiv bytes 65536)).map fun i =>
    let n := Config.firstPiece owner tile + i
    (up.getD (n / 64 % up.length) 0, n % 64)

/-- The pages that hold a tile's home (R29): each piece lies in one page of its pseudo-channel, which one the placement engine chooses. -/
def State.homePages (s : State) (owner tile bytes : Nat) : List Nat :=
  ((s.pieces owner tile bytes).zipIdx.map fun x => (x.1.1 * 64 + x.1.2) * 512 + Config.piecePage owner tile x.2 % 512).eraseDups

/-- The page of a line in the Landing. -/
def Line.page : Line → Option Nat
  | .landing st p b g _ => some (((st * 64 + p) * 32 + b) * 16 + g)
  | .sram _ _ => none

/-- A page of a placed model's homes is being relocated by a RETIRE_RANGE. -/
def State.relocates (s : State) (slot : Nat) : Bool :=
  match kvGet slot s.models with
  | none => false
  | some m => decide (s.landing.retiring ≠ []) && decide (m.state = .placed) && decide (m.placement ≠ 2) &&
      (List.range (m.endTile - m.firstTile)).any fun i =>
        let t := m.firstTile + i
        (s.homePages (2 ^ 20 + slot) t (imgTileBytes m.image t)).any fun g => s.landing.retiring.any fun r => r.pages.contains g

/- Streams and streaming mode (R51 to R54) -/

/-- A stream closes: its KV charge and admission are released (R416). -/
def closeStream (n : Nat) (s : State) : State := { s with streams := kvDel n s.streams }

/-- The streams on a model slot. -/
def State.streamsOn (s : State) (slot : Nat) : List Nat := (s.streams.filter fun t => decide (t.2.slot = slot)).map (·.1)

/-- A model is in streaming mode: while it is being placed, while a line of its weights has no valid home after a failed check, and while a
RETIRE_RANGE relocates a page of its homes (R51). -/
def State.streams_ (s : State) (slot : Nat) : Bool :=
  ((kvGet slot s.models).any fun m => decide (m.state = .placing)) ||
    (s.landing.faults.any fun f => !f.poisoned && decide (f.data = .weights slot)) || s.relocates slot

/-- Streaming windows open and close with the mode: a placed model that streams has a window of WINDOW_LAYERS as they stand then charged to
its loader until it leaves the mode (R52, R72), and the promise does not apply to the GEN_STEPs outstanding on it (R54). Whether the window
fits the loader's quota then is not asked (log entry 190). -/
def settleWindows (s : State) : State :=
  s.models.foldl (fun s x =>
    if x.2.state ≠ .placed then s
    else if s.streams_ x.1 then
      let layers := if x.2.windowKib = 0 then s.landing.windowLayers else x.2.windowLayers
      let kib := windowKib x.2.image x.2.firstLayer (x.2.lastLayer + 1 - x.2.firstLayer) layers
      { s with
        models := kvMod x.1 (fun m => { m with windowKib := kib, windowLayers := layers }) s.models
        cmds := s.cmds.map fun c =>
          if c.opcode = 0x54 ∧ (s.streamsOn x.1).contains (fieldAt c.payload 0 2) then { c with covered := false } else c }
    else { s with models := kvMod x.1 (fun m => { m with windowKib := 0 }) s.models }) s

end Sys2Proof.Machine
end

