-- ==== Sys2Proof/Machine/Contexts.lean ====
section
/-!
DEFINITION. Machine/Contexts.lean: contexts end (R127, R148, R309, R406), and the meanings of CREATE_CONTEXT, SET_QUOTA,
SET_CLASS, CLOSE_CONTEXT and QUEUE_RESET (chapter 4 and R115, R116).
-/

namespace Sys2Proof.Machine

open Sys2Proof

/-- A live command names the model of a slot and was received before an order (R405). -/
def State.modelBusy (s : State) (slot order : Nat) : Bool :=
  s.cmds.any fun c => c.live && decide (c.order < order) && (c.objects.contains (.model slot) ||
    c.objects.any fun o => match o with
      | .stream n => (s.streamsOn slot).contains n
      | .program h => ((kvGet (c.key.ctx * 16 + h) s.programs).bind (·.model)).any fun m => decide (m % 64 = slot)
      | _ => false)

/-- A MODEL_UNLOAD of the model was received before this command and has still to take effect: the command comes after it
(R405). -/
def State.unloadAhead (s : State) (slot order : Nat) : Bool :=
  s.cmds.any fun c => c.live && decide (c.opcode = 0x51) && decide (c.order < order) && c.objects.contains (.model slot)

/-- A model's steps in progress end, and its tiles leave the plots (R32). -/
def dropSteps (slot : Nat) (s : State) : State :=
  mapPlots (fun p => { p with tiles := p.tiles.filter fun t => decide (t.handle ≠ modelHandle slot) })
    { s with steps := s.steps.filter fun x => decide (x.slot ≠ slot) }

/-- A model is unloaded: its streams close, its charges end, and the image stays stored (R405, R406). -/
def unloadModel (slot : Nat) (s : State) : State :=
  let s := dropSteps slot ((s.streamsOn slot).foldl (fun s n => closeStream n s) s)
  { s with models := kvMod slot (fun m => { m with state := .stored, homeKib := 0, windowKib := 0, ending := none, lost := [] }) s.models,
           landing := { s.landing with schedules := s.landing.schedules.filter fun x => decide (x.owner ≠ .model slot) } }

/-- A live SEARCH names an index and was received before an order (R309). -/
def State.indexBusy (s : State) (i order : Nat) : Bool :=
  s.cmds.any fun c => c.live && decide (c.opcode = 0x44) && decide (c.order < order) && c.objects.contains (.index i)

/-- An index of which nothing is built (Table 9-2). -/
def Index.unbuilt (x : Index) : Index := { x with state := .empty, codebook := [], hot := [], entry := 0, nodes := [], siltList := [], pass := none, badTombs := [] }

/-- The owner of an index has gone: the index is DORMANT, its Landing parts released; one that was EMPTY, or being built, is EMPTY and DORMANT
(R309). -/
def Index.dormant (x : Index) : Index :=
  let y := { x with owner := 1024, ending := none, pass := none, landMib := 0, hot := [], quarantine := [] }
  if x.state = .empty ∨ x.state = .building ∨ x.state = .emptyDormant then { y.unbuilt with state := .emptyDormant } else { y with state := .dormant }

/-- A publish that did not become durable: what it linked is in the silt list again, and what it removed is tombstoned (R306, R546). -/
def Index.unpublished (linked tombs : List Nat) (x : Index) : Index :=
  { x with
    siltList := x.siltList ++ linked.filter fun j => !x.siltList.contains j && (kvGet j x.nodes).isSome
    nodes := x.nodes.map fun d => (d.1, if tombs.contains d.1 ∧ d.2.removed then { d.2 with live := true, removed := false } else d.2) }

/-- An INSERT is held on an index (R303). -/
def State.insertHeld (s : State) (i : Nat) : Bool := s.cmds.any fun c => decide (c.phase = .waiting (.silt i))

/-- An INSERT that is cut leaves none of its entries live (R302). -/
def undoInsert (c : Cmd) (s : State) : State :=
  if c.ids = [] then s
  else { s with indexes := kvMod (fieldAt c.payload 0 1) (fun x => { x with
    nodes := x.nodes.filter fun d => !c.ids.contains d.1, siltList := x.siltList.filter fun j => !c.ids.contains j }) s.indexes }

/- RETIRE_RANGE, from its receipt on (R69, R70) -/

/-- The payload is in order (Table 2-7). -/
def retireOk (p : List Byte) : Bool :=
  let b := fun i => fieldAt p i 1
  decide (p.length = 8) && decide (1 ≤ b 0) && decide (b 0 ≤ 2) && decide (b 1 ≤ 5) && decide (b 2 ≤ 63) && decide (b 3 ≤ 31) &&
    (decide (b 0 = 2) || decide (b 4 ≤ 15)) && decide (fieldAt p 5 3 = 0)

/-- The pages of the range. -/
def retirePages (p : List Byte) : List Nat :=
  let b := fun i => fieldAt p i 1
  let bank := ((b 1 * 64 + b 2) * 32 + b 3) * 16
  if b 0 = 1 then [bank + b 4] else (List.range 16).map (bank + ·)

/-- A RETIRE_RANGE is received: its range leaves the quota pool at once, unless that would leave the pool smaller than what is granted. -/
def retireReceived (c : Cmd) (s : State) : State :=
  let pages := retirePages c.payload
  let known := s.landing.retired ++ s.landing.retiring.flatMap fun r => r.pages
  let s' := modLanding (fun x => { x with retiring := x.retiring ++ [⟨c.order, pages, (pages.filter fun n => !known.contains n).length⟩] }) s
  if c.opcode ≠ 0x90 ∨ !retireOk c.payload ∨ s'.poolMib < s'.grantedMib then s else settleWindows s'

/-- A poisoned line at its new place, outside the range that it stood in (R69): which page that is is not stated. -/
def Line.moved : Line → Line
  | .landing st p b g l =>
    let n := Config.newPage (((st * 64 + p) * 32 + b) * 16 + g)
    .landing (n / 32768) (n / 512 % 64) (n / 16 % 32) (n % 16) l
  | l => l

/-- Retirements whose command has run, or has gone, are recorded once no refetch runs in their pages, and their commands complete; poison
goes to the new places of its lines (R61, R69). -/
def settleRetiring (s : State) : State :=
  let in_ := fun (r : Retiring) (f : LineFault) => f.line.page.any r.pages.contains
  let mine := fun (r : Retiring) => s.cmds.find? fun c => decide (c.order = r.order) && c.live
  settleWindows (s.landing.retiring.foldl (fun s r =>
    if (s.landing.faults.any fun f => !f.poisoned && in_ r f) ∨ (mine r).any fun c => decide (c.phase ≠ .waiting .lines) then s
    else
      let s := modLanding (fun x => { x with
        retiring := x.retiring.filter fun q => decide (q.order ≠ r.order)
        retired := (x.retired ++ r.pages).eraseDups
        faults := x.faults.map fun f => if in_ r f then { f with line := f.line.moved } else f }) (writeRoot s)
      match mine r with
      | none => s
      | some c => reply c stOk (leBytes 4 r.count ++ leBytes 4 s.poolMib) s) s)

/-- The index's INDEX_BUILD is outstanding: it has been received, or its reply has still to depart (Table 9-2). -/
def State.buildOpen (s : State) (i : Nat) : Bool :=
  (s.cmds.any fun c => c.live && decide (c.opcode = 0x41) && decide (c.tally = 1) && c.objects.contains (.index i) && (match c.phase with
    | .waiting (.quota _ _ _ _ acts) => acts.contains (.indexReady i)
    | _ => true)) || s.replies.any fun r => r.acts.contains (.indexReady i)

/-- An index leaves its owner, or its build has failed: what was built is gone, its units unmapped (R292, R309). -/
def endIndex (i : Nat) (f : Index → Index) (x : Index) (s : State) : State :=
  let s := { s with indexes := kvMod i f s.indexes }
  if x.state = .building then dropUnits (indexOwner i) s else s

/-- Indexes and models whose owner has ended, once the commands received before have completed (R309, R406), indexes whose build has failed (R292), and
retirements whose command has gone (R69). -/
def settleEnds (s : State) : State :=
  let s := s.indexes.foldl (fun s x =>
    match x.2.ending with
    | some o => if s.indexBusy x.1 o then s else endIndex x.1 Index.dormant x.2 s
    | none => if x.2.state = .building ∧ !s.buildOpen x.1 then endIndex x.1 Index.unbuilt x.2 s else s) s
  settleRetiring (s.models.foldl (fun s m =>
    match m.2.ending with
    | some o => if s.modelBusy m.1 o then s else unloadModel m.1 s
    | none => s) s)

/-- A context's runs, searches and scans stop: their blocks leave the exchange windows, and its bound chains break (R127, R148,
R466). -/
def stopWork (n : Nat) (s : State) : State :=
  let s := s.links.bindings.foldl (fun s b => if b.2.ctx = n then breakChain b.1 none s else s) s
  let s := dropBlocks ((s.runs.filter fun r => decide (r.ctx = n)).flatMap fun r => (r.sent ++ r.landed).map fun x => x.2.2) s
  { s with
    runs := s.runs.filter fun r => decide (r.ctx ≠ n)
    steps := s.steps.filter fun x => decide (x.ctx ≠ n)
    trains := s.trains.filter fun q => decide (q.key.context ≠ some n)
    searches := s.searches.filter fun q => decide (q.key.context ≠ some n)
    scans := s.scans.filter fun q => decide (q.key.context ≠ some n) }

/-- A context that has ended leaves a plot at its next boundary: until then its place there has no number. Its tiles, claims and
shadow sets are gone, and a swap of it stops (R148, Table 4-10). -/
def Plot.forget (n : Nat) (p : Plot) : Plot :=
  { p with
    residents := p.residents.map fun r => if r.ctx = n then { r with ctx := 65535, cls := .batch, out := none } else r
    running := if p.running = some n then some 65535 else p.running
    claims := p.claims.filter fun m => decide (m ≠ n)
    tiles := p.tiles.filter fun t => decide (t.ctx ≠ n)
    flights := p.flights.map fun f => if f.key.context = some n then { f with reads := [], writes := [] } else f
    swap := if p.swap.any (fun w => decide (w.ctx = n)) then none else p.swap
    shadow := p.shadow.map fun x => if x.any fun y => decide (y.key.context = some n) then none else x }

/-- What a context loses when it ends: programs and their chains, predicates, runs, streams, searches, scans, hints, images
and residency; its models and indexes follow R309 and R406. -/
def dropWork (n : Nat) (s : State) : State :=
  let s := stopWork n s
  let s := s.streams.foldl (fun s t => if t.2.ctx = n then closeStream t.1 s else s) s
  let s := { s with
    programs := s.programs.filter fun p => decide (p.1 / 16 ≠ n)
    preds := s.preds.filter fun p => decide (p.1 / 32 ≠ n)
    models := s.models.map fun m => (m.1,
      if m.2.loader = n ∧ (m.2.state = .placing ∨ m.2.state = .placed ∨ m.2.state = .unavailable) ∧ m.2.ending = none
      then { m.2 with ending := some s.nextOrder } else m.2)
    indexes := s.indexes.map fun x => (x.1, if x.2.owner = n ∧ x.2.ending = none then { x.2 with ending := some s.nextOrder } else x.2) }
  let s := modPower (fun p => { p with hints := p.hints.filter fun h => decide (h.ctx ≠ n) }) s
  let s := modLanding (fun l => { l with schedules := l.schedules.filter fun x =>
    match x.owner with
    | .program c _ => decide (c ≠ n)
    | .model _ => true }) s
  let s := modLinks (fun l => { l with copies := l.copies.filter fun p => decide (p.key.ctx ≠ n) }) s
  let s := mapPlots (Plot.forget n) s
  settleEnds (modPlots (fun x => { x with images := x.images.filter fun i => decide (i.ctx ≠ n) }) s)

/-- The act is one on the context: it lapses when the context ends first. -/
def Act.onContext (n : Nat) : Act → Bool
  | .freeContext m => decide (m = n)
  | .landingQuota m _ => decide (m = n)
  | .setClass m _ => decide (m = n)
  | .queueReset m => decide (m = n)
  | _ => false

/-- The number becomes free, its quota back in the pool; the context has a last accounting record to come (R127, R492). -/
def freeContext (n : Nat) (s : State) : State :=
  let s := unbindDeferred n (dropWork n s)
  { s with
    contexts := kvDel n s.contexts
    replies := s.replies.map fun r => { r with acts := r.acts.filter fun a => !a.onContext n }
    landing := { s.landing with faults := s.landing.faults.map fun f => if f.owner = some n then { f with owner := none } else f }
    acct := { s.acct with cur := { s.acct.cur with
      counts := kvDel n s.acct.cur.counts
      closed := s.acct.cur.closed ++ [(n, { s.countsOf n with final := true })] } }
    media := { s.media with slots := s.media.slots.map fun x => (x.1, if x.2.ctx = n then { x.2 with ctx := 0xFFFF } else x.2) } }

/-- A write-buffer slot whose writing comes to nothing goes: its unit keeps its old content (R231, R251). -/
def dropSlot (n : Nat) (s : State) : State :=
  match kvGet n s.media.slots with
  | none => s
  | some x =>
    let s := modMedia (freeSlot n x.old) s
    if s.entry x.vol x.unit = some (.buffer n) then remap x.vol x.unit x.old s else s

/-- The open write-buffer units that a WRITE had placed and whose reply was not made are dropped (R231, R251). -/
def dropPlaced (k : CmdKey) (s : State) : State :=
  s.media.slots.foldl (fun s x => if x.2.writer = k ∧ !x.2.acked then dropSlot x.1 s else s) s

/-- Exported units that no volume, index or model image holds (R225, R282, R399). -/
def State.unassigned (s : State) : Nat :=
  s.media.exported - (s.media.volumes.map fun v => v.2.units).sum - (s.indexes.map fun x => x.2.units).sum -
    (s.models.map fun m => m.2.units).sum

/-- The payload of VOLUME_CREATE is in order, its number is free and its size available (Table 7-7, R248). -/
def State.createsVolume (s : State) (p : List Byte) : Bool :=
  let opts := fieldAt p 1 1
  decide (p.length = 32) && decide (opts ≤ 3) && decide (opts ≠ 2) && decide (fieldAt p 2 1 < 16) && decide (fieldAt p 2 1 ≠ 0) &&
    decide (fieldAt p 3 1 = 0) && decide (fieldAt p 16 16 = 0) && (kvGet (fieldAt p 0 1) s.media.volumes).isNone &&
    decide (1 ≤ fieldAt p 8 8) && decide (fieldAt p 8 8 ≤ s.unassigned)

/-- An unwrapped media key is held in the vault and in the key registers of the sieves, or is destroyed there (R229, R249). -/
def holdKey (n : Nat) (s : State) : State :=
  modMedia (fun m => { m with sieves := m.sieves.map fun v => { v with keys := if v.keys.contains n then v.keys else v.keys ++ [n] } })
    (modSec (fun x => { x with vault := if x.vault.contains n then x.vault else x.vault ++ [n] }) s)
def dropKey (n : Nat) (s : State) : State :=
  modMedia (fun m => { m with sieves := m.sieves.map fun v => { v with keys := v.keys.filter fun k => decide (k ≠ n) } })
    (modSec (fun x => { x with vault := x.vault.filter fun k => decide (k ≠ n) }) s)

/-- A media key as it is kept: its 64 bytes wrapped under K into 72 (R228, R508). -/
def State.wrap (s : State) (n : Nat) : List Byte := aesWrap s.sec.kek (leBytes 64 (Config.volumeKey n).toNat)

/-- The volume comes to be, with a key of its own, wholly unmapped; two root sets name it (R227, R248). -/
def makeVolume (p : List Byte) (s : State) : State :=
  let (key, s) := takeFree s
  let v : Volume := ⟨fieldAt p 8 8, bit (fieldAt p 1 1) 0, bit (fieldAt p 1 1) 1, fieldAt p 4 4, fieldAt p 2 1, key, s.wrap key⟩
  writeRoots (modMedia (fun m => { m with volumes := kvSet (fieldAt p 0 1) v m.volumes }) (holdKey key s))

/-- A VOLUME_CREATE that has been received is carried to its end when its context closes or its queue is reset (R248). -/
def carryCreate (c : Cmd) (s : State) : State :=
  if c.opcode = 0x27 ∧ c.live ∧ s.createsVolume c.payload ∧ s.keysPresent ∧ !s.keeper.writeProtect then makeVolume c.payload s else s

/-- The flags of a command that ends while its run is stalled say so: LT once the layer's late arrival has been counted (R47). -/
def Cmd.stalledLate (c : Cmd) (s : State) : Cmd := { c with lt := c.lt || s.runs.any fun r => decide (r.key = c.key) && r.late }

/-- One outstanding command ends with a status, its staged payload dropped (R116, R127, R148). Its completion is one like any other: held
after the loss of both ports, it is not produced while its charge does not fit (R44). -/
def endCmd (status : Nat) (s : State) (c : Cmd) : State :=
  match c.phase with
  | .replied => s
  | _ => fail (c.stalledLate s) status (undoInsert c (dropPlaced c.key (carryCreate c s)))

/-- As endCmd, for a command that ends with its session or by a teardown, where the charges of what is held end too (R114, R148, Table
2-2). -/
def endCmdNow (status : Nat) (s : State) (c : Cmd) : State :=
  match c.phase with
  | .replied => s
  | _ => putReply (c.stalledLate s) status false [] 0 [] (undoInsert c (dropPlaced c.key (carryCreate c s)))

/-- The reply of a command of the context has been made and none of it has left: the command is outstanding still (R83). A reply train
that has begun to leave is finished (log entry 143). -/
def Reply.endable (r : Reply) (n : Nat) : Bool := !r.reject && decide (r.key.context = some n) && decide (r.sent = 0)

/-- A reply that was made becomes that of a command that ends with a status. SH goes with the payload it spoke of. -/
def Reply.endAs (status : Nat) (r : Reply) : Reply :=
  { r with status := status, payload := [], cflags := r.cflags % 16 + r.cflags / 32 * 32, kib := waitKib r.key.queue r.held [] 0, acts := [] }

/-- The outstanding commands of a context chosen by key: those still to be completed, and those whose reply has not begun to leave (R83). -/
def State.openOf (s : State) (n : Nat) (which : CmdKey → Bool) : Nat :=
  (s.cmds.filter fun c => decide (c.key.context = some n) && which c.key && decide (c.phase ≠ .replied)).length +
    (s.replies.filter fun r => r.endable n && which r.key).length

/-- The outstanding commands of a context. -/
def State.openCmds (s : State) (n : Nat) : Nat := s.openOf n fun _ => true

/-- The replies of a context's commands, chosen by key, that have not begun to leave become those of commands that end with a status. -/
def endMade (n : Nat) (which : CmdKey → Bool) (status : Nat) (s : State) : State :=
  { s with replies := s.replies.map fun r => if r.endable n && which r.key then r.endAs status else r }

/-- Every outstanding command of a context chosen by key ends with a status (R116, R127). -/
def endCmds (n : Nat) (which : CmdKey → Bool) (status : Nat) (s : State) : State :=
  let s := endMade n which status s
  (s.cmds.filter fun c => decide (c.key.context = some n) && which c.key).foldl (endCmd status) s

/-- As endCmds, at a teardown. -/
def endCmdsNow (n : Nat) (which : CmdKey → Bool) (status : Nat) (s : State) : State :=
  let s := endMade n which status s
  (s.cmds.filter fun c => decide (c.key.context = some n) && which c.key).foldl (endCmdNow status) s

/-- A QUEUE_RESET of the context's data queue is outstanding, received or with its reply still to depart (R83, R115, Table 4-10). -/
def State.resetOf (s : State) (n : Nat) : Option Cmd :=
  s.cmds.find? fun c => decide (c.opcode = 0x14) && decide (c.hdrQueue = 0) && decide (c.hdrCtx = n) &&
    (c.live || s.replies.any fun r => decide (r.key = c.key) && r.acts.contains (.queueReset n))

/-- A QUEUE_RESET completes CONTEXT_CLOSED: one that has run and whose reply has not departed too (Table 4-10). -/
def closeReset (n : Nat) (c : Cmd) (s : State) : State :=
  if c.live then putReply c stContextClosed false [] 0 [] s
  else { s with replies := s.replies.map fun r => if r.acts.contains (.queueReset n) then r.endAs stContextClosed else r }

/-- A CLOSE_CONTEXT of the context is outstanding and received (Table 4-10). -/
def State.closeOf (s : State) (n : Nat) : Option Cmd :=
  s.cmds.find? fun c => decide (c.opcode = 0x13) && decide (c.hdrCtx = n) && c.live && (match kvGet n s.contexts with
    | none => false
    | some x => decide (x.session = c.key.session))

/-- A command that its context's close has already answered CONTEXT_CLOSED takes its fault's status instead, while its reply has not
begun to leave; the CLOSE_CONTEXT reply counts one fewer (Tables 4-5 and 4-10). -/
def faultReply (n status : Nat) (k : CmdKey) (s : State) : State :=
  if s.replies.any fun r => decide (r.key = k) && !r.reject && decide (r.status = stContextClosed) && decide (r.sent = 0) then
    { s with replies := s.replies.map fun r =>
        if r.key = k ∧ !r.reject then { r with status := status }
        else if r.acts.contains (.freeContext n) then { r with payload := leBytes 4 (leNat (r.payload.take 4) - 1) ++ r.payload.drop 4 }
        else r }
  else s

/-- What the replies of a context are charged ends (Table 2-2). -/
def uncharge (n : Nat) (s : State) : State :=
  { s with replies := s.replies.map fun r => if r.key.context = some n then { r with kib := 0 } else r }

/-- A fault tears a context down: the faulting command takes the fault's status, every other CONTEXT_CLOSED, and what the
context held is released, what its replies are charged with it (R148, Table 2-2). A plot's retirement exempts its commands from the promise
(Table 4-11). The data queue's commands take ABORTED_BY_RESET while a QUEUE_RESET is outstanding, and the reset CONTEXT_CLOSED (Table
4-10). While a CLOSE_CONTEXT is outstanding the close proceeds instead, to its reply of OK; a context
already torn down is left (R151, Table 4-10). -/
def tearDown (n status : Nat) (faulting : Option CmdKey) (s : State) : State :=
  match kvGet n s.contexts with
  | none => s
  | some x =>
    if x.torn.isSome ∨ x.faulted then s
    else if x.closing then
      modCtx n (fun x => { x with faulted := true }) (match faulting with
        | none => s
        | some k => faultReply n status k s)
    else
      let s := if status = stPlotRetired then
          { s with cmds := s.cmds.map fun c => if c.key.context = some n then { c with covered := false } else c }
        else s
      let isFaulting := fun (k : CmdKey) => decide (faulting = some k)
      let reset := s.resetOf n
      let aborted := fun (k : CmdKey) => reset.isSome && decide (k.queue = .data) && !isFaulting k
      let rest := fun (k : CmdKey) => !isFaulting k && !aborted k
      let open_ := s.openOf n rest
      let s := endCmdsNow n aborted stAborted (endCmdsNow n isFaulting status s)
      let s := endCmdsNow n rest stContextClosed (match reset with
        | none => s
        | some r => closeReset n r s)
      let s := uncharge n (dropWork n s)
      match s.closeOf n with
      | none => modCtx n (fun x => { x with torn := some status }) s
      | some c => modCmd c.key (fun c => { c with tally := open_ }) (modCtx n (fun x => { x with closing := true, faulted := true }) s)

/-- Every context of a session (R102, R114). -/
def State.contextsOf (s : State) (n : Nat) : List Nat :=
  (s.contexts.filter fun c => decide (c.2.session = n)).map (·.1)

/- CREATE_CONTEXT, SET_QUOTA, SET_CLASS -/

/-- An SRAM quota is a multiple of 64 KiB from 64 KiB to 2,944 KiB (R37). -/
def sramOk (k : Nat) : Bool := decide (k % 64 = 0) && decide (64 ≤ k) && decide (k ≤ 2944)

/-- SLICE_US is 500 to 20,000, or 0 for the default (Table 4-2). -/
def sliceOk (u : Nat) : Bool := decide (u = 0) || (decide (500 ≤ u) && decide (u ≤ 20000))

/-- SLICE_US as it applies. -/
def sliceOf (u : Nat) : Nat := if u = 0 then 2000 else u

/-- The payload of CREATE_CONTEXT is in order (Table 4-2, R37, R121). -/
def createOk (pool : Nat) (p : List Byte) : Bool :=
  let cls := fieldAt p 0 1
  let lnd := fieldAt p 4 4
  decide (p.length = 16) && decide (cls ≤ 1) && decide (fieldAt p 1 1 ≤ 1) && sramOk (fieldAt p 2 2) && decide (lnd ≤ pool) &&
    decide (fieldAt p 8 2 ≤ 256) && (decide (cls = 0) || sliceOk (fieldAt p 10 2)) && decide (fieldAt p 12 4 = 0) &&
    (decide (cls = 0) || decide (1 ≤ lnd))

/-- CREATE_CONTEXT (R119 to R121, R38). -/
def createContext (c : Cmd) (s : State) : State :=
  let p := c.payload
  if !createOk s.poolMib p then fail c stInvalid s
  else match kvFree s.contexts 1024 with
    | none => fail c stQuota s
    | some n =>
      let lnd := fieldAt p 4 4
      if s.poolMib < s.grantedMib + lnd then fail c stQuota s
      else
        let x : Ctx :=
          { session := c.key.session, cls := if fieldAt p 0 1 = 0 then .interactive else .batch,
            strict := bit (fieldAt p 1 1) 0, sramKib := fieldAt p 2 2, landingMib := lnd, maxPlots := fieldAt p 8 2,
            sliceUs := if fieldAt p 0 1 = 0 then 2000 else sliceOf (fieldAt p 10 2), closing := false, torn := none,
            faulted := false, resetting := false, stepNo := none, stepSize := 0, lastRun := s.now, want := 0 }
        let s := { s with contexts := kvSet n x s.contexts }
        reply c stOk (leBytes 2 n ++ zeros 2 ++ leBytes 4 (s.poolMib - s.grantedMib)) s

def execCreateContext (k : CmdKey) (s : State) : Out := .next (withCmd 0x10 k createContext s)

/-- The fields of SET_QUOTA are in range (Table 4-3, R37). -/
def quotaOk (pool : Nat) (p : List Byte) : Bool :=
  let which := fieldAt p 10 1
  decide (p.length = 16) && decide (which < 16) && decide (fieldAt p 11 5 = 0) &&
    (!bit which 0 || decide (fieldAt p 0 4 ≤ pool)) && (!bit which 1 || sramOk (fieldAt p 4 2)) &&
    (!bit which 2 || decide (fieldAt p 6 2 ≤ 256)) && (!bit which 3 || sliceOk (fieldAt p 8 2))

/-- The charge in each tier that a SET_QUOTA may not go below (R38): the Landing charge with the swap allowance, in KiB. -/
def State.wholeChargeKib (s : State) (n : Nat) : Nat :=
  s.chargedKib n + (match kvGet n s.contexts with
    | some x => if x.cls = .batch then 256 * s.plotsHeld n else 0
    | none => 0)

/-- The present SRAM charge of a context: the most that it is charged on one plot (R32, R38, R330). -/
def State.sramChargeKib (s : State) (n : Nat) : Nat := (s.plots.list.map fun p => s.sramOn p.1 n).foldl max 0

/-- SET_QUOTA changes every field named or none; the Landing quota applies at the reply's departure, the others at the next
scheduling boundary on each plot (R122, R123, R38). The context's own figures are those new placements take. -/
def setQuota (c : Cmd) (x : Ctx) (s : State) : State :=
  let p := c.payload
  let n := c.hdrCtx
  let which := fieldAt p 10 1
  let lnd := if bit which 0 then fieldAt p 0 4 else x.landingMib
  if !quotaOk s.poolMib p then fail c stInvalid s
  else if s.poolMib < s.grantedMib - s.grantOf n x + max lnd (s.grantOf n x) ∨ (bit which 0 ∧ 1024 * lnd < s.wholeChargeKib n) ∨
      (bit which 1 ∧ fieldAt p 4 2 < s.sramChargeKib n) then fail c stQuota s
  else
    let f := fun (x : Ctx) => { x with
      sramKib := if bit which 1 then fieldAt p 4 2 else x.sramKib
      maxPlots := if bit which 2 then fieldAt p 6 2 else x.maxPlots
      sliceUs := if bit which 3 then sliceOf (fieldAt p 8 2) else x.sliceUs }
    let y := f x
    complete c stOk false (leBytes 4 lnd ++ leBytes 2 y.sramKib ++ leBytes 2 y.maxPlots) 0
      (if bit which 0 then [.landingQuota n lnd] else []) (modCtx n f s)

def execSetQuota (k : CmdKey) (s : State) : Out := .next (withTarget 0x11 k setQuota s)

/-- A context leaves the promise's treatment: its streams and searches, and its commands, are admitted no more (R124). -/
def lapseAdmission (n : Nat) (s : State) : State :=
  { s with
    streams := s.streams.map fun t => (t.1, if t.2.ctx = n then { t.2 with admitted := false, cls := .batch } else t.2)
    searches := s.searches.map fun q => if q.key.context = some n then { q with interactive := false } else q
    cmds := s.cmds.map fun d => if d.key.context = some n then { d with covered := false, admitted := false } else d }

/-- SET_CLASS (R124 to R126). -/
def setClass (c : Cmd) (x : Ctx) (s : State) : State :=
  let p := c.payload
  let n := c.hdrCtx
  if p.length ≠ 4 ∨ 1 < fieldAt p 0 1 ∨ fieldAt p 1 3 ≠ 0 then fail c stInvalid s
  else
    let new := if fieldAt p 0 1 = 0 then Cls.interactive else .batch
    if new = x.cls then reply c stOk [] s
    else if new = .batch then
      if s.headroomKib n < 256 * max 1 (s.plotsHeld n) then fail c stQuota s
      else complete c stOk false [] 0 [.setClass n .batch] (lapseAdmission n s)
    else if s.streams.any fun t => decide (t.2.ctx = n) then fail c stClassNotAdmitted s
    else complete c stOk false [] 0 [.setClass n .interactive] s

def execSetClass (k : CmdKey) (s : State) : Out := .next (withTarget 0x12 k setClass s)

/-- A context closes: every command of both its queues completes CONTEXT_CLOSED, and its work stops (R102, R127). One that closes already, or
that a fault has torn down, is left. -/
def closeWork (n : Nat) (s : State) : State :=
  if (kvGet n s.contexts).any fun x => x.closing || x.torn.isSome then s
  else modCtx n (fun x => { x with closing := true }) (stopWork n (endCmds n (fun _ => true) stContextClosed s))

/-- CLOSE_CONTEXT: every command of both queues completes CONTEXT_CLOSED, then the reply; the number is free once it has
departed (R127). -/
def closeContext (c : Cmd) (x : Ctx) (s : State) : State :=
  if c.payload ≠ [] then fail c stInvalid s
  else
    let n := c.hdrCtx
    let open_ := if x.closing then 0 else s.openCmds n
    complete c stOk false (leBytes 4 (c.tally + open_) ++ leBytes 4 x.landingMib) 0 [.freeContext n] (closeWork n s)

/-- A CLOSE_CONTEXT of an open context closes it; one that a fault has overtaken goes on to its reply (Table 4-10). -/
def closeTarget (c : Cmd) (s : State) : State :=
  match kvGet c.hdrCtx s.contexts with
  | none => fail c stContextClosed s
  | some x =>
    if x.session = c.key.session ∧ x.torn = none ∧ (!x.closing ∨ (x.faulted ∧ s.closeOf c.hdrCtx = some c)) then closeContext c x s
    else fail c stContextClosed s

def execCloseContext (k : CmdKey) (s : State) : Out := .next (withCmd 0x13 k closeTarget s)

/-- QUEUE_RESET: every command outstanding on the data queue completes ABORTED_BY_RESET, and every one that arrives before
the reply departs; a second reset aborts nothing further (R115, R116, Table 3-21). A reply train that has begun to leave is finished
(log entry 143). -/
def queueReset (c : Cmd) (_ : Ctx) (s : State) : State :=
  let n := c.hdrCtx
  if c.hdrQueue ≠ 0 ∨ c.payload ≠ [] then fail c stInvalid s
  else if c.tally = 1 then complete c stOk false (leBytes 4 0) 0 [] s
  else
    let isData := fun (k : CmdKey) => decide (k.queue = .data)
    complete c stOk false (leBytes 4 (s.openOf n isData)) 0 [.queueReset n]
      (modCtx n (fun x => { x with resetting := true }) (endCmds n isData stAborted s))

def execQueueReset (k : CmdKey) (s : State) : Out := .next (withTarget 0x14 k queueReset s)

end Sys2Proof.Machine
end

