-- ==== Sys2Proof/Machine/Accounts.lean ====
section
/-!
DEFINITION. Machine/Accounts.lean: energy accounting (chapter 16): the windows in which the model and the measurement are reconciled,
recalibration, the records and seals of an interval, and its journal.
-/

namespace Sys2Proof.Machine

open Sys2Proof

/- Records (R492, R493) -/

/-- The energy unit of the counts is 10^-14 J: a µJ and a mJ in it. -/
def uJ : Nat := 100000000
def mJ : Nat := 100000000000

/-- The seed of the accounting key, and of the identity key (R498). -/
def accountingSeed : List Byte := hkdf ((leBytes 32 Config.deviceSecret.toNat)) [] (ascii "KZ-ACC") 48
def identitySeed : List Byte := hkdf ((leBytes 32 Config.deviceSecret.toNat)) [] (ascii "KZ-ID") 48

/-- A signature of 17,088 bytes under one of the module's keys (R497). -/
def signature128f (seed msg : List Byte) : List Byte := (List.range 17088).map fun i => Config.slhSign seed msg i

/-- The 160 bytes of a record, its SEQ given (Table 16-7). -/
def recordBytes (kind flags ctx cls session seq start end_ modelMj energyMj : Nat) (a : AccCounts) (prev : List Byte) : List Byte :=
  leBytes 1 kind ++ leBytes 1 flags ++ leBytes 2 ctx ++ leBytes 1 cls ++ leBytes 1 session ++ zeros 2 ++ leBytes 8 seq ++
    leBytes 8 start ++ leBytes 8 end_ ++ leBytes 8 (a.macsInt8 + a.macsInt4 + a.macsBf16) ++ leBytes 8 a.landing ++
    leBytes 8 a.reads ++ leBytes 8 a.programs ++ leBytes 8 a.flits ++ leBytes 8 a.plotUs ++ leBytes 8 modelMj ++
    leBytes 8 energyMj ++ leBytes 8 a.waitUs ++ leBytes 4 a.covered ++ leBytes 4 a.exceeded ++ leBytes 4 a.exempt ++
    leBytes 4 a.thReplies ++ zeros 8 ++ prev

/-- The seal's 160 bytes (R493). -/
def sealBytes (seq start end_ first last : Nat) (prev : List Byte) : List Byte :=
  leBytes 1 4 ++ zeros 1 ++ leBytes 2 0xFFFF ++ leBytes 1 0xFF ++ leBytes 1 0xFF ++ zeros 2 ++ leBytes 8 seq ++ leBytes 8 start ++
    leBytes 8 end_ ++ leBytes 8 first ++ leBytes 8 last ++ zeros 80 ++ prev

/-- A signature part's 160 bytes (R493). -/
def partBytes (seq n : Nat) (sig : List Byte) : List Byte :=
  let body := slice sig (144 * n) 144
  leBytes 1 5 ++ leBytes 1 n ++ leBytes 2 body.length ++ zeros 4 ++ leBytes 8 seq ++ fit body 144

/-- An entry's KIND. -/
def AccRecord.kind (r : AccRecord) : Nat := fieldAt r.bytes 0 1

/-- The store without its oldest whole segment: up to its seal and that seal's signature parts (R494). -/
def dropSegment : List AccRecord → List AccRecord
  | [] => []
  | r :: rs => if r.kind = 4 then rs.dropWhile fun x => decide (x.kind = 5) else dropSegment rs

/-- An entry goes to the store; one that is not a signature part is chained (R493, R494). -/
def putEntry (ctx : Nat) (body : Nat → List Byte → List Byte) (a : Accounting) : Accounting :=
  let bytes := body a.nextSeq a.prevHash
  let r : AccRecord := ⟨a.nextSeq, ctx, bytes⟩
  let full := decide (16777216 ≤ a.records.length)
  let kept := if full then dropSegment a.records else a.records
  { a with
    records := kept ++ [r]
    nextSeq := a.nextSeq + 1
    oldest := ((kept ++ [r]).head?.map (·.seq)).getD a.nextSeq
    prevHash := if r.kind = 5 then a.prevHash else sha256 bytes }

/-- Sums of two contexts' counts. -/
def AccCounts.plus (a b : AccCounts) : AccCounts :=
  { a with
    macsInt8 := a.macsInt8 + b.macsInt8, macsInt4 := a.macsInt4 + b.macsInt4, macsBf16 := a.macsBf16 + b.macsBf16
    landing := a.landing + b.landing, reads := a.reads + b.reads, programs := a.programs + b.programs, flits := a.flits + b.flits
    plotUs := a.plotUs + b.plotUs, model := a.model + b.model, energy := a.energy + b.energy, waitUs := a.waitUs + b.waitUs
    covered := a.covered + b.covered, exceeded := a.exceeded + b.exceeded, exempt := a.exempt + b.exempt
    thReplies := a.thReplies + b.thReplies }

/-- The records of one interval: those of its contexts, the one of no context, which takes up the rounding, and the module's
(R492). -/
def writeRecords (i : AccInterval) (end_ extra : Nat) (a : Accounting) : Accounting :=
  let ctxs := i.closed ++ i.counts
  let total := i.measured / 1000
  let given := (ctxs.map fun c => c.2.energy / mJ).sum
  let all := ctxs.foldl (fun t c => t.plus c.2) i.nobody
  let a := ctxs.foldl (fun a c => putEntry c.1 (fun seq prev =>
    recordBytes 1 (i.flags + extra + 4 * b2n c.2.final) c.1 c.2.cls c.2.session seq i.start end_ (c.2.model / mJ) (c.2.energy / mJ) c.2 prev) a) a
  let a := putEntry 0xFFFF (fun seq prev =>
    recordBytes 2 (i.flags + extra) 0xFFFF 0xFF 0xFF seq i.start end_ (i.nobody.model / mJ) (total - given) i.nobody prev) a
  putEntry 0xFFFF (fun seq prev =>
    recordBytes 3 (i.flags + extra) 0xFFFF 0xFF 0xFF seq i.start end_ (all.model / mJ) total all prev) a

/-- The segment closes: its seal, and the seal's signature in 119 parts (R493). -/
def closeSegment (end_ : Nat) (a : Accounting) : Accounting :=
  let body := sealBytes a.nextSeq a.segStart end_ a.segFirst (a.nextSeq - 1) a.prevHash
  let sig := signature128f accountingSeed body
  let a := putEntry 0xFFFF (fun _ _ => body) a
  let a := (List.range 119).foldl (fun a n => putEntry 0xFFFF (fun seq _ => partBytes seq n sig) a) a
  { a with segStart := end_, segFirst := a.nextSeq }

/-- The running interval with every open context in it, as its records show them: the class at its end (Table 16-7). -/
def State.interval (s : State) : AccInterval :=
  { s.acct.cur with counts := s.contexts.map fun x => (x.1, { s.countsOf x.1 with cls := x.2.cls.code, session := x.2.session }) }

/-- An interval ends: its records, a seal when the segment is 600 s old, and the next interval, of the interval length now set. -/
def endInterval (s : State) : State :=
  let i := s.interval
  modAcct (fun a =>
    let a := writeRecords i s.now 0 a
    let a := if a.segStart + 600 * countsS ≤ s.now then closeSegment s.now a else a
    { a with cur := AccInterval.begin s.now, intervalS := a.nextIntervalS, journaled := none, journalAt := s.now }) s

def execAccountingIntervalEnd (s : State) : Out :=
  .next (if s.keeper.stage = 5 ∧ s.since s.acct.cur.start (s.acct.intervalS * countsS) then endInterval s else s)

/-- The interval's counts are journaled (R495). -/
def execAccountingJournal (s : State) : Out :=
  .next (if s.keeper.stage = 5 ∧ s.since s.acct.journalAt countsS then
    modAcct (fun a => { a with journaled := some s.interval, journalAt := s.now }) s else s)

/-- At the first start after a loss of power or a reset the interrupted interval closes at its last journaled second with CUT, and
the segment closes (R495). -/
def cutInterval (s : State) : State :=
  modAcct (fun a =>
    let a' := match a.journaled with
      | none => a
      | some i => writeRecords i a.journalAt 16 a
    let a' := if a'.segFirst < a'.nextSeq then closeSegment a.journalAt a' else a'
    { a' with cur := AccInterval.begin s.now, segStart := s.now, intervalS := a.nextIntervalS, journaled := none, journalAt := s.now }) s

/- Windows (R489 to R491) -/

/-- d in units of 0.1%, rounded to nearest (DEDUCED from the example of chapter 16: 18 ÷ 98 is reported as 184); without any
measurement it is the largest there is, or 0 when nothing was modelled either (log entry 130). -/
def disagreement (t m : Nat) : Nat :=
  let diff := if m ≤ t then t - m else m - t
  if m = 0 then (if t = 0 then 0 else 65535) else min 65535 ((2000 * diff + m) / (2 * m))

/-- The disagreement of a window is above a percentage. -/
def above (pct t m : Nat) : Bool := decide (pct * m < 100 * (if m ≤ t then t - m else m - t))

/-- The weight of a context's work in a split of the measurement: plot-µs × 1.88 µJ and Landing bytes × 16.7 pJ, in 10^-14 J. -/
def AccCounts.weight (a : AccCounts) : Nat := a.winUs * 188000000 + a.winLanding * 1670

/-- The modelled energy of every context in the window. -/
def AccInterval.sum (f : AccCounts → Nat) (i : AccInterval) : Nat := ((i.counts ++ i.closed).map fun c => f c.2).sum

/-- A window's energy goes to one context, and the window's counts start again. -/
def AccCounts.take (f : AccCounts → Nat) (a : AccCounts) : AccCounts :=
  { a with energy := a.energy + f a, model := a.model + a.winModel, winModel := 0, winUs := 0, winLanding := 0 }

/-- ARGS of MODEL_DRIFT and CALIBRATION_FAULT (R491). -/
def driftArgs (d kind t m : Nat) : List Byte := evArgs [(20, 2, d), (22, 1, kind), (23, 1, if m ≤ t then 0 else 1)]

/-- A 100 ms window ends (R489). All energies are in units of 10^-14 J; m is the measured one. -/
def window (measuredUj : Nat) (s : State) : State :=
  let a := s.acct
  let i := a.cur
  let m := measuredUj * uJ
  let sum := i.sum (·.winModel)
  let t := sum + i.nobody.winModel + a.standingUj * uJ
  let d := disagreement t m
  let beyond := above 15 t m
  let ups := if beyond then a.above + 1 else 0
  let downs := if beyond then 0 else a.below + 1
  let starts := !a.drift && decide (10 ≤ ups)
  let ends := a.drift && decide (10 ≤ downs)
  let faultStarts := !a.calFault && above 40 t m
  let fault := a.calFault || faultStarts
  let all := i.sum (·.weight) + i.nobody.weight
  let share := fun (c : AccCounts) =>
    if fault then (if all = 0 then 0 else m * c.weight / all)
    else if a.drift then (if t = 0 then 0 else c.winModel * m / t)
    else if m < sum then c.winModel * m / sum
    else c.winModel
  let given := i.sum share
  let nobody := (i.nobody.take fun _ => m - given)
  let cur : AccInterval :=
    { i with
      counts := i.counts.map fun c => (c.1, c.2.take share)
      closed := i.closed.map fun c => (c.1, c.2.take share)
      nobody := { nobody with model := nobody.model + a.standingUj * uJ }
      measured := i.measured + measuredUj
      flags := Nat.lor i.flags (b2n a.drift + 2 * b2n fault + 8 * b2n s.throttled) }
  let s := modAcct (fun a => { a with
    cur := cur, modelled := t / uJ, lastM := measuredUj, disagree := d, above := ups, below := downs
    drift := (a.drift || starts) && !ends, drifts := satAdd 16 a.drifts (b2n starts)
    calFault := fault, faultAt := if faultStarts then s.now else a.faultAt, calFaults := satAdd 16 a.calFaults (b2n faultStarts) }) s
  let s := if starts then raise 0x0502 1 0 0 0xFFFF (driftArgs d 1 t m) s else if ends then raise 0x0502 0 0 0 0xFFFF (driftArgs d 2 t m) s else s
  if faultStarts then raise 0x0503 2 0 0 0xFFFF (driftArgs d 1 t m) s else s

def execAccountingWindow (measuredUj : Nat) (s : State) : Out :=
  .next (if s.keeper.stage = 5 then window measuredUj s else s)

/-- A recalibration begins (R490); in deep idle it is deferred (Table 16-8). -/
def startRecal (s : State) : State := modAcct (fun a => { a with calibrating := true, calibratedAt := s.now }) s

/-- A recalibration falls due 10 s after a calibration fault starts, and every 10 minutes while it lasts (R490). -/
def State.recalDue (s : State) : Bool :=
  let a := s.acct
  a.calFault && !a.calibrating && decide (s.power.idle = .running) && s.since a.faultAt (10 * countsS) &&
    (decide (a.calibratedAt < a.faultAt + 10 * countsS) || s.since a.calibratedAt (600 * countsS))

def execRecalibrationStart (s : State) : Out := .next (if s.keeper.stage = 5 ∧ s.recalDue then startRecal s else s)

/-- A recalibration ends: one that succeeds leaves the refitted prices and ends a fault (R490, R491). -/
def recalEnd (ok : Bool) (prices : List Nat) (s : State) : State :=
  let a := s.acct
  if !a.calibrating then s
  else
    let s := modAcct (fun a => { a with
      calibrating := false, prices := if ok ∧ prices.length = 8 then prices else a.prices, calFault := a.calFault && !ok }) s
    if a.calFault ∧ ok then raise 0x0503 0 0 0 0xFFFF (driftArgs a.disagree 2 a.modelled a.lastM) s else s

def execRecalibrationEnd (ok : Bool) (prices : List Nat) (s : State) : Out := .next (recalEnd ok prices s)

end Sys2Proof.Machine
end

