-- ==== Sys2Proof/Machine/Floats.lean ====
section
/-!
DEFINITION. Machine/Floats.lean: binary floating point of any exponent and fraction width, with exact rational values: what a
word of a format stands for, and the word that a value rounds to (IEEE 754; R343, R360).
-/

namespace Sys2Proof.Machine

/-- What a floating word stands for; a number is a sign and a magnitude, so that the zeros keep their sign. -/
inductive FVal where
  | nan
  | inf (neg : Bool)
  | num (neg : Bool) (mag : ℚ)
  deriving DecidableEq, Repr

/-- A binary format: exponent and fraction bits. -/
structure FFmt where
  eb : Nat
  mb : Nat
  deriving DecidableEq, Repr

/-- binary16, bfloat16, binary32 and binary64. -/
def fp16 : FFmt := ⟨5, 10⟩
def bf16 : FFmt := ⟨8, 7⟩
def fp32 : FFmt := ⟨8, 23⟩
def fp64 : FFmt := ⟨11, 52⟩

/-- 2 to an integer power. -/
def pow2 (e : Int) : ℚ := if 0 ≤ e then (2 : ℚ) ^ e.toNat else 1 / (2 : ℚ) ^ (-e).toNat

def FFmt.bias (f : FFmt) : Nat := 2 ^ (f.eb - 1) - 1

/-- The word of positive infinity. -/
def FFmt.infWord (f : FFmt) : Nat := (2 ^ f.eb - 1) * 2 ^ f.mb

/-- The sign bit. -/
def FFmt.signBit (f : FFmt) : Nat := 2 ^ (f.eb + f.mb)

/-- What a word stands for (IEEE 754). -/
def FFmt.decode (f : FFmt) (w : Nat) : FVal :=
  let neg := decide (w / f.signBit % 2 = 1)
  let e := w / 2 ^ f.mb % 2 ^ f.eb
  let m := w % 2 ^ f.mb
  if e = 2 ^ f.eb - 1 then (if m = 0 then .inf neg else .nan)
  else if e = 0 then .num neg (m * pow2 (1 - f.bias - f.mb))
  else .num neg ((2 ^ f.mb + m : Nat) * pow2 (e - f.bias - f.mb))

/-- The signed value of a number; 0 for what is none. -/
def FVal.val : FVal → ℚ
  | .num true m => -m
  | .num false m => m
  | _ => 0

def FVal.isNan : FVal → Bool
  | .nan => true
  | _ => false

def FVal.isNum : FVal → Bool
  | .num _ _ => true
  | _ => false

def FVal.isNeg : FVal → Bool
  | .num n _ => n
  | .inf n => n
  | .nan => false

/-- Less than, as IEEE 754 compares; a NaN compares false. -/
def FVal.lt : FVal → FVal → Bool
  | .nan, _ => false
  | _, .nan => false
  | .inf a, .inf b => a && !b
  | .inf a, .num _ _ => a
  | .num _ _, .inf b => !b
  | a, b => decide (a.val < b.val)

/-- Equal, as IEEE 754 compares: the zeros are equal. -/
def FVal.eq : FVal → FVal → Bool
  | .nan, _ => false
  | _, .nan => false
  | .inf a, .inf b => a == b
  | .inf _, .num _ _ => false
  | .num _ _, .inf _ => false
  | a, b => decide (a.val = b.val)

/-- The exponent of a positive magnitude: 2^e ≤ m < 2^(e+1). -/
def expOf (m : ℚ) : Int :=
  let e : Int := (Nat.log2 m.num.natAbs : Int) - (Nat.log2 m.den : Int)
  if m < pow2 e then e - 1 else e

/-- Does rounding take the neighbour farther from zero, given the fraction beyond the nearer one and whether that is odd? -/
abbrev RoundUp := ℚ → Bool → Bool

/-- To nearest, ties to even. -/
def nearest : RoundUp := fun r odd => decide (r > 1 / 2) || (decide (r = 1 / 2) && odd)

/-- Away from zero. -/
def awayUp : RoundUp := fun r _ => decide (0 < r)

/-- Stochastic: an inexact value takes the farther neighbour when its random bit says so (R360). -/
def stochasticUp (b : Bool) : RoundUp := fun r _ => decide (0 < r) && b

/-- A magnitude rounded to a whole number. -/
def roundNat (up : RoundUp) (m : ℚ) : Nat :=
  let k := m.floor.toNat
  if up (m - k) (k % 2 == 1) then k + 1 else k

/-- The word, without sign, that a magnitude rounds to; it may reach that of infinity. -/
def FFmt.magWord (f : FFmt) (up : RoundUp) (m : ℚ) : Nat :=
  if m ≤ 0 then 0
  else
    let emin : Int := 1 - (f.bias : Int)
    let e := max (expOf m) emin
    min f.infWord ((e - emin).toNat * 2 ^ f.mb + roundNat up (m * pow2 (f.mb - e)))

/-- A NaN of the format, its payload and sign from a free word. -/
def FFmt.nanWord (f : FFmt) (free : Nat) : Nat :=
  let p := free % 2 ^ f.mb
  f.infWord + (if p = 0 then 2 ^ (f.mb - 1) else p) + (if free / 2 ^ f.mb % 2 = 1 then f.signBit else 0)

/-- The word that a value rounds to. -/
def FFmt.encode (f : FFmt) (up : RoundUp) (free : Nat) : FVal → Nat
  | .nan => f.nanWord free
  | .inf n => f.infWord + (if n then f.signBit else 0)
  | .num n m => f.magWord up m + (if n then f.signBit else 0)

/-- A square root close enough to round: exact to 64 bits, with a half unit added when it is not exact. -/
def sqrtRat (q : ℚ) : ℚ :=
  if q ≤ 0 then 0
  else
    let k : Int := 64 - expOf q / 2
    let n := (q * pow2 (2 * k)).floor.toNat
    let r := Nat.sqrt n
    (r + (if (r * r : ℚ) = q * pow2 (2 * k) then 0 else 1 / 2)) * pow2 (-k)

/-- A value rounded into a format, as a value. -/
def FFmt.round (f : FFmt) (v : FVal) : FVal := f.decode (f.encode nearest 0 v)

/-- The value of a signed rational. -/
def FVal.ofRat (q : ℚ) : FVal := if q < 0 then .num true (-q) else .num false q

/-- Exact sum, product and quotient as IEEE 754 gives them before rounding. -/
def FVal.add : FVal → FVal → FVal
  | .nan, _ => .nan
  | _, .nan => .nan
  | .inf a, .inf b => if a = b then .inf a else .nan
  | .inf a, _ => .inf a
  | _, .inf b => .inf b
  | .num a m, .num b n =>
    let v := (FVal.num a m).val + (FVal.num b n).val
    if v = 0 then .num (a && b) 0 else FVal.ofRat v

def FVal.neg : FVal → FVal
  | .nan => .nan
  | .inf a => .inf (!a)
  | .num a m => .num (!a) m

def FVal.sub (a b : FVal) : FVal := a.add b.neg

def FVal.mul : FVal → FVal → FVal
  | .nan, _ => .nan
  | _, .nan => .nan
  | .inf a, .inf b => .inf (a != b)
  | .inf a, .num b m => if m = 0 then .nan else .inf (a != b)
  | .num a m, .inf b => if m = 0 then .nan else .inf (a != b)
  | .num a m, .num b n => .num (a != b) (m * n)

def FVal.div : FVal → FVal → FVal
  | .nan, _ => .nan
  | _, .nan => .nan
  | .inf _, .inf _ => .nan
  | .inf a, .num b _ => .inf (a != b)
  | .num a _, .inf b => .num (a != b) 0
  | .num a m, .num b n => if n = 0 then (if m = 0 then .nan else .inf (a != b)) else .num (a != b) (m / n)

end Sys2Proof.Machine
end

