-- ==== Sys2Proof/Machine/Host.lean ====
section
/-!
DEFINITION. Machine/Host.lean: packets, heartbeats, ports and sessions (chapter 3): the checks on an arriving packet,
admission, port loss, and the meanings of PACKET_ARRIVAL, HEARTBEAT, OPEN_SESSION, CLOSE_SESSION, SET_EVENT_MASK and of the
port and session events.
-/

namespace Sys2Proof.Machine

open Sys2Proof

/- Ports (R108 to R112) -/

/-- A valid HEARTBEAT arrives on a port: a port with lock is up, and a lost one raises PORT_RESTORED (R108, R110). -/
def heartbeatIn (port : Nat) (s : State) : State :=
  let p := s.port port
  if !s.serving ∨ !p.enabled ∨ !p.lock then s
  else
    let s' := modPort port (fun p => { p with lastBeat := s.now, up := true, lost := false }) s
    if p.lost then raise 0x0002 0 1 port 0xFFFF (evArgs [(20, 1, s'.portsUp)]) s' else s'

def execHeartbeat (port : Nat) (s : State) : Out := .next (heartbeatIn port s)

/-- The part-received trains on the ports chosen. -/
def State.trainsOn (s : State) (ports : List Nat) : List Cmd :=
  s.cmds.filter fun c => decide (c.phase = .arriving) && ports.contains c.port

/-- Part-received trains on lost ports are dropped, each command completing TRANSFER_LOST (R111, R112). -/
def dropTrains (ports : List Nat) (s : State) : State :=
  (s.trainsOn ports).foldl (fun s c => putReply c stTransferLost false [] 0 [] s) s

/-- A reply train cut by the loss of its port starts again, from TRAIN_INDEX 0 (R93). -/
def recallReplies (port : Nat) (s : State) : State :=
  { s with replies := s.replies.map fun r => if r.on = some port then { r with sent := 0, on := none } else r }

/-- A reply is held for its session, and charged its bytes (R112, Table 2-2). What would have followed an OPEN_SESSION reply
that never left follows the one that resumes the session (R113). -/
def Reply.hold (r : Reply) : Reply :=
  { r with held := true, kib := waitKib r.key.queue true r.payload r.kib, acts := r.acts.filter fun a =>
      match a with
      | .afterOpen _ _ => false
      | _ => true }

/-- Both ports are lost: every open session is held, with 60 s of grace, and its replies are held, rejections among them (R112,
Table 3-3). -/
def holdSessions (s : State) : State :=
  let open_ := fun (n : Nat) => decide ((s.session n).phase = .opened)
  { s with
    sessions := s.sessions.map fun x =>
      if x.phase = .opened then { x with phase := .held, graceEnd := s.now + 60 * countsS } else x
    replies := s.replies.map fun r => if open_ r.key.session then r.hold else r }

/-- A port is lost (R110 to R112), with its cause and the trains dropped in the event (R108): those on it, and all of them when no
port is up any more. -/
def losePort (port cause : Nat) (s : State) : State :=
  let p := s.port port
  if !p.up then s
  else
    let s := recallReplies port (modPort port (fun p => { p with up := false, lost := true, losses := satAdd 16 p.losses 1 }) s)
    let ports := if s.portsUp = 0 then [0, 1] else [port]
    let n := (s.trainsOn ports).length
    let s := if s.portsUp = 0 then holdSessions s else s
    let s := lapsePromise (dropTrains ports s)
    raise 0x0001 (if s.portsUp = 0 then 2 else 1) 1 port 0xFFFF (evArgs [(20, 1, cause), (21, 1, s.portsUp), (22, 2, n)]) s

/-- A port that can take no packet any more, and that was not up: the trains begun on it are dropped. When the other is not up and can take
none either, both are lost: a session that was opened or resumed over one that was not up is held now (R112, log entry 140). -/
def cutPort (port : Nat) (s : State) : State :=
  let s := dropTrains [port] s
  if s.portsUp = 0 ∧ [0, 1].all fun n => !(s.port n).lock || !(s.port n).enabled then dropTrains [0, 1] (holdSessions s) else s

/-- PRT_PORT_CFG takes effect: a port disabled is lost with cause 0x03, one enabled may come up again (R108, R117). A port that is
enabled and not up has nothing to lose but the trains begun on it: no PORT_LOST, no count in PRT_LOSSES; its coming up again raises
PORT_RESTORED (DESIGN CHOICE, log entry 140). -/
def setEnable (enable : Nat) (s : State) : State :=
  let s := ([0, 1].filter fun n => bit enable n).foldl (fun s n => modPort n (fun p => { p with enabled := true }) s) s
  ([0, 1].filter fun n => !bit enable n).foldl (fun s n =>
    let s := modPort n (fun p => { p with enabled := false }) s
    if (s.port n).up then losePort n 3 s else cutPort n (modPort n (fun p => { p with lost := true }) s)) s

/-- R110: no valid HEARTBEAT for 30 ms. Sent early it changes nothing (log entry 3). -/
def execPortHeartbeatTimeout (port : Nat) (s : State) : Out :=
  .next (if (s.port port).up ∧ s.since (s.port port).lastBeat (30 * countsMs) then losePort port 1 s else s)

/-- R110: the receiver has been without lock for 1 ms. The port loses lock and, if it was up, is lost; a train begun on a port that
was not up is dropped with it (log entry 140). -/
def execPortLockTimeout (port : Nat) (s : State) : Out :=
  let s := modPort port (fun p => { p with lock := false, lockLost := s.now }) s
  .next (if (s.port port).up then losePort port 2 s else cutPort port s)

/-- Optical lock is gained: heartbeats start on the port at once (R109, R110, Table 3-23). -/
def execPortLockGained (port : Nat) (s : State) : Out :=
  .next (modPort port (fun p => { p with lock := true, beatSent := if p.lock then p.beatSent else none }) s)

/-- A frame with an uncorrectable codeword is discarded and counted; corrected codewords are counted (R73, Tables 3-27 and
3-28). -/
def execFrameDiscarded (port uncorrected corrected : Nat) (s : State) : Out :=
  .next (modPort port (fun p => { p with fecUncorr := satAdd 16 p.fecUncorr uncorrected, fecCorr := satAdd 32 p.fecCorr corrected }) s)

/-- The module's HEARTBEAT payload (Table 3-12). -/
def heartbeatPayload (s : State) : List Byte :=
  leBytes 8 s.now ++ leBytes 1 s.sec.life.code ++ leBytes 1 s.portsUp ++ leBytes 1 s.openBits ++ leBytes 1 s.heldBits ++
    leBytes 4 (min (2 ^ 32 - 1) s.newEvents)

/-- A HEARTBEAT is due on a port: it has lock, and 10 ms have passed since its last one (R109). -/
def State.beatDue (s : State) (n : Nat) : Bool :=
  let p := s.port n
  p.lock && p.enabled && s.serving && (match p.beatSent with
    | none => true
    | some t => s.since t (10 * countsMs))

/-- A HEARTBEAT leaves on a port (Table 3-12). -/
def sendBeat (body : List Byte) (s : State) (n : Nat) : State :=
  emit n (mkHeader 0x01 2 0 0 0 0 0 0 16 0 0 0 body) body (modPort n (fun p => { p with beatSent := some s.now }) s)

/-- R109: a HEARTBEAT on each port where one is due; the count of new events starts again. In deep idle the keeper sends them
(R483). Sent early it changes nothing (log entry 3). The module keeps one count of events for both ports, which a HEARTBEAT on either
clears (DESIGN CHOICE, log entry 182). -/
def execHeartbeatSend (s : State) : Out :=
  .next (
    let ports := [0, 1].filter fun n => s.beatDue n
    if ports = [] then s else { ports.foldl (sendBeat (heartbeatPayload s)) s with newEvents := 0 })

/- Admission (Table 4-6) -/

/-- Fields of a stored model image (Table 13-1). -/
def Model.layers (m : Model) : Nat := fieldAt m.image 6 2
def Model.kvLayerBytes (m : Model) : Nat := fieldAt m.image 20 4

/-- Step bytes with a new stream counted (R128): the weight image of every model with an open interactive stream, and each
such stream's KV bytes at its declared maximum. -/
def State.stepBytes (s : State) (slot maxContext : Nat) : Nat :=
  let open_ := (s.streams.filter fun t => decide (t.2.cls = .interactive) && t.2.admitted).map fun t => (t.2.slot, t.2.maxContext)
  let all := (slot, maxContext) :: open_
  let slots := (List.range 64).filter fun m => all.any fun t => decide (t.1 = m)
  let bytes := fun m => match kvGet m s.models with
    | none => 0
    | some x => x.image.length
  let kv := fun m => match kvGet m s.models with
    | none => 0
    | some x => x.layers * x.kvLayerBytes
  (slots.map bytes).sum + (all.map fun t => t.2 * kv t.1).sum

/-- Stacks in service. -/
def State.stacks (s : State) : Nat := ((List.range 6).filter fun i => bit s.landing.stacksUp i).length

/-- Step bytes ÷ reserve bandwidth is 24 ms or less; the reserve is INTERACTIVE_PCT × 2.0 TB/s × stacks in service. -/
def State.bytesAdmitted (s : State) (slot maxContext : Nat) : Bool :=
  decide (s.stepBytes slot maxContext * 100 * 1000 ≤ 24 * s.landing.reservePct * 2000000000000 * s.stacks)

/-- A plot that a context holds can take one more search: a free search context, and 16 KiB of its SRAM quota (R330). -/
def State.takesSearch (s : State) (p n : Nat) (kib : Nat) : Bool := decide (s.searchesOn p < 64) && decide (s.sramOn p n + 16 ≤ kib)

/-- The plot test of Table 4-6: interactive work holds fewer than 128 plots, or the context holds one that can take the work. -/
def State.plotAdmitted (s : State) (op ctx : Nat) : Bool :=
  decide (s.interactivePlots < 128) || s.plots.list.any fun p => p.2.residents.any fun r =>
    decide (r.ctx = ctx) && (decide (op ≠ 0x44) || s.takesSearch p.1 ctx r.sramKib)

/-- Interactive searches admitted and outstanding: from the arrival of the first packet to the departure of the reply (R129). -/
def State.searchesAdmitted (s : State) : Nat := (s.cmds.filter fun c => decide (c.opcode = 0x44) && c.admitted).length

/-- Every test of Table 4-6 that applies to an interactive command passes (R128), given the payload of its first packet. An
index that is a batch index takes no interactive search (R285). -/
def admits (op ctx : Nat) (p : List Byte) (s : State) : Bool :=
  match op with
  | 0x53 =>
    decide ((s.streams.filter fun t => decide (t.2.cls = .interactive) && t.2.admitted).length < 96) &&
      decide (fieldAt p 4 4 ≤ 8192) && s.bytesAdmitted (fieldAt p 0 1 % 64) (fieldAt p 4 4) && s.plotAdmitted op ctx
  | 0x44 =>
    decide (s.searchesAdmitted < 4000) &&
      decide (fieldAt p 4 2 ≤ 100) && s.plotAdmitted op ctx &&
      (match kvGet (fieldAt p 0 1) s.indexes with
       | none => true
       | some x => decide (x.siltMax ≤ 1048576))
  | 0x42 => s.plotAdmitted op ctx
  | 0x52 => s.plotAdmitted op ctx
  | 0x54 => s.plotAdmitted op ctx
  | 0x71 => s.plotAdmitted op ctx
  | _ => true

/-- The tests of Table 4-6 that need nothing of the payload. -/
def admitsHeader (op ctx : Nat) (s : State) : Bool :=
  match op with
  | 0x53 => decide ((s.streams.filter fun t => decide (t.2.cls = .interactive) && t.2.admitted).length < 96) && s.plotAdmitted op ctx
  | 0x44 => decide (s.searchesAdmitted < 4000) && s.plotAdmitted op ctx
  | 0x42 | 0x52 | 0x54 | 0x71 => s.plotAdmitted op ctx
  | _ => true

/-- A refetch from flash runs for a reader of the context (R62, Table 4-11). -/
def State.refetching (s : State) (n : Nat) : Bool :=
  s.landing.faults.any fun f => !f.poisoned && f.flash.isSome && f.readers.any fun k => decide (k.context = some n)

/-- A plot retirement is under way for the context: it has been torn down by one that no spare has followed yet (Table 4-11, R338). -/
def State.losingPlot (s : State) (n : Nat) : Bool :=
  (kvGet n s.contexts).any (fun x => decide (x.torn = some stPlotRetired)) && s.plots.list.any fun p => p.2.vacating.isSome

/-- The command's own conditions of the promise hold (Tables 4-11 and R152): an admitted GEN_STEP on a placed whole model, or
an interactive SEARCH of k up to 100. -/
def State.covers (s : State) (c : Cmd) : Bool :=
  decide (c.cls = 0) && s.promiseOk && !s.refetching c.key.ctx && !s.losingPlot c.key.ctx &&
    (match c.opcode with
     | 0x44 => decide (fieldAt c.payload 4 2 ≤ 100)
     | 0x54 =>
       (match kvGet (fieldAt c.payload 0 2) s.streams with
        | none => false
        | some t => t.admitted && (match kvGet t.slot s.models with
          | none => false
          | some m => decide (m.state = .placed) && !s.streams_ t.slot && decide (m.placement = 0)))
     | _ => false)

/- Packets (Table 3-3) -/

/-- SEQUENCE against what the session expects: a number ahead of it is a gap, one behind it a resend (R81, R89). -/
def noteSeq (h : Header) (s : State) : State :=
  modSession h.session (fun x =>
    match x.nextSeq with
    | none => { x with nextSeq := some ((h.seq + 1) % 2 ^ 32) }
    | some e =>
      let d := (h.seq + 2 ^ 32 - e) % 2 ^ 32
      if d < 2 ^ 31 then
        { x with nextSeq := some ((h.seq + 1) % 2 ^ 32), seqGaps := if d = 0 then x.seqGaps else satAdd 8 x.seqGaps 1 }
      else x) s

/-- The packet joins the outstanding train with its tag (R78): its TRAIN and TRAIN_INDEX are left to check 12. -/
def Header.joins (h : Header) (port : Nat) (c : Cmd) : Bool :=
  decide (c.opcode = h.opcode) && decide (c.cls = h.cls) && decide (c.port = port) && decide (c.totalLen = h.total) &&
    decide (1 < trainLen h.total) && (!h.isAdmin || (decide (c.hdrCtx = h.ctx) && decide (c.hdrQueue = h.queue)))

/-- The count in the QUEUE_RESET reply of a context goes up by one: an arriving command was aborted (R116). -/
def bumpReset (n : Nat) (s : State) : State :=
  { s with replies := s.replies.map fun r =>
      if r.acts.contains (.queueReset n) then { r with payload := leBytes 4 (leNat r.payload + 1) } else r }

/-- KiB that a scan is received with: 2 × OUTPUT_MAX, or 64 MiB for SCAN_AGGREGATE (R270). -/
def Cmd.scanKib (c : Cmd) : Nat :=
  match c.opcode with
  | 0x31 | 0x32 => if outputMaxOk (fieldAt c.payload 4 4) then 2 * fieldAt c.payload 4 4 / 1024 else 0
  | 0x33 => 65536
  | _ => 0

/-- A scan, or a search or TRAIN_STEP that filters by a handle, takes a copy of its predicate when it is received (R264). A scan's results are
charged from then, if its context's headroom covers them (R270). -/
def capturePred (c : Cmd) (s : State) : State :=
  let p := c.payload
  let handle := match c.opcode with
    | 0x31 | 0x32 | 0x33 => some (fieldAt p 0 1)
    | 0x44 => if fieldAt p 1 1 = 1 then some (fieldAt p 2 1) else none
    | 0x60 => if fieldAt p 2 1 = 0xFF then none else some (fieldAt p 2 1)
    | _ => none
  match handle.bind fun h => if h < 32 then kvGet (c.key.ctx * 32 + h) s.preds else none with
  | none => s
  | some q =>
    let room := (modCmd c.key (fun c => { c with stagedKib := 0 }) s).fits c.key.ctx c.scanKib
    { s with scans := s.scans ++ [⟨c.key, q, if room then c.scanKib else 0, [], false, 0, 0⟩] }

/-- A reset of a queue of the context is outstanding: a QUEUE_RESET in order that has been received, or whose reply has still to depart. -/
def Cmd.resets (d : Cmd) (n : Nat) (s : State) : Bool :=
  decide (d.opcode = 0x14) && decide (d.hdrQueue = 0) && decide (d.hdrCtx = n) &&
    ((d.live && decide (d.payload = [])) || s.replies.any fun r => decide (r.key = d.key) && decide (r.opcode = 0x14) && decide (r.status = stOk))

/-- A QUEUE_RESET received while another is outstanding for its target aborts nothing (Table 3-21): its tally is 1. -/
def Cmd.markReset (c : Cmd) (s : State) : Cmd :=
  if c.opcode = 0x14 ∧ c.hdrQueue = 0 ∧ (s.cmds.any fun d => decide (d.key ≠ c.key) && d.resets c.hdrCtx s) then { c with tally := 1 } else c

/-- A FLUSH covers the WRITEs whose replies have departed when it is received (R244). -/
def Cmd.markFlush (c : Cmd) (s : State) : Cmd :=
  if c.opcode = 0x22 then { c with covers := (s.media.slots.filter fun x => x.2.departed).map (·.1) } else c

/-- The queue of the command is being reset (R116). -/
def State.resettingFor (s : State) (k : CmdKey) : Bool :=
  decide (k.queue = .data) && (match kvGet k.ctx s.contexts with
    | none => false
    | some x => x.resetting)

/-- A packet is accepted into its command: its payload is staged; when it is the last, the command is received (R79). A data
command for a queue that is being reset is aborted at once (R116), a retirement received all the same (R69); an admin command of a session
that is closing completes CONTEXT_CLOSED (R91, R102, log entry 141), one that may resume it apart (R101). -/
def acceptPacket (c : Cmd) (h : Header) (payload : List Byte) (s : State) : State :=
  let parts := kvSet h.index payload c.parts
  let bytes := (parts.map fun p => p.2.length).sum
  let c1 := { c with parts := parts, seen := h.index :: c.seen, seq := h.seq, stagedKib := if h.isAdmin then 0 else kib4 bytes,
                     arrived := s.now }
  let whole := decide (parts.length = trainLen h.total)
  let c2 := if whole then
      let c2 := (({ c1 with phase := .received, order := s.nextOrder } : Cmd).markReset s).markFlush s
      { c2 with covered := c2.covered && s.covers c2 }
    else c1
  let s := { s with
    cmds := (s.cmds.filter fun d => decide (d.key ≠ c.key)) ++ [c2]
    nextOrder := if whole then s.nextOrder + 1 else s.nextOrder }
  if s.resettingFor c.key then
    bumpReset c.key.ctx (settleRetiring (endCmd stAborted (if whole then retireReceived c2 s else s) c2))
  else if h.isAdmin ∧ (s.session h.session).closing ∧ (h.opcode ≠ 0 ∨ (s.session h.session).phase ≠ SessPhase.held) then endCmd stContextClosed s c2
  else if whole then retireReceived c2 (capturePred c2 s) else s

/-- A packet fails a check: alone, or, when its command's train is arriving, with the command, whose staged packets are dropped
(Table 3-3). -/
def badPacket (old : Option Cmd) (h : Header) (port status : Nat) (payload : List Byte) (s : State) : State :=
  match old with
  | none => rejectPacket h port status payload s
  | some c => putReply { c with seq := h.seq } status false [] 0 [] s

/-- Checks 12 to 14: on a failure the staged packets of the command are dropped (Table 3-3). -/
def checkPayload (old : Option Cmd) (h : Header) (port : Nat) (payload : List Byte) (s : State) : State :=
  let bad := fun (st : Nat) (s : State) => badPacket old h port st payload s
  let c := old.getD (h.newCmd port s)
  let held := (c.parts.map fun p => p.2.length).sum
  if !h.lenOk payload then bad stInvalid s
  else if (if payload = [] then 0 else crc32c payload) ≠ h.payCrc then
    bad stBadPayload (modPort port (fun p => { p with payErr := satAdd 16 p.payErr 1 }) s)
  else if !h.isAdmin ∧ !s.fits c.key.ctx (kib4 (held + payload.length) - c.stagedKib) ∧ payload ≠ [] then bad stQuota s
  else acceptPacket c h payload s

/-- Check 11's admission, for an interactive context (Table 4-6): the first packet to arrive is tested for what its header tells, and
the packet of TRAIN_INDEX 0 for what its payload tells (log entry 142). -/
def Header.admitted (h : Header) (payload : List Byte) (s : State) : Bool :=
  if h.index = 0 then admits h.opcode h.ctx payload s else admitsHeader h.opcode h.ctx s

/-- Checks 9 to 11, for a command's first packet (R78). -/
def checkAdmit (h : Header) (port : Nat) (info : OpInfo) (x : Option Ctx) (payload : List Byte) (s : State) : State :=
  if 16384 ≤ s.cmds.length then rejectPacket h port stQueueFull payload s
  else match x with
    | none => checkPayload none h port payload s
    | some x =>
      if h.isAdmin then checkPayload none h port payload s
      else if h.cls ≠ x.cls.code then rejectPacket h port stInvalid payload s
      else if !(if x.cls = .interactive then info.interactive else info.batch) then rejectPacket h port stClassNotAdmitted payload s
      else if x.cls = .interactive ∧ !h.admitted payload s then rejectPacket h port stClassNotAdmitted payload s
      else checkPayload none h port payload s

/-- A duplicate train packet is counted (R78). -/
def countDup (port : Nat) (s : State) : State := modPort port (fun p => { p with dupPkts := satAdd 16 p.dupPkts 1 }) s

/-- A packet joins the outstanding train with its tag: one already accepted is discarded and counted (R78). One for a command that
has failed and still waits to reply is discarded (log entry 142). -/
def joinTrain (c : Cmd) (h : Header) (port : Nat) (payload : List Byte) (s : State) : State :=
  if c.seen.contains h.index then countDup port s
  else if c.phase = .arriving then
    if h.index = 0 ∧ h.lenOk payload ∧ c.admitted ∧ !admits h.opcode h.ctx payload s then
      badPacket (some c) h port stClassNotAdmitted payload s
    else checkPayload (some c) h port payload s
  else if c.phase = .replied then s
  else rejectPacket h port stInvalid payload s

/-- Check 8: the tag is free, or the packet joins its train. -/
def checkTag (h : Header) (port : Nat) (info : OpInfo) (x : Option Ctx) (payload : List Byte) (s : State) : State :=
  match findCmd h.key s with
  | none => checkAdmit h port info x payload s
  | some c => if h.joins port c then joinTrain c h port payload s else rejectPacket h port stTagInUse payload s

/-- Check 7: the named context is open and belongs to this session. -/
def checkContext (h : Header) (port : Nat) (info : OpInfo) (payload : List Byte) (s : State) : State :=
  if info.admin ∧ !opsTarget.contains h.opcode then checkTag h port info none payload s
  else match kvGet h.ctx s.contexts with
    | none => rejectPacket h port stInvalid payload s
    | some x =>
      if x.session ≠ h.session then rejectPacket h port stInvalid payload s
      else if x.closing ∨ x.torn.isSome then rejectPacket h port stContextClosed payload s
      else checkTag h port info (some x) payload s

/-- The reply that check 4 sends at once on the arrival port, with DE where it is due (R98). -/
def emitNow (h : Header) (port status : Nat) (payload : List Byte) (s : State) : State :=
  emit port (mkHeader h.opcode (1 + (if h.isAdmin then 2 else 0)) h.cls h.tag h.queue h.ctx h.session 0 0 h.seq status
    (b2n (s.deferredFor h.key.context (h.volumes payload s)) + 2 * b2n s.throttled) []) [] s

/-- A BAD_HEADER_CHECK reply: words 0 to 4 as received with REPLY set, no payload of its own (R89, Table 3-2). -/
def badHeaderReply (raw : List Byte) (port : Nat) (s : State) : State :=
  let flags := leNat (slice raw 4 4)
  let w1 := if flags % 2 = 0 then flags + 1 else flags
  let body := slice raw 0 4 ++ leBytes 4 w1 ++ slice raw 8 12 ++ leBytes 2 stBadHeader ++ zeros 6
  emit port (body ++ leBytes 4 (crc32c body)) [] s

/-- A packet that is not a HEARTBEAT wakes a module in deep idle (R483). -/
def wake (s : State) : State :=
  if s.power.idle = .running then s
  else { s with power := { s.power with idle := .running, idleSince := s.now }, landing := { s.landing with selfRefresh := false } }

/-- Checks 3 to 6. -/
def checkHeader (h : Header) (port : Nat) (payload : List Byte) (s : State) : State :=
  let s := if (s.session h.session).phase = .free then s else noteSeq h s
  if h.version ≠ 1 ∨ h.isReply then rejectPacket h port stInvalid payload s
  else if (s.session h.session).phase ≠ .opened ∧ h.opcode ≠ 0 then emitNow h port stInvalid payload s
  else
    match opInfo h.opcode with
    | none => rejectPacket h port stUnknownOpcode payload s
    | some info => if info.fits h then checkContext h port info payload s else rejectPacket h port stInvalid payload s

/-- The checks of Table 3-3 on an arriving packet, in their order (R88). An enabled port with lock takes packets whether or not it is
up: the spec ties only the sending of replies and events to a port that is up (DESIGN CHOICE, log entry 140). -/
def arrive (port : Nat) (raw payload : List Byte) (s : State) : State :=
  let h := decodeHeader raw
  if !s.serving ∨ !(s.port port).enabled ∨ !(s.port port).lock then s
  else if raw.length ≠ 32 ∨ h.magic ≠ 0xD2E1 then modPort port (fun p => { p with hdrErr := satAdd 16 p.hdrErr 1 }) s
  else if crc32c (raw.take 28) ≠ h.hdrCrc then
    badHeaderReply raw port (modPort port (fun p => { p with hdrErr := satAdd 16 p.hdrErr 1 }) s)
  else if h.opcode = 1 then
    if h.version = 1 ∧ !h.isReply ∧ h.isAdmin ∧ h.payLen = 0 ∧ payload = [] then heartbeatIn port s else s
  else checkHeader h port payload (wake s)

def execPacketArrival (port : Nat) (header payload : List Byte) (s : State) : Out := .next (arrive port header payload s)

/- Sessions -/

/-- The deferred-error entries a session may read (R103). -/
def State.deferredOf (s : State) (n : Nat) : List Deferred :=
  s.media.deferred.filter fun d => decide (d.ctx = 0xFFFF) || (match kvGet d.ctx s.contexts with
    | none => false
    | some x => decide (x.session = n))

/-- OPEN_SESSION (R101). The reply is followed by what R113 sets out, when it departs. -/
def openSession (c : Cmd) (s : State) : State :=
  let p := c.payload
  let n := c.key.session
  let x := s.session n
  let mode := fieldAt p 0 1
  let new := decide (mode = 1) && decide (fieldAt p 8 8 = 0) && decide (x.phase = .free)
  let resume := decide (mode = 2) && decide (x.phase = .held) && decide (fieldAt p 8 8 = x.key)
  if p.length ≠ 16 ∨ fieldAt p 1 7 ≠ 0 ∨ !(new || resume) then fail c stInvalid s
  else
    let (i, s) := takeFree s
    let key := (Config.resumeKey i).toNat
    let held := (s.replies.filter fun r => decide (r.key.session = n) && r.held).length
    let s := modSession n (fun x =>
      if new then { Session.free with phase := .opened, key := key, seqGaps := x.seqGaps }
      else { x with phase := .opened, key := key, mask := 0, eventNo := 0 }) s
    complete c stOk false (leBytes 8 key ++ leBytes 2 held ++ leBytes 2 (s.contextsOf n).length ++ zeros 4) 0 [.afterOpen n resume] s

def execOpenSession (k : CmdKey) (s : State) : Out := .next (withCmd 0x00 k openSession s)

/-- Unfinished staging of firmware belongs to its session and is abandoned with it (R502). -/
def abandonStaging (n : Nat) (s : State) : State :=
  let f := fun (w : FwSlot) => if w.state = .staging ∧ w.session = n then FwSlot.empty else w
  modSec (fun x => { x with slot0 := f x.slot0, slot1 := f x.slot1 }) s

/-- CLOSE_SESSION: every context closes, then every other admin command completes CONTEXT_CLOSED, then the reply (R102). -/
def closeSession (c : Cmd) (s : State) : State :=
  if c.payload ≠ [] then fail c stInvalid s
  else
    let n := c.key.session
    let s := (s.contextsOf n).foldl (fun s x => closeWork x s) s
    let s := (s.cmds.filter fun d => decide (d.key.queue = .admin) && decide (d.key.session = n) && decide (d.key ≠ c.key) &&
      decide (d.phase ≠ .replied)).foldl (endCmd stContextClosed) s
    complete c stOk false [] 0 [.freeSession n] (modSession n (fun x => { x with closing := true }) s)

def execCloseSession (k : CmdKey) (s : State) : Out := .next (withCmd 0x0B k closeSession s)

/-- The session's number is free again, its contexts gone (R102). An OPEN_SESSION that has still to be answered, or to depart, stays: it is
judged by the number as it stands then (R91, R101). -/
def freeSession (n : Nat) (s : State) : State :=
  let s := (s.contextsOf n).foldl (fun s x => freeContext x s) s
  let s := { s with cmds := s.cmds.filter fun c => decide (c.key.session ≠ n) || decide (c.opcode = 0) }
  modSession n (fun x => { Session.free with seqGaps := x.seqGaps }) (abandonStaging n s)

/-- R114: grace ends: the contexts are torn down, held replies and queued events are discarded, the number is free, and
SESSION_EXPIRED goes to the event log. The reply to an OPEN_SESSION is none of those held, and departs (Table 3-3). Writes acknowledged before stay acknowledged. -/
def expireSession (n : Nat) (s : State) : State :=
  let x := s.session n
  let mine := fun (k : CmdKey) => decide (k.session = n)
  let held := (s.replies.filter fun r => mine r.key && r.held).length
  let ctxs := (s.contextsOf n).length
  let s := (s.contextsOf n).foldl (fun s c => endCmdsNow c (fun _ => true) stContextClosed s) s
  let s := freeSession n { s with replies := s.replies.filter fun r => !mine r.key || decide (r.opcode = 0) }
  logEvent ⟨0x0003, 2, 0, n, s.now, 0xFFFF, evArgs [(20, 2, ctxs), (22, 4, held), (26, 2, x.queued.length)]⟩ s

def execGraceExpiry (session : Nat) (s : State) : Out :=
  .next (if (s.session session).phase = .held ∧ (s.session session).graceEnd ≤ s.now then expireSession session s else s)

/-- SET_FEATURE's payload is 16 bytes with its reserved bytes 0, and names a feature (Table 3-17). -/
def featureOk (p : List Byte) : Bool :=
  decide (p.length = 16) && decide (fieldAt p 2 6 = 0) && [1, 2, 3, 4].contains (fieldAt p 0 2)

/-- One feature is set when the payload names it; a payload that names none is refused (Table 3-18). -/
def setFeature (feature : Nat) (ok : Nat → Bool) (set_ : Cmd → Nat → State → State) (c : Cmd) (s : State) : State :=
  let p := c.payload
  let v := fieldAt p 8 8
  if !featureOk p then (if feature = 1 then fail c stInvalid s else s)
  else if fieldAt p 0 2 ≠ feature then s
  else if !ok v then fail c stInvalid s
  else reply c stOk (leBytes 8 v) (set_ c v s)

/-- EVENT_MASK of the session (Table 3-18). -/
def execSetEventMask (k : CmdKey) (s : State) : Out :=
  .next (withCmd 0x04 k (setFeature 1 (fun _ => true) fun c v s => modSession c.key.session (fun x => { x with mask := v }) s) s)

/-- TILLING_DAYS, 2 to 30 (Table 3-18, R212). -/
def execSetTillingDays (k : CmdKey) (s : State) : Out :=
  .next (withCmd 0x04 k (setFeature 2 (fun v => decide (2 ≤ v) && decide (v ≤ 30)) fun _ v s =>
    writeRoot (modMedia (fun m => { m with tillDays := v }) s)) s)

/-- ACCOUNT_INTERVAL_S, 1 to 3,600, from the next interval (Table 3-18, R492). -/
def execSetAccountInterval (k : CmdKey) (s : State) : Out :=
  .next (withCmd 0x04 k (setFeature 3 (fun v => decide (1 ≤ v) && decide (v ≤ 3600)) fun _ v s =>
    writeRoot (modAcct (fun a => { a with nextIntervalS := v }) s)) s)

/-- SYMPATHETIC_THROTTLE, 0 or 1 (Table 3-18, R470). -/
def execSetSympatheticThrottle (k : CmdKey) (s : State) : Out :=
  .next (withCmd 0x04 k (setFeature 4 (fun v => decide (v ≤ 1)) fun _ v s =>
    writeRoot { s with sympathetic := decide (v = 1) }) s)

end Sys2Proof.Machine
end

