-- ==== Sys2Proof/Machine/MediaOps.lean ====
section
/-!
DEFINITION. Machine/MediaOps.lean: the deferred-error log, the margin, page reads queued on the dies and how a busy die serves them,
and what follows a change on the media (chapters 5 to 7).
-/

namespace Sys2Proof.Machine

open Sys2Proof

/- The deferred-error log (R98 to R100, R556) -/

/-- Adjacent ranges of one volume, cause and context merge: the earliest FOUND, the union of the ranges (R100). -/
def Deferred.joins (a b : Deferred) : Bool :=
  decide (a.vol = b.vol) && decide (a.cause = b.cause) && decide (a.ctx = b.ctx) && decide (a.firstLba + a.blocks = b.firstLba)

/-- Ranges that join, as one: the union, where some overlap too. It keeps the identity of the earlier entry: one that a GET_LOG with RELEASE has
returned, and into which another is merged before the reply departs, is released with what it has taken in (DESIGN CHOICE, log entry 185). -/
def Deferred.union (a b : Deferred) : Deferred :=
  let first := min a.firstLba b.firstLba
  { a with firstLba := first, blocks := max (a.firstLba + a.blocks) (b.firstLba + b.blocks) - first, found := min a.found b.found, atStart := a.atStart || b.atStart }

/-- An entry joins those that it touches, at either end; one that bridges two makes one of the three. -/
def mergeInto (acc : List Deferred) (d : Deferred) : List Deferred :=
  match acc.filter fun a => a.joins d || d.joins a with
  | [] => acc ++ [d]
  | a :: rest => (acc.filter fun x => !rest.contains x).map fun x => if x = a then rest.foldl Deferred.union (a.union d) else x

/-- The log with every entry that can be merged into another merged (R100). -/
def mergeDeferred (l : List Deferred) : List Deferred := l.foldl mergeInto []

/-- Units of one volume and context, rising, as ranges. -/
def unitRuns : List Nat → List (Nat × Nat)
  | [] => []
  | u :: us =>
    match unitRuns us with
    | (f, n) :: rest => if u + 1 = f then (u, n + 1) :: rest else (u, 1) :: (f, n) :: rest
    | [] => [(u, 1)]

/-- Numbers in ascending order. -/
def sortNats (l : List Nat) : List Nat := l.foldl (fun t x => insertNat x t) []

/-- Entries are recorded for the lost units of one volume and writing context, which are poisoned (R98, R556). A full log is
first merged (R100). Units of an index are no volume's: they are poisoned, and no entry is made (log entry 198). -/
def recordDeferred (vol ctx cause : Nat) (units : List Nat) (atStart : Bool) (s : State) : State :=
  let s := units.foldl (fun s u => poison vol u s) s
  let runs := if vol < 256 then unitRuns units else []
  let new := runs.zipIdx.map fun r =>
    ({ id := s.media.nextDeferred + r.2, vol := vol, ctx := ctx, firstLba := 16 * r.1.1, blocks := 16 * r.1.2, cause := cause,
       found := s.now, atStart := atStart } : Deferred)
  let all := s.media.deferred ++ new
  bumpErr 11 new.length
    (modMedia (fun m => { m with deferred := if all.length ≤ 4096 then all else mergeDeferred all, nextDeferred := m.nextDeferred + new.length }) s)

/-- The deferred-error log has no room (R100). -/
def State.deferredFull (s : State) : Bool := decide (4096 ≤ (mergeDeferred s.media.deferred).length)

/-- WRITE_PROTECTED is in force (Tables 6-14 and 7-9). -/
def State.writeProtected (s : State) : Bool := s.keeper.writeProtect || s.deferredFull

/-- ARGS of a DEFERRED_ERROR (R108). -/
def deferredArgs (count : Nat) (d : Deferred) : List Byte := evArgs [(20, 4, count), (24, 2, d.vol), (26, 1, d.cause)]

/-- The sessions to which an entry found in service is raised: the owner of its context, or those of the volume's mask (R108). -/
def State.deferredTo (s : State) (d : Deferred) : List Nat :=
  match kvGet d.ctx s.contexts with
  | some x => [x.session]
  | none => (List.range 4).filter fun n => bit ((kvGet d.vol s.media.volumes).map (·.sessions) |>.getD 0) n

/-- A DEFERRED_ERROR is raised once for a new entry: one record in the log, and its receivers (R108). -/
def raiseDeferred (d : Deferred) (s : State) : State :=
  let ev := fun (n : Nat) => (⟨0x0005, 2, 0, 0, s.now, d.ctx, deferredArgs n d⟩ : EventRec)
  (s.deferredTo d).foldl (fun s n => deliver (ev (s.deferredOf n).length) s n) (logEvent (ev s.media.deferred.length) s)

/-- Entries found in service are recorded and raised. One that a full log takes into an older entry is no new entry, and raises nothing
(DESIGN CHOICE, log entry 144). -/
def deferInService (vol ctx cause : Nat) (units : List Nat) (s : State) : State :=
  let old := s.media.nextDeferred
  let s := recordDeferred vol ctx cause units false s
  (s.media.deferred.filter fun d => decide (old ≤ d.id)).foldl (fun s d => raiseDeferred d s) s

/- The margin and the spare floor (R218) -/

/-- ARGS of SPARE_EXHAUSTED. -/
def spareArgs (s : State) (b : Nat) : List Byte := evArgs [(20, 4, s.margin), (24, 4, s.part.spareFloor), (28, 1, b)]

/-- Writes are refused when the margin falls below the spare floor, one held included (Table 6-12), and accepted again at the floor plus 256 (R218). -/
def settleMargin (s : State) : State :=
  if !s.media.spareOut ∧ s.margin < s.part.spareFloor then
    let s := modMedia (fun m => { m with spareOut := true }) s
    let s := (s.cmds.filter fun c => decide (c.phase = .waiting .hold)).foldl (fun s c => fail c stSpareExhausted s) s
    raise 0x0303 3 0 0 0xFFFF (spareArgs s 1) s
  else if s.media.spareOut ∧ s.part.spareFloor + 256 ≤ s.margin then
    let s := modMedia (fun m => { m with spareOut := false }) s
    raise 0x0303 0 0 0 0xFFFF (spareArgs s 2) s
  else s

/- Page reads on a die (R160, R166 to R176) -/

/-- A die on which a read-around cannot read its member: lost with its sieve, failed, or its block set not yet rebuilt (R176). -/
def State.unreadable (s : State) (a : MediaAddr) : Bool :=
  (s.sieve a.member).lost || (match s.dieAt a with
    | none => true
    | some d => (kvGet a.band (s.die d).todo).isSome)

/-- A member that a read-around could not wait for: its die erases, is unresponsive, or cannot be read (R175). -/
def State.blocksAround (s : State) (a : MediaAddr) : Bool :=
  s.unreadable a || (match s.dieAt a with
    | none => true
    | some d => decide ((s.die d).role = .unresponsive) || decide ((s.die d).op = .erase))

/-- The members of a place's stripe other than itself. -/
def State.othersOf (s : State) (a : MediaAddr) : List MediaAddr :=
  let b := s.band a.bandKey
  ((if b.sieves = [] then List.range 16 else b.sieves).filter fun v => decide (v ≠ a.member)).map fun v => { a with member := v }

/-- Acknowledged write data above WB_HIGH_PCT of 2 GiB (Table 5-5). -/
def State.ackedUnits (s : State) : Nat := (s.media.slots.filter fun x => x.2.acked).length
def State.wbHigh (s : State) (pct : Nat) : Bool := decide (pct * 32768 < 100 * s.ackedUnits)

/-- How a die serves a read now: directly, suspending what it runs; by read-around; or the read waits. -/
inductive Serve where
  | direct (suspends : Option DieOp)
  | around
  | waits
  deriving DecidableEq, Repr

/-- A read that would go around a busy die is served directly, suspending its operation, when another member of the stripe cannot be
waited for (R175). -/
def Serve.unless (short : Bool) (op : DieOp) : Serve := if short then .direct (some op) else .around

/-- The operation that a direct read of a die suspends, if it runs one. -/
def DieOp.suspended : DieOp → Option DieOp
  | .program => some .programSuspended
  | .erase => some .eraseSuspended
  | _ => none

/-- Table 5-5: a read against the die of its place, with WB_HIGH_PCT as it stood when the read was issued. Interactive reads of a die in
erase priority go around it, its erase pending or running (R171). -/
def State.serve (s : State) (a : MediaAddr) (cls : Cls) (pct : Nat) : Serve :=
  if s.unreadable a then .around
  else match s.dieAt a with
    | none => .around
    | some d =>
      let x := s.die d
      let short := (s.othersOf a).any s.blocksAround
      if x.role = .unresponsive then (if cls = .interactive ∧ !short then .around else .waits)
      else if x.erasePrio ∧ cls = .interactive then (if short then .direct x.op.suspended else .around)
      else match x.op, cls with
        | .program, .interactive => if s.wbHigh pct then Serve.unless short .programSuspended else .direct (some .programSuspended)
        | .program, .batch => if s.wbHigh pct then .waits else .direct (some .programSuspended)
        | .program, .housekeeping => .waits
        | .erase, .interactive => Serve.unless short .eraseSuspended
        | .erase, _ => .waits
        | _, _ => .direct none

/-- The same for a read given to a sieve. -/
def State.serveReq (s : State) (r : PageReq) : Serve := if r.step = .queued then s.serve r.place r.cls r.wbHighPct else .around

/-- A command still waits for a place. -/
def Cmd.needs (c : Cmd) (a : MediaAddr) : Bool :=
  match c.phase with
  | .waiting (.pages need) => need.contains a && !c.pagesIn.contains a
  | _ => false

/-- A copy of a place is waiting for its source to be read. -/
def State.copyWaits (s : State) (a : MediaAddr) : Bool := s.media.copies.any fun j => decide (j.src = a) && !j.ready

/-- A search waits for a record that has not been read yet. -/
def Search.needs (q : Search) (id : Nat) : Bool := q.awaiting.contains id && !(q.read ++ q.returned).any fun d => decide (d.1 = id)

/-- A read is still wanted by what it was issued for. -/
def State.wanted (s : State) (r : PageReq) : Bool :=
  match r.for_ with
  | .cmd k => s.cmds.any fun c => decide (c.key = k) && c.needs r.place
  | .segment _ => true
  | .refetch line => s.landing.faults.any fun f => decide (f.line = line) && !f.poisoned
  | .copy => s.copyWaits r.place
  | .tilling => true
  | .search k id => s.searches.any fun q => decide (q.key = k) && q.needs id

/-- The first command whose lookup waits for a segment. -/
def State.segmentCmd (s : State) (n : Nat) : Option Cmd :=
  s.cmds.find? fun c => match c.phase with
    | .waiting (.segments need) => need.contains n
    | _ => false

/-- The context to which a page read is charged: that of its command, of the first command that waits for the segment, or of the first reader
stalled on the line; a copy's read is charged to none (R488). -/
def State.readContext (s : State) (r : PageReq) : Option Nat :=
  match r.for_ with
  | .cmd k => k.context
  | .segment n => (s.segmentCmd n).bind fun c => c.key.context
  | .refetch line => (s.landing.faults.find? fun f => decide (f.line = line)).bind fun f => f.readers.head?.bind CmdKey.context
  | .copy => none
  | .tilling => none
  | .search k _ => k.context

/-- Page reads are given to the sieves, each a place and the codewords needed, with SVE_CFG as it stands (R184). One that is queued for the
same purpose is not issued again; reads that nothing wants any more have gone. -/
def issueReads (cls : Cls) (f : ReadFor) (need : List (MediaAddr × Nat)) (s : State) : State :=
  let m := s.media
  let left := m.reads.filter s.wanted
  let new := (need.filter fun a => !(left.any fun r => decide (r.place = a.1) && decide (r.for_ = f))).map fun a =>
    (⟨a.1, cls, f, a.2, m.wbHighPct, m.retryMax, m.corrHigh, .queued, []⟩ : PageReq)
  modMedia (fun m => { m with reads := left ++ new }) s

/-- The reads queued on a die, in order of arrival. -/
def State.queueOf (s : State) (d : Nat) : List PageReq :=
  s.media.reads.filter fun r => decide (r.step = .queued) && s.wanted r && decide (s.dieAt r.place = some d)

/-- Page reads queued on a die (Table 4-8). -/
def State.queuedOn (s : State) (d : Nat) : Nat := (s.queueOf d).length

/-- The die would serve the read directly now. -/
def State.direct (s : State) (r : PageReq) : Bool :=
  match s.serve r.place r.cls r.wbHighPct with
  | .direct _ => true
  | _ => false

/-- The read that a die serves next: of the highest class among those that it would serve directly, the next page of its continuous read, else
the earliest (R164 to R166). -/
def State.turn (s : State) (d : Nat) : Option PageReq :=
  let q := (s.queueOf d).filter s.direct
  let next := fun (l : List PageReq) => ((kvGet d s.media.streams).bind fun t =>
    l.find? fun r => decide (r.place = t.next) && decide (r.cls = t.cls)).or l.head?
  [Cls.interactive, .batch, .housekeeping].foldr (fun c later => (next (q.filter fun r => decide (r.cls = c))).or later) none

/-- The last page of a place's block. -/
def State.lastPage (s : State) (a : MediaAddr) : Nat := if (s.band a.bandKey).kind.slc then 767 else 3071

/-- A read goes on to the next page of its block: a read of it is queued in the same class, which is not interactive (R164). -/
def State.continues (s : State) (r : PageReq) : Bool :=
  decide (r.cls ≠ .interactive) && decide (r.place.page < s.lastPage r.place) &&
    s.media.reads.any fun x => decide (x.step = .queued) && decide (x.place = { r.place with page := r.place.page + 1 }) &&
      decide (x.cls = r.cls) && s.wanted x

/-- A read that could suspend the die's operation, were it running, is queued on it (R168). -/
def State.readQueued (s : State) (d : Nat) : Bool :=
  let op := (s.die d).op
  let run := if op = .programSuspended then some DieOp.program else if op = .eraseSuspended then some DieOp.erase else none
  run.any fun o =>
    let t := modDie d (fun x => { x with op := o }) s
    (t.queueOf d).any fun r => decide (t.serve r.place r.cls r.wbHighPct = .direct (some op))

/-- What a die is doing (Table 5-16 OP): one that runs no program or erase reads while a read is to be served, and reads continuously from the
first page of a continuous read to its last. -/
def State.opOf (s : State) (d : Nat) : DieOp :=
  let x := s.die d
  if x.op ≠ .idle then x.op
  else match s.turn d with
    | none => .idle
    | some r => if s.continues r || (kvGet d s.media.streams).any fun t => decide (t.next = r.place) && decide (t.cls = r.cls) then .continuousRead
        else .read

/- Error replies (R238) -/

/-- A range entry: first block, blocks and cause (Table 7-3). -/
abbrev Bad := Nat × Nat × Nat

/-- Adjacent ranges of one cause are one range. -/
def joinBad : List Bad → List Bad
  | [] => []
  | (f, n, c) :: t =>
    match joinBad t with
    | (g, m, d) :: u => if f + n = g ∧ c = d then (f, n + m, c) :: u else (f, n, c) :: (g, m, d) :: u
    | [] => [(f, n, c)]

/-- One range entry's bytes. -/
def badBytes (b : Bad) : List Byte := leBytes 8 b.1 ++ leBytes 4 b.2.1 ++ leBytes 4 b.2.2

/-- The payload of an error reply: at most 255 entries, the last covering the rest of the range when there are more (R238). -/
def badReply (done last : Nat) (bad : List Bad) : List Byte :=
  let l := joinBad bad
  let l := if l.length ≤ 255 then l else l.take 254 ++ (match l.drop 254 with
    | (f, _, _) :: _ => [(f, last - f, 0xFF)]
    | [] => [])
  leBytes 4 done ++ leBytes 4 l.length ++ zeros 8 ++ l.flatMap badBytes

/-- A range descriptor (Table 7-2). -/
structure RangeDesc where
  vol    : Nat
  opts   : Nat
  first  : Nat
  blocks : Nat
  deriving DecidableEq, Repr

/-- The descriptor of a payload. -/
def rangeDesc (p : List Byte) : RangeDesc := ⟨fieldAt p 0 1, fieldAt p 1 1, fieldAt p 4 8, fieldAt p 12 4⟩

/-- The first and last units that a range touches, and how many. -/
def RangeDesc.firstUnit (r : RangeDesc) : Nat := r.first / 16
def RangeDesc.units (r : RangeDesc) : Nat := (r.first + r.blocks - 1) / 16 + 1 - r.first / 16
def RangeDesc.touched (r : RangeDesc) : List Nat := (List.range r.units).map (r.firstUnit + ·)

/-- A unit's blocks within a command's range. -/
def RangeDesc.clip (r : RangeDesc) (u cause : Nat) : Bad :=
  let a := max r.first (16 * u)
  let b := min (r.first + r.blocks) (16 * u + 16)
  (a, b - a, cause)

/- Stream checks (R182) -/

/-- Segments of an image stream from its store with the stream check units armed (R182): they match; or a mismatch is repaired by rebuild and
counted, the member rewritten; or it is not, and is counted. Which is a free value, since the members of the store are not stated. -/
def streamCheck (bad good : State → State) (s : State) : State :=
  let (i, s) := takeFree s
  if Config.storeGood i then good s
  else if Config.storeRepaired i then good (modMedia (fun m => { m with chkRepaired := satAdd 16 m.chkRepaired 1 }) s)
  else bad (bumpErr 7 1 (modMedia (fun m => { m with chkMismatch := satAdd 16 m.chkMismatch 1 }) s))

/- Settling: waiters, victims, operations of the dies -/

/-- Some command, a peer's copy or a warning flush waits for data to become durable: stripes are padded and the journal stripe closes at
once (R194, R241, R244, R528). -/
def State.wantsDurable (s : State) : Bool :=
  s.media.flushAll || (decide (s.links.incoming ≠ [])) || s.cmds.any fun c => match c.phase with
    | .waiting (.durable _) => true
    | .waiting (.journaled _) => true
    | .waiting (.erased _ _) => true
    | _ => false

/-- Commands whose wait for durability or for erased bands has ended complete (R241, R244, R246, R302, R304,
R444). -/
def settleWaits (s : State) : State :=
  s.cmds.foldl (fun s c =>
    match c.phase with
    | .waiting (.durable slots) =>
      if slots.any fun n => (kvGet n s.media.slots).isSome then s
      else match c.opcode with
        | 0x22 => reply c stOk (leBytes 8 c.tally) s
        | 0x42 => reply c stOk (c.ids.flatMap (leBytes 8)) s
        | 0x64 => reply c stOk (leBytes 8 c.tally ++ zeros 8) s
        | _ => reply c stOk [] s
    | .waiting (.journaled n) => if n ≤ s.media.journalSeq then reply c stOk (leBytes 8 c.tally ++ leBytes 8 (fieldAt c.payload 4 4 - c.tally)) s else s
    | .waiting (.erased bands all) =>
      let left := bands.filter fun k => decide ((s.band k).state ≠ .free) && decide ((s.band k).state ≠ .retired)
      if left ≠ [] then modCmd c.key (fun c => { c with phase := .waiting (.erased left all) }) s
      else
        let mine := (c.lost.filter fun u => decide (u / 2 ^ 40 = fieldAt c.payload 0 1)).map (· % 2 ^ 40)
        if mine = [] then reply c stOk (leBytes 4 c.tally ++ leBytes 4 all) s
        else
          let last := fieldAt c.payload 4 8 + fieldAt c.payload 12 4
          reply c stMediaUncorrectable (badReply c.tally last ((unitRuns (sortNats mine)).map fun r => (16 * r.1, 16 * r.2, 1))) s
    | _ => s) s

/-- The unit of a copy still stands at its source (R200). -/
def State.copyLives (s : State) (j : CopyJob) : Bool := s.liveUnits.contains (unitKey j.vol j.unit, j.src)

/-- Every erase of a band has passed that is waited for: those of its members that can still be erased. -/
def State.erasesPassed (s : State) (k : Nat) : Bool :=
  (s.band k).sieves.all fun v => (s.band k).erased.contains v || (s.sieve v).lost || (s.rowDie (k / 2800) v).isNone

/-- A band has been erased: it is journaled FREE, or RETIRED when a plane has no good block left for a bad one of it (R186, R202). -/
def bandErased (k : Nat) (s : State) : State :=
  let qlc := !(s.band k).kind.slc
  let s := wipeBand k (modBand k (fun b => { b with erases := b.erases + 1, wear := b.wear + b2n qlc }) s)
  if (s.band k).doomed then setBand k .retired (modBand k (fun b => { b with erased := [], held := [] }) s)
  else journal (.band k .free (s.band k).erases) s

/-- Relocating bands whose live units and map segments have all moved go to ERASING (Table 6-6); a copy whose unit has been written or
unmapped is discarded (R200). -/
def settleBands (s : State) : State :=
  let s : State := modMedia (fun m => { m with copies := m.copies.filter fun j => s.copyLives j }) s
  s.media.bands.foldl (fun (s : State) (b : Nat × Band) =>
    let busy := s.media.copies.any (fun j => decide (j.src.bandKey = b.1)) ||
      s.media.lines.any (fun l => l.copies.any fun c => decide (c.2.src.bandKey = b.1)) || !(s.liveIn b.1).isEmpty || s.mapIn b.1
    if b.2.state = .relocating ∧ !busy then setBand b.1 .erasing s else s) s

/-- Garbage collection and erases pause under interactive pressure, unless the pool is below its low watermark (R135, Table 6-7). -/
def State.mediaPaused (s : State) : Bool := s.pressure && !decide (s.freePool < s.part.poolLow)

/-- A die free of programs and erases, to which reads leave the time for one: housekeeping programs and erases come last, and pause under
interactive pressure, unless the pool is below its low watermark (Table 1-3, R135, R167). -/
def State.takesOp (s : State) (d : Nat) (last : Bool) : Bool :=
  let x := s.die d
  decide (x.op = .idle) && decide (x.role ≠ .unresponsive) && decide (x.role ≠ .failed) &&
    (!last || decide (s.freePool < s.part.poolLow) || (!s.pressure && (s.queueOf d).isEmpty))

/-- The dies take the programs of the word lines begun, and the erases pending, as they become free: one at a time (R167, R187). -/
def settleDies (s : State) : State :=
  let s := s.media.lines.foldl (fun s l =>
    ((s.band l.band).sieves.filter fun v => !l.done.contains v).foldl (fun s v => match s.rowDie (l.band / 2800) v with
      | none => s
      | some d => if s.takesOp d (decide (l.kind = .copy)) then
          modDie d (fun x => { x with op := .program, line := some (l.band, l.wl), began := s.now }) s else s) s) s
  (s.media.bands.filter fun b => decide (b.2.state = .erasing)).foldl (fun s b =>
    (b.2.sieves.filter fun v => !b.2.erased.contains v).foldl (fun s v => match s.rowDie (b.1 / 2800) v with
      | none => s
      | some d => if s.takesOp d true then modDie d (fun x => { x with op := .erase, erasing := some b.1, began := s.now }) s else s) s) s

/-- Below the low watermark, every die with an erase pending or suspended is in erase priority: a suspended one goes on, and none is
suspended but for the reads of R175 (R171). -/
def settlePrio (s : State) : State :=
  if s.freePool < s.part.poolLow then
    (s.media.bands.filter fun b => decide (b.2.state = .erasing)).foldl (fun s b =>
      (b.2.sieves.filter fun v => !b.2.erased.contains v).foldl (fun s v =>
        match s.rowDie (b.1 / 2800) v with
        | none => s
        | some d => modDie d (fun d => { d with
            erasePrio := true, op := if d.op = .eraseSuspended ∧ !d.erasePrio then .erase else d.op }) s) s) s
  else s

/-- Write-buffer slots that no word line holds yet, oldest first. -/
def State.unplaced (s : State) : List Nat := (s.media.slots.filter fun x => decide (x.2.place = none)).map (·.1)

/-- Open bands of a kind (R188). -/
def State.openBands (s : State) (kind : StripeKind) : Nat :=
  (s.media.bands.filter fun b => decide (b.2.state = .opened) && decide (b.2.kind = kind)).length

/-- The dies that program a word line end it. -/
def endPrograms (l : WordLine) (s : State) : State :=
  ((s.band l.band).sieves.filterMap fun v => s.rowDie (l.band / 2800) v).foldl (fun s d =>
    modDie d (fun x => if x.line = some (l.band, l.wl) then { x with op := .idle, line := none } else x) s) s

/-- The segments that a checkpoint was writing are to be written again. -/
def Checkpoint.again (c : Checkpoint) : Checkpoint := { c with rest := c.segs ++ c.rest, segs := [], items := [], dir := false }

/-- A word line is given up: its units, copies and journal entries wait again, members of the map are written anew, and the band goes on at its next
word line (R201, R214). -/
def dropLine (l : WordLine) (s : State) : State :=
  let s := modMedia (fun m => { m with
    lines := m.lines.filter fun x => decide (x.band ≠ l.band) || decide (x.wl ≠ l.wl)
    slots := l.slots.foldl (fun t p => kvMod p.2 (fun x => { x with place := none }) t) m.slots
    copies := l.copies.map (·.2) ++ m.copies
    journal := m.journal ++ l.entries.reverse
    check := if l.items = [] ∨ l.kind = .journal then m.check else m.check.map Checkpoint.again }) s
  let s := modBand l.band (fun b => { b with filled := l.wl + 1 }) (endPrograms l s)
  if l.wl + 1 = 768 then setBand l.band .closed s else s

/-- What fills one member of a word line: a unit of the write buffer, a copy, or nothing. -/
def WordLine.item (s : State) (l : WordLine) (a : MediaAddr) : Option (Member × List Byte) :=
  match l.slots.find? fun p => decide (p.1 = a) with
  | some p => (kvGet p.2 s.media.slots).map fun x => (⟨1, x.vol, x.unit, 0, .data, 0⟩, x.data)
  | none => (l.copies.find? fun p => decide (p.1 = a)).map fun p => (⟨1, p.2.vol, p.2.unit, 0, .data, 0⟩, s.member p.2.src)

/-- Every member of the word line has been programmed: its stripes close, its units' entries are journaled and its copies wait to flip; the
entries of a journal stripe are durable (R188, R194, R195, R200). -/
def closeLine (l : WordLine) (s : State) : State :=
  let b := s.band l.band
  let pad : Member × List Byte := (⟨6, 255, 0, 0, .pad, 0⟩, [])
  let items := (linePlaces b.kind l.band l.wl b.sieves).zipIdx.map fun a => (l.item s a.1).getD ((l.items[a.2]?).elim pad fun x => (x, []))
  let s := modMedia (fun m => { m with lines := m.lines.filter fun x => decide (x.band ≠ l.band) || decide (x.wl ≠ l.wl) }) (endPrograms l s)
  let s := l.slots.foldl (fun s p =>
    match kvGet p.2 s.media.slots with
    | none => s
    | some x =>
      account (some x.ctx) (fun c => { c with programs := c.programs + 4 })
        (journal (.map x.vol x.unit (some (.media p.1)) (some (.buffer p.2)) (some p.2))
          (modMedia (fun m => { m with slots := kvSet p.2 { x with closed := true } m.slots }) s))) s
  let s := l.copies.foldl (fun s p => journal (.map p.2.vol p.2.unit (some (.media p.1)) (some (.media p.2.src)) none) s) s
  let s := writeLine l.band l.wl items l.slots.length s
  if l.kind = .journal then journalClosed l.band l.entries s else s

/-- The band that members of the map go to next: an OPEN copy band that no word line is being written in, or one that opens; with its free
data members (log entry 155). -/
def mapBand (s : State) : Option (Nat × Nat × State) :=
  let free := fun (s : State) (k : Nat) => (768 - (s.band k).filled) * 4 * ((s.band k).sieves.length - 1)
  let open_ := s.media.bands.find? fun b => decide (b.2.state = .opened) && decide (b.2.kind = .copy) && decide (64 ≤ free s b.1) &&
    !(s.media.lines.any fun l => decide (l.band = b.1))
  match open_ with
  | some b => some (b.1, free s b.1, s)
  | none => s.bestFree.bind fun k =>
    if s.openBands .copy < 6 then (let s := openBand k .copy s; some (k, free s k, s)) else none

/-- The members of a segment: its entries as they stand now, in 64 parts (R192). -/
def State.segmentItems (s : State) (n : Nat) : List Member :=
  let es := (s.media.map.filter fun e => decide (segmentOf e.1 = n)).map fun e => (segmentIndex e.1, e.2)
  (List.range 64).map fun i => ⟨2, 255, n, 0, .segment es, i⟩

/-- The data members that a band fills next, in band order. -/
def State.nextPlaces (s : State) (k : Nat) : List MediaAddr :=
  let b := s.band k
  (List.range (768 - b.filled)).flatMap fun i => linePlaces b.kind k (b.filled + i) b.sieves

/-- A checkpoint begins: it is to write every dirty segment, and names the journal stripe that is programmed after those that have begun (R196). -/
def beginCheckpoint (s : State) : State :=
  let dirty := ((s.media.segments.filter (·.dirty)).map (·.num) ++ s.media.delta.map segmentOf).eraseDups
  let head := match s.journalLine, journalBand s with
    | some l, _ => ((linePlaces .journal l.band (l.wl + 1) (s.band l.band).sieves).head?, s.media.journalSeq + l.entries.length, s)
    | none, some (k, s) => ((s.nextPlaces k).head?, s.media.journalSeq, s)
    | none, none => (none, s.media.journalSeq, s)
  modMedia (fun m => { m with
    checkpointAt := s.now, check := some ⟨dirty, 0, [], [], false, m.directory, none, head.1, head.2.1⟩ }) head.2.2

/-- Journal bands that no root set of either bank needs any more are erased (R196). -/
def reuseJournal (s : State) : State :=
  (s.media.bands.filter fun b => decide (b.2.state = .closed) && decide (b.2.kind = .journal) && !s.journalNeeded b.1).foldl
    (fun s b => setBand b.1 .relocating s) s

/-- A checkpoint is complete: a root set names its directory and the first journal entry after it (R196, R204). -/
def endCheckpoint (c : Checkpoint) (s : State) : State :=
  reuseJournal (writeRoot (modMedia (fun m => { m with
    check := none, delta := [], checkpointSeq := m.checkpointSeq + 1, journaled := m.journalSeq - c.headSeq, directory := c.places, dirPlace := c.dirAt
    headPlace := c.head, headSeq := c.headSeq }) s))

/-- The checkpoint under way goes on, when no word line of it is being programmed: with the next word line of the members it writes; with the next
dirty segments, as many as one band takes whole; with the directory, and then the root set (R192, R196). Without a band that it can write in it waits. -/
def stepCheckpoint (s : State) : State :=
  match s.media.check with
  | none => s
  | some c =>
    let begins := fun (k : Nat) (c : Checkpoint) (s : State) =>
      let room := (linePlaces .copy k (s.band k).filled (s.band k).sieves).length
      modMedia (fun m => { m with
        check := some { c with items := c.items.drop room }
        lines := m.lines ++ [⟨k, (s.band k).filled, .copy, [], [], c.items.take room, []⟩] }) s
    if s.media.lines.any fun l => decide (l.kind = .copy) && decide (l.items ≠ []) then s
    else if c.items ≠ [] then begins c.band c s
    else if c.dir ∧ c.rest = [] then endCheckpoint c s
    else match mapBand s with
      | none => s
      | some (k, free, s) =>
        let places := s.nextPlaces k
        if c.rest ≠ [] then
          let now := c.rest.take (free / 64)
          let at_ := fun (i : Nat) => (places[64 * i]?).getD ⟨0, 0, 0, 0⟩
          let s := modMedia (fun m => { m with segments := m.segments.map fun g => if now.contains g.num then { g with dirty := false } else g }) s
          begins k { c with
            rest := c.rest.drop now.length, band := k, segs := now, items := now.flatMap s.segmentItems
            places := now.zipIdx.foldl (fun t g => kvSet g.1 (at_ g.2) t) c.places } s
        else
          let n := max 1 (ceilDiv (5 * c.places.length) 65536)
          begins k { c with
            band := k, segs := [], items := (List.range n).map fun i => ⟨2, 255, i, 0, .directory c.places, i⟩, dir := true, dirAt := places.head? } s

/-- Some command waits for a band to be erased. -/
def State.eraseWanted (s : State) (k : Nat) : Bool := s.cmds.any fun c => match c.phase with
  | .waiting (.erased bands _) => bands.contains k
  | _ => false

/- Relocation (R199, R200) -/

/-- A copy's source has been read. -/
def copyRead (a : MediaAddr) (s : State) : State :=
  modMedia (fun m => { m with copies := m.copies.map fun j => if j.src = a then { j with ready := true } else j }) s

/-- Segments of the map that housekeeping needs and the cache has not are read at its class (R193). -/
def readSegments (segs : List Nat) (s : State) : State :=
  (s.missing segs).foldl (fun s n => issueReads .housekeeping (.segment n) ((s.segmentPlaces n).map fun a => (a, 0xFFFF)) s) s

/-- The units of a place are copied elsewhere as a garbage-collection copy (Table 6-11, R200). Its source is read at housekeeping class, unless
it has just been read whole (R166). -/
def relocate (ready : Bool) (a : MediaAddr) (s : State) : State :=
  match s.unitAt a with
  | none => s
  | some u =>
    if s.media.lines.any (fun l => l.copies.any fun c => decide (c.2.src = a)) then s
    else if s.media.copies.any fun j => decide (j.src = a) then (if ready then copyRead a s else s)
    else
      let s := modMedia (fun m => { m with copies := m.copies ++ [⟨u / 2 ^ 40, u % 2 ^ 40, a, ready⟩] }) s
      let s := readSegments [segmentOf u] s
      if ready then s else issueReads .housekeeping .copy [(a, 0xFFFF)] s

/-- A band becomes a victim: its live units are copied out, and its map segments are dirty, so that the next checkpoint writes them
elsewhere (R199, R193, Table 6-6). -/
def takeVictim (k : Nat) (s : State) : State :=
  let segs := s.segmentsIn k
  (s.liveIn k).foldl (fun s u => relocate false u.2 s)
    (setBand k .relocating (modMedia (fun m => { m with segments := segs.foldl (fun l n => touch n true l) m.segments }) s))

/-- An OPEN band that must be erased is filled with pads, word line by word line, until its last stripe closes (Table 6-6, log entry 157); once
CLOSED it is a victim. -/
def settlePads (s : State) : State :=
  s.media.bands.foldl (fun s b =>
    if b.2.state = .opened ∧ s.eraseWanted b.1 ∧ !(s.media.lines.any fun l => decide (l.band = b.1)) then
      modMedia (fun m => { m with lines := m.lines ++ [⟨b.1, b.2.filled, b.2.kind, [], [], [], []⟩] }) s
    else if b.2.state = .closed ∧ s.eraseWanted b.1 then takeVictim b.1 s
    else s) s

/-- The journal stripe that is to be programmed now, if no other is: a full one, one whose first entry is 1 ms old, or any when a command waits on it
(R194). -/
def settleJournal (s : State) : State :=
  let full : Bool := match journalBand s with
    | some (k, t) => decide (t.journalRoom k ≤ t.media.journal.length)
    | none => false
  if s.wantsDurable ∨ full ∨ s.since s.media.journalAt countsMs then beginJournal s else s

/-- What follows a change on the media: a full journal stripe closes, and at once when a command waits on it; victims with no live
unit are erased; waits that have ended complete; the dies take their next operations; erase priority and the spare floor are applied. -/
def settleMedia (s : State) : State :=
  let s := settleBands s
  let s := settlePads (stepCheckpoint (settleJournal s))
  let s := if s.media.flushAll ∧ !(s.media.slots.any fun x => x.2.acked) then modMedia (fun m => { m with flushAll := false }) s else s
  settleMargin (settlePrio (settleDies (settleWaits (settleBands s))))

/- Bad blocks -/

/-- The lowest unused good block of a plane: one that is good and that no block set in use names (R186). -/
def State.spareBlock (s : State) (d plane : Nat) : Option Nat :=
  let bad := s.factoryBadOn d plane
  let grown := (s.media.grownBad.filter (s.onPlane d plane)).map (·.block)
  let taken := ((s.die d).replaced.filter fun r => decide (r.1 = plane)).map (·.2.2)
  let row := (s.die d).row
  (List.range 2800).find? fun x =>
    let rank := x - (bad.filter fun b => decide (b < x)).length
    !bad.contains x && !grown.contains x && !taken.contains x &&
      (decide (s.rowSets row ≤ rank) || decide ((s.band (row * 2800 + rank)).state = .retired))

/-- The block of a block set on a plane has gone bad: it is recorded, a root set follows (R204, R223), and the die takes an unused good
block in its place; without one the band is to be retired (R186). -/
def addBad (d plane k cause : Nat) (s : State) : State :=
  match s.blockOf d plane (k % 2800) with
  | none => s
  | some block =>
    let e : GrownBad := ⟨s.dieSieve d, s.dieChannel d, s.diePos d, plane, block, cause, s.now⟩
    if s.media.grownBad.any fun g => s.onPlane d plane g && decide (g.block = block) then s
    else
      let s := writeRoot (modMedia (fun m => { m with grownBad := m.grownBad ++ [e] }) s)
      let s := modDie d (fun x => { x with goodMin := s.fewestGood d }) s
      match s.spareBlock d plane with
      | some x => modDie d (fun y => { y with
          replaced := (plane, k % 2800, x) :: y.replaced.filter fun r => !(decide (r.1 = plane) && decide (r.2.1 = k % 2800)) }) s
      | none => modBand k (fun b => { b with doomed := true }) s

end Sys2Proof.Machine
end

