-- ==== Sys2Proof/Machine/Records.lean ====
section
/-!
DEFINITION. Machine/Records.lean: record layouts, predicate programs, survivors, and what a scan has staged of them (R253 to R263, R268, R270).
-/

namespace Sys2Proof.Machine

open Sys2Proof

/- Layouts (R253 to R257) -/

/-- The layout descriptor at an offset (Table 8-1). -/
def layoutAt (p : List Byte) (off : Nat) : Layout :=
  let b := fun i => fieldAt p (off + i) 1
  ⟨b 0, b 1, b 2, b 3, fieldAt p (off + 4) 4, (List.range 16).map fun i => b (16 + i)⟩

/-- The sum of a banded layout's widths. -/
def Layout.width (l : Layout) : Nat := l.widths.sum

/-- The descriptor obeys Table 8-1 and R256; `rsv` is its reserved field. -/
def Layout.ok (l : Layout) (rsv : Nat) : Bool :=
  decide (rsv = 0) &&
  (match l.kind with
   | 1 => decide (l.flags = 0) && decide (l.align = 0) && decide (l.columns = 0) && decide (8 ≤ l.record) &&
     decide (l.record ≤ 65536) && decide (l.width = 0)
   | 2 | 3 => decide (l.flags ≤ 1) && [1, 2, 4, 8].contains l.align && decide (l.columns = 0) && decide (l.record = 0) &&
     decide (l.width = 0)
   | 4 => decide (l.flags = 0) && decide (l.align = 0) && decide (1 ≤ l.columns) && decide (l.columns ≤ 16) &&
     decide (1 ≤ l.record) && decide (l.record ≤ 65472) &&
     (l.widths.zipIdx.all fun w => if w.2 < l.columns then decide (1 ≤ w.1) else decide (w.1 = 0)) &&
     decide (64 + l.record * l.width ≤ 65536)
   | _ => false)

/-- A record: its ordinal in the unit, its bytes, and its columns for a banded layout. -/
structure Rec where
  ord  : Nat
  body : List Byte
  cols : List (List Byte)
  deriving DecidableEq, Repr

/-- The records of a length-prefixed unit, and whether it is malformed (R255, R257). -/
def prefixedRecords (l : Layout) (p : List Byte) : Nat → Nat → Nat → List Rec × Bool
  | 0, _, _ => ([], false)
  | fuel + 1, pos, ord =>
    let w := if l.kind = 2 then 2 else 4
    if 65536 < pos + w then ([], false)
    else
      let raw := slice p pos w
      let n := leNat (if l.flags = 1 then raw.reverse else raw)
      if n = 0 then ([], false)
      else if 65536 < pos + w + n then ([], true)
      else
        let r := prefixedRecords l p fuel (roundUp (pos + w + n) l.align) (ord + 1)
        (⟨ord, slice p (pos + w) n, []⟩ :: r.1, r.2)

/-- Where a column's band begins (R256). -/
def Layout.bandStart (l : Layout) (c : Nat) : Nat := 64 + l.record * (l.widths.take c).sum

/-- The records of a unit and whether it is malformed (R254 to R257). A banded record whole is its columns one after another (DESIGN CHOICE, log entry
210). -/
def Layout.records (l : Layout) (p : List Byte) : List Rec × Bool :=
  match l.kind with
  | 1 => ((List.range (65536 / l.record)).map fun r => ⟨r, slice p (r * l.record) l.record, []⟩, false)
  | 4 =>
    let rows := fieldAt p 0 4
    if l.record < rows then ([], true)
    else
      ((List.range rows).map fun r =>
        let cols := (List.range l.columns).map fun c => slice p (l.bandStart c + r * l.widths.getD c 0) (l.widths.getD c 0)
        ⟨r, cols.flatten, cols⟩, false)
  | _ => prefixedRecords l p 32769 0 0

/- Predicate terms (R259 to R261) -/

/-- The width of a numeric type; 0 for another (Table 8-5). -/
def typeWidth : Nat → Nat
  | 1 | 5 => 1
  | 2 | 6 | 9 | 10 => 2
  | 3 | 7 | 11 => 4
  | 4 | 8 | 12 => 8
  | _ => 0

def typeIsFloat (t : Nat) : Bool := decide (9 ≤ t) && decide (t ≤ 12)
def typeIsSigned (t : Nat) : Bool := decide (5 ≤ t) && decide (t ≤ 8)

/-- The format of a floating type. -/
def typeFmt : Nat → FFmt
  | 9 => fp16
  | 10 => bf16
  | 11 => fp32
  | _ => fp64

/-- A word as a two's complement integer of n bytes, or as an unsigned one. -/
def intOf (t w : Nat) : Int :=
  let n := 8 * typeWidth t
  if typeIsSigned t ∧ 2 ^ (n - 1) ≤ w then (w : Int) - 2 ^ n else w

/-- The term at an offset (Table 8-3). -/
def termAt (p : List Byte) (off : Nat) : Term :=
  let b := fun i => fieldAt p (off + i) 1
  { op := b 0, type_ := b 1, clauses := fieldAt p (off + 2) 2, field := fieldAt p (off + 4) 4, span := fieldAt p (off + 8) 2,
    plen := b 10, flags := b 11, a := fieldAt p (off + 16) 8, b := fieldAt p (off + 24) 8, pattern := slice p (off + 16) (b 10) }

/-- The value of a numeric operation (Table 8-4, R260). -/
def numericHolds (t : Term) (v : Nat) : Bool :=
  if typeIsFloat t.type_ then
    let f := typeFmt t.type_
    let x := f.decode v
    let a := f.decode t.a
    match t.op with
    | 1 => x.eq a
    | 2 => !x.eq a
    | 3 => x.lt a
    | 4 => x.lt a || x.eq a
    | 5 => a.lt x
    | 6 => a.lt x || x.eq a
    | _ => (a.lt x || x.eq a) && (x.lt (f.decode t.b) || x.eq (f.decode t.b))
  else
    let x := intOf t.type_ v
    let a := intOf t.type_ t.a
    match t.op with
    | 1 => decide (x = a)
    | 2 => decide (x ≠ a)
    | 3 => decide (x < a)
    | 4 => decide (x ≤ a)
    | 5 => decide (a < x)
    | 6 => decide (a ≤ x)
    | 7 => decide (a ≤ x) && decide (x ≤ intOf t.type_ t.b)
    | 8 => decide (Nat.land v t.a = t.a)
    | _ => decide (Nat.land v t.a ≠ 0)

/-- An ASCII capital as its small letter. -/
def foldByte (b : Byte) : Byte := if 0x41 ≤ b.toNat ∧ b.toNat ≤ 0x5A then b + 0x20#8 else b

/-- The value of a byte operation on the bytes of its field (Table 8-4). -/
def bytesHold (t : Term) (v : List Byte) : Bool :=
  let f := fun (l : List Byte) => if bit t.flags 1 then l.map foldByte else l
  let pat := f t.pattern
  let v := f v
  match t.op with
  | 0x12 => (List.range (v.length + 1 - t.plen)).any fun i => decide (slice v i t.plen = pat)
  | _ => decide (v.take t.plen = pat)

/-- Bytes of the record that a term's operation reads. -/
def Term.len (t : Term) : Nat := if t.type_ = 0x10 then (if t.op = 0x12 then t.span else t.plen) else typeWidth t.type_

/-- The field of a term in a record; none when it is missing (R260). Of a banded column that is wider, the first bytes are taken (DESIGN CHOICE, log
entry 210). -/
def Rec.fieldOf (r : Rec) (l : Layout) (field len : Nat) : Option (List Byte) :=
  if l.kind = 4 then
    match r.cols[field]? with
    | none => none
    | some v => if len ≤ v.length then some (v.take len) else none
  else if field + len ≤ r.body.length then some (slice r.body field len) else none

/-- A term on the bytes of its field: a missing one is false (R260). -/
def Term.holds (t : Term) (v : Option (List Byte)) : Bool :=
  match v with
  | none => false
  | some v =>
    let x := if t.type_ = 0x10 then bytesHold t v else numericHolds t (leNat (if bit t.flags 2 then v.reverse else v))
    if bit t.flags 0 then !x else x

/-- A program on a record, by the field that each term reads (R261). -/
def Pred.passes (q : Pred) (field : Term → Option (List Byte)) : Bool :=
  q.terms.isEmpty || (List.range q.clauses).any fun n => (q.terms.filter fun t => bit t.clauses n).all fun t => t.holds (field t)

/-- A term obeys Table 8-3 and R262; `raw` is its 48 bytes. A numeric term on a banded layout whose column is not there is refused with those of another
width (DESIGN CHOICE, log entry 210). -/
def Term.ok (t : Term) (raw : List Byte) (clauses : Nat) (l : Layout) : Bool :=
  let numeric := decide (1 ≤ t.type_) && decide (t.type_ ≤ 12)
  let w := typeWidth t.type_
  let nan := fun (x : Nat) => typeIsFloat t.type_ && ((typeFmt t.type_).decode x).isNan
  let above := if typeIsFloat t.type_ then ((typeFmt t.type_).decode t.b).lt ((typeFmt t.type_).decode t.a)
    else decide (intOf t.type_ t.b < intOf t.type_ t.a)
  decide (t.clauses ≠ 0) && decide (t.clauses < 2 ^ clauses) && decide (t.flags < 8) && decide (fieldAt raw 12 4 = 0) &&
  (if numeric then
    decide (1 ≤ t.op) && decide (t.op ≤ 9) && (decide (t.op ≤ 7) || !typeIsFloat t.type_) && decide (t.span = 0) &&
      decide (t.plen = 0) && !bit t.flags 1 && decide (t.a < 2 ^ (8 * w)) && decide (fieldAt raw 32 16 = 0) &&
      (if t.op = 7 then decide (t.b < 2 ^ (8 * w)) && !nan t.a && !nan t.b && !above else decide (t.b = 0)) &&
      (decide (l.kind ≠ 4) || decide (l.widths.getD t.field 0 = w))
  else
    decide (t.type_ = 0x10) && [0x10, 0x11, 0x12].contains t.op && decide (1 ≤ t.plen) && decide (t.plen ≤ 32) && !bit t.flags 2 &&
      allZero (raw.drop (16 + t.plen)) &&
      (if t.op = 0x12 then decide (t.plen ≤ t.span) && decide (t.span ≤ 4096) else decide (t.span = 0)))

/-- The predicate program at the end of a payload obeys R259 and R262. -/
def programOk (g : List Byte) (l : Layout) : Bool :=
  let n := fieldAt g 1 1
  let cl := fieldAt g 2 1
  let terms := (List.range n).map fun i => termAt g (32 + 48 * i)
  decide (32 ≤ g.length) && decide (fieldAt g 0 1 = 1) && decide (n ≤ 64) && decide (cl ≤ 16) && (decide (cl ≠ 0) || decide (n = 0)) &&
    decide (g.length = 32 + 48 * n) && decide (fieldAt g 3 29 = 0) &&
    (terms.zipIdx.all fun t => t.1.ok (slice g (32 + 48 * t.2) 48) cl l) &&
    ((List.range cl).all fun c => terms.any fun t => bit t.clauses c)

/-- The terms of a program. -/
def programTerms (g : List Byte) : List Term := (List.range (fieldAt g 1 1)).map fun i => termAt g (32 + 48 * i)

/-- A projection obeys R263. -/
def projOk (l : Layout) (proj : List (Nat × Nat)) : Bool :=
  if l.kind = 4 then (proj.all fun e => decide (e.1 < l.columns)) && decide ((proj.map (·.1)).Nodup)
  else
    (proj.all fun e => decide (1 ≤ e.2) && (decide (l.kind ≠ 1) || decide (e.1 + e.2 ≤ l.record))) &&
      (proj.zipIdx.all fun e => proj.zipIdx.all fun f => decide (e.2 = f.2) || decide (e.1.1 + e.1.2 ≤ f.1.1) || decide (f.1.1 + f.1.2 ≤ e.1.1))

/-- RATE_PCT (R267): the lower of the record-rate and containment limits. 450 million records of 64 bytes a second are full
channel rate, so a shorter record runs at its length ÷ 64 of it (log entry 65). -/
def ratePct (l : Layout) (terms : List Term) : Nat :=
  let len := if l.kind = 1 then l.record else 64
  let n := (terms.filter fun t => decide (t.op = 0x12)).length
  let a := if 64 ≤ len then 100 else 100 * len / 64
  min a (if n ≤ 8 then 100 else 800 / n)

/- Survivors (R263, R268) -/

/-- The body of a survivor and whether a field was cut (R263). -/
def Pred.body (q : Pred) (r : Rec) : List Byte × Bool :=
  if q.proj = [] then (r.body, false)
  else if q.layout.kind = 4 then (q.proj.flatMap fun e => r.cols.getD e.1 [], false)
  else (q.proj.flatMap fun e => slice r.body e.1 e.2, q.proj.any fun e => decide (r.body.length < e.1 + e.2))

/-- A survivor: its extent, unit and record, and its body. -/
structure Survivor where
  extent : Nat
  unit   : Nat
  ord    : Nat
  cut    : Bool
  body   : List Byte
  deriving DecidableEq, Repr

/-- The survivor header and body, padded to a multiple of 8 bytes (R268). -/
def Survivor.bytes (v : Survivor) (flags : Nat) : List Byte :=
  leBytes 8 (16 * v.unit) ++ leBytes 2 v.ord ++ leBytes 1 v.extent ++ leBytes 1 flags ++ leBytes 4 v.body.length ++ padTo v.body 8

/-- What one unit of an extent gives a scan. -/
structure UnitScan where
  extent    : Nat
  unit      : Nat
  /-- Unreadable, with its cause (R271). -/
  bad       : Option Nat
  examined  : Nat
  malformed : Bool
  survivors : List Rec
  deriving DecidableEq, Repr

/-- A unit examined (R257, R258, R271). -/
def scanUnit (q : Pred) (c : Cmd) (s : State) (vol extent unit : Nat) : UnitScan :=
  match s.unitData vol unit with
  | none => ⟨extent, unit, some (if c.lost.contains (unitKey vol unit) then 1 else 2), 0, false, []⟩
  | some d =>
    let (rs, mal) := q.layout.records d
    ⟨extent, unit, none, rs.length, mal, rs.filter fun r => q.passes fun t => r.fieldOf q.layout t.field t.len⟩

/-- The mapped units of a scan's extents, in scan order: extent, volume, unit (R258, R269). -/
def State.scanUnits (s : State) (es : List Extent) : List (Nat × Nat × Nat) :=
  es.zipIdx.flatMap fun e => (s.mappedIn e.1.vol e.1.first (e.1.first + e.1.units)).map fun u => (e.2, e.1.vol, u)

/-- Bytes that a unit's survivors take in a reply. -/
def survivorBytes (q : Pred) (u : UnitScan) : Nat :=
  (u.survivors.map fun r => 16 + roundUp (q.body r).1.length 8).sum

/-- The scan entry of a command, made at its receipt (R264). -/
def State.scanOf (s : State) (k : CmdKey) : Option Scan := s.scans.find? fun q => decide (q.key = k)

/-- One scan changed. -/
def modScan (k : CmdKey) (f : Scan → Scan) (s : State) : State :=
  { s with scans := s.scans.map fun q => if q.key = k then f q else q }

/-- Bytes of a unit's survivors as a sieve stages them: each with its header, with the projected fields of its predicate, or, for SCAN_AGGREGATE, with
only the fields that its specifications name (R263, R268, R273). -/
def Cmd.stageBytes (c : Cmd) (q : Pred) (u : UnitScan) : Nat :=
  if c.opcode ≠ 0x33 then survivorBytes q u
  else
    let n := fieldAt c.payload 1 1
    let fields := (List.range (fieldAt c.payload 3 1)).map fun i => typeWidth (fieldAt c.payload (17 + 16 * n + 32 * i) 1)
    u.survivors.length * (16 + roundUp fields.sum 8)

/-- A unit of a scan has been read: its page has come in, or it needs none. -/
def State.unitRead (s : State) (c : Cmd) (u : Nat × Nat × Nat) : Bool :=
  match s.entry u.2.1 u.2.2 with
  | some (.media a) => c.pagesIn.contains a
  | _ => true

/-- The units of a scan in flight: two windows of 16,384 from the first that has not been read (R269). -/
def State.windows (s : State) (c : Cmd) (us : List (Nat × Nat × Nat)) : List (Nat × Nat × Nat) :=
  us.take (16384 * ((us.takeWhile (s.unitRead c)).length / 16384 + 2))

/-- KiB of survivors that a scan has staged and that nobody has drained (R270). -/
def State.stagedKib (s : State) (c : Cmd) (q : Scan) : Nat :=
  ceilDiv ((((s.windows c (s.scanUnits c.extents)).filter (s.unitRead c)).map fun u => c.stageBytes q.pred (scanUnit q.pred c s u.2.1 u.1 u.2.2)).sum) 1024 -
    q.drained

/-- A scan whose staged survivors have reached its amount waits until some are drained: its reads pause (R270). -/
def pauseScan (k : CmdKey) (s : State) : State :=
  match findCmd k s, s.scanOf k with
  | some c, some q =>
    let n := s.stagedKib c q
    let reading : Bool := match c.phase with
      | .waiting (.pages _) => true
      | _ => false
    if reading ∧ q.kib ≤ n then
      modCmd k (fun c => { c with phase := .waiting .staging }) (modScan k (fun q => { q with paused := true, staged := n }) s)
    else s
  | _, _ => s

end Sys2Proof.Machine
end

