-- ==== Sys2Proof/Machine/Stripes.lean ====
section
/-!
DEFINITION. Machine/Stripes.lean: what the codewords of a member hold as stored: data, headers and parity; the rebuild of a member from
the others of its stripe; map and journal entries, root records and the page state word as bytes (chapters 5 and 6).
-/

namespace Sys2Proof.Machine

open Sys2Proof

/- Map and journal entries (Tables 6-4 and 6-5) -/

/-- A map entry as 40 bits. -/
def MapEntry.bits : Option MapEntry → Nat
  | none => 0
  | some (.media a) => packFields [(38, 1), (28, a.row), (16, a.band), (4, a.page), (0, a.member)]
  | some (.buffer n) => packFields [(38, 2), (0, n % 2 ^ 36)]
  | some .poisoned => packFields [(38, 3)]

def MapEntry.bytes (e : Option MapEntry) : List Byte := leBytes 5 (MapEntry.bits e)

/-- Codes of the band states (Table 6-6). -/
def BandState.code : BandState → Nat
  | .free => 0
  | .opened => 1
  | .closed => 2
  | .relocating => 3
  | .erasing => 4
  | .retired => 5

/-- VOLUME of an owner: the byte for an index is not stated (log entry 198). -/
def ownerByte (owner : Nat) : List Byte := if owner < 256 then leBytes 1 owner else [Config.ownerByte (owner - 256)]

/-- A journal entry's 16 bytes. How FLUSH_DONE is told from other band-state entries, and what a tombstone bit's entry and a settling pass's hold, is
not stated (log entries 154 and 198). -/
def JEntry.bytes : JEntry → List Byte
  | .tomb i slot => (List.range 16).map (Config.tombEntry i slot)
  | .pass i _ _ => (List.range 16).map (Config.passEntry i)
  | .map vol unit new old _ => ownerByte vol ++ leBytes 5 unit ++ MapEntry.bytes new ++ MapEntry.bytes old
  | .band k st erases => leBytes 1 0xFE ++ leBytes 1 (k / 2800) ++ leBytes 2 (k % 2800) ++ leBytes 1 st.code ++ zeros 1 ++
      leBytes 2 erases ++ zeros 3 ++ zeros 5
  | .flushDone => leBytes 1 0xFE ++ (List.range 15).map Config.flushDone

/-- A flush manifest entry's 8 bytes (R208). -/
def ManifestUnit.bytes (u : ManifestUnit) : List Byte :=
  ownerByte u.vol ++ leBytes 5 u.unit ++ leBytes 2 (packFields [(15, b2n u.withheld), (0, u.ctx % 1024)])

/- Members as stored (R159, R189, R227) -/

/-- The bytes of an item of which the member holds a part. -/
def Body.bytes : Body → List Byte
  | .data => []
  | .segment es => (List.range 838860).flatMap fun i => MapEntry.bytes (kvGet i es)
  | .directory ps => ps.flatMap fun p => MapEntry.bytes (some (.media p.2))
  | .journal es => es.flatMap JEntry.bytes
  | .manifest us => us.flatMap ManifestUnit.bytes
  | .pad => []

/-- The number of the key under which an owner's units are encrypted: that of its volume, or of its index (R227, R279). -/
def State.ownerKey (s : State) (owner : Nat) : Nat :=
  ((if owner < 256 then (kvGet owner s.media.volumes).map (·.key) else (kvGet (owner - 256) s.indexes).map (·.key))).getD 0

/-- A logical unit as stored: each 4 KiB block encrypted under its owner's key, with its block number within the owner as tweak (R227). -/
def State.encrypted (s : State) (vol unit : Nat) (data : List Byte) : List Byte :=
  let key := leBytes 64 (Config.volumeKey (s.ownerKey vol)).toNat
  (List.range 16).flatMap fun i => xtsEncrypt key (16 * unit + i) (slice data (4096 * i) 4096)

/-- The 65,536 data bytes of a data member as stored; pages not programmed read 0xFF. -/
def State.stored (s : State) (a : MediaAddr) : List Byte :=
  match kvGet a.num s.media.members with
  | none => List.replicate 65536 0xFF#8
  | some x => match x.body with
    | .data => s.encrypted x.vol x.unit (s.member a)
    | b => fit (slice b.bytes (65536 * x.part) 65536) 65536

/-- KIND of one codeword: the unused part of a journal stripe is KIND 0x06 (R194). -/
def Member.kindOf (x : Member) (slot : Nat) : Nat :=
  match x.body with
  | .journal es => if es.length ≤ 256 * slot then 6 else x.kind
  | _ => x.kind

/-- Bytes 0 to 11 of a data codeword's header (Table 6-2). -/
def Member.head (x : Member) (slot : Nat) : List Byte :=
  leBytes 1 (x.kindOf slot) ++ (if x.kind = 1 then ownerByte x.vol else leBytes 1 0xFF) ++ leBytes 5 x.unit ++ leBytes 1 slot ++ leBytes 4 x.seq

/-- DATA_CRC of a codeword: CRC-32C of its 4,096 stored bytes, seeded with that of its header's first bytes. -/
def dataCrc (head data : List Byte) : Nat := crcFrom (crc32c head) data

/-- DATA_CRC of codeword n of a data member, as its header carries it. -/
def State.crcAt (s : State) (a : MediaAddr) (n : Nat) : Nat :=
  match kvGet a.num s.media.members with
  | none => 0xFFFFFFFF
  | some x => dataCrc (x.head n) (slice (s.stored a) (4096 * n) 4096)

/-- A data codeword's 16-byte header (Table 6-2); not programmed, it reads 0xFF. -/
def State.headAt (s : State) (a : MediaAddr) (n : Nat) : List Byte :=
  match kvGet a.num s.media.members with
  | none => List.replicate 16 0xFF#8
  | some x => x.head n ++ leBytes 4 (s.crcAt a n)

/- Parity (R185, R190) -/

/-- The sieves of a place's stripe, and the place of its parity member. -/
def State.stripeOf (s : State) (a : MediaAddr) : List Nat := let b := s.band a.bandKey; if b.sieves = [] then List.range 16 else b.sieves
def State.parityOf (s : State) (a : MediaAddr) : MediaAddr := { a with member := paritySieve (s.stripeOf a) a.page }

/-- The data members of a place's stripe. -/
def State.dataOf (s : State) (a : MediaAddr) : List MediaAddr := stripePlaces a.bandKey a.page (s.stripeOf a)

/-- The exclusive-or of some members' bytes, and of some check values. -/
def xorAll (l : List (List Byte)) : List Byte := l.foldl xorBytes (zeros 65536)
def xorNats (l : List Nat) : Nat := l.foldl Nat.xor 0

/-- What a member holds as stored, its parity being the exclusive-or of the data members (R190). -/
def State.memberBytes (s : State) (a : MediaAddr) : List Byte :=
  if a = s.parityOf a then xorAll ((s.dataOf a).map s.stored) else s.stored a

/-- PAR_CRC_XOR of a parity codeword, and its header (Table 6-3). -/
def State.parCrc (s : State) (a : MediaAddr) (n : Nat) : Nat := xorNats ((s.dataOf a).map fun b => s.crcAt b n)
def State.parityHead (s : State) (a : MediaAddr) (n : Nat) : List Byte :=
  leBytes 1 4 ++ leBytes 1 a.row ++ leBytes 2 a.band ++ leBytes 2 a.page ++ zeros 2 ++ leBytes 4 (s.band a.bandKey).seq ++ leBytes 4 (s.parCrc a n)

/-- A page as it crosses the channel: the data of plane q's four codewords, then each header before its 304 parity bytes, which the LDPC
code gives (R159). Columns 17,664 to 18,431 hold 0xFF. -/
def State.pageBytes (s : State) (a : MediaAddr) (q : Nat) : List Byte :=
  let data := slice (s.memberBytes a) (16384 * q) 16384
  let head := fun (n : Nat) => if a = s.parityOf a then s.parityHead a n else s.headAt a n
  data ++ ((List.range 4).flatMap fun i =>
    let h := head (4 * q + i)
    h ++ (List.range 304).map (Config.ldpc (slice data (4096 * i) 4096 ++ h))) ++ List.replicate 768 0xFF#8

/- The rebuild (R174, R190) -/

/-- A missing member: the exclusive-or of the others; and the DATA_CRC of its codeword, from PAR_CRC_XOR and the other values. -/
def State.rebuilt (s : State) (a : MediaAddr) : List Byte := xorAll ((s.othersOf a).map s.memberBytes)
def State.rebuiltCrc (s : State) (a : MediaAddr) (n : Nat) : Nat :=
  Nat.xor (s.parCrc a n) (xorNats (((s.dataOf a).filter fun b => decide (b ≠ a)).map fun b => s.crcAt b n))

/-- The rebuilt data pass their check: the codewords needed match the recovered DATA_CRC, under the header that the map entry gives
again. A parity member has none to check. -/
def State.rebuildChecks (s : State) (a : MediaAddr) (cws : Nat) : Bool :=
  decide (a = s.parityOf a) || match kvGet a.num s.media.members with
    | none => true
    | some x => (List.range 16).all fun n =>
      !bit cws n || decide (dataCrc (x.head n) (slice (s.rebuilt a) (4096 * n) 4096) = s.rebuiltCrc a n)

/- The page state word (Tables 5-3 and 5-4) -/

/-- What a page shows after the steps that its settings allow: retries up to RETRY_MAX, all of them before soft decoding, and soft decoding
before a codeword is uncorrectable, as it is on every page that decodes nowhere (R160). -/
def PageResult.within (retryMax : Nat) (r : PageResult) : PageResult :=
  let soft := r.soft || r.erased || r.indeterminate || decide (r.cwBad % 16 ≠ 0)
  { r with soft := soft, retry := if soft then retryMax else min r.retry retryMax, cwBad := r.cwBad % 16 }

/-- STATE of a direct read (Table 5-4). -/
def PageResult.state (corrHigh : Nat) (r : PageResult) : Nat :=
  if r.indeterminate then 3
  else if r.erased then 2
  else if r.cwBad ≠ 0 then 4
  else if corrHigh ≤ r.maxCorr ∨ 0 < r.retry ∨ r.soft then 1
  else 0

/-- The page state word. -/
def pageWord (r : PageResult) (suspended : Nat) (around : Bool) (st : Nat) : Nat :=
  packFields [(16, r.maxCorr % 4096), (12, r.cwBad % 16), (10, suspended), (9, b2n around), (8, b2n r.soft), (4, r.retry % 16), (0, st)]

/-- The state words of a member's pages, each with its plane. A read-around reports what the direct read of a page had found before it. -/
def pageWords (found : List PageResult) (suspended : Nat) (around : Bool) (st : PageResult → Nat) : List (Nat × Nat) :=
  found.map fun r => (r.plane, pageWord r suspended around (st r))

/-- SUSPENDED of Table 5-3. -/
def suspendedCode : Option DieOp → Nat
  | some .programSuspended => 1
  | some .eraseSuspended => 2
  | _ => 0

/- Root records (R204) -/

/-- A root record: its header and body, with the CRC over both (Table 6-8). -/
def rootRecord (kind seq : Nat) (body : List Byte) : List Byte :=
  let h := leBytes 4 0x4B5A5253 ++ leBytes 1 kind ++ leBytes 1 1 ++ zeros 2 ++ leBytes 8 seq ++ leBytes 4 body.length ++ zeros 8
  h ++ leBytes 4 (crc32c (h ++ body)) ++ body

/-- A place as a map entry; none is 0. -/
def placeBytes (a : Option MediaAddr) : List Byte := MapEntry.bytes (a.map .media)

/-- A grown-bad entry's 16 bytes (Table 6-13). -/
def GrownBad.bytes (g : GrownBad) : List Byte :=
  leBytes 1 g.sieve ++ leBytes 1 g.channel ++ leBytes 1 g.position ++ leBytes 1 g.plane ++ leBytes 2 g.block ++ leBytes 1 g.cause ++ zeros 1 ++
    leBytes 8 g.when_

/-- The factory-bad bitmap (R204), and its length. -/
def State.bitmapBytes (s : State) : Nat := s.part.dies * 4 * 2800 / 8
def State.bitmap (s : State) : List Byte :=
  (List.range s.bitmapBytes).map fun i => BitVec.ofNat 8 (((s.media.factoryBad.filter fun b => decide (b / 8 = i)).map fun b => 2 ^ (b % 8)).sum)

/-- The bodies of CHECKPOINT_ROOT and FACTORY_BAD_REF (Table 6-9). -/
def RootSet.checkpointBody (x : RootSet) : List Byte :=
  leBytes 8 x.checkpoint ++ placeBytes x.dir ++ zeros 3 ++ placeBytes x.head ++ zeros 3 ++ leBytes 8 x.headSeq
def State.factoryBody (s : State) : List Byte :=
  leBytes 4 s.bitmapBytes ++ leBytes 4 (crc32c s.bitmap) ++ leBytes 2 (bitSet (s.media.sieves.map (·.bitmap))) ++ zeros 6

/-- The body of LIFE_CYCLE (Table 17-6). -/
def State.lifeBody (s : State) : List Byte :=
  let x := s.sec
  leBytes 8 x.baseSerial ++ leBytes 8 x.mediaSetId ++ leBytes 1 x.life.code ++ zeros 1 ++ leBytes 2 x.ownerGen ++ fit x.verifier 32 ++
    fit x.kekSalt 32 ++ leBytes 8 x.mediaTransitions ++ zeros 4

/-- The media keys of volumes, indexes and model images as CONFIGURATION holds them, each wrapped under K into 72 bytes (R279, R399,
R508). -/
def State.wrappedKeys (s : State) (vols : KV Volume) : List Byte :=
  (vols.flatMap fun v => v.2.wrapped) ++ (s.indexes.flatMap fun i => i.2.wrapped) ++ s.models.flatMap fun m => m.2.wrapped

/-- A root set's records in order (R204), written now. The spec does not lay out the body of CONFIGURATION (log entry 154). -/
def State.rootBytes (s : State) (x : RootSet) : List Byte :=
  let bad := s.media.grownBad
  let rs := [rootRecord 1 x.seq x.checkpointBody, rootRecord 2 x.seq s.lifeBody, rootRecord 3 x.seq (s.wrappedKeys x.volumes ++ Config.configBody x.seq),
    rootRecord 4 x.seq (leBytes 4 bad.length ++ zeros 12 ++ bad.flatMap GrownBad.bytes), rootRecord 5 x.seq s.factoryBody]
  let n := rs.flatten.length + 48
  rs.flatten ++ rootRecord 6 x.seq (leBytes 4 6 ++ leBytes 4 n ++ zeros 8)

end Sys2Proof.Machine
end

