-- ==== Sys2Proof/Machine/Media.lean ====
section
/-!
DEFINITION. Machine/Media.lean: what happens on the media (chapters 5 and 6): page reads, read-around, programs, erases, the
journal, checkpoints, garbage collection and tilling. Which page was read, what its decoding found and whether an operation passed are
the event's operands; what they do to the module is here.
-/

namespace Sys2Proof.Machine

open Sys2Proof

/- Page reads -/

/-- Counts of one page read: retries, soft decodes, uncorrectable and INDETERMINATE pages (Tables 5-11, 5-12, 6-14). -/
def countRead (res : PageResult) (st : Nat) (s : State) : State :=
  let s := modMedia (fun m => { m with
    retried := satAdd 16 m.retried (b2n (decide (0 < res.retry)))
    soft := satAdd 16 m.soft (b2n res.soft)
    uncorrectable := satAdd 16 m.uncorrectable (b2n (decide (st = 4))) }) s
  bumpErr 14 (b2n (decide (st = 3))) (bumpErr 2 (b2n (decide (st = 4))) (bumpErr 1 (b2n res.soft) (bumpErr 0 (b2n (decide (0 < res.retry))) s)))

/-- A read that suspends an operation counts it (Table 5-10). -/
def suspend (d : Nat) (op : Option DieOp) (s : State) : State :=
  match op with
  | none => s
  | some op =>
    let s := modDie d (fun x => { x with op := op }) s
    if op = .programSuspended then modMedia (fun m => { m with progSuspends := satAdd 32 m.progSuspends 1 }) s
    else modMedia (fun m => { m with eraseSuspends := satAdd 32 m.eraseSuspends 1 }) s

/-- The planes on which codewords of a member lie, four codewords a page. -/
def planesOf (cws : Nat) : List Nat := (List.range 4).filter fun q => decide (cws / 16 ^ q % 16 ≠ 0)

/-- The sieve reports a member's pages with their state words (R160). -/
def report (a : MediaAddr) (words : List (Nat × Nat)) (s : State) : State := modMedia (fun m => { m with report := some (a, words) }) s

/-- A queued read has ended, or goes on in another way. -/
def dropRead (r : PageReq) (s : State) : State := modMedia (fun m => { m with reads := m.reads.erase r }) s
def stepRead (r : PageReq) (st : ReadStep) (found : List PageResult) (s : State) : State :=
  modMedia (fun m => { m with reads := m.reads.map fun x => if x = r then { x with step := st, found := found } else x }) s

/-- A segment of the map has been read: it is in the cache, and lookups that waited for it go on (R193). -/
def segmentIn (n : Nat) (s : State) : State :=
  let s := modMedia (fun m => { m with segments := touch n false m.segments }) s
  { s with cmds := s.cmds.map fun c => match c.phase with
      | .waiting (.segments need) =>
        if need.contains n then
          let c := { c with segsIn := if c.segsIn.contains n then c.segsIn else n :: c.segsIn }
          if need.all fun m => c.segsIn.contains m then { c with phase := .received } else c
        else c
      | _ => c }

/-- A page is delivered to what it was read for; a command that has all its pages can go on (R166). `ok` says whether it could be read, and
`around` whether by read-around. -/
def pageIn (r : PageReq) (ok around : Bool) (f : Cmd → Cmd) (s : State) : State :=
  let s := dropRead r s
  match r.for_ with
  | .cmd k => pauseScan k { s with cmds := s.cmds.map fun c => match c.phase with
      | .waiting (.pages need) =>
        if c.key = k then
          let c := f { c with pagesIn := if c.pagesIn.contains r.place then c.pagesIn else r.place :: c.pagesIn }
          if need.all fun b => c.pagesIn.contains b then { c with phase := .received } else c
        else c
      | _ => c }
  | .segment n => if s.media.reads.any fun x => decide (x.for_ = .segment n) then s else segmentIn n s
  | .refetch _ => s
  | .copy => copyRead r.place s
  | .tilling => if ok then bumpErr 9 1 (relocate true r.place s) else s
  | .search k id => { s with searches := s.searches.map fun q => if q.key = k then { q with read := q.read ++ [(id, ok, around)] } else q }

/-- A read has ended on its die: the next page of its block, when it is queued in the same class, goes on as a continuous read. An interactive
read stops that of its die at a page boundary, to be restarted at its next page (R164, R165). -/
def nextStream (d : Nat) (r : PageReq) (s : State) : State :=
  let wantedNext := (kvGet d s.media.streams).any fun t => s.media.reads.any fun x =>
    decide (x.step = .queued) && decide (x.place = t.next) && decide (x.cls = t.cls) && s.wanted x
  if s.continues r then modMedia (fun m => { m with streams := kvSet d ⟨{ r.place with page := r.place.page + 1 }, r.cls⟩ m.streams }) s
  else if wantedNext ∧ r.cls = .interactive then s
  else modMedia (fun m => { m with streams := kvDel d m.streams }) s

/-- The page was programmed within the last 24 hours (R223). -/
def State.young (s : State) (a : MediaAddr) : Bool :=
  let b := s.band a.bandKey
  let wl := a.page / b.kind.lineStripes
  [wl, 768 * (a.member + 1) + wl].any fun n => (kvGet n b.progAt).any fun t => !s.since t (86400 * countsS)

/-- What every direct read of a member does: the operation suspended for it, the counts and the state word of each page, and a block that needed
soft decoding soon after its program (R160, R223). -/
def readPages (d : Nat) (op : Option DieOp) (r : PageReq) (res : List PageResult) (s : State) : State :=
  let st := PageResult.state r.corrHigh
  let s := res.foldl (fun s x => countRead x (st x) s) (suspend d op s)
  let s := report r.place (pageWords res (suspendedCode op) false st) s
  let s := account (s.readContext r) (fun c => { c with reads := c.reads + res.length }) s
  res.foldl (fun s x => if x.soft ∧ s.young r.place then addBad d x.plane r.place.bandKey 3 s else s) s

/-- Streams that stream check units watch: the images of MODEL_LOAD and PROGRAM_LOAD (R182). -/
def State.armed (s : State) (r : PageReq) : Bool :=
  s.cmds.any fun c => decide (r.for_ = .cmd c.key) && (decide (c.opcode = 0x50) || decide (c.opcode = 0x70))

/-- The pages that a sieve reports for a read: one for each plane on which codewords that it needs lie. -/
def PageReq.reports (r : PageReq) (res : List PageResult) : Bool := decide (res.map (·.plane) = planesOf r.cws)

/-- A page read ends: the read that its die serves now (R160, R164 to R166, Table 5-5). A member that decodes goes to what it was read for; one
with a page CORRECTED_HIGH is rewritten elsewhere; one with a page that does not decode, or whose stream check mismatches, waits for its
read-around (R174, R182). A read that is not at its turn does not end now. -/
def pageRead (a : MediaAddr) (cls : Cls) (res : List PageResult) (s : State) : State :=
  match s.dieAt a with
  | none => s
  | some d => match s.turn d with
    | none => s
    | some r => match s.serve a cls r.wbHighPct with
      | .direct op =>
        if r.place ≠ a ∨ r.cls ≠ cls ∨ !r.reports res then s
        else
          let res := res.map (PageResult.within r.retryMax)
          let st := res.map (PageResult.state r.corrHigh)
          let s := nextStream d r (readPages d op r res s)
          if st.all fun x => decide (x ≤ 1) then
            if (res.any (·.mismatch)) ∧ s.armed r then settleMedia (stepRead r .recheck res s)
            else
              let high := st.contains 1
              let s := if high then bumpErr 8 1 (relocate (decide (r.cws = 0xFFFF)) a s) else s
              settleMedia (pageIn r true false (fun c => if high ∧ c.opcode = 0x25 then { c with tally := c.tally + 1 } else c) s)
          else settleMedia (stepRead r .rebuild res s)
      | _ => s

def execPageReadComplete (a : MediaAddr) (cls : Cls) (res : List PageResult) (s : State) : Out := .next (pageRead a cls res s)

/- Read-around (R174 to R176, R182, R190) -/

/-- How another member's die serves its part of a read-around: an erase is suspended only where the read has no other way (R175). -/
def State.partServe (s : State) (a b : MediaAddr) (cls : Cls) (pct : Nat) : Serve :=
  match s.dieAt b with
  | none => .direct none
  | some d =>
    if s.unreadable b then .direct none
    else if (s.die d).role = .unresponsive then .waits
    else match (s.die d).op, cls with
      | .program, .interactive => .direct (some .programSuspended)
      | .program, .batch => if s.wbHigh pct then .waits else .direct (some .programSuspended)
      | .program, .housekeeping => .waits
      | .erase, .interactive => if s.unreadable a then .direct (some .eraseSuspended) else .waits
      | .erase, _ => .waits
      | _, _ => .direct none

/-- Some part of a read-around waits for its die. -/
def State.partsWait (s : State) (a : MediaAddr) (cls : Cls) (pct : Nat) : Bool :=
  (s.othersOf a).any fun b => decide (s.partServe a b cls pct = .waits)

/-- The matching codewords of the other members are read: the operations suspended for them, the count, and the pages charged (R174). The state,
and SUSPENDED of Table 5-3. -/
def readParts (a : MediaAddr) (cls : Cls) (cws pct : Nat) (ctx : Option Nat) (s : State) : State × Nat :=
  let others := s.othersOf a
  let ops := others.filterMap fun b => match s.dieAt b, s.partServe a b cls pct with
    | some d, .direct (some op) => some (d, op)
    | _, _ => none
  let s := ops.foldl (fun s x => suspend x.1 (some x.2) s) s
  let s := bumpErr 3 1 (modMedia (fun m => { m with readsAround := satAdd 32 m.readsAround 1 }) s)
  (account ctx (fun c => { c with reads := c.reads + (planesOf cws).length * others.length }) s, (ops.map fun x => suspendedCode (some x.2)).foldl max 0)

/-- A rebuild can be made: every other member can be read, and the rebuilt codewords pass their check (R174, R176, R190). -/
def State.rebuilds (s : State) (a : MediaAddr) (cws : Nat) : Bool := (s.othersOf a).all (fun b => !s.unreadable b) && s.rebuildChecks a cws

/-- What a read-around reports of a member that no direct read was made of: nothing on each page that it needs. -/
def unread (cws : Nat) : List PageResult := (planesOf cws).map fun q => ⟨0, 0, false, 0, false, false, q, false⟩

/-- A unit is lost to the commands that wait for its place (R176, R233). -/
def loseUnit (a : MediaAddr) (s : State) : State :=
  match s.unitAt a with
  | none => s
  | some u =>
    let s := { s with cmds := s.cmds.map fun c =>
      let hit := match c.phase with
        | .waiting (.pages need) => need.contains a
        | .waiting (.erased bands _) => bands.contains a.bandKey
        | _ => false
      if hit then { c with lost := c.lost ++ [u] } else c }
    poison (u / 2 ^ 40) (u % 2 ^ 40) s

/-- The units of a storage command's range that a segment maps, as range entries (R238). -/
def Cmd.segmentBad (c : Cmd) (n : Nat) : List Bad :=
  let r := rangeDesc c.payload
  (r.touched.filter fun u => decide (segmentOf (unitKey r.vol u) = n)).map fun u => r.clip u 1

/-- A map segment cannot be read: the commands whose lookups wait for it complete MEDIA_UNCORRECTABLE, a storage command with the ranges that it
could not look up (R176, R238). -/
def loseSegment (n : Nat) (s : State) : State :=
  let s := modMedia (fun m => { m with reads := m.reads.filter fun r => decide (r.for_ ≠ .segment n) }) s
  (s.cmds.filter fun c => match c.phase with
    | .waiting (.segments need) => need.contains n
    | _ => false).foldl (fun s c =>
      if 0x20 ≤ c.opcode ∧ c.opcode ≤ 0x25 then
        let r := rangeDesc c.payload
        reply c stMediaUncorrectable (badReply 0 (r.first + r.blocks) (c.segmentBad n)) s
      else fail c stMediaUncorrectable s) s

/-- REBUILD_FAILED is counted (Tables 5-12 and 6-14). -/
def countFailed (s : State) : State := bumpErr 4 1 (modMedia (fun m => { m with rebuildFailed := satAdd 16 m.rebuildFailed 1 }) s)

/-- The rebuild of a page has failed: REBUILD_FAILED. Its unit is poisoned (R233), and a copy of it is given up; a refetch goes on to its next
source. -/
def rebuildFails (r : PageReq) (s : State) : State :=
  let s := countFailed s
  match r.for_ with
  | .segment n => loseSegment n s
  | .refetch _ => dropRead r s
  | .search _ _ => pageIn r false true id (loseUnit r.place s)
  | _ => pageIn r false true (fun c => { c with ra := true })
      (modMedia (fun m => { m with copies := m.copies.filter fun j => decide (j.src ≠ r.place) }) (loseUnit r.place s))

/-- A read-around ends: `ok` says whether the codewords of the other members decoded, and, for a re-check, whether the rebuilt segment
matches. It fails when another member cannot be read, or the rebuilt data fail their check. -/
def readAround (a : MediaAddr) (ok : Bool) (s : State) : State :=
  match s.media.reads.find? fun r => decide (r.place = a) && s.wanted r && (decide (r.step ≠ .queued) || decide (s.serveReq r = .around)) with
  | none => s
  | some r =>
    if s.partsWait a r.cls r.wbHighPct then s
    else
      let recheck := decide (r.step = .recheck)
      let reach := (s.othersOf a).all fun b => !s.unreadable b
      let good := reach && ok && (recheck || s.rebuildChecks a r.cws)
      let (s, susp) := readParts a r.cls r.cws r.wbHighPct (s.readContext r) s
      let s := report a (pageWords (if r.found = [] then unread r.cws else r.found) susp true fun _ => if good then 5 else 6) s
      if good then
        let s := if recheck then modMedia (fun m => { m with chkRepaired := satAdd 16 m.chkRepaired 1 }) (relocate (decide (r.cws = 0xFFFF)) a s) else s
        settleMedia (pageIn r true true (fun c => { c with ra := true }) s)
      else if recheck ∧ reach then
        let s := bumpErr 7 1 (modMedia (fun m => { m with chkMismatch := satAdd 16 m.chkMismatch 1 }) (dropRead r s))
        settleMedia ((s.cmds.filter fun c => decide (r.for_ = .cmd c.key)).foldl (fun s c => fail { c with ra := true } stMediaUncorrectable s) s)
      else settleMedia (rebuildFails r s)

def execReadAroundComplete (a : MediaAddr) (ok : Bool) (s : State) : Out := .next (readAround a ok s)

/- Programs -/

/-- A band may open: FREE, at the lowest erase count of the FREE bands, within the limits of R188 (R199). -/
def State.mayOpen (s : State) (k : Nat) (kind : StripeKind) : Bool :=
  let b := s.band k
  let listed := s.media.bands.filter fun x => s.canOpen x.1
  s.canOpen k && listed.all (fun x => decide (b.erases ≤ x.2.erases)) &&
    (decide (b.erases = 0) || s.freshBand.isNone) &&
    decide (s.openBands kind < (if kind = .host then 16 else 6))

/-- The word line being programmed in a band. -/
def State.wordLine (s : State) (k wl : Nat) : Option WordLine := s.media.lines.find? fun l => decide (l.band = k) && decide (l.wl = wl)

/-- The programs of a word line begin: its data members take the oldest waiting units, or copies, and pads when a command
waits for them (R187, R188, R241, R244). Host data waits for a full word line otherwise. -/
def startLine (k wl : Nat) (kind : StripeKind) (s : State) : Option State :=
  let b := s.band k
  let opens := decide (wl = 0) && s.mayOpen k kind
  let goes := decide (b.state = .opened) && decide (b.kind = kind) && decide (b.filled = wl) && decide (wl < 768) &&
    !(s.media.lines.any fun l => decide (l.band = k))
  if !(opens || goes) then none
  else
    let s := if opens then openBand k kind s else s
    let places := linePlaces kind k wl (s.band k).sieves
    let begin_ := fun (l : WordLine) (s : State) => settleDies (modMedia (fun m => { m with lines := m.lines ++ [l] }) s)
    match kind with
    | .host =>
      let us := s.unplaced
      if us = [] ∨ !s.keysPresent ∨ (us.length < places.length ∧ !s.wantsDurable) then none
      else
        let pairs := places.zip us
        let owners := pairs.filterMap fun p => (kvGet p.2 s.media.slots).map (·.vol)
        let s := modBand k (fun b => { b with held := (b.held ++ owners).eraseDups }) s
        some (begin_ ⟨k, wl, .host, pairs, [], [], []⟩
          (modMedia (fun m => { m with slots := pairs.foldl (fun t p => kvMod p.2 (fun x => { x with place := some p.1 }) t) m.slots }) s))
    | .copy =>
      let js := (s.media.copies.filter fun j => j.ready && s.copyLives j && (s.missing [segmentOf (unitKey j.vol j.unit)]).isEmpty).take places.length
      if js = [] ∨ s.mediaPaused then none
      else
        let s := modBand k (fun b => { b with held := (b.held ++ js.map (·.vol)).eraseDups }) s
        some (begin_ ⟨k, wl, .copy, [], places.zip js, [], []⟩ (modMedia (fun m => { m with copies := m.copies.filter fun j => !js.contains j }) s))
    | _ => none

/-- A program failed: the block is grown-bad and the word line is rewritten elsewhere. When no band can be opened for host data, what has been
acknowledged is recorded as a deferred error, cause 0x03, and a WRITE that has not been completes MEDIA_UNCORRECTABLE, its units keeping their old
content, and so does a unit that a peer copies here; an INSERT, which has no such status, completes MEDIA_SPARE_EXHAUSTED (R201, R231, R241; DESIGN CHOICE, log entry 207). -/
def failLine (l : WordLine) (d plane : Nat) (s : State) : State :=
  let s := bumpErr 5 1 (addBad d plane l.band 1 (dropLine l s))
  let room := s.bestFree.isSome || s.media.bands.any fun b =>
    decide (b.2.state = .opened) && decide (b.2.kind = .host) && decide (b.2.filled < 768)
  if l.kind = .host ∧ !room then
    l.slots.foldl (fun s p =>
      match kvGet p.2 s.media.slots with
      | none => s
      | some x =>
        if x.acked then
          let s := modMedia (freeSlot p.2 (some .poisoned)) s
          if s.entry x.vol x.unit = some (.buffer p.2) then
            deferInService x.vol (if (kvGet x.ctx s.contexts).isSome then x.ctx else 0xFFFF) 3 [x.unit] s
          else s
        else match findCmd x.writer s with
          | some c => endCmd (if c.opcode = 0x42 then stSpareExhausted else stMediaUncorrectable) s c
          | none => modLinks (fun y => { y with incoming := y.incoming.map fun i =>
              if i.slot = p.2 then { i with status := stMediaUncorrectable } else i }) (dropSlot p.2 s)) s
  else s

/-- One word line of a block set is rebuilt onto the spare that serves its row: by read-around at housekeeping class (R179). A block set
that the spare cannot hold is rewritten elsewhere as copies. -/
def rebuildLine (k wl sieve d : Nat) (failed : Option Nat) (s : State) : State :=
  let b := s.band k
  match kvGet (k % 2800) (s.die d).todo with
  | none => s
  | some n =>
    if n ≠ wl ∨ s.mediaPaused ∨ !s.takesOp d true then s
    else match failed with
      | some plane =>
        let s := bumpErr 5 1 (addBad d plane k 1 s)
        if (s.band k).doomed ∧ b.state = .closed then takeVictim k s
        else modDie d (fun x => { x with todo := kvSet (k % 2800) 0 x.todo }) s
      | none =>
        let places := (List.range b.kind.lineStripes).map fun i => (⟨k / 2800, k % 2800, b.kind.lineStripes * wl + i, sieve⟩ : MediaAddr)
        if places.any fun a => s.partsWait a .housekeeping s.media.wbHighPct then s
        else
        let s := places.foldl (fun (s : State) a =>
          let s' := (readParts a .housekeeping 0xFFFF s.media.wbHighPct none s).1
          if s.rebuilds a 0xFFFF then s' else countFailed (loseUnit a s')) s
        let now := s.now
        let s := modBand k (fun b => { b with progAt := kvSet (768 * (sieve + 1) + wl) now b.progAt }) s
        let s := account none (fun c => { c with programs := c.programs + 4 * places.length }) s
        modDie d (fun x => { x with todo := if b.filled ≤ wl + 1 then kvDel (k % 2800) x.todo else kvSet (k % 2800) (wl + 1) x.todo }) s

/-- One member die reports its program: of a word line, of host data, copies, the map, pads or a journal stripe (R188, R194, R201), or of a block
set's rebuild (R179). A program that the rules do not let run now does not happen. -/
def programDone (k wl sieve : Nat) (kind : StripeKind) (failed : Option Nat) (s : State) : State :=
  match kind, s.rowDie (k / 2800) sieve with
  | .reserve, _ => s
  | _, none => s
  | .rebuild, some d => settleMedia (rebuildLine k wl sieve d failed s)
  | _, some d =>
    match (match s.wordLine k wl with
      | some _ => some s
      | none => startLine k wl kind s) with
    | none => s
    | some s' =>
      match s'.wordLine k wl with
      | none => s
      | some l =>
        if l.kind ≠ kind ∨ (s'.die d).op ≠ .program ∨ (s'.die d).line ≠ some (k, wl) then s
        else match failed with
          | some plane => settleMedia (failLine l d plane s')
          | none =>
            let s := modDie d (fun x => { x with op := .idle, line := none }) s'
            let l' := { l with done := sieve :: l.done }
            let s := modMedia (fun m => { m with lines := m.lines.map fun x => if x.band = k ∧ x.wl = wl then l' else x }) s
            settleMedia (if (s.band k).sieves.all fun v => l'.done.contains v then closeLine l' s else s)

def execProgramComplete (band wl sieve : Nat) (kind : StripeKind) (failed : Option Nat) (s : State) : Out :=
  .next (programDone band wl sieve kind failed s)

/- Erases -/

/-- One die reports the erase of a band's block set (R172, R202). One that failed is made again on the block that took its place; without one the
band is to be retired, and does not wait for it (R186). -/
def eraseDone (k sieve : Nat) (failed : Option Nat) (s : State) : State :=
  match s.rowDie (k / 2800) sieve with
  | none => s
  | some d =>
    if (s.band k).state ≠ .erasing ∨ (s.die d).op ≠ .erase ∨ (s.die d).erasing ≠ some k then s
    else
      let s := match failed with
        | none => s
        | some plane => bumpErr 6 1 (addBad d plane k 2 s)
      let s := if failed = none ∨ (s.band k).doomed then modBand k (fun b => { b with erased := sieve :: b.erased }) s else s
      let s := modDie d (fun x => { x with op := .idle, erasing := none, erasePrio := false, todo := kvDel (k % 2800) x.todo }) s
      let s := if s.erasesPassed k then bandErased k s else s
      let s := if s.freePool ≤ s.part.poolTarget then { s with power := { s.power with idleSince := s.now } } else s
      settleMedia s

def execEraseComplete (band sieve : Nat) (failed : Option Nat) (s : State) : Out := .next (eraseDone band sieve failed s)

/-- A suspended program or erase resumes once no read that could suspend it is queued (R168). -/
def execSuspendResume (die : Nat) (s : State) : Out :=
  .next (
    if s.readQueued die then s
    else match (s.die die).op with
      | .programSuspended => modDie die (fun x => { x with op := .program }) s
      | .eraseSuspended => modDie die (fun x => { x with op := .erase }) s
      | _ => s)

/- Journal, checkpoint, garbage collection -/

/-- The open journal stripe takes no more entries 1 ms after its first one, and is programmed (R194). -/
def execJournalStripeTimeout (s : State) : Out :=
  .next (if s.media.journal ≠ [] ∧ s.since s.media.journalAt countsMs then settleMedia (beginJournal s) else s)

/-- A checkpoint starts 60 s after the last, or after 1 GiB of journal; under interactive pressure it waits (R135, R196, Table 4-1). -/
def execMapCheckpoint (s : State) : Out :=
  .next (if (s.since s.media.checkpointAt (60 * countsS) ∨ 67108864 ≤ s.media.journaled) ∧ !s.pressure ∧ s.media.check.isNone then settleMedia (beginCheckpoint s) else s)

/-- The least of CLOSED bands by a measure and then by sequence number. -/
def State.leastClosed (s : State) (f : Nat × Band → Nat) (ok : Nat × Band → Bool) : Option Nat :=
  ((s.media.bands.filter fun b => decide (b.2.state = .closed) && ok b).foldl (fun (best : Option (Nat × Nat × Nat)) b =>
    match best with
    | none => some (b.1, f b, b.2.seq)
    | some (_, m, q) => if f b < m ∨ (f b = m ∧ b.2.seq < q) then some (b.1, f b, b.2.seq) else best) none).map (·.1)

/-- The next victim (R186, R199, R180, R215): a band with a member missing while re-striping, or one to be retired; the least-worn
CLOSED band when wear differs by more than 150; below the target, the CLOSED band with the fewest live units. -/
def State.victim (s : State) : Option Nat :=
  let lost := s.lostSieves
  let free := fun (b : Nat × Band) => !s.journalNeeded b.1
  let short := fun (b : Nat × Band) => free b && (b.2.doomed || b.2.sieves.any fun v => lost.contains v || (s.rowDie (b.1 / 2800) v).isNone)
  let worst := (s.media.bands.map fun b => b.2.erases).foldl max 0
  let live := fun (b : Nat × Band) => (s.liveIn b.1).length
  match s.leastClosed live short with
  | some k => some k
  | none =>
    match s.leastClosed (fun b => b.2.erases) (fun b => free b && decide (b.2.erases + 150 < worst)) with
    | some k => some k
    | none => if s.freePool < s.part.poolTarget then s.leastClosed live free else none

/-- Garbage collection takes its next victim; under interactive pressure it pauses, unless the pool is below its low watermark. -/
def execGarbageCollection (s : State) : Out :=
  .next (if s.mediaPaused then s else match s.victim with
    | none => s
    | some k => settleMedia (takeVictim k s))

/- Tilling (R212, R213) -/

/-- The stripes of some places, each once: band and page. -/
def stripesOf (l : List MediaAddr) : List (Nat × Nat) := (l.map fun a => (a.bandKey, a.page)).eraseDups

/-- The members of the root areas that are programmed: of the root sets that stand there, and of block set 7 with the bitmap and the test model
(R203). -/
def State.rootPlaces (s : State) : List MediaAddr :=
  (s.media.rootsLeft.flatMap fun r => (List.range r.pages).map fun i => (⟨0, r.block, r.page + i, r.sieve⟩ : MediaAddr)) ++
    (List.range 16).flatMap fun v => if (s.sieve v).testOk then (List.range (1 + Config.areaPages % 768)).map fun i => ⟨0, 7, i, v⟩ else []

/-- The members that one tilling pass reads: every member of each stripe that holds live data or part of the map, of the journal bands, and the root
areas (R212). -/
def State.tillPlaces (s : State) : List MediaAddr :=
  let live := (s.media.map.filterMap fun e => match e.2 with
    | .media a => some a
    | _ => none) ++ s.media.directory.flatMap fun d => s.segmentPlaces d.1
  let logs := (s.media.bands.filter fun b => decide (b.2.kind = .journal)).flatMap fun b => (List.range b.2.filled).map fun p => (b.1, p)
  ((stripesOf live ++ logs).flatMap fun x => (s.band x.1).sieves.map fun v => (⟨x.1 / 2800, x.1 % 2800, x.2, v⟩ : MediaAddr)) ++ s.rootPlaces

/-- A read of the pass is due: the place is one that it has not read, at the even rate, or up to four times faster while the pass is behind. -/
def State.tillDue (s : State) (a : MediaAddr) : Bool :=
  let cycle := s.media.tillDays * 86400 * countsS
  let n := s.tillPlaces.length
  s.tillPlaces.contains a && !s.media.tilled.contains a.num &&
    decide (s.media.tilled.length * cycle ≤ (s.now - s.media.tillStart) * n) && decide (cycle ≤ (s.now - s.media.tillLast) * 4 * n)

/-- The pass has read a place; with the last one a pass is complete, and the next begins. -/
def tilledPlace (a : MediaAddr) (s : State) : State :=
  let s := modMedia (fun m => { m with tilled := a.num :: m.tilled, tillLast := s.now }) s
  if s.tillPlaces.all fun b => s.media.tilled.contains b.num then
    modHealth (fun h => { h with tillPasses := satAdd 32 h.tillPasses 1 }) (modMedia (fun m => { m with tilled := [], tillStart := s.now }) s)
  else s

/-- The tilling pass reads a member and acts on the states of its pages (Table 6-11). One that does not decode, or that reads ERASED or
INDETERMINATE in a closed stripe, goes to read-around at housekeeping class; DIE_FAILED is reported of a die that cannot be read. -/
def tilling (a : MediaAddr) (res : List PageResult) (s : State) : State :=
  let m := s.media
  let r : PageReq := ⟨a, .housekeeping, .tilling, 0xFFFF, m.wbHighPct, m.retryMax, m.corrHigh, .rebuild, res⟩
  if s.pressure ∨ !s.tillDue a then s
  else match s.dieAt a, s.serve a .housekeeping m.wbHighPct with
    | some d, .direct op =>
      if (s.turn d).isSome ∨ !r.reports res then s
      else
        let res := res.map (PageResult.within r.retryMax)
        let st := res.map (PageResult.state r.corrHigh)
        let b := s.band a.bandKey
        let closed := decide (a.page / b.kind.lineStripes < b.filled)
        let s := readPages d op r res s
        let s :=
          if st.contains 4 || (closed && st.any fun x => decide (x = 2) || decide (x = 3)) then
            modMedia (fun m => { m with reads := m.reads ++ [{ r with found := res }] }) s
          else if st.contains 1 then bumpErr 9 1 (bumpErr 8 1 (relocate true a s))
          else s
        settleMedia (tilledPlace a s)
    | _, .around => tilledPlace a (report a (pageWords (unread 0xFFFF) 0 false fun _ => 7) s)
    | _, _ => s

def execTillingRead (a : MediaAddr) (res : List PageResult) (s : State) : Out := .next (tilling a res s)

end Sys2Proof.Machine
end

