-- ==== Sys2Proof/Machine/Dies.lean ====
section
/-!
DEFINITION. Machine/Dies.lean: dies and sieves that fail: remapping, rebuilding, re-striping (chapters 5 and 6).
-/

namespace Sys2Proof.Machine

open Sys2Proof

/- Dies (R177 to R181, R206, R557) -/

/-- ARGS of DIE_REMAPPED (R181). -/
def remapArgs (row ch pos spareCh sparePos left : Nat) : List Byte :=
  evArgs [(20, 1, row), (21, 1, ch), (22, 1, pos), (23, 1, spareCh), (24, 1, sparePos), (25, 1, left)]

/-- A die out of use. -/
def Die.fail (row : Nat) (x : Die) : Die :=
  { x with role := .failed, row := row, op := .idle, erasePrio := false, line := none, erasing := none, todo := [] }

/-- An unused spare fails (R557). -/
def failSpare (d : Nat) (s : State) : State :=
  let s := modDie d (Die.fail 255) s
  let v := s.dieSieve d
  raise 0x0301 1 4 v 0xFFFF (remapArgs 255 (s.dieChannel d) (s.diePos d) 255 255 (s.sieveSpares v)) s

/-- The spare that takes a failed die's row: the lowest channel number that differs from the failed die's, else the
lowest-numbered spare (R178). One that is unresponsive is passed over, though it still counts as unused (DESIGN CHOICE, log entry 209). -/
def State.spareFor (s : State) (d : Nat) : Option Nat :=
  let spares := (s.diesOf (s.dieSieve d)).filter fun i => decide ((s.die i).role = .spare)
  match spares.find? fun i => decide (s.dieChannel i ≠ s.dieChannel d) with
  | some i => some i
  | none => spares.head?

/-- Word lines with a program on a row are rewritten elsewhere from their Landing copies (Table 5-6 step 3). -/
def dropRowLines (row : Nat) (s : State) : State :=
  (s.media.lines.filter fun l => decide (l.band / 2800 = row)).foldl (fun s l => dropLine l s) s

/-- The bands of a row in which a sieve has a programmed member. -/
def State.bandsWith (s : State) (row v : Nat) : List (Nat × Band) :=
  s.media.bands.filter fun b => decide (b.1 / 2800 = row) && b.2.sieves.contains v &&
    (decide (b.2.state = .opened) || decide (b.2.state = .closed) || decide (b.2.state = .relocating))

/-- Bands being erased no longer wait for a member that is gone: those that waited for no other are erased. -/
def forgetErase (old s : State) : State :=
  ((s.media.bands.filter fun b => decide (b.2.state = .erasing) && !old.erasesPassed b.1 && s.erasesPassed b.1).map (·.1)).foldl (fun s k => bandErased k s) s

/-- A bank has no set while the sieve that it stood on is gone: its next set is written elsewhere (R203, R206). -/
def dropBank (v : Nat) (m : Media) : Media :=
  let gone := fun (x : Option RootSet) => x.bind fun r => if r.sieve = v then none else some r
  { m with bankA := gone m.bankA, bankB := gone m.bankB, rootsLeft := m.rootsLeft.filter fun r => decide (r.sieve ≠ v) }

/-- The root area of a sieve is fresh: its bank's next set is written there, the other bank serving meanwhile. A spare receives block set 7
anew, the bitmap from another sieve and the test model from the firmware image; without a spare the copies are gone (R53, R206). -/
def freshRoot (v : Nat) (copied : Bool) (s : State) : State :=
  modMedia (fun m => { dropBank v m with sieves := setAt m.sieves v fun x => { x with testOk := copied, bitmap := copied } }) s

/-- A spare takes a row: every block set with data is to be rebuilt; those that it cannot hold are rewritten elsewhere, and the
row has no more bands than the spare has block sets (R178, R179, R186). -/
def takeRow (i row v : Nat) (s : State) : State :=
  let held := s.bandsWith row v
  let s := modMedia (fun m => { m with rowSets := kvSet row (min (s.rowSets row) (s.fewestGood i)) m.rowSets }) s
  let s := modDie i (fun y => { y with
    role := .rebuilding, row := row, was := .rebuilding, op := .idle, todo := held.foldl (fun t b => kvSet (b.1 % 2800) 0 t) [] }) s
  (held.filter fun b => (List.range 4).any fun q => (s.blockOf i q (b.1 % 2800)).isNone).foldl (fun s b =>
    let s := modBand b.1 (fun x => { x with doomed := true }) s
    let s := if b.2.state = .opened then setBand b.1 .closed s else s
    if (s.band b.1).state = .closed then takeVictim b.1 s else s) s

/-- A die fails: its row goes to a spare of the sieve, which is rebuilt, and DIE_REMAPPED is raised; without a spare the row
stays one member short, and its open bands close, to be re-striped with the others (R178, R180, log entry 156). -/
def failDie (d : Nat) (s : State) : State :=
  let x := s.die d
  let v := s.dieSieve d
  let role := if x.role = .unresponsive then x.was else x.role
  if role = .spare then failSpare d s
  else
    let old := s
    let s := modMedia (fun m => { m with streams := kvDel d m.streams }) (dropRowLines x.row s)
    match s.spareFor d with
    | some i =>
      let s := takeRow i x.row v (modDie d (Die.fail 255) s)
      let s := if x.row = 0 then freshRoot v true s else s
      settleMedia (raise 0x0301 1 4 v 0xFFFF
        (remapArgs x.row (s.dieChannel d) (s.diePos d) (s.dieChannel i) (s.diePos i) (s.sieveSpares v)) s)
    | none =>
      let s := modDie d (Die.fail x.row) s
      let s := if x.row = 0 then freshRoot v false s else s
      let s := ((s.bandsWith x.row v).filter fun b => decide (b.2.state = .opened)).foldl (fun s b => setBand b.1 .closed s) s
      settleMedia (forgetErase old s)

/-- A die that has not answered a status poll for 1 ms is unresponsive (R177). -/
def execDieUnresponsive (die : Nat) (s : State) : Out :=
  .next (
    let x := s.die die
    if s.since x.answered countsMs ∧ (x.role = .member ∨ x.role = .rebuilding ∨ x.role = .spare) then
      modDie die (fun x => { x with role := .unresponsive, was := x.role }) s
    else s)

/-- A die answers a status poll: one that was unresponsive serves again (R177). -/
def execDiePollAnswered (die : Nat) (s : State) : Out :=
  .next (if (s.die die).role = .failed then s
    else settleMedia (modDie die (fun x => { x with answered := s.now, role := if x.role = .unresponsive then x.was else x.role }) s))

/-- A die is failed: unresponsive for 50 ms, or a plane with fewer than 2,700 good blocks (R177). -/
def execDieFailed (die : Nat) (s : State) : Out :=
  .next (
    let x := s.die die
    if x.role ≠ .failed ∧ die < s.part.dies ∧ ((x.role = .unresponsive ∧ s.since x.answered (50 * countsMs)) ∨ x.goodMin < 2700) then
      failDie die s
    else s)

/-- Block sets of a spare still to be rebuilt: those of bands that hold data. -/
def State.toRebuild (s : State) (d : Nat) : List Nat :=
  ((s.die d).todo.map fun t => (s.die d).row * 2800 + t.1).filter fun k =>
    decide ((s.band k).state = .opened) || decide ((s.band k).state = .closed) || decide ((s.band k).state = .relocating)

/-- The last block set of a failed die stands on the spare: it is a member (R179). -/
def execDieRebuildEnd (die : Nat) (s : State) : Out :=
  .next (if (s.die die).role = .rebuilding ∧ s.toRebuild die = [] then
      modDie die (fun x => { x with role := .member, was := .member, todo := [] }) s else s)

/-- An unused spare is checked, once in each tilling cycle; one that fails is never used (R557). -/
def execSpareDieCheck (die : Nat) (ok : Bool) (s : State) : Out :=
  .next (
    let x := s.die die
    if x.role = .spare ∧ die < s.part.dies ∧ s.since x.began (s.media.tillDays * 86400 * countsS) then
      (if ok then modDie die (fun x => { x with answered := s.now, began := s.now }) s else failSpare die s)
    else s)

/- Sieves (R157, R214 to R216) -/

/-- Units with two members of their stripe lost are poisoned (R216). -/
def poisonDouble (s : State) : State :=
  let lost := s.lostSieves
  let twice := fun (k : Nat) => decide (2 ≤ ((s.band k).sieves.filter fun v => lost.contains v).length)
  s.media.map.foldl (fun s e => match e.2 with
    | .media a => if twice a.bandKey then poison (e.1 / 2 ^ 40) (e.1 % 2 ^ 40) s else s
    | _ => s) s

/-- A sieve is lost: every open band closes, the lost members are read around, SIEVE_DEGRADED is raised and re-striping begins
(R157, R214 to R216). -/
def loseSieve (v : Nat) (s : State) : State :=
  if (s.sieve v).lost ∨ 16 ≤ v then s
  else
    let old := s
    let s := modMedia (fun m => { m with
      sieves := setAt m.sieves v (fun x => { x with lane0 := false, lane1 := false, lost := true }), restriping := m.restriping ++ [v]
      streams := m.streams.filter fun t => decide (s.dieSieve t.1 ≠ v)
      dies := m.dies.map fun d => if s.dieSieve d.1 = v then
        (d.1, { d.2 with op := .idle, erasePrio := false, line := none, erasing := none }) else d }) s
    let s := s.media.lines.foldl (fun s l => dropLine l s) s
    let s := (s.media.bands.filter fun b => decide (b.2.state = .opened)).foldl (fun s b => setBand b.1 .closed s) s
    let s := modMedia (dropBank v) (forgetErase old s)
    settleMedia (raise 0x0302 2 4 v 0xFFFF (evArgs [(20, 1, 1)]) (poisonDouble s))

def execSieveLost (sieve : Nat) (s : State) : Out := .next (loseSieve sieve s)

/-- A sieve's lane fails: the sieve runs on the other, or is lost with both (R157). -/
def execSieveLaneFail (sieve lane : Nat) (s : State) : Out :=
  .next (
    let s' := modMedia (fun m => { m with sieves := setAt m.sieves sieve fun x =>
      if lane = 0 then { x with lane0 := false } else { x with lane1 := false } }) s
    let x := s'.sieve sieve
    if (s.sieve sieve).up ∧ !x.lane0 ∧ !x.lane1 then loseSieve sieve s' else s')

/-- Re-striping ends: no band with live units has a member on the lost sieve (R215). -/
def execRestripeEnd (sieve : Nat) (s : State) : Out :=
  .next (
    let left := s.media.bands.any fun b => b.2.sieves.contains sieve && (!(s.liveIn b.1).isEmpty || s.mapIn b.1)
    if s.media.restriping.contains sieve ∧ !left then
      raise 0x0302 1 4 sieve 0xFFFF (evArgs [(20, 1, 2)])
        (modMedia (fun m => { m with restriping := m.restriping.filter fun v => decide (v ≠ sieve) }) s)
    else s)

end Sys2Proof.Machine
end

