-- ==== Sys2Proof/Machine/Storage.lean ====
section
/-!
DEFINITION. Machine/Storage.lean: volumes and block storage commands (chapter 7): READ, WRITE, FLUSH, DISCARD, SECURE_DISCARD,
VERIFY, REDUCE_CAPACITY, VOLUME_CREATE, VOLUME_DELETE and the release of a held WRITE.
-/

namespace Sys2Proof.Machine

open Sys2Proof

/-- A volume that exists and lets the session in (R226). -/
def State.volumeFor (s : State) (vol session : Nat) : Option Volume :=
  match kvGet vol s.media.volumes with
  | none => none
  | some v => if maskAllows v.sessions session then some v else none

/-- Its reserved bytes are 0 (Table 7-2). -/
def descOk (p : List Byte) : Bool := decide (32 ≤ p.length) && decide (fieldAt p 2 2 = 0) && decide (fieldAt p 16 16 = 0)

/-- The range lies in the volume (R230). -/
def RangeDesc.inside (r : RangeDesc) (v : Volume) : Bool := decide (1 ≤ r.blocks) && decide (r.first + r.blocks ≤ 16 * v.units)

/-- A storage command: INVALID_FIELD unless its payload, volume and range are in order, then LIFECYCLE_DENIED while the media
keys are not in place (R226, R228, R230, R558). -/
def stored (c : Cmd) (ok : Bool) (f : State → State) (s : State) : State :=
  if !ok then fail c stInvalid s else if !s.keysPresent then fail c stLifecycle s else f s

/-- The commands that change the media are refused while the line is asserted, and until it has been released for 1 s
(Table 7-9). -/
def protectedBy (c : Cmd) (f : State → State) (s : State) : State :=
  if s.keeper.writeProtect then fail c stWriteProtected s else f s

/-- The units of a range that are poisoned, with the cause: 0x01 when the command itself found the unit unreadable, 0x02 when
it was poisoned before (Table 7-3, R232, R233). -/
def State.badUnits (s : State) (c : Cmd) (owner : Nat) (units : List Nat) : List (Nat × Nat) :=
  units.filterMap fun u =>
    if s.entry owner u = some .poisoned then some (u, if c.lost.contains (unitKey owner u) then 1 else 2) else none

/-- The class of a command's reads (R166). -/
def Cmd.readCls (c : Cmd) : Cls := if c.cls = 0 then .interactive else .batch

/-- The command waits for the pages that it still needs, each with the codewords needed, or goes on (R160, R166). -/
def withPages (c : Cmd) (need : List (MediaAddr × Nat)) (f : State → State) (s : State) : State :=
  if need.all fun a => c.pagesIn.contains a.1 then f s
  else
    issueReads c.readCls (.cmd c.key) (need.filter fun a => !c.pagesIn.contains a.1)
      (modCmd c.key (fun c => { c with phase := .waiting (.pages (need.map (·.1))) }) s)

/-- The command looks up its units in these segments of the map: a lookup that misses reads its segment, at the class of the command
(R193). -/
def withLookups (c : Cmd) (segs : List Nat) (f : State → State) (s : State) : State :=
  let miss := (s.missing segs).filter fun n => !c.segsIn.contains n
  if miss = [] then f (modMedia (fun m => { m with segments := segs.eraseDups.foldl (fun l n => touch n false l) m.segments }) s)
  else
    miss.foldl (fun s n => issueReads c.readCls (.segment n) ((s.segmentPlaces n).map fun a => (a, 0xFFFF)) s)
      (modCmd c.key (fun c => { c with phase := .waiting (.segments miss) }) s)

/-- The command looks up units, each with its owner and the codewords needed, first in the delta table (Table 6-10), and reads those on the media. -/
def withUnits (c : Cmd) (us : List (Nat × Nat × Nat)) (f : State → State) (s : State) : State :=
  let keys := (us.map fun u => unitKey u.1 u.2.1).filter fun n => !s.media.delta.contains n
  withLookups c (keys.map segmentOf) (fun s =>
    withPages c (us.filterMap fun u => match s.entry u.1 u.2.1 with
      | some (.media a) => some (a, u.2.2)
      | _ => none) f s) s

/-- Whole units of one owner. -/
def wholeUnits (owner : Nat) (us : List Nat) : List (Nat × Nat × Nat) := us.map fun u => (owner, u, 0xFFFF)

/-- The segments that hold the entries of an owner's units from a first on, below an end. -/
def segmentRange (owner first end_ : Nat) : List Nat :=
  let a := segmentOf (unitKey owner first)
  if first < end_ then List.range' a (segmentOf (unitKey owner (end_ - 1)) + 1 - a) else []

/-- The codewords of a unit that a range covers. -/
def RangeDesc.cws (r : RangeDesc) (u : Nat) : Nat :=
  (((List.range 16).filter fun i => decide (r.first ≤ 16 * u + i) && decide (16 * u + i < r.first + r.blocks)).map fun i => 2 ^ i).sum

/- Protection fields (R234, R236) -/

/-- GUARD of a block (R234). -/
def guard (lba : Nat) (data : List Byte) : Nat := crc32c (leBytes 8 lba ++ data)

/-- The protection fields of a range of plain text. -/
def guards (v : Volume) (r : RangeDesc) (data : List Byte) : List Byte :=
  (List.range r.blocks).flatMap fun i => leBytes 4 (guard (r.first + i) (slice data (4096 * i) 4096)) ++ leBytes 4 v.appTag

/- READ -/

/-- The bytes of a range, unit by unit (R232, R239). -/
def State.rangeData (s : State) (r : RangeDesc) : List Byte :=
  let whole := r.touched.flatMap fun u => (s.unitData r.vol u).getD (zeros 65536)
  slice whole (4096 * (r.first % 16)) (4096 * r.blocks)

/-- READ (R232, R236, R239, R240). -/
def readBlocks (c : Cmd) (_ : Ctx) (s : State) : State :=
  let p := c.payload
  let r := rangeDesc p
  match s.volumeFor r.vol c.key.session with
  | none => fail c stInvalid s
  | some v =>
    stored c (descOk p && decide (p.length = 32) && decide (r.opts = 0) && decide (r.blocks ≤ 4080) && r.inside v) (fun s =>
      let n := r.blocks * (if v.protect then 4104 else 4096)
      let kib := kib4 (n + 32 * trainLen n)
      if !s.resultsFit c kib then fail c stQuota s
      else
        withUnits c (r.touched.map fun u => (r.vol, u, r.cws u)) (fun s =>
          let bad := s.badUnits c r.vol r.touched
          if bad ≠ [] then reply c stMediaUncorrectable (badReply 0 (r.first + r.blocks) (bad.map fun b => r.clip b.1 b.2)) s
          else
            let data := s.rangeData r
            let s := modHealth (fun h => { h with hostRead := satAdd 64 h.hostRead r.units }) s
            complete c stOk false (if v.protect then data ++ guards v r data else data) kib [] s) s) s

def execRead (k : CmdKey) (s : State) : Out := .next (withCtx 0x20 k readBlocks s)

/- WRITE -/

/-- A unit with the blocks of a WRITE merged in (R231). -/
def mergeUnit (r : RangeDesc) (data old : List Byte) (u : Nat) : List Byte :=
  let a := max r.first (16 * u)
  let b := min (r.first + r.blocks) (16 * u + 16)
  patch old (4096 * (a - 16 * u)) (slice data (4096 * (a - r.first)) (4096 * (b - a)))

/-- The units that a WRITE covers in part. -/
def RangeDesc.partly (r : RangeDesc) : List Nat :=
  r.touched.filter fun u => decide (16 * u < r.first) || decide (r.first + r.blocks < 16 * u + 16)

/-- A WRITE is held unacknowledged (R243): the acknowledged data would exceed 2 GiB, the free pool is below the write floor, or
the flush reserve is short. -/
def State.holdsWrite (s : State) (units : Nat) : Bool :=
  decide (32768 < s.ackedUnits + units) || decide (s.freePool < s.part.poolFloor) || decide (s.media.reserve.length < 32)

/-- The blocks whose protection field fails (R235). -/
def badGuards (v : Volume) (r : RangeDesc) (data fields : List Byte) : List Bad :=
  (List.range r.blocks).filterMap fun i =>
    let good := decide (fieldAt fields (8 * i) 4 = guard (r.first + i) (slice data (4096 * i) 4096)) &&
      (!v.appCheck || decide (fieldAt fields (8 * i + 4) 4 = v.appTag))
    if good then none else some (r.first + i, 1, 3)

/-- One unit goes to the write buffer and its map entry names the slot, which is journaled (R191, R194, R231, R546). -/
def placeUnit (key : CmdKey) (vol unit : Nat) (data : List Byte) (acked : Bool) (s : State) : State :=
  let n := s.media.nextSlot
  let x : Slot := ⟨vol, unit, key.ctx, data, acked, key, s.entry vol unit, none, false, false⟩
  remap vol unit (some (.buffer n)) (modMedia (fun m => { m with slots := kvSet n x m.slots, nextSlot := n + 1 }) s)

/-- A WRITE that nothing holds: its units sit in the write buffer as two copies, and it is acknowledged; with FUA, or while the
hold-up store is weak, only once they are durable (R241, R523). -/
def placeWrite (c : Cmd) (s : State) : State :=
  let p := c.payload
  let r := rangeDesc p
  let data := slice p 32 (4096 * r.blocks)
  let sync := bit r.opts 0 || s.keeper.holdupWeak
  let first := s.media.nextSlot
  let s := r.touched.foldl (fun s u =>
    placeUnit c.key r.vol u (mergeUnit r data ((s.unitData r.vol u).getD (zeros 65536)) u) (!sync) s) s
  let s := modHealth (fun h => { h with hostWritten := satAdd 64 h.hostWritten r.units }) s
  if sync then
    settleMedia (modCmd c.key (fun c => { c with phase := .waiting (.durable ((List.range r.units).map (first + ·))) }) s)
  else complete c stOk false [] 0 [.acknowledged c.key] s

/-- The WRITE is placed, unless a unit that it covers in part is poisoned (R231, R233). -/
def placeOrRefuse (c : Cmd) (s : State) : State :=
  let r := rangeDesc c.payload
  match s.badUnits c r.vol r.partly with
  | [] => placeWrite c s
  | lost => reply c stMediaUncorrectable (badReply 0 (r.first + r.blocks) (lost.map fun b => r.clip b.1 b.2)) s

/-- WRITE (R231, R235, R241, R243, R558). -/
def writeBlocks (c : Cmd) (_ : Ctx) (s : State) : State :=
  let p := c.payload
  let r := rangeDesc p
  match s.volumeFor r.vol c.key.session with
  | none => fail c stInvalid s
  | some v =>
    let ok := descOk p && decide (r.opts ≤ 1) && decide (r.blocks ≤ 4080) && r.inside v &&
      decide (p.length = 32 + r.blocks * (if v.protect then 4104 else 4096))
    stored c ok (fun s =>
      if s.keeper.writeProtect ∨ s.deferredFull then fail c stWriteProtected s
      else if s.media.spareOut then fail c stSpareExhausted s
      else
        let bad := if v.protect then badGuards v r (slice p 32 (4096 * r.blocks)) (p.drop (32 + 4096 * r.blocks)) else []
        if bad ≠ [] then reply c stEndToEnd (badReply 0 (r.first + r.blocks) bad) (bumpErr 10 1 s)
        else withLookups c (segmentRange r.vol r.firstUnit (r.firstUnit + r.units)) (withUnits c (wholeUnits r.vol r.partly) (fun s =>
          if s.badUnits c r.vol r.partly = [] ∧ s.holdsWrite r.units then modCmd c.key (fun c => { c with phase := .waiting .hold }) s
          else placeOrRefuse c s)) s) s

def execWrite (k : CmdKey) (s : State) : Out := .next (withCtx 0x21 k writeBlocks s)

/-- A held WRITE goes on once no hold of R243 remains. -/
def execWriteHoldRelease (k : CmdKey) (s : State) : Out :=
  .next (match findCmd k s with
    | none => s
    | some c => if c.phase = .waiting .hold ∧ !s.holdsWrite (rangeDesc c.payload).units then placeOrRefuse c s else s)

/- FLUSH, DISCARD, SECURE_DISCARD, VERIFY -/

/-- FLUSH (R244). -/
def flushBlocks (c : Cmd) (_ : Ctx) (s : State) : State :=
  let p := c.payload
  let vol := fieldAt p 0 1
  let all := bit (fieldAt p 1 1) 0
  let ok := decide (p.length = 16) && decide (fieldAt p 1 1 ≤ 1) && decide (fieldAt p 2 14 = 0) &&
    (all || (s.volumeFor vol c.key.session).isSome)
  stored c ok (fun s =>
    let slots := (s.media.slots.filter fun x => c.covers.contains x.1 && (all || decide (x.2.vol = vol))).map (·.1)
    settleMedia (modCmd c.key (fun c => { c with phase := .waiting (.durable slots) }) s)) s

def execFlush (k : CmdKey) (s : State) : Out := .next (withCtx 0x22 k flushBlocks s)

/-- The units that a range covers whole. -/
def RangeDesc.whole (r : RangeDesc) : Nat × Nat := (ceilDiv r.first 16, (r.first + r.blocks) / 16)

/-- DISCARD (R245). -/
def discardBlocks (c : Cmd) (_ : Ctx) (s : State) : State :=
  let p := c.payload
  let r := rangeDesc p
  match s.volumeFor r.vol c.key.session with
  | none => fail c stInvalid s
  | some v =>
    stored c (descOk p && decide (p.length = 32) && decide (r.opts = 0) && r.inside v) (protectedBy c
      (withLookups c (segmentRange r.vol r.whole.1 r.whole.2) fun s =>
        let us := s.mappedIn r.vol r.whole.1 r.whole.2
        reply c stOk (leBytes 8 us.length) (us.foldl (fun s u => unmap r.vol u s) s))) s

def execDiscard (k : CmdKey) (s : State) : Out := .next (withCtx 0x23 k discardBlocks s)

/-- SECURE_DISCARD: the units are unmapped, their write-buffer copies overwritten, and every band that has held the volume is a
victim; the reply waits for their erases (R221, R246). -/
def secureDiscard (c : Cmd) (_ : Ctx) (s : State) : State :=
  let p := c.payload
  let r := rangeDesc p
  match s.volumeFor r.vol c.key.session with
  | none => fail c stInvalid s
  | some v =>
    let ok := descOk p && decide (p.length = 32) && decide (r.opts = 0) && r.inside v && decide (r.first % 16 = 0) &&
      decide (r.blocks % 16 = 0)
    stored c ok (protectedBy c (withLookups c (segmentRange r.vol r.whole.1 r.whole.2) fun s =>
      let us := s.mappedIn r.vol r.whole.1 r.whole.2
      let s := us.foldl (fun s u => unmap r.vol u s) s
      let gone := fun (x : Slot) => decide (x.vol = r.vol) && decide (r.whole.1 ≤ x.unit) && decide (x.unit < r.whole.2)
      let s := modMedia (fun m => { m with slots := m.slots.filter fun x => !gone x.2, copies := m.copies.filter fun j =>
        !(decide (j.vol = r.vol) && decide (r.whole.1 ≤ j.unit) && decide (j.unit < r.whole.2)) }) s
      let bands := (s.media.bands.filter fun b => b.2.held.contains r.vol && decide (b.2.state ≠ .free) && decide (b.2.state ≠ .retired)).map (·.1)
      let s := modCmd c.key (fun c => { c with phase := .waiting (.erased bands bands.length), tally := us.length }) s
      settleMedia s)) s

def execSecureDiscard (k : CmdKey) (s : State) : Out := .next (withCtx 0x24 k secureDiscard s)

/-- VERIFY (R247). -/
def verifyBlocks (c : Cmd) (_ : Ctx) (s : State) : State :=
  let p := c.payload
  let r := rangeDesc p
  match s.volumeFor r.vol c.key.session with
  | none => fail c stInvalid s
  | some v =>
    stored c (descOk p && decide (p.length = 32) && decide (r.opts = 0) && r.inside v) (fun s =>
      withLookups c (segmentRange r.vol r.firstUnit (r.firstUnit + r.units)) (fun s =>
       let us := s.mappedIn r.vol r.firstUnit (r.firstUnit + r.units)
       withUnits c (wholeUnits r.vol us) (fun s =>
        let bad := s.badUnits c r.vol us
        if bad = [] then reply c stOk (leBytes 8 r.units ++ leBytes 8 c.tally) s
        else reply c stMediaUncorrectable (badReply (r.units - bad.length) (r.first + r.blocks) (bad.map fun b => r.clip b.1 b.2)) s) s) s) s

def execVerify (k : CmdKey) (s : State) : Out := .next (withCtx 0x25 k verifyBlocks s)

/- Volumes -/

/-- REDUCE_CAPACITY (R219, R250). The reply carries the capacity and the margin after the reduction. -/
def reduceCapacity (c : Cmd) (_ : Ctx) (s : State) : State :=
  let p := c.payload
  let vol := fieldAt p 0 1
  let shrink := bit (fieldAt p 1 1) 0
  let units := fieldAt p 8 8
  let ok := decide (p.length = 16) && decide (fieldAt p 1 1 ≤ 1) && decide (fieldAt p 2 6 = 0) && decide (1 ≤ units) &&
    (if shrink then
      (match s.volumeFor vol c.key.session with
       | none => false
       | some v => decide (units < v.units) && (s.mappedIn vol (v.units - units) v.units).isEmpty)
     else decide (units ≤ s.unassigned))
  stored c ok (protectedBy c fun s =>
    let s := writeRoot (modMedia (fun m => { m with
      exported := m.exported - units
      volumes := if shrink then kvMod vol (fun v => { v with units := v.units - units }) m.volumes else m.volumes }) s)
    settleMargin (reply c stOk (leBytes 8 (65536 * s.media.exported) ++ leBytes 4 s.margin ++ zeros 4) s)) s

def execReduceCapacity (k : CmdKey) (s : State) : Out := .next (withCtx 0x26 k reduceCapacity s)

/-- VOLUME_CREATE (R248): a new volume is wholly unmapped, and two root sets name it. -/
def volumeCreate (c : Cmd) (_ : Ctx) (s : State) : State :=
  stored c (s.createsVolume c.payload) (protectedBy c fun s =>
    let s := makeVolume c.payload s
    reply c stOk (leBytes 8 s.unassigned) s) s

def execVolumeCreate (k : CmdKey) (s : State) : Out := .next (withCtx 0x27 k volumeCreate s)

/-- A command that names the volume and was received before an order has still to complete (R249). -/
def State.volumeBusy (s : State) (vol order : Nat) : Bool :=
  s.cmds.any fun c => c.live && decide (c.order < order) && c.volumes.contains vol

/-- VOLUME_DELETE, at its turn after every earlier command that names the volume (R249). -/
def volumeDelete (c : Cmd) (_ : Ctx) (s : State) : State :=
  let p := c.payload
  let vol := fieldAt p 0 1
  let ok := decide (p.length = 16) && decide (fieldAt p 1 15 = 0) && (s.volumeFor vol c.key.session).isSome
  if ok ∧ s.keysPresent ∧ s.volumeBusy vol c.order then s
  else
    let segs := (s.media.directory.map (·.1)).filter fun n => decide (n / 2 ^ 21 = vol)
    stored c ok (protectedBy c (withLookups c segs fun s =>
      let us := s.mappedIn vol 0 (2 ^ 40)
      let s := dropUnits vol s
      let s := ((kvGet vol s.media.volumes).map (·.key)).elim s fun n => dropKey n s
      let s := renewRoots (modMedia (fun m => { m with
        deferred := m.deferred.filter fun d => decide (d.vol ≠ vol)
        volumes := kvDel vol m.volumes }) s)
      settleMedia (reply c stOk (leBytes 8 us.length) s))) s

def execVolumeDelete (k : CmdKey) (s : State) : Out := .next (withCtx 0x28 k volumeDelete s)

end Sys2Proof.Machine
end

