-- ==== Sys2Proof/Machine/Numbers.lean ====
section
/-!
DEFINITION. Machine/Numbers.lean: element and scale formats, writing a value, compensated pairs and interval sums
(chapter 11, R323).
-/

namespace Sys2Proof.Machine

open Sys2Proof

/- Element formats (Table 11-1) -/

/-- Bits of an element. -/
def fmtBits (f : Nat) : Nat := if f ≤ 1 then 4 else if f ≤ 5 then 8 else if f ≤ 7 then 16 else 32

/-- Integer, asymmetric and floating 8-bit formats. -/
def fmtIsInt (f : Nat) : Bool := decide (f < 4)
def fmtIsAsym (f : Nat) : Bool := decide (f = 1) || decide (f = 3)
def fmtIsFp8 (f : Nat) : Bool := decide (f = 4) || decide (f = 5)
def fmtIsNarrow (f : Nat) : Bool := decide (f < 6)

/-- FP8 E5M2, and the exponent and fraction of FP8 E4M3. -/
def e5m2 : FFmt := ⟨5, 2⟩
def e4m3 : FFmt := ⟨4, 3⟩

/-- A subnormal is read as zero of its sign (R345). -/
def readWide (f : FFmt) (w : Nat) : FVal :=
  match f.decode w with
  | .num n m => .num n (if m < pow2 (1 - f.bias) then 0 else m)
  | v => v

/-- A number of b bits in two's complement. -/
def signed (b v : Nat) : Int := if v < 2 ^ (b - 1) then v else (v : Int) - 2 ^ b

/-- What an element's code stands for before its scale (R343, R345). -/
def codeVal (f code : Nat) : FVal :=
  match f with
  | 0 => .ofRat (signed 4 code)
  | 1 => .ofRat (code : ℚ)
  | 2 => .ofRat (signed 8 code)
  | 3 => .ofRat (code : ℚ)
  | 4 =>
    let e := code / 8 % 16
    let m := code % 8
    if e = 15 ∧ m = 7 then .nan
    else .num (bit code 7) (if e = 0 then m * pow2 (-9) else (8 + m : Nat) * pow2 (e - 10))
  | 5 => e5m2.decode code
  | 6 => fp16.decode code
  | 7 => readWide bf16 code
  | _ => readWide fp32 code

/-- The least and greatest codes of an integer format, and the greatest finite magnitude of an 8-bit float. -/
def fmtLo (f : Nat) : Int := if f = 0 then -8 else if f = 2 then -128 else 0
def fmtHi (f : Nat) : Int := if f = 0 then 7 else if f = 1 then 15 else if f = 2 then 127 else if f = 3 then 255 else if f = 4 then 448 else 57344

/- Scales (R346 to R351) -/

/-- What a scale entry's SCALE stands for; none makes what it reaches a NaN (R347, R351). -/
def scaleVal (bf : Bool) (w : Nat) : Option ℚ :=
  if bf then
    if w = 0 then some 0
    else match bf16.decode w with
      | .num false m => if m < pow2 (-126) then none else some m
      | _ => none
  else if w / 8 = 0 then some 0 else some ((8 + w % 8 : Nat) * pow2 (w / 8 - 27))

/-- A magnitude rounded up into the scale format, within its least non-zero and largest values; 0 stays 0 (R358, R371). -/
def scaleUp (bf : Bool) (m : ℚ) : Nat :=
  if m ≤ 0 then 0
  else if bf then max 0x80 (min 0x7F7F (bf16.magWord awayUp m))
  else
    let e := expOf m
    if e < -23 then 8
    else if 7 < e then 255
    else min 255 ((e + 24).toNat * 8 + ((m * pow2 (-e) - 1) * 8).ceil.toNat)

/-- The largest scale of the format. -/
def scaleMax (bf : Bool) : Nat := if bf then 0x7F7F else 255

/-- A learned scale as it is written (R367): 2^-126 in place of 0, a negative value, a subnormal or a NaN, and the largest
finite BF16 in place of +∞. -/
def learnedScale (w : Nat) : Nat :=
  match bf16.decode w with
  | .inf false => 0x7F7F
  | .num false m => if m < pow2 (-126) then 0x80 else w
  | _ => 0x80

/- Writing a value (R359, R360) -/

/-- A NaN's word of a format, sign and payload from a binary32 word. -/
def nanCode (f w : Nat) : Nat :=
  let sign := w / 2 ^ 31 % 2
  let of := fun (g : FFmt) => g.nanWord (w % 2 ^ g.mb + sign * 2 ^ g.mb)
  match f with
  | 4 => 0x7F + 128 * sign
  | 5 => of e5m2
  | 6 => of fp16
  | 7 => of bf16
  | _ => of fp32

/-- A subnormal result is written as +0 (R345). -/
def flushWord (f : FFmt) (w : Nat) : Nat :=
  let m := w % f.signBit
  if 0 < m ∧ m < 2 ^ f.mb then 0 else w

/-- A signed value rounded to a whole number, ties and directions as for its magnitude. -/
def roundInt (up : RoundUp) (q : ℚ) : Int := if q < 0 then -(roundNat up (-q) : Int) else roundNat up q

/-- The magnitude word of FP8 E4M3, saturated at 448. -/
def e4m3Word (up : RoundUp) (m : ℚ) : Nat :=
  if m ≤ 0 then 0
  else
    let e := max (expOf m) (-6)
    min 0x7E ((e + 6).toNat * 8 + roundNat up (m * pow2 (3 - e)))

/-- A value as the code of a wide format. -/
def wideCode (f : Nat) (up : RoundUp) (nan : Nat) (x : FVal) : Nat :=
  match x with
  | .nan => nanCode f nan
  | x => if f = 6 then fp16.encode up 0 x else if f = 7 then flushWord bf16 (bf16.encode up 0 x) else flushWord fp32 (fp32.encode up 0 x)

/-- A value as the code of a narrow format, for a scale and a zero point (Table 11-6). -/
def narrowCode (f : Nat) (up : RoundUp) (nan : Nat) (s : Option ℚ) (z : Nat) (x : FVal) : Nat :=
  let q := if fmtIsAsym f then z else 0
  match s with
  | some 0 => (match x with
    | .nan => q
    | _ => 0)
  | some s =>
    if fmtIsInt f then
      let clamp := fun (v : Int) => (max (fmtLo f) (min (fmtHi f) v) % 2 ^ fmtBits f).toNat
      (match x with
       | .nan => q
       | .inf n => clamp (if n then fmtLo f else fmtHi f)
       | .num _ _ => clamp (roundInt up (x.val / s + q)))
    else if f = 4 then
      (match x with
       | .nan => nanCode 4 nan
       | .inf n => 0x7E + 128 * b2n n
       | .num n m => e4m3Word up (m / s) + 128 * b2n n)
    else
      (match x with
       | .nan => nanCode 5 nan
       | .inf n => 0x7C + 128 * b2n n
       | .num n m => min 0x7B (e5m2.magWord up (m / s)) + 128 * b2n n)
  | none => if fmtIsInt f then q else nanCode f nan

/-- The dynamic scale of a span group's values, and its zero point (Table 11-5, R358, R371). The scale of a group that holds a
NaN, and the zero point of one whose scale is 0, are free. -/
def dynamicScale (f : Nat) (bf : Bool) (free : Nat) (xs : List FVal) : Nat × Nat :=
  let lo := (xs.map FVal.val).foldl min 0
  let hi := (xs.map FVal.val).foldl max ((xs.head?.map FVal.val).getD 0)
  let big := (xs.map fun (x : FVal) => |x.val|).foldl max 0
  let inf := xs.any fun x => match x with
    | .inf _ => true
    | _ => false
  let m := if fmtIsAsym f then (hi - lo) / fmtHi f else big / fmtHi f
  let w := if xs.any FVal.isNan then (Config.scaleCode free).toNat % (scaleMax bf + 1) else if inf then scaleMax bf else scaleUp bf m
  let z := if fmtIsAsym f then
      (match scaleVal bf w with
       | some s => if s = 0 then (Config.zeroPoint free).toNat % (fmtHi f + 1).toNat
         else if xs.contains (.inf true) then (fmtHi f).toNat
         else (max 0 (min (fmtHi f) (roundInt nearest (-lo / s)))).toNat
       | none => (Config.zeroPoint free).toNat % (fmtHi f + 1).toNat)
    else 0
  (w, z)

/- binary32 arithmetic of the arrays and lanes (R329, R345) -/

/-- A value rounded to binary32 by nearest even, a subnormal result as +0. -/
def f32 (v : FVal) : FVal :=
  match fp32.round v with
  | .num n m => if 0 < m ∧ m < pow2 (-126) then .num false 0 else .num n m
  | v => v

/-- The binary32 word of a value that is one; a NaN takes a free payload and sign. -/
def f32Word (nan : Nat) (v : FVal) : Nat := wideCode 8 nearest nan v

/-- A pair: an FP32 sum and its compensation term (R321). -/
abbrev Pair := FVal × FVal

def Pair.zero : Pair := (.num false 0, .num false 0)

/-- |a| ≥ |b|. -/
def absGe (a b : FVal) : Bool :=
  match a, b with
  | .inf _, _ => true
  | .num _ m, .num _ n => decide (n ≤ m)
  | _, _ => false

/-- The pair whose sum is infinite or a NaN has compensation 0 (R356). -/
def Pair.settle (p : Pair) : Pair := if p.1.isNum then p else (p.1, .num false 0)

/-- add_pair (R323). -/
def addPair (p : Pair) (x : FVal) : Pair :=
  let t := f32 (p.1.add x)
  let e := if absGe p.1 x then f32 ((f32 (p.1.sub t)).add x) else f32 ((f32 (x.sub t)).add p.1)
  Pair.settle (t, f32 (p.2.add e))

/-- merge_pairs (R323). -/
def mergePair (a b : Pair) : Pair :=
  let r := addPair a b.1
  Pair.settle (r.1, f32 (r.2.add b.2))

/-- The value a pair is closed from: the sum plus its compensation, exactly (R322). -/
def Pair.total (p : Pair) : FVal := if p.2.val = 0 then p.1 else p.1.add p.2

/-- A pair's two words (R357). -/
def Pair.words (nan : Nat) (p : Pair) : Nat × Nat := (f32Word nan p.1, f32Word nan p.2)
def Pair.ofWords (w : Nat × Nat) : Pair := (fp32.decode w.1, fp32.decode w.2)

/- The free order of sums (R328, R363) -/

/-- A number put in order of a key. -/
def insertBy (key : Nat → Nat) (i : Nat) : List Nat → List Nat
  | [] => [i]
  | j :: t => if key i ≤ key j then i :: j :: t else j :: insertBy key i t

/-- 0 to n − 1 in an order that the keys give: the order that the plot takes interval sums or lanes in. -/
def orderOf (key : Nat → Nat) (n : Nat) : List Nat := (List.range n).foldr (insertBy key) []

/-- The compensated sum of n values in the plot's order (R323, R363). -/
def sumPairs (free elem : Nat) (p : Pair) (xs : List FVal) : Pair :=
  (orderOf (fun i => (Config.order free elem i).toNat) xs.length).foldl (fun p i => addPair p (xs.getD i (.num false 0))) p

/- Interval sums (R352 to R356) -/

/-- A matrix operand as read: its elements less the zero point (or folded), the scale that an element's interval takes, whether
it is folded, and its format. -/
structure MatOp where
  val    : Nat → Nat → FVal
  scale  : Nat → Nat → Option ℚ
  folded : Bool
  fmt    : Nat

/-- One round of the pairwise tree. -/
def pairUp : List FVal → List FVal
  | a :: b :: t => f32 (a.add b) :: pairUp t
  | l => l

/-- The pairwise tree of at most 128 products, in FP32. -/
def treeSum (xs : List FVal) : FVal := ((List.range 7).foldl (fun l _ => pairUp l) xs).headD (.num false 0)

/-- The products go by the rounded path (Table 11-4). -/
def roundedPath (a b : MatOp) : Bool := a.folded || b.folded || decide (a.fmt = 7) || decide (b.fmt = 7)

/-- Interval j of output element (m, n): its sum by its path, times the interval's scale in FP32 (R352, R354 to R356). -/
def intervalSum (a b : MatOp) (i m n j : Nat) : FVal :=
  let ps := (List.range i).map fun k => (a.val m (i * j + k)).mul (b.val (i * j + k) n)
  let x := if roundedPath a b then treeSum (ps.map f32) else f32 (ps.foldl FVal.add (.num false 0))
  match a.scale m (i * j), b.scale (i * j) n with
  | some s, some t => f32 (x.mul (.num false (s * t)))
  | _, _ => .nan

/-- A matrix product added into the pairs of an output of nn columns (R323). -/
def matPair (a b : MatOp) (i kk nn free : Nat) (p : Pair) (m n : Nat) : Pair :=
  sumPairs free (m * nn + n) p ((List.range (kk / i)).map (intervalSum a b i m n))

end Sys2Proof.Machine
end

