-- ==== Sys2Proof/Machine/Lanes.lean ====
section
/-!
DEFINITION. Machine/Lanes.lean: the vector unit (R329, R379): element-wise arithmetic, and the functions of Table 10-5, whose
results are free within the errors stated there.
-/

namespace Sys2Proof.Machine

open Sys2Proof

/- Rational approximations, far closer than the errors of Table 10-5 -/

/-- A rational cut to 128 fractional bits. -/
def fx (q : ℚ) : ℚ := ((q * 2 ^ 128).floor : ℚ) / 2 ^ 128

/-- e^r for a magnitude up to 1/2. -/
def expSmall (r : ℚ) : ℚ := (List.range 30).foldr (fun (n : Nat) (acc : ℚ) => fx (1 + r * acc / ((n : ℚ) + 1))) 1

/-- e^x. -/
def expQ (x : ℚ) : ℚ :=
  let p := (List.range 8).foldl (fun y _ => fx (y * y)) (expSmall (fx (|x| / 256)))
  if 0 ≤ x then p else 1 / p

/-- 2 artanh t for t up to 1/3. -/
def artanh2 (t : ℚ) : ℚ := fx (2 * t * (List.range 40).foldr (fun (n : Nat) (acc : ℚ) => fx (1 / (2 * (n : ℚ) + 1) + t * t * acc)) 0)

/-- ln y for y of 1 or more. -/
def lnQ (y : ℚ) : ℚ :=
  let e := expOf y
  let m := y * pow2 (-e)
  artanh2 (fx ((m - 1) / (m + 1))) + e * artanh2 (1 / 3)

/-- Φ(x), the standard normal distribution. -/
def phiQ (x : ℚ) : ℚ :=
  let z := |x| * 70710678118654752440084436210484903928 / 100000000000000000000000000000000000000
  let erf := if 8 ≤ z then 1
    else
      let r := (List.range 250).foldl (fun (acc : ℚ × ℚ) (n : Nat) =>
        (acc.1 + acc.2 / (2 * (n : ℚ) + 1), fx (-(acc.2 * z * z) / ((n : ℚ) + 1)))) (0, 1)
      min 1 (r.1 * z * 112837916709551257389615890312154517168 / 100000000000000000000000000000000000000)
  if 0 ≤ x then (1 + erf) / 2 else (1 - erf) / 2

/-- The standard normal density. -/
def densityQ (x : ℚ) : ℚ :=
  if 40 ≤ |x| then 0 else expQ (-(x * x) / 2) * 39894228040143267793994605993438186847 / 100000000000000000000000000000000000000

/-- The functions of the vector unit (Table 12-4). -/
inductive LaneFn where
  | exp
  | recip
  | rsqrt
  | tanh
  | sigmoid
  | gelu
  | softplus
  deriving DecidableEq, Repr

/-- The function's OP code (Table 12-4). -/
def LaneFn.code : LaneFn → Nat
  | .exp => 0x10
  | .recip => 0x11
  | .rsqrt => 0x12
  | .tanh => 0x13
  | .sigmoid => 0x14
  | .gelu => 0x15
  | .softplus => 0x16

def sigmoidQ (x : ℚ) : ℚ := if x < -200 then 0 else if 200 < x then 1 else 1 / (1 + expQ (-x))

def tanhQ (x : ℚ) : ℚ := if 20 ≤ x then 1 else if x ≤ -20 then -1 else 1 - 2 / (expQ (2 * x) + 1)

/-- The exact value, where it is a number. -/
def LaneFn.exact (f : LaneFn) (x : ℚ) : ℚ :=
  match f with
  | .exp => expQ x
  | .recip => 1 / x
  | .rsqrt => 1 / sqrtRat x
  | .tanh => tanhQ x
  | .sigmoid => sigmoidQ x
  | .gelu => if 40 ≤ |x| then (if 0 ≤ x then x else 0) else x * phiQ x
  | .softplus => if 200 ≤ x then x else if x ≤ -200 then 0 else lnQ (1 + expQ x)

/-- A unit in the last place of a binary32 value. -/
def ulp32 (y : ℚ) : ℚ := if y = 0 then pow2 (-149) else pow2 (max (expOf |y|) (-126) - 23)

/-- The largest error at x, where the exact value is y (Table 10-5). -/
def LaneFn.error (f : LaneFn) (x y : ℚ) : ℚ :=
  match f with
  | .exp => 2 * ulp32 y
  | .recip => ulp32 y
  | .rsqrt => 2 * ulp32 y
  | .tanh => pow2 (-22)
  | .sigmoid => pow2 (-23)
  | .gelu => pow2 (-20) * max 1 |x|
  | .softplus => pow2 (-21) * max 1 x

/-- Above, at least and below a threshold; an infinity compares as it does in IEEE 754. -/
def FVal.above (x : FVal) (t : ℚ) : Bool := (FVal.ofRat t).lt x
def FVal.below (x : FVal) (t : ℚ) : Bool := x.lt (.ofRat t)
def FVal.atLeast (x : FVal) (t : ℚ) : Bool := x.above t || x.eq (.ofRat t)

/-- The values that Table 10-5 fixes. -/
def LaneFn.special (f : LaneFn) (x : FVal) : Option FVal :=
  match f, x with
  | _, .nan => some .nan
  | .exp, _ => if x.above (8872 / 100) then some (.inf false) else if x.below (-8733 / 100) then some (.num false 0) else none
  | .recip, .inf n => some (.num n 0)
  | .recip, .num n m => if m = 0 then some (.inf n) else none
  | .rsqrt, .inf n => some (if n then .nan else .num false 0)
  | .rsqrt, .num n m => if m = 0 then (if n then none else some (.inf false)) else if n then some .nan else none
  | .tanh, .inf n => some (.num n 1)
  | .tanh, .num n m => if 901 / 100 ≤ m then some (.num n 1) else none
  | .sigmoid, _ => if x.atLeast (1733 / 100) then some (.num false 1) else if x.below (-8733 / 100) then some (.num false 0) else none
  | .softplus, _ => if x.above 20 then some x else none
  | .gelu, _ => none

/-- A free result taken when it lies within an error of the exact value, else the exact value rounded. -/
def within (w : Nat) (y err : ℚ) : FVal :=
  let v := readWide fp32 w
  match v with
  | .num _ _ => if |v.val - y| ≤ err then v else f32 (.ofRat y)
  | _ => f32 (.ofRat y)

/-- The unit's result (Table 10-5): fixed where the table fixes it; otherwise free within the table's error, the same for the
same input. At an infinity, or the reciprocal square root of −0, where no result is stated, it is free. -/
def LaneFn.value (f : LaneFn) (x : FVal) : FVal :=
  let w := (Config.vecFn f.code (BitVec.ofNat 32 (f32Word 0 x))).toNat
  match f.special x with
  | some v => v
  | none => match x with
    | .num _ m => if f = .rsqrt ∧ m = 0 then readWide fp32 w else within w (f.exact x.val) (f.error x.val (f.exact x.val))
    | _ => readWide fp32 w

/-- f′ at x. -/
def LaneFn.slope (f : LaneFn) (x : ℚ) : ℚ :=
  match f with
  | .tanh => 1 - tanhQ x * tanhQ x
  | .sigmoid => sigmoidQ x * (1 - sigmoidQ x)
  | .gelu => if 40 ≤ |x| then (if 0 ≤ x then 1 else 0) else phiQ x + x * densityQ x
  | .softplus => sigmoidQ x
  | _ => 0

/-- B × f′(A), free within four times the function's largest error times |B| plus one rounding (R379). -/
def LaneFn.grad (f : LaneFn) (a b : FVal) : FVal :=
  let w := (Config.vecGrad (f.code + 8) (BitVec.ofNat 32 (f32Word 0 a)) (BitVec.ofNat 32 (f32Word 0 b))).toNat
  if a.isNan ∨ b.isNan then .nan
  else match a, b with
    | .num _ _, .num _ m =>
      let y := b.val * f.slope a.val
      within w y (4 * f.error a.val (f.exact a.val) * m + ulp32 y / 2)
    | _, _ => readWide fp32 w

/-- Element-wise arithmetic: IEEE 754 binary32, nearest even (Table 10-5). -/
def laneMin (a b : FVal) : FVal :=
  if a.isNan ∨ b.isNan then .nan else if a.lt b then a else if b.lt a then b else if a.isNeg then a else b
def laneMax (a b : FVal) : FVal :=
  if a.isNan ∨ b.isNan then .nan else if a.lt b then b else if b.lt a then a else if a.isNeg then b else a

/-- The element-wise operations of Table 12-4. -/
inductive LaneOp where
  | add
  | sub
  | mul
  | fma
  | min
  | max
  | lt
  | select
  deriving DecidableEq, Repr

def LaneOp.value (o : LaneOp) (a b c : FVal) : FVal :=
  match o with
  | .add => f32 (a.add b)
  | .sub => f32 (a.sub b)
  | .mul => f32 (a.mul b)
  | .fma => f32 ((a.mul b).add c)
  | .min => laneMin a b
  | .max => laneMax a b
  | .lt => if a.lt b then .num false 1 else .num false 0
  | .select => if c.eq (.num false 0) then b else a

end Sys2Proof.Machine
end

