-- ==== Sys2Proof/Machine/Tiles.lean ====
section
/-!
DEFINITION. Machine/Tiles.lean: tiles, their declarations and contents, views, the tile instruction word, and the working state
of a sequence (R30, R31, R344 to R351, R358, R372 to R391).
-/

namespace Sys2Proof.Machine

open Sys2Proof

/- Declarations (Table 12-6) -/

/-- A tile declaration's 32 bytes. -/
def tileDecl (b : List Byte) : TileDecl :=
  let l := fieldAt b 5 1
  { rows := fieldAt b 0 2, cols := fieldAt b 2 2, format := fieldAt b 4 1, axisCols := bit l 0, span := 2 ^ bits l 2 1,
    bf16Scale := bit l 3, learned := bit l 4, scaleGrad := bit l 5, raw := bit l 6, source := fieldAt b 6 1,
    dataOff := fieldAt b 8 4, dataLen := fieldAt b 12 4, io := fieldAt b 16 4, vrow := fieldAt b 20 2, vcol := fieldAt b 22 2,
    modelTile := fieldAt b 24 4 }

/-- The tile has a companion scale tile (R346). -/
def TileDecl.scaled (d : TileDecl) : Bool := fmtIsNarrow d.format && !d.raw

/-- Bytes of a scale entry (Table 11-3). -/
def TileDecl.entryBytes (d : TileDecl) : Nat :=
  if fmtIsAsym d.format then (if d.bf16Scale then 8 else 4) else if d.bf16Scale then 2 else 1

def TileDecl.elems (d : TileDecl) : Nat := d.rows * d.cols
def TileDecl.elemBytes (d : TileDecl) : Nat := d.elems * fmtBits d.format / 8
def TileDecl.blocks (d : TileDecl) : Nat := d.elems / 32
def TileDecl.scaleBytes (d : TileDecl) : Nat := if d.scaled then d.blocks * d.entryBytes else 0

/-- Bytes of a tile's layout: elements, then scale entries. -/
def TileDecl.bytes (d : TileDecl) : Nat := d.elemBytes + d.scaleBytes

/-- The tile's dimension along its block axis is a multiple of 32 × SPAN (R346). -/
def TileDecl.axisOk (d : TileDecl) : Bool := !d.scaled || decide ((if d.axisCols then d.rows else d.cols) % (32 * d.span) = 0)

/-- Rows and columns, element format and size obey R30. -/
def sideOk (n : Nat) : Bool := decide (16 ≤ n) && decide (n ≤ 1024) && decide (n % 16 = 0)
def TileDecl.shapeOk (d : TileDecl) : Bool :=
  sideOk d.rows && sideOk d.cols && decide (d.format ≤ 8) && decide (d.elemBytes ≤ 1048576) && d.axisOk

/-- Two declarations of one shape, format and layout. -/
def TileDecl.same (a b : TileDecl) : Bool :=
  decide (a.rows = b.rows) && decide (a.cols = b.cols) && decide (a.format = b.format) && (a.axisCols == b.axisCols) &&
    decide (a.span = b.span) && (a.bf16Scale == b.bf16Scale) && (a.learned == b.learned) && (a.scaleGrad == b.scaleGrad) &&
    (a.raw == b.raw)

/-- Writable by an instruction (R373): not constant, input or model. -/
def TileDecl.writable (d : TileDecl) : Bool := decide (d.source ≠ 1) && decide (d.source ≠ 2) && decide (d.source ≠ 5)

/- Contents -/

/-- A tile that reads 0, with scale 0 (R390). -/
def TileDecl.zero (d : TileDecl) : Tile := ⟨zeros d.elemBytes, zeros d.scaleBytes⟩

/-- The stored position of an element (R31). -/
def TileDecl.index (d : TileDecl) (r c : Nat) : Nat := (r / 16 * (d.cols / 16) + c / 16) * 256 + r % 16 * 16 + c % 16

/-- The element at a stored position. -/
def TileDecl.place (d : TileDecl) (i : Nat) : Nat × Nat :=
  let b := i / 256
  (b / (d.cols / 16) * 16 + i % 256 / 16, b % (d.cols / 16) * 16 + i % 16)

/-- The code at a stored position (R344). -/
def Tile.codeAt (bitsPer : Nat) (elems : List Byte) (i : Nat) : Nat :=
  if bitsPer = 4 then fieldAt elems (i / 2) 1 / 16 ^ (i % 2) % 16 else fieldAt elems (i * (bitsPer / 8)) (bitsPer / 8)

/-- Codes in stored order as bytes (R344). -/
def packCodes (bitsPer : Nat) : List Nat → List Byte
  | [] => []
  | [a] => leBytes (max 1 (bitsPer / 8)) a
  | a :: b :: t => (if bitsPer = 4 then leBytes 1 (a + 16 * b) else leBytes (bitsPer / 8) a ++ leBytes (bitsPer / 8) b) ++ packCodes bitsPer t

/-- The code of element (r, c). -/
def Tile.code (d : TileDecl) (t : Tile) (r c : Nat) : Nat := Tile.codeAt (fmtBits d.format) t.elems (d.index r c)

/-- The block of an element (R349). -/
def TileDecl.blockOf (d : TileDecl) (r c : Nat) : Nat := if d.axisCols then r / 32 * d.cols + c else r * (d.cols / 32) + c / 32

/-- The first element of a block. -/
def TileDecl.blockStart (d : TileDecl) (b : Nat) : Nat × Nat :=
  if d.axisCols then (32 * (b / d.cols), b % d.cols) else (b / (d.cols / 32), 32 * (b % (d.cols / 32)))

/-- Element k of a block. -/
def TileDecl.blockElem (d : TileDecl) (b k : Nat) : Nat × Nat :=
  let p := d.blockStart b
  if d.axisCols then (p.1 + k, p.2) else (p.1, p.2 + k)

/-- The first element of the span group of an element (R346). -/
def TileDecl.groupStart (d : TileDecl) (r c : Nat) : Nat × Nat :=
  let n := 32 * d.span
  if d.axisCols then (r / n * n, c) else (r, c / n * n)

/-- The elements of the span group that begins at an element. -/
def TileDecl.groupElems (d : TileDecl) (p : Nat × Nat) : List (Nat × Nat) :=
  (List.range (32 * d.span)).map fun k => if d.axisCols then (p.1 + k, p.2) else (p.1, p.2 + k)

/-- SCALE and ZP of a block's entry (Table 11-3). -/
def Tile.entry (d : TileDecl) (t : Tile) (b : Nat) : Nat × Nat :=
  let e := slice t.scales (b * d.entryBytes) d.entryBytes
  if d.bf16Scale then (fieldAt e 0 2, fieldAt e 2 1) else (fieldAt e 0 1, fieldAt e 1 1)

/-- An entry's bytes with its BSUM (Table 11-3, R348). -/
def TileDecl.entryOut (d : TileDecl) (scale zp bsum : Nat) : List Byte :=
  if fmtIsAsym d.format then
    (if d.bf16Scale then leBytes 2 scale ++ leBytes 1 zp ++ zeros 1 ++ leBytes 2 bsum ++ zeros 2
     else leBytes 1 scale ++ leBytes 1 zp ++ leBytes 2 bsum)
  else if d.bf16Scale then leBytes 2 scale else leBytes 1 scale

/-- The scale and zero point that an element is read with: those of the first block of its span group (R350). -/
def Tile.groupEntry (d : TileDecl) (t : Tile) (r c : Nat) : Nat × Nat :=
  let p := d.groupStart r c
  t.entry d (d.blockOf p.1 p.2)

/-- The scale of an element; 1 for an unscaled tile (R352). -/
def Tile.scaleAt (d : TileDecl) (t : Tile) (r c : Nat) : Option ℚ :=
  if d.scaled then scaleVal d.bf16Scale (t.groupEntry d r c).1 else some 1

/-- The element's code less its zero point, before its scale; 0 in a block of scale 0 (R346, R351). -/
def Tile.bare (d : TileDecl) (t : Tile) (r c : Nat) : FVal :=
  let v := codeVal d.format (t.code d r c)
  if d.scaled then
    if t.scaleAt d r c = some 0 then .num false 0
    else if fmtIsAsym d.format then v.sub (.ofRat ((t.groupEntry d r c).2 : ℚ)) else v
  else v

/-- The value that an element represents (R346). -/
def Tile.value (d : TileDecl) (t : Tile) (r c : Nat) : FVal :=
  match t.scaleAt d r c with
  | none => .nan
  | some s => (t.bare d r c).mul (.num false s)

/-- A tile with the elements chosen written anew. `entry` gives SCALE and ZP of the span group that begins at an element; BSUM
follows the codes, and every entry of a group is its first (R348, R350). -/
def Tile.rebuild (d : TileDecl) (t : Tile) (inside : Nat → Nat → Bool) (code : Nat → Nat → Nat) (entry : Nat × Nat → Nat × Nat) : Tile :=
  let newCode := fun (r c : Nat) => if inside r c then code r c else t.code d r c
  let elems := packCodes (fmtBits d.format) ((List.range d.elems).map fun i =>
    let p := d.place i
    newCode p.1 p.2)
  let scales := if d.scaled then (List.range d.blocks).flatMap fun b =>
      let p := d.blockStart b
      if inside p.1 p.2 then
        let e := entry (d.groupStart p.1 p.2)
        let sum := ((List.range 32).map fun k =>
          let q := d.blockElem b k
          newCode q.1 q.2).sum
        d.entryOut e.1 e.2 sum
      else slice t.scales (b * d.entryBytes) d.entryBytes
    else t.scales
  ⟨elems, scales⟩

/-- Data of a tile as loaded from an image or a payload: BSUM is recomputed; the later entries of a group stand, unread, until the next write
(R348, R350, R371). -/
def loadTile (d : TileDecl) (data : List Byte) : Tile :=
  let t : Tile := ⟨fit data d.elemBytes, fit (data.drop d.elemBytes) d.scaleBytes⟩
  let sum := fun (b : Nat) => ((List.range 32).map fun k =>
    let q := d.blockElem b k
    t.code d q.1 q.2).sum
  if d.scaled then ⟨t.elems, (List.range d.blocks).flatMap fun b => d.entryOut (t.entry d b).1 (t.entry d b).2 (sum b)⟩ else t

/- Views (R391) -/

/-- A tile as an instruction names it: a rectangle of its home. -/
structure Ref where
  decl : TileDecl
  home : Nat
  r0   : Nat
  c0   : Nat
  rows : Nat
  cols : Nat
  deriving DecidableEq, Repr

/-- The tile of a number (R373, R391). -/
def tileRef (tiles : List TileDecl) (n : Nat) : Option Ref :=
  match tiles[n]? with
  | none => none
  | some d =>
    if d.source = 6 then (tiles[d.io % 4096]?).map fun p => ⟨p, d.io % 4096, d.vrow, d.vcol, d.rows, d.cols⟩
    else some ⟨d, n, 0, 0, d.rows, d.cols⟩

/-- Two tiles overlap (R375). -/
def Ref.overlaps (a b : Ref) : Bool :=
  decide (a.home = b.home) && decide (a.r0 < b.r0 + b.rows) && decide (b.r0 < a.r0 + a.rows) && decide (a.c0 < b.c0 + b.cols) &&
    decide (b.c0 < a.c0 + a.cols)

/-- Element (r, c) of the home lies in the rectangle. -/
def Ref.inside (x : Ref) (r c : Nat) : Bool :=
  decide (x.r0 ≤ r) && decide (r < x.r0 + x.rows) && decide (x.c0 ≤ c) && decide (c < x.c0 + x.cols)

/-- How a value is written: rounding of each element, static or dynamic scales, words for NaNs, a free number. -/
structure Write where
  up     : Nat → RoundUp
  static : Bool
  nan    : Nat → Nat
  free   : Nat

/-- A write by nearest even whose NaNs have free words. -/
def Write.nearest (static : Bool) (free : Nat) : Write := ⟨fun _ => Machine.nearest, static, fun i => (Config.nan (free + i)).toNat, free⟩

/-- ROUND of an instruction or entry: 1 is stochastic (R360). -/
def Write.round (w : Write) (round : Nat) : Write :=
  if round = 1 then { w with up := fun i => stochasticUp (Config.stochastic w.free i) } else w

/-- Values written into a rectangle of a tile (R348, R350, R358 to R360, R367). -/
def Tile.write (t : Tile) (x : Ref) (w : Write) (val : Nat → Nat → FVal) : Tile :=
  let d := x.decl
  let at_ := fun (p : Nat × Nat) => val (p.1 - x.r0) (p.2 - x.c0)
  let entry := fun (p : Nat × Nat) =>
    if w.static then t.entry d (d.blockOf p.1 p.2)
    else
      let e := dynamicScale d.format d.bf16Scale (w.free + d.blockOf p.1 p.2) ((d.groupElems p).map at_)
      if d.learned then (learnedScale e.1, e.2) else e
  let code := fun (r c : Nat) =>
    let i := d.index r c
    if fmtIsNarrow d.format then
      let e := if d.scaled then entry (d.groupStart r c) else (0, 0)
      narrowCode d.format (w.up i) (w.nan i) (if d.scaled then scaleVal d.bf16Scale e.1 else some 1) e.2 (at_ (r, c))
    else wideCode d.format (w.up i) (w.nan i) (at_ (r, c))
  t.rebuild d x.inside code entry

/-- Raw codes of a rectangle in its own stored order, as bytes (R31, R333). -/
def Tile.bytesOf (t : Tile) (x : Ref) : List Byte :=
  let v : TileDecl := { x.decl with rows := x.rows, cols := x.cols }
  packCodes (fmtBits v.format) ((List.range v.elems).map fun i =>
    let p := v.place i
    t.code x.decl (x.r0 + p.1) (x.c0 + p.2))

/-- Those bytes replaced; scales and zero points stay, and BSUM follows. -/
def Tile.putBytes (t : Tile) (x : Ref) (b : List Byte) : Tile :=
  let v : TileDecl := { x.decl with rows := x.rows, cols := x.cols }
  t.rebuild x.decl x.inside (fun r c => Tile.codeAt (fmtBits v.format) b (v.index (r - x.r0) (c - x.c0)))
    (fun p => t.entry x.decl (x.decl.blockOf p.1 p.2))

/- The instruction word (R372, Table 12-1) -/

/-- Bits hi:lo of word i of an instruction. -/
def wf (w i hi lo : Nat) : Nat := bits w (32 * i + hi) (32 * i + lo)

/-- The update rules (R385, R428). -/
inductive Rule where
  | step
  | sign
  | signDecay
  | adam
  deriving DecidableEq, Repr

/-- The operations of the instruction word. -/
inductive TKind where
  | mm
  | mmq
  | close
  | lane (o : LaneOp)
  | fn (f : LaneFn)
  | dfn (f : LaneFn)
  | rowSum
  | rowMax
  | colSum
  | colMax
  | maskUpper
  | convert
  | copy
  | fill
  | chainSend
  | chainRecv
  | table
  | score
  | topk
  | checkWrite
  | compare
  | update (r : Rule)
  | signal
  | wait
  | sectionOpen
  | sectionClose
  | haltIf
  | endSeq
  deriving DecidableEq, Repr

/-- The vector operations by OP (Table 12-4). -/
def laneKind (op : Nat) : Option TKind :=
  match op with
  | 0x01 => some (.lane .add)
  | 0x02 => some (.lane .sub)
  | 0x03 => some (.lane .mul)
  | 0x04 => some (.lane .fma)
  | 0x05 => some (.lane .min)
  | 0x06 => some (.lane .max)
  | 0x07 => some (.lane .lt)
  | 0x08 => some (.lane .select)
  | 0x10 => some (.fn .exp)
  | 0x11 => some (.fn .recip)
  | 0x12 => some (.fn .rsqrt)
  | 0x13 => some (.fn .tanh)
  | 0x14 => some (.fn .sigmoid)
  | 0x15 => some (.fn .gelu)
  | 0x16 => some (.fn .softplus)
  | 0x18 => some (.dfn .tanh)
  | 0x19 => some (.dfn .sigmoid)
  | 0x1A => some (.dfn .gelu)
  | 0x1B => some (.dfn .softplus)
  | 0x20 => some .rowSum
  | 0x21 => some .rowMax
  | 0x22 => some .colSum
  | 0x23 => some .colMax
  | 0x30 => some .maskUpper
  | _ => none

/-- The operation of a word; none where class or operation is unassigned (R373). CONVERT is operation 0 of its class, and the
synchronise operations are 0 to 5 in the order of Table 12-1 (log entry 30). -/
def kindOf (w : Nat) : Option TKind :=
  let op := wf w 0 7 4
  match wf w 0 3 0 with
  | 1 => [TKind.mm, .mmq, .close][op]?
  | 2 => laneKind (wf w 0 11 4)
  | 3 => [TKind.convert][op]?
  | 4 => [TKind.copy, .fill, .chainSend, .chainRecv][op]?
  | 5 => [TKind.table, .score, .topk][op]?
  | 6 => [TKind.checkWrite, .compare][op]?
  | 7 => [TKind.update .step, .update .sign, .update .signDecay, .update .adam][op]?
  | 8 => [TKind.signal, .wait, .sectionOpen, .sectionClose, .haltIf, .endSeq][op]?
  | _ => none

/-- Fields of the matrix word (Table 12-3). -/
def mArray (w : Nat) : Nat := wf w 0 8 8
def mFlow (w : Nat) : Nat := wf w 0 10 9
def mInterval (w : Nat) : Nat := 32 * 2 ^ wf w 0 12 11
def mTransA (w : Nat) : Bool := bit w 13
def mTransB (w : Nat) : Bool := bit w 14
def mDest (w : Nat) : Bool := bit w 15
def mOpen (w : Nat) : Bool := bit w 16
def mRound (w : Nat) : Nat := wf w 0 18 17
def mStatic (w : Nat) : Bool := bit w 19
def mGrad (w : Nat) : Bool := bit w 20
def mGroup (w : Nat) : Nat := wf w 0 23 21

/-- A value held as value ÷ 16 − 1. -/
def dim16 (v : Nat) : Nat := 16 * (v + 1)

/-- The accumulation group that a matrix or move word names: array × 8 + group (R321). -/
def matGroup (w : Nat) : Nat := 8 * mArray w + mGroup w
def movGroup (w : Nat) : Nat := 8 * wf w 0 8 8 + wf w 0 11 9

/-- A quadrant descriptor (R378). -/
def qDesc (b : List Byte) : List QProblem :=
  (List.range (min 4 (fieldAt b 0 1))).map fun i =>
    let e := slice b (16 + 12 * i) 12
    ⟨fieldAt e 0 2, fieldAt e 2 2, fieldAt e 4 2, dim16 (fieldAt e 6 1), dim16 (fieldAt e 7 1), dim16 (fieldAt e 8 1),
      bit (fieldAt e 9 1) 0, bit (fieldAt e 9 1) 1⟩

/-- The problem that an MM word states. -/
def mmProblem (w : Nat) : QProblem :=
  ⟨wf w 1 11 0, wf w 1 23 12, wf w 2 11 0, dim16 (wf w 3 17 12), dim16 (wf w 3 23 18), dim16 (wf w 3 29 24), mTransA w, mTransB w⟩

/-- The vector operation takes B, or C. -/
def usesB : TKind → Bool
  | .lane _ => true
  | .dfn _ => true
  | _ => false
def usesC : TKind → Bool
  | .lane .fma => true
  | .lane .select => true
  | _ => false

/-- The tiles that an instruction reads and those it writes. -/
def tilesRead (k : TKind) (w : Nat) (qs : List QProblem) : List Nat :=
  match k with
  | .mm => [wf w 1 11 0, wf w 1 23 12] ++ (if wf w 2 23 12 = 0xFFF then [] else [wf w 2 23 12])
  | .mmq => qs.flatMap fun q => [q.a, q.b]
  | .convert | .copy => [wf w 1 11 0]
  | .table => [wf w 1 11 0, wf w 1 23 12]
  | .score => [wf w 1 11 0, wf w 1 23 12, wf w 2 23 12]
  | .topk => [wf w 1 11 0]
  | .checkWrite => [wf w 1 11 0]
  | .compare => [wf w 1 11 0, wf w 1 23 12]
  | .update .adam => [wf w 1 11 0, wf w 1 23 12, wf w 2 11 0]
  | .update _ => [wf w 1 11 0, wf w 1 23 12]
  | .lane _ | .fn _ | .dfn _ | .rowSum | .rowMax | .colSum | .colMax | .maskUpper =>
    [wf w 1 11 0] ++ (if usesB k ∧ wf w 0 13 12 ≠ 3 then [wf w 1 23 12] else []) ++ (if usesC k then [wf w 2 11 0] else [])
  | _ => []
def tilesWritten (k : TKind) (w : Nat) (qs : List QProblem) : List Nat :=
  match k with
  | .mm => (if mDest w then [] else [wf w 2 11 0]) ++ (if wf w 2 23 12 = 0xFFF then [] else [wf w 3 11 0])
  | .mmq => qs.map (·.out)
  | .close => [wf w 2 11 0]
  | .convert | .copy | .fill => [wf w 1 23 12]
  | .table => [wf w 2 11 0, wf w 2 23 12]
  | .score | .topk => [wf w 2 11 0]
  | .checkWrite => [wf w 1 23 12]
  | .update .adam => [wf w 1 11 0, wf w 2 11 0]
  | .update _ => [wf w 1 11 0]
  | .lane _ | .fn _ | .dfn _ | .rowSum | .rowMax | .colSum | .colMax | .maskUpper => [wf w 2 23 12]
  | _ => []

/- The working state of a sequence -/

/-- What an instruction works on: its program, its run, its sequence, the model image and the free-value counter. -/
structure Exec where
  prog  : Program
  run   : Run
  seq   : Nat
  model : List Byte
  free  : Nat
  deriving DecidableEq, Repr

/-- The instruction at a place of a sequence. -/
def Program.word (p : Program) (seq pc : Nat) : Nat := fieldAt p.image ((p.seqs.getD seq (0, 0)).1 + 16 * pc) 16

/-- A sequence of a run. -/
def Seq.done : Seq := ⟨0, true, .none, none, false, none, [], 0⟩
def Run.seq (r : Run) (n : Nat) : Seq := r.seqs.getD n Seq.done
def Exec.me (e : Exec) : Seq := e.run.seq e.seq

/-- The present sequence changed. -/
def Exec.modSeq (e : Exec) (f : Seq → Seq) : Exec := { e with run := { e.run with seqs := setAt e.run.seqs e.seq f } }

/-- The instruction a sequence has come to. -/
def Exec.word (e : Exec) : Nat := e.prog.word e.seq e.me.pc

/-- The problems of a word: the quadrant descriptor of an MMQ (R378). -/
def Program.problems (p : Program) (w : Nat) : List QProblem := if kindOf w = some .mmq then p.qdescs.getD (wf w 1 11 0) [] else []

/-- A tile of a model image (Table 13-2): its declaration and its data. -/
def modelDecl (image : List Byte) (n : Nat) : TileDecl :=
  tileDecl (slice image (fieldAt image 36 4 + 32 * n) 6 ++ zeros 26)
def modelData (image : List Byte) (n : Nat) : List Byte :=
  let e := slice image (fieldAt image 36 4 + 32 * n) 32
  slice image (fieldAt image 48 8 + fieldAt e 8 8) (fieldAt e 16 4)

/-- The contents of a home tile (R390): of the program for a constant or persistent one, of the model, or of the run. -/
def Exec.tile (e : Exec) (n : Nat) : Tile :=
  match e.prog.tiles[n]? with
  | none => ⟨[], []⟩
  | some d =>
    if d.source = 1 ∨ d.source = 4 then (kvGet n e.prog.homes).getD d.zero
    else if d.source = 5 then loadTile d (modelData e.model d.modelTile)
    else (kvGet n e.run.tiles).getD d.zero

/-- A home tile replaced. -/
def Exec.put (e : Exec) (n : Nat) (t : Tile) : Exec :=
  match e.prog.tiles[n]? with
  | none => e
  | some d =>
    if d.source = 4 then { e with prog := { e.prog with homes := kvSet n t e.prog.homes } }
    else if d.source = 0 ∨ d.source = 3 then { e with run := { e.run with tiles := kvSet n t e.run.tiles } }
    else e

/-- The tile of a number; one that no declaration gives is never named by a loaded program. -/
def Exec.ref (e : Exec) (n : Nat) : Ref := (tileRef e.prog.tiles n).getD ⟨(tileDecl []), 4095, 0, 0, 0, 0⟩

/-- Reading element (r, c) of a named tile. -/
def Exec.value (e : Exec) (x : Ref) (r c : Nat) : FVal := (e.tile x.home).value x.decl (x.r0 + r) (x.c0 + c)

/-- Widened to binary32 (R329, R345). -/
def Exec.lane (e : Exec) (x : Ref) (r c : Nat) : FVal := f32 (e.value x r c)

/-- The code of element (r, c). -/
def Exec.code (e : Exec) (x : Ref) (r c : Nat) : Nat := (e.tile x.home).code x.decl (x.r0 + r) (x.c0 + c)

/-- Values written into a named tile. -/
def Exec.write (e : Exec) (x : Ref) (w : Write) (val : Nat → Nat → FVal) : Exec :=
  e.put x.home ((e.tile x.home).write x w val)

/-- Free values taken for an instruction: one for each element that a write may need. -/
def Exec.take (e : Exec) : Exec := { e with free := e.free + 2 ^ 21 }

end Sys2Proof.Machine
end

