-- ==== Sys2Proof/Machine/Plots.lean ====
section
/-!
DEFINITION. Machine/Plots.lean: residency, placement, slices, swaps and plot failures (chapters 4 and 10): the placement of a context
on plots, and the meanings of PLOT_HANG, MOVER_TIMEOUT, SPARE_PLOT_TAKEOVER and HOST_PEEK.
-/

namespace Sys2Proof.Machine

open Sys2Proof

/- Residents (R39, R130) -/

def Plot.holds (p : Plot) (ctx : Nat) : Bool := p.residents.any fun r => decide (r.ctx = ctx)

/-- The residents that stay: not marked for swap-out, not ended. -/
def Plot.staying (p : Plot) : List Resident := p.residents.filter fun r => decide (r.out = none) && decide (r.ctx ≠ 65535)

/-- SRAM quotas of some residents (R39). -/
def sramSum (rs : List Resident) : Nat := (rs.map (·.sramKib)).sum

/-- A plot can take a context as resident now: at most four, with quotas of 2,944 KiB or less in all (R39, R130). -/
def Plot.room (p : Plot) (kib : Nat) : Bool := decide (p.residents.length < 4) && decide (sramSum p.residents + kib ≤ 2944)

/-- The SRAM quota that a context takes on a plot; a settling pass takes none (log entry 147). -/
def State.quotaKib (s : State) (n : Nat) : Nat := ((kvGet n s.contexts).map (·.sramKib)).getD 0

/-- These residents leave room for a context beside the contexts that the plot has been given. -/
def State.roomBeside (s : State) (rs : List Resident) (claims : List Nat) (kib : Nat) : Bool :=
  decide (rs.length + claims.length < 4) && decide (sramSum rs + (claims.map s.quotaKib).sum + kib ≤ 2944)

/-- Room on a plot once those marked have left and those given to it have joined. -/
def State.roomOn (s : State) (p kib : Nat) : Bool := s.roomBeside (s.plot p).staying (s.plot p).claims kib

/-- One resident changed. -/
def modResident (p n : Nat) (f : Resident → Resident) (s : State) : State :=
  modPlot p (fun q => { q with residents := q.residents.map fun r => if r.ctx = n then f r else r }) s

/-- A context as it becomes resident. -/
def Ctx.resident (x : Ctx) (n now : Nat) : Resident :=
  { ctx := n, cls := x.cls, sramKib := x.sramKib, sliceUs := x.sliceUs, leftUs := x.sliceUs, remainder := false, owedUs := 0, since := now,
    blocked := false, out := none }

/-- The plots that take work: active, with a logical number. -/
def State.workPlots (s : State) : List Nat :=
  (List.range 272).filter fun p => decide ((s.plot p).role = .active) && (s.plot p).logical.isSome && !(s.plot p).parked

/-- Plots a context is resident on. -/
def State.plotsOf (s : State) (ctx : Nat) : List Nat := (List.range 272).filter fun p => (s.plot p).holds ctx

/- What a context waits for (Table 4-8) -/

/-- The key of a context's program handle. -/
def progKey (ctx handle : Nat) : Nat := 16 * ctx + handle

/-- The program of a handle. -/
def State.program (s : State) (ctx handle : Nat) : Option Program := if handle < 16 then kvGet (progKey ctx handle) s.programs else none

/-- The sequences of a context's runs on a plot, with their runs. -/
def State.seqsOn (s : State) (p n : Nat) : List (Run × Nat) :=
  (s.runs.filter fun r => decide (r.ctx = n)).flatMap fun r =>
    ((List.range r.seqs.length).filter fun i => !(r.seq i).ended && decide ((r.seq i).plot = p)).map fun i => (r, i)

/-- A sequence of the context has an atomic section open on the plot (R140, R145). -/
def State.sectionOn (s : State) (p n : Nat) : Bool := (s.seqsOn p n).any fun x => (x.1.seq x.2).section_.isSome

/-- The least of some times. -/
def least : List (Option Nat) → Option Nat
  | [] => none
  | none :: t => least t
  | some a :: t => some ((least t).elim a (min a))

/-- Instructions that a sequence has to issue up to one of a kind, that one included. -/
def Program.ahead (p : Program) (seq pc : Nat) (f : Nat → Bool) : Option Nat :=
  ((List.range ((p.seqs.getD seq (0, 0)).2 - pc)).find? fun i => f (p.word seq (pc + i))).map (· + 1)

/-- 20 µs for each instruction that another sequence of the run has still to issue before one of a kind (Table 4-8). -/
def State.tokenUs (s : State) (r : Run) (i : Nat) (f : Nat → Bool) : Option Nat :=
  (s.program r.ctx r.handle).bind fun p =>
    (least (((List.range r.seqs.length).filter fun j => decide (j ≠ i) && !(r.seq j).ended).map fun j =>
      p.ahead j (r.seq j).pc f)).map (20 * ·)

/-- A page read on a die: 80 µs for each operation queued there and itself; on an erasing die a rebuild, or, for a batch read, the rest
of the erase (Table 4-8). -/
def State.flashUs (s : State) (d : Nat) (batch : Bool) : Nat :=
  let x := s.die d
  if x.op = .erase then (if batch then 12000 - (s.now - x.began) / countsUs else 120) else 80 * (s.queuedOn d + 1)

/-- The die that serves a place, as a number for its queue; a place that none serves is rebuilt. -/
def State.placeUs (s : State) (a : MediaAddr) (batch : Bool) : Nat :=
  match s.rowDie a.row a.member with
  | none => 120
  | some d => s.flashUs d batch

/-- A refetch for a command: 10 µs from the stack, and as an interactive flash read from flash (Table 4-8). -/
def State.refetchUs (s : State) (k : CmdKey) : Nat :=
  (s.landing.faults.map fun f => if !f.poisoned ∧ f.readers.contains k then (match f.flash with
    | none => 10
    | some a => s.placeUs a false) else 0).foldl max 10

/-- A ferry of a tile to the plot is under way. -/
def State.ferrying (s : State) (p n handle tile : Nat) : Bool :=
  (s.plot p).tiles.any fun t => decide (t.ctx = n) && decide (t.handle = handle) && decide (t.tile = tile) && !t.ready

/-- Why a sequence does not go on. -/
def State.seqWait (s : State) (r : Run) (i : Nat) : Option Blocked :=
  let w := ((s.program r.ctx r.handle).map fun p => p.word i (r.seq i).pc).getD 0
  let chained := fun (k : TKind) (v : Nat) => decide (kindOf v = some k) && decide (wf v 1 11 0 = wf w 1 11 0)
  if s.stalled r.key then some ⟨false, some (s.refetchUs r.key)⟩
  else match (r.seq i).block with
    | .none => none
    | .tile t => if s.ferrying (r.seq i).plot r.ctx r.handle t then some ⟨false, some 10⟩ else none
    | .token => some ⟨false, s.tokenUs r i fun v => decide (kindOf v = some .signal) && decide (wf v 1 7 0 = wf w 1 7 0)⟩
    | .slot => some ⟨false, s.tokenUs r i (chained .chainRecv)⟩
    | .handOn => some ⟨false, s.tokenUs r i (chained .chainSend)⟩
    | .peer => some ⟨true, none⟩

/-- A search waits for its records: those on flash as their reads go, one that has been read, or that stands in the Landing, no time. -/
def State.findWait (s : State) (q : Search) : Option Blocked :=
  if s.stalled q.key then some ⟨false, some (s.refetchUs q.key)⟩
  else if q.awaiting = [] ∨ q.returned ≠ [] then none
  else some ⟨false, least (q.awaiting.map fun i => some (match s.media.reads.find? fun r => decide (r.for_ = .search q.key i) with
    | some r => s.placeUs r.place (!q.interactive)
    | none => 0))⟩

/-- A step of a model in which the command takes part stalls on a tile whose ferry is under way (R46). -/
def State.layerStall (s : State) (k : CmdKey) : Bool :=
  s.steps.any fun x => x.keys.contains k && (s.plotsOf x.ctx).any fun p => s.ferrying p x.ctx (modelHandle x.slot) x.next

/-- What a command of the work queue waits for, apart from its run or search; none for one that plot work can go on for. -/
def State.cmdWait (s : State) (c : Cmd) : Option (Option Blocked) :=
  match c.phase with
  | .received | .waiting (.token _) => some (if s.layerStall c.key then some ⟨false, some 10⟩ else none)
  | .waiting (.pages need) => some (some ⟨false, least (need.map fun a => some (s.placeUs a (decide (c.cls ≠ 0))))⟩)
  | .waiting (.segments need) =>
    let rs := s.media.reads.filter fun r => need.any fun n => decide (r.for_ = .segment n)
    some (some ⟨false, least (rs.map fun r => some (s.placeUs r.place (decide (c.cls ≠ 0))))⟩)
  | .waiting .hold => some (some ⟨false, some (Config.flushUs s.stacks)⟩)
  | .waiting (.quota _ _ _ _ _) | .waiting .staging | .waiting (.peer _) => some (some ⟨true, none⟩)
  | _ => none

/-- Everything that a context has on a plot, with what it waits for. -/
def State.waitsOn (s : State) (p n : Nat) : List (Option Blocked) :=
  ((s.seqsOn p n).map fun x => s.seqWait x.1 x.2) ++
    ((s.searches.filter fun q => decide (q.key.context = some n) && decide (q.plot = p)).map s.findWait) ++
    (s.cmds.filter fun c => decide (c.key.context = some n) && decide (c.key.queue = .work) && c.live).filterMap s.cmdWait

/-- Why a context is blocked on a plot: none when some of its work can go on; otherwise the least of its predicted waits. One that is
closing, one with nothing to do, and housekeeping under pressure wait without bound, but for the settling of an index on which an INSERT is held (R135, R141,
R147, R303, Table 4-8). -/
def State.blockedOn (s : State) (p n : Nat) : Option Blocked :=
  if 1024 ≤ n then (if s.pressure && !s.insertHeld (n - 1024) then some ⟨false, none⟩ else none)
  else
    let ws := s.waitsOn p n
    if ws = [] ∨ (kvGet n s.contexts).all fun x => x.closing || x.torn.isSome then some ⟨true, none⟩
    else if ws.any (·.isNone) then none
    else some ⟨ws.all fun w => w.any (·.outside), least (ws.map fun w => w.bind (·.wait))⟩

/-- A context's residents on a plot become runnable or blocked (R133). -/
def refresh (p : Nat) (s : State) : State :=
  modPlot p (fun q => { q with residents := q.residents.map fun r =>
    let b := (s.blockedOn p r.ctx).isSome
    { r with blocked := b, since := if r.blocked ∧ !b then s.now else r.since } }) s

/-- The same for the contexts that wait outside (R132, R141). -/
def refreshImages (s : State) : State :=
  modPlots (fun x => { x with images := x.images.map fun i =>
    let b := (s.blockedOn i.plot i.ctx).isSome
    { i with blocked := b, since := if i.blocked ∧ !b then s.now else i.since } }) s

/-- The context has plot work outstanding: a live work command or an open stream, or it is closing; a settling pass until it
publishes. -/
def State.hasWork (s : State) (n : Nat) : Bool :=
  if 65535 ≤ n then false
  else if 1024 ≤ n then (kvGet (n - 1024) s.indexes).any fun x => x.pass.isSome
  else (kvGet n s.contexts).any (·.closing) || (s.streams.any fun t => decide (t.2.ctx = n)) ||
    s.cmds.any fun c => decide (c.key.context = some n) && decide (c.key.queue = .work) && c.live

/- The running context (R132 to R136) -/

/-- The context that a plot runs next: an interactive runnable resident, the one runnable longest first (R133); then a batch remainder
(R134); then the next resident in turn (R132). -/
def Plot.nextRun (p : Plot) : Option Nat :=
  let able := p.residents.filter fun r => !r.blocked && decide (r.ctx ≠ 65535) && !(p.swap.any fun w => w.out && decide (w.ctx = r.ctx))
  let inter := (able.filter fun r => decide (r.cls = .interactive)).foldl
    (fun (best : Option Resident) r => match best with
      | none => some r
      | some b => if r.since < b.since then some r else best) none
  (inter.or ((able.find? (·.remainder)).or able.head?)).map (·.ctx)

/-- Predicted wait as an order: unbounded is longest (Table 4-8). -/
def waitUs (b : Blocked) : Nat := b.wait.getD (2 ^ 64)

/-- The blocked resident with the longest predicted wait of 200 µs or more (R141, R142). -/
def State.waitVictim (s : State) (p : Nat) : Option Resident :=
  let wait := fun (r : Resident) => ((s.blockedOn p r.ctx).map waitUs).getD 0
  (((s.plot p).staying.filter fun r => !(decide (r.cls = .interactive) && s.ctxAdmitted r.ctx) &&
    (!s.sectionOn p r.ctx || (s.blockedOn p r.ctx).any (·.outside)) && decide (200 ≤ wait r))).foldl
    (fun (best : Option Resident) r => match best with
      | none => some r
      | some b => if wait b < wait r ∨ (wait b = wait r ∧ r.ctx < b.ctx) then some r else best) none

/-- A swap-in of the image runs on some plot. -/
def State.coming (s : State) (i : Image) : Bool :=
  s.plots.list.any fun p => p.2.swap.any fun w => !w.out && decide (w.ctx = i.ctx) && decide (w.img = i.plot)

/-- The runnable contexts that wait outside the plots and that a plot has room for, the one that has waited longest first (R141). -/
def State.nextIn (s : State) (p : Nat) : Option Image :=
  (s.plots.images.filter fun i => !(s.plot p).holds i.ctx && !s.coming i && (s.blockedOn i.plot i.ctx).isNone &&
    (s.plot p).room (s.quotaKib i.ctx)).foldl
    (fun (best : Option Image) i => match best with
      | none => some i
      | some b => if i.since < b.since then some i else best) none

/-- A swap-out begins (R139, R140). A batch context that ran and that interactive work displaces keeps the rest of its slice, to run it first
(R134). -/
def beginSwapOut (p ctx : Nat) (cause : Option Nat) (s : State) : State :=
  modPlot p (fun q => { q with
    swap := some ⟨ctx, true, cause, s.now, p⟩
    running := if q.running = some ctx then none else q.running
    residents := if cause.isSome ∧ q.running = some ctx then q.residents.map fun r =>
        if r.ctx = ctx then { r with remainder := decide (r.cls = .batch) && decide (0 < r.leftUs) } else r
      else q.residents }) s

/-- The plot takes its next running context: a shadow set of another context is discarded (R320). When every resident is blocked and a
runnable batch context waits outside, a blocked one is swapped out (R141). -/
def choose (p : Nat) (s : State) : State :=
  match (s.plot p).nextRun with
  | some n =>
    modCtx n (fun x => { x with lastRun := s.now }) (modPlot p (fun q => { q with
      running := some n, moverAt := s.now
      shadow := q.shadow.map fun x => if x.any fun y => decide (y.key.context ≠ some n) then none else x }) s)
  | none =>
    let s := modPlot p (fun q => { q with running := none }) s
    if (s.plot p).swap.isSome ∨ !(s.plots.images.any fun i => (s.blockedOn i.plot i.ctx).isNone) then s
    else match s.waitVictim p with
      | none => s
      | some v => beginSwapOut p v.ctx none s

/- Placement (R42, R131, R137) -/

/-- Plots free of interactive and housekeeping work. -/
def State.batchPlots (s : State) : Nat :=
  (s.workPlots.filter fun p => !s.heldInteractive (s.plot p) && !((s.plot p).residents.any fun r => decide (r.cls = .housekeeping))).length

/-- The context can run on one of the plots that it stands on or waits for; one that has no place yet can (R131). -/
def State.runnable (s : State) (n : Nat) : Bool :=
  let at_ := s.plotsOf n ++ (s.plots.images.filter fun i => decide (i.ctx = n)).map (·.plot)
  decide (at_ = []) || at_.any fun p => (s.blockedOn p n).isNone

/-- A batch context's part of the plots: what it wants, or, when the runnable batch contexts want more than there are, its part in
proportion to its Landing quota, one at the least (R131). The context itself is counted among them. -/
def State.share (s : State) (n : Nat) (x : Ctx) : Nat :=
  let all := s.contexts.filter fun c => decide (c.2.cls = .batch) && decide (0 < c.2.want) && (decide (c.1 = n) || s.runnable c.1)
  if (all.map fun c => c.2.want).sum ≤ s.batchPlots then x.want
  else max 1 (s.batchPlots * x.landingMib / max 1 (all.map fun c => c.2.landingMib).sum)

/-- The most plots that a context may hold (R42, R131). -/
def State.plotLimit (s : State) (n : Nat) (x : Ctx) : Nat :=
  let own := if x.maxPlots = 0 then 256 else x.maxPlots
  if x.cls = .batch then min own (min (s.headroomKib n / 256) (s.share n x)) else own

/-- The context stands on the plot, has been given it, or was swapped out of it. -/
def State.hasPlace (s : State) (n p : Nat) : Bool :=
  (s.plot p).holds n || (s.plot p).claims.contains n || s.plots.images.any fun i => decide (i.ctx = n) && decide (i.plot = p)

/-- The batch resident to swap out: the least remaining slice, among equals the lowest context number (R137). -/
def batchVictim (rs : List Resident) : Option Resident :=
  (rs.filter fun r => decide (r.cls = .batch)).foldl
    (fun (best : Option Resident) r => match best with
      | none => some r
      | some b => if r.leftUs < b.leftUs ∨ (r.leftUs = b.leftUs ∧ r.ctx < b.ctx) then some r else best) none

/-- The batch residents to swap out so that a context has room (R137); none when it has none even then. -/
def State.victims (s : State) (p kib : Nat) : Nat → List Resident → Option (List Nat)
  | 0, _ => none
  | n + 1, rs =>
    if s.roomBeside rs (s.plot p).claims kib then some []
    else match batchVictim rs with
      | none => none
      | some v => (s.victims p kib n (rs.filter fun r => decide (r.ctx ≠ v.ctx))).map (v.ctx :: ·)

/-- Plots from a list in order, so many of them, of which at most so many that interactive work does not hold already (R19). -/
def State.takePlots (s : State) : List Nat → Nat → Nat → List Nat
  | [], _, _ => []
  | _, 0, _ => []
  | p :: ps, k + 1, fresh =>
    if s.heldInteractive (s.plot p) then p :: s.takePlots ps k fresh
    else match fresh with
      | 0 => s.takePlots ps (k + 1) 0
      | f + 1 => p :: s.takePlots ps k f

/-- A plot is given to a context, which joins at its next boundary; batch residents in the way are marked for swap-out (R123, R137). -/
def claim (n kib : Nat) (s : State) (p : Nat) : State :=
  let out := (s.victims p kib 5 (s.plot p).staying).getD []
  modPlot p (fun q => { q with
    claims := q.claims ++ [n]
    residents := q.residents.map fun r => if out.contains r.ctx then { r with out := some (some n) } else r }) s

/- What happens at a boundary (R123) -/

/-- Bytes that go to or from their homes in the Landing are charged to the context (R33, R35, Table 16-6). -/
def chargeLanding (n bytes : Nat) (s : State) : State := account (some n) (fun c => { c with landing := c.landing + bytes }) s

/-- Bytes that a step shared by several streams takes from the Landing are split equally among the streams' contexts; bytes that no equal split takes
go one each to the first streams (R488, DESIGN CHOICE, log entry 213). -/
def shareLanding (ctxs : List Nat) (bytes : Nat) (s : State) : State :=
  let share := bytes / ctxs.length
  ctxs.zipIdx.foldl (fun s x => chargeLanding x.1 (share + b2n (decide (x.2 < bytes % ctxs.length))) s) s

/-- Bytes of a context's modified tiles on a plot. -/
def Plot.modifiedBytes (p : Plot) (n : Nat) : Nat := ((p.tiles.filter fun t => decide (t.ctx = n) && t.modified).map (·.bytes)).sum

/-- A context leaves a plot: its modified tiles are written back (R35, R139). -/
def leavePlot (p n : Nat) (s : State) : State :=
  let s := chargeLanding n ((s.plot p).modifiedBytes n) s
  modPlot p (fun q => { q with
    residents := q.residents.filter fun r => decide (r.ctx ≠ n)
    tiles := q.tiles.filter fun t => decide (t.ctx ≠ n)
    running := if q.running = some n then none else q.running }) s

/-- Residents that leave: those that have ended, that have no work, or that hold the plot beyond their number (R42, R127, R148). The
context that runs an instruction stays until it ends. -/
def dropGone (p : Nat) (busy : Option Nat) (s : State) : State :=
  (s.plot p).residents.foldl (fun s r =>
    let extra := (kvGet r.ctx s.contexts).any fun x => decide (s.plotLimit r.ctx x < s.plotsHeld r.ctx) && decide (1 < s.plotsHeld r.ctx)
    if busy = some r.ctx ∨ (s.plot p).swap.any (fun w => decide (w.ctx = r.ctx)) then s
    else if !s.hasWork r.ctx then modCtx r.ctx (fun x => { x with want := 0 }) (leavePlot p r.ctx s)
    else if extra then leavePlot p r.ctx s
    else s) s

/-- Quotas changed by SET_QUOTA or SET_CLASS apply to a context at its boundary on the plot (R122, R123). Where a raised SRAM quota
would break R39, a batch context is swapped out, to be placed where it fits; an interactive one has batch residents swapped out, or
moves (R122, R137). One that becomes interactive while interactive work holds 128 plots does not make another one its own: it leaves the plot
when it stands on others, else it goes on there as the batch work it was (R19, log entry 189). -/
def applyQuotas (p : Nat) (busy : Option Nat) (s : State) : State :=
  (s.plot p).residents.foldl (fun s r =>
    match kvGet r.ctx s.contexts with
    | none => s
    | some x =>
      if busy = some r.ctx then s
      else
        let others := (s.plot p).residents.filter fun q => decide (q.ctx ≠ r.ctx)
        if x.cls = .interactive ∧ r.cls ≠ .interactive ∧ 128 ≤ s.interactivePlots ∧ !s.heldInteractive (s.plot p) then
          if 1 < s.plotsHeld r.ctx then leavePlot p r.ctx s else s
        else
        let s := modResident p r.ctx (fun r => { r with cls := x.cls, sliceUs := x.sliceUs }) s
        if sramSum others + x.sramKib ≤ 2944 then modResident p r.ctx (fun r => { r with sramKib := x.sramKib }) s
        else if x.cls = .batch then modResident p r.ctx (fun r => { r with out := r.out.or (some none) }) s
        else match s.victims p x.sramKib 5 ((s.plot p).staying.filter fun q => decide (q.ctx ≠ r.ctx)) with
          | some vs => vs.foldl (fun s v => modResident p v (fun v => { v with out := v.out.or (some (some r.ctx)) }) s) s
          | none => match s.workPlots.find? fun q => s.roomOn q x.sramKib && !s.hasPlace r.ctx q with
            | none => s
            | some q => claim r.ctx x.sramKib (leavePlot p r.ctx s) q) s

/-- The first resident marked for swap-out goes, one at a time, outside its instructions and its atomic sections; one blocked on outside
input goes in its section too (R140, R145). -/
def startOut (p : Nat) (busy : Option Nat) (s : State) : State :=
  if (s.plot p).swap.isSome then s
  else match (s.plot p).residents.find? fun r => r.out.isSome && decide (busy ≠ some r.ctx) &&
      (!s.sectionOn p r.ctx || (s.blockedOn p r.ctx).any (·.outside)) with
    | none => s
    | some r => beginSwapOut p r.ctx (r.out.getD none) s

/-- A block goes into a free slot of a plot's exchange window. -/
def Plot.accept (p : Plot) (h : HandOn) : Option (List (Option HandOn)) :=
  (p.window.findIdx? (·.isNone)).map fun i => setAt p.window i fun _ => some h

/-- The sequence that is a member of a chain of a run's program, by the number of the chain in hand-on headers (R325, R382). -/
def State.memberSeq (s : State) (r : Run) (chain place : Nat) : Option Nat :=
  (s.program r.ctx r.handle).bind fun g =>
    let i := match kvGet chain s.links.bindings with
      | some b => b.chain
      | none => chain - g.chainBase
    (g.chains[i]?).bind fun c => c.members[place]?

/-- Hand-on blocks of a context that sit unmerged in a plot's slots, for members that stand on another plot now, move there with its image, as
slots there are free (Table 10-8). -/
def moveBlocks (n from_ p : Nat) (s : State) : State :=
  let mine := fun (h : HandOn) => (s.runs.filter fun r => decide (r.ctx = n)).any fun r => (r.sent ++ r.landed).any fun x =>
    decide (x.2.2 = h) && (s.memberSeq r x.1 x.2.1).any fun i => decide (((r.seqs[i]?).map (·.plot)) = some p)
  if from_ = p then s
  else ((s.plot from_).window.filterMap id).foldl (fun s h =>
    if !mine h then s
    else match (s.plot p).accept h with
      | none => s
      | some win => modPlot p (fun q => { q with window := win }) (modPlot from_ (fun q => { q with
          window := q.window.map fun w => if w = some h then none else w }) s)) s

/-- Sequences and searches of a context that stood on a plot, or that stand on none, stand on this one now (R392); the blocks in the slots of
a plot that it was swapped out of move with it. -/
def rehome (n p : Nat) (from_ : Option Nat) (s : State) : State :=
  let lost := fun (q : Nat) => decide (some q = from_) || (decide (from_ = none) && !s.hasPlace n q)
  moveBlocks n (from_.getD p) p { s with
    runs := s.runs.map fun r => if r.ctx = n then { r with seqs := r.seqs.map fun q => if lost q.plot then { q with plot := p } else q } else r
    searches := s.searches.map fun q => if q.key.context = some n ∧ lost q.plot then { q with plot := p } else q }

/-- A context becomes resident on a plot. -/
def join (p : Nat) (r : Resident) (s : State) : State :=
  modPlot p (fun q => { q with residents := q.residents ++ [r], claims := q.claims.filter fun m => decide (m ≠ r.ctx), moverAt := s.now }) s

/-- The contexts that the plot has been given join, as there is room; one whose work has gone does not (R123). -/
def admitClaims (p : Nat) (s : State) : State :=
  (s.plot p).claims.foldl (fun s n =>
    match kvGet n s.contexts with
    | none => modPlot p (fun q => { q with claims := q.claims.filter fun m => decide (m ≠ n) }) s
    | some x =>
      if !s.hasWork n ∨ (s.plot p).holds n then modPlot p (fun q => { q with claims := q.claims.filter fun m => decide (m ≠ n) }) s
      else if (s.plot p).room x.sramKib then rehome n p none (join p (x.resident n s.now) s)
      else s) s

/-- A context that waits outside is taken up: swapped in when it has an image, at once when it has none (R132, R139, R141). -/
def startIn (p : Nat) (s : State) : State :=
  if (s.plot p).swap.isSome ∨ (s.plot p).claims ≠ [] ∨ (s.plot p).role ≠ .active ∨ (s.plot p).logical = none ∨ (s.plot p).parked then s
  else match s.nextIn p with
    | none => s
    | some i =>
      if i.saved then modPlot p (fun q => { q with swap := some ⟨i.ctx, false, i.cause, s.now, i.plot⟩ }) s
      else match kvGet i.ctx s.contexts with
        | none => s
        | some x => rehome i.ctx p (some i.plot) (join p (x.resident i.ctx s.now) (modPlots (fun y => { y with images := y.images.erase i }) s))

/-- A settling pass takes a plot that no interactive work holds, on at most 8 plots, and not under pressure, unless an INSERT is held on its index (R135,
R303). -/
def takePass (p : Nat) (s : State) : State :=
  let busy := (s.plots.list.filter fun q => q.2.residents.any fun r => decide (r.cls = .housekeeping)).length
  match s.indexes.find? fun x => x.2.pass.isSome && decide (s.plotsHeld (1024 + x.1) = 0) && (!s.pressure || s.insertHeld x.1) with
  | none => s
  | some x =>
    if 8 ≤ busy ∨ s.heldInteractive (s.plot p) ∨ (s.plot p).role ≠ .active ∨ (s.plot p).parked ∨ !(s.plot p).room 0 then s
    else join p ⟨1024 + x.1, .housekeeping, 0, 2000, 2000, false, 0, s.now, false, none⟩ s

/-- A parked plot is released at its boundary: its residents leave it with their images in the Landing, and what it had been given goes to
other plots (R131, R477). One inside an atomic section stays until its end (R140). -/
def vacate (p : Nat) (busy : Option Nat) (s : State) : State :=
  if !(s.plot p).parked then s
  else (s.plot p).residents.foldl (fun s r =>
    if busy = some r.ctx ∨ (s.sectionOn p r.ctx ∧ !(s.blockedOn p r.ctx).any (·.outside)) then s
    else
      let i : Image := ⟨r.ctx, p, s.now, r.blocked, none, true, r.leftUs, r.remainder, r.owedUs, (s.plot p).tiles.filter fun t => decide (t.ctx = r.ctx)⟩
      let s := modPlots (fun x => { x with images := if s.hasWork r.ctx then x.images ++ [i] else x.images }) s
      leavePlot p r.ctx s) (modPlot p (fun q => { q with claims := [], swap := none }) s)

/-- A plot with nobody on it, and given to nobody, goes to a context whose work wants more plots than it has, within its share: the
lowest-numbered such context (R131, log entry 189). -/
def offer (p : Nat) (s : State) : State :=
  let q := s.plot p
  if q.residents ≠ [] ∨ q.claims ≠ [] ∨ q.swap.isSome ∨ q.role ≠ .active ∨ q.logical = none ∨ q.parked then s
  else
    let wants := fun (n : Nat) (x : Ctx) =>
      let placed := (s.workPlots.filter (s.hasPlace n)).length
      s.hasWork n && s.runnable n && decide (0 < placed) && decide (placed < min x.want (s.plotLimit n x)) && !s.hasPlace n p &&
        (decide (x.cls ≠ .interactive) || decide (s.interactivePlots < 128))
    match s.contexts.find? fun c => wants c.1 c.2 with
    | none => s
    | some c => claim c.1 c.2.sramKib s p

/-- What a boundary on a plot changes of its residents (R123). -/
def settleResidents (p : Nat) (busy : Option Nat) (s : State) : State :=
  let s := refreshImages (modPlots (fun x => { x with images := x.images.filter fun i => s.hasWork i.ctx }) s)
  refresh p (takePass p (startIn p (admitClaims p (offer p (startOut p busy (refresh p (applyQuotas p busy (vacate p busy (dropGone p busy s)))))))))

/-- A plot on which nothing runs stands at a boundary (log entry 146). -/
def settleIdle (p : Nat) (s : State) : State :=
  if (s.plot p).running.isNone then choose p (settleResidents p none s) else s

/-- The placement engine gives a context the plots it needs, within its limits: plots with nobody on them first, then those with room,
then, for interactive work, those that batch residents can be swapped out of; and of interactive work at most 128 (R19, R131, R137). A
batch context for which no plot has room waits outside. -/
def seat (n want : Nat) (s : State) : State :=
  match kvGet n s.contexts with
  | none => s
  | some x =>
    let s := modCtx n (fun x => { x with lastRun := s.now, want := max x.want want }) s
    let x := { x with want := max x.want want }
    let plots := s.workPlots
    let placed := (plots.filter (s.hasPlace n)).length
    let open_ := plots.filter fun p => !s.hasPlace n p && s.roomOn p x.sramKib
    let full := if x.cls = .interactive then
        plots.filter fun p => !s.hasPlace n p && !s.roomOn p x.sramKib && (s.victims p x.sramKib 5 (s.plot p).staying).isSome
      else []
    let order := (open_.filter fun p => decide ((s.plot p).residents = [])) ++ (open_.filter fun p => decide ((s.plot p).residents ≠ [])) ++ full
    let k := min want (s.plotLimit n x) - placed
    let mine := s.takePlots order k (if x.cls = .interactive then 128 - s.interactivePlots else 272)
    let s := mine.foldl (fun s p => settleIdle p (claim n x.sramKib s p)) s
    if mine = [] ∧ placed = 0 ∧ x.cls = .batch ∧ !(s.plots.images.any fun i => decide (i.ctx = n)) then
      modPlots (fun q => { q with images := q.images ++ [⟨n, plots.headD 0, s.now, false, none, false, x.sliceUs, false, 0, []⟩] }) s
    else s

/-- A context that was blocked can run: its residents become runnable, and a plot with nothing running takes it (R133). One that waits
outside is runnable there, and a plot on which nothing runs makes room for it (R141). -/
def wakeCtx (ctx : Nat) (s : State) : State :=
  let s := (s.plotsOf ctx).foldl (fun s p => settleIdle p (refresh p s)) s
  if s.plots.images.any fun i => decide (i.ctx = ctx) then
    ((s.plots.list.filter fun p => p.2.running.isNone).map (·.1)).foldl (fun s p => settleIdle p s) (refreshImages s)
  else s

/-- The end of a tile instruction or engine step that ran for some µs on a plot: the oldest that is in flight has ended; its time is
charged, the slice shrinks, and what an atomic section overran it by is owed (R123, R132, R144). -/
def endInstr (p n ranUs : Nat) (s : State) : State :=
  let atomic := s.sectionOn p n
  let s := account (some n) (fun c => { c with plotUs := c.plotUs + ranUs }) s
  modPlot p (fun q => { q with
    flights := q.flights.drop 1
    moverAt := s.now
    residents := q.residents.map fun r => if r.ctx = n then
        { r with leftUs := r.leftUs - ranUs, owedUs := if atomic ∧ r.cls = .batch then r.owedUs + (ranUs - r.leftUs) else r.owedUs }
      else r }) s

/-- The running context at a boundary: it goes on, unless it is blocked or gone, or an interactive resident takes the plot from work that
is not, outside its atomic sections; what is left of its slice is then a remainder (R132 to R134, R136, R144). -/
def keepOrChoose (p n : Nat) (s : State) : State :=
  let q := s.plot p
  match q.residents.find? fun r => decide (r.ctx = n) && !r.blocked && decide (q.running = some n) && decide (n ≠ 65535) with
  | none => choose p s
  | some r =>
    if r.cls ≠ .interactive ∧ !s.sectionOn p n ∧ q.residents.any (fun r => decide (r.cls = .interactive) && !r.blocked) then
      choose p (modResident p n (fun r => { r with remainder := decide (r.cls = .batch) && decide (0 < r.leftUs) }) s)
    else modCtx n (fun x => { x with lastRun := s.now }) s

/-- The work that runs on a plot has to make place at its next boundary: its slice has run, or an interactive resident can run; not in an
atomic section. Nothing more of it issues (R132, R133, R136, R144). -/
def State.yields (s : State) (p n : Nat) : Bool :=
  let q := s.plot p
  !s.sectionOn p n && q.residents.any fun r => decide (r.ctx = n) && decide (r.cls ≠ .interactive) &&
    (decide (r.leftUs = 0) || q.residents.any fun i => decide (i.cls = .interactive) && !i.blocked)

/-- A boundary on a plot. While instructions are in flight on its other units the plot keeps its running context (R123, R136). -/
def boundary (p ranUs : Nat) (s : State) : State :=
  match (s.plot p).running with
  | none => settleIdle p s
  | some n =>
    let s := endInstr p n ranUs s
    if (s.plot p).flights ≠ [] then settleResidents p (some n) s else keepOrChoose p n (settleResidents p none s)

/-- A batch context that waits outside the plot, has been runnable for longer than one slice, and would fit beside some residents: the one
that has waited longest (R132). -/
def State.waiting (s : State) (p : Nat) (rs : List Resident) : Option Image :=
  (s.plots.images.filter fun i => !i.blocked && !s.coming i && (s.blockedOn i.plot i.ctx).isNone && !(s.plot p).holds i.ctx &&
    s.roomBeside rs (s.plot p).claims (s.quotaKib i.ctx) &&
    (kvGet i.ctx s.contexts).any fun x => s.since i.since (x.sliceUs * countsUs)).foldl
    (fun (best : Option Image) i => match best with
      | none => some i
      | some b => if i.since < b.since then some i else best) none

/-- A slice ends at a boundary: its context goes to the end of the turn with a new slice, less what it owes; a context that has waited
outside for longer than a slice replaces it; and the next in turn runs (R132, R144). -/
def sliceEnd (p : Nat) (s : State) : State :=
  let q := s.plot p
  match q.running with
  | none => s
  | some n => match q.residents.find? fun r => decide (r.ctx = n) with
    | none => s
    | some r =>
      if r.cls = .interactive ∨ 0 < r.leftUs ∨ s.sectionOn p n ∨ q.flights ≠ [] then s
      else
        let rest := q.staying.filter fun x => decide (x.ctx ≠ n)
        let out := decide (r.cls = .batch) && (s.waiting p rest).isSome
        let owed := min r.owedUs r.sliceUs
        let r' := { r with leftUs := r.sliceUs - owed, owedUs := r.owedUs - owed, remainder := false, out := if out then some none else r.out }
        let s := modPlot p (fun q => { q with residents := (q.residents.filter fun x => decide (x.ctx ≠ n)) ++ [r'] }) s
        choose p (settleResidents p none s)

/- Swaps (R138, R139, R141, R324) -/

/-- Bytes of a context's accumulator image on a plot: 8 for each pair of its open groups (R139, R321, R324). -/
def State.imageBytes (s : State) (p n : Nat) : Nat :=
  ((s.seqsOn p n).map fun x => ((x.1.seq x.2).groups.map fun g => 8 * g.2.pairs.length).sum).sum

/-- A swap ends on a plot: a boundary, at which nothing that runs an instruction changes (R123, R136). -/
def swapSettle (p : Nat) (s : State) : State :=
  match (s.plot p).running with
  | none => settleIdle p s
  | some n => settleResidents p (some n) s

/-- A swap-out ends: the modified tiles and the accumulator image are in the Landing, the time charged to the cause (R138), the bytes to
the context; the place is free for the context that caused it, or for the one that has waited longest (R139, R141). -/
def swapOutEnd (p : Nat) (s : State) : State :=
  let q := s.plot p
  match q.swap, q.swap.bind fun w => q.residents.find? fun r => decide (r.ctx = w.ctx) with
  | some w, some r =>
    if !w.out then s
    else
      let us := (s.now - w.began) / countsUs
      let i : Image := ⟨w.ctx, p, s.now, r.blocked, w.cause, true, r.leftUs, r.remainder, r.owedUs, q.tiles.filter fun t => decide (t.ctx = w.ctx)⟩
      let s := account (some (w.cause.getD w.ctx)) (fun c => { c with plotUs := c.plotUs + us }) s
      let s := leavePlot p w.ctx (chargeLanding w.ctx (s.imageBytes p w.ctx) s)
      swapSettle p (modPlots (fun x => { x with images := if s.hasWork w.ctx then x.images ++ [i] else x.images }) (modPlot p (fun q => { q with swap := none, moverAt := s.now }) s))
  | _, _ => s

/-- A swap-in ends: the context is resident again with its tiles, its groups and the rest of its slice, where there is still room for it;
its other images stay (R130, R134, R139, R145). -/
def swapInEnd (p : Nat) (s : State) : State :=
  let q := s.plot p
  match q.swap with
  | none => s
  | some w =>
    if w.out then s
    else
      let us := (s.now - w.began) / countsUs
      let s := modPlot p (fun q => { q with swap := none }) (account (some (w.cause.getD w.ctx)) (fun c => { c with plotUs := c.plotUs + us }) s)
      match kvGet w.ctx s.contexts, s.plots.images.find? fun i => decide (i.ctx = w.ctx) && decide (i.plot = w.img) && i.saved with
      | some x, some i =>
        if !q.room x.sramKib ∨ q.holds w.ctx then swapSettle p s
        else
          let bytes := (i.tiles.map (·.bytes)).sum + s.imageBytes i.plot w.ctx
          let r := { x.resident w.ctx s.now with leftUs := i.leftUs, remainder := i.remainder, owedUs := i.owedUs }
          let s := modPlots (fun y => { y with images := y.images.erase i }) (chargeLanding w.ctx bytes s)
          let s := modPlot p (fun q => { q with tiles := q.tiles ++ i.tiles.map fun t => { t with ready := true, modified := false } }) (join p r s)
          swapSettle p (rehome w.ctx p (some i.plot) s)
      | _, _ => swapSettle p s

/- Retirement in service (R337 to R340) -/

/-- The command whose work stands on a plot: a run with a sequence there, or a search; else the context's first live command of the work
queue, when no run or search of it stands elsewhere. -/
def State.workOn (s : State) (p n : Nat) : Option CmdKey :=
  (((s.seqsOn p n).head?.map fun x => x.1.key).or
    ((s.searches.find? fun q => decide (q.key.context = some n) && decide (q.plot = p)).map (·.key))).or
    ((s.cmds.find? fun c => decide (c.key.context = some n) && decide (c.key.queue = .work) && c.live &&
      !(s.runs.any fun r => decide (r.key = c.key)) && !(s.searches.any fun q => decide (q.key = c.key))).map (·.key))

/-- A plot in service is retired: it stops, the contexts resident on it are torn down, and its number waits for a spare
(R338). -/
def retirePlot (p cause : Nat) (s : State) : State :=
  let q := s.plot p
  if q.role ≠ .active then s
  else
    let s := q.residents.foldl (fun s r => tearDown r.ctx stPlotRetired (s.workOn p r.ctx) s) s
    modPlot p (fun q => { q with
      role := .retired, logical := none, vacating := q.logical, cause := cause, residents := [], running := none, claims := [], swap := none
      tiles := [], flights := [], shadow := [none, none], parked := false }) s

/-- Keeper counts of 28,000 plot cycles at a clock step: 40 µs at 700 MHz (Table 10-6, Table 10-11). -/
def hangCounts (clock : Nat) : Nat := 28000 * countsUs / (match clock with
  | 0 => 700
  | 1 => 525
  | 2 => 350
  | _ => 175)

/-- An instruction or engine step has not ended 28,000 cycles after its issue (Table 10-6). -/
def execPlotHang (plot : Nat) (s : State) : Out :=
  .next (if plot < 272 ∧ (s.plot plot).flights.any (fun f => s.since f.at_ (hangCounts (s.clockOf plot))) then retirePlot plot 2 s else s)

/-- The mover or the mesh port has not answered for 100 µs (Table 10-6). -/
def execMoverTimeout (plot : Nat) (s : State) : Out :=
  .next (if plot < 272 ∧ s.since (s.plot plot).moverAt (100 * countsUs) then retirePlot plot 5 s else s)

/-- ARGS of PLOT_REPLACED and PLOTS_REDUCED (R339). -/
def plotArgs (s : State) (logical spare cause : Nat) : List Byte :=
  evArgs [(20, 2, logical), (22, 2, spare), (24, 1, cause), (25, 1, s.sparePlots), (26, 2, s.activePlots)]

/-- After the teardowns, an unused spare takes the retired plot's number, or the number stays vacant (R338, R339). -/
def execSparePlotTakeover (plot : Nat) (s : State) : Out :=
  .next (
    let q := s.plot plot
    match q.vacating with
    | none => s
    | some l =>
      if 272 ≤ plot then s
      else
        let s := writeRoot (modPlot plot (fun q => { q with vacating := none }) s)
        match s.sparePlot with
        | some p =>
          let s := modPlot p (fun x => { x with role := .active, logical := some l, moverAt := s.now }) s
          settleIdle p (raise 0x0201 1 3 plot 0xFFFF (plotArgs s l p q.cause) s)
        | none => raise 0x0202 2 3 plot 0xFFFF (plotArgs s l 0xFFFF q.cause) s)

/- The exchange window (R36, R325) -/

/-- A hand-on block as it stands in a slot (Table 10-4). -/
def HandOn.bytes (h : HandOn) : List Byte :=
  let head := leBytes 4 h.chain ++ leBytes 2 h.from_ ++ leBytes 2 h.block ++ leBytes 2 h.pairs.length ++
    leBytes 1 (b2n h.last + 2 * b2n h.peer) ++ zeros 5 ++ leBytes 8 h.step
  head ++ leBytes 4 h.crc ++ zeros 36 ++ h.pairs.flatMap fun p => leBytes 4 p.1 ++ leBytes 4 p.2

/-- The CRC of a block: over the pairs, seeded with that of header bytes 0 to 23 (Table 10-4). -/
def HandOn.check (h : HandOn) : Nat :=
  let b := h.bytes
  crcFrom (crc32c (b.take 24)) (b.drop 64)

/-- One 64-byte line of a plot's exchange window: two slots of 64 KiB; an empty slot reads 0 (R325). -/
def Plot.windowLine (p : Plot) (line : Nat) : List Byte :=
  match p.window.getD (line / 1024) none with
  | none => zeros 64
  | some h => fit (slice h.bytes (64 * (line % 1024)) 64) 64

/-- A line of a plot's exchange window whose check has failed, as the SRAM line it is: the window lies above the 2,944 KiB of context
tiles (R25, R55). -/
def windowSram (plot line : Nat) : Line := .sram plot (47104 + line)

/-- A host peek reads one line, checked as every SRAM line is: one whose check has failed is not read, and the peek gets no bytes
(R15, R36, R55). A line or a plot that does not exist stops (R25). -/
def execHostPeek (plot line : Nat) (s : State) : Out :=
  if plot < 272 ∧ line < 2048 then
    .next (if s.landing.faults.any fun f => decide (f.line = windowSram plot line) then s
      else { s with wire := .peek plot line ((s.plot plot).windowLine line) :: s.wire })
  else .fault .noSuchLine

end Sys2Proof.Machine
end

