-- ==== Sys2Proof/Machine/Flush.lean ====
section
/-!
DEFINITION. Machine/Flush.lean: the hold-up flush (R208), what stops with the module, and what is left in it when every part except
the keeper is in reset or off (chapters 6, 17 and 18).
-/

namespace Sys2Proof.Machine

open Sys2Proof

/- The hold-up flush (R207, R208) -/

/-- Every entry now in the journal becomes durable: the flush programs stripe after stripe. -/
def flushStripes : Nat → State → State
  | 0, s => s
  | n + 1, s => let s := beginJournal s; match s.journalLine with
    | none => s
    | some l => flushStripes n (closeLine l s)
def flushJournal (s : State) : State := flushStripes (s.media.journal.length / 4096 + 2) s

/-- Where the n-th unit of a flush goes: the bands in turn, and in each its data members in order; the first stripe of the first band
holds the manifest (R208). -/
def flushPlace (bands : List (Nat × List Nat)) (n : Nat) : Option MediaAddr :=
  match bands[n % bands.length]? with
  | none => none
  | some (k, sieves) =>
    let t := n / bands.length
    let page := t / (sieves.length - 1) + (if n % bands.length = 0 then 1 else 0)
    (stripePlaces k page sieves)[t % (sieves.length - 1)]?

/-- One unit is written to its place in the reserve, its new map entry journaled. A slot that a later write has replaced needs no
place. -/
def flushUnit (bands : List (Nat × List Nat)) (n : Nat) (x : Nat × Slot) (s : State) : State :=
  match flushPlace bands n with
  | none => s
  | some a =>
    if s.entry x.2.vol x.2.unit ≠ some (.buffer x.1) then s
    else
      let now := s.now
      let s := putMember a ⟨1, x.2.vol, x.2.unit, (s.band a.bandKey).seq, .data, 0⟩ x.2.data s
      let s := modHealth (fun h => { h with mediaWritten := satAdd 64 h.mediaWritten 1 }) s
      let s := modBand a.bandKey (fun b => { b with held := (b.held ++ [x.2.vol]).eraseDups, filled := max b.filled (a.page + 1), progAt := kvSet a.page now b.progAt }) s
      journal (.map x.2.vol x.2.unit (some (.media a)) (some (.buffer x.1)) (some x.1)) s

/-- The flush manifest is written to the first stripe of the reserve (R208). -/
def flushManifest (bands : List (Nat × List Nat)) (us : List ManifestUnit) (s : State) : State :=
  match bands.head? with
  | none => s
  | some (k, _) =>
    let items := (List.range (ceilDiv us.length 8192)).map fun i =>
      (⟨5, 255, i, 0, .manifest ((us.drop (8192 * i)).take 8192), 0⟩ : Member)
    writeLine k 0 (items.map fun x => (x, [])) 0 s

/-- WRITEs not acknowledged leave the old content of every unit that they had not made durable (R231), and INSERTs none of their entries (R302). -/
def dropUnacked (s : State) : State :=
  let s := s.cmds.foldl (fun s c => match c.phase with
    | .waiting (.durable slots) => if slots.any fun n => (kvGet n s.media.slots).isSome then undoInsert c s else s
    | _ => s) s
  ((s.media.slots.filter fun x => !x.2.acked).map fun x => x.2.writer).foldl (fun s k => dropPlaced k s) s

/-- The media stop: no read, erase or program goes on (R173, R208). -/
def Media.halted (m : Media) : Media :=
  { m with
    check := none, slots := [], copies := [], lines := [], journal := [], reads := [], streams := [], flushAll := false
    dies := m.dies.map fun d => (d.1, { d.2 with op := .idle, erasePrio := false, line := none, erasing := none }) }

/-- The cause that a unit of the flush is to be recorded with (R209): a sieve lost during the flush on which its stripe has a member keeps that stripe
from closing. -/
def State.flushCause (s : State) (bands : List (Nat × List Nat)) (n sieve : Nat) : Nat :=
  match flushPlace bands n with
  | none => 1
  | some a => if (s.band a.bandKey).sieves.contains sieve then 4 else 1

/-- The hold-up flush (R173, R208): reads and erases stop and every program runs to its end; the manifest and every acknowledged unit that
is not durable go to the reserve; their new entries are journaled, and FLUSH_DONE. `lost` names the write-buffer slots that did not become
durable, each with the sieve lost during the flush, or a number above 15 (R209). A locked module withholds every unit and writes no FLUSH_DONE
(R512). -/
def holdupFlush (lost : List (Nat × Nat)) (s : State) : State :=
  let s := s.media.lines.foldl (fun s l => closeLine l s) s
  let s := dropUnacked (flushJournal s)
  let units := (s.media.slots.filter fun x => x.2.acked && decide (s.entry x.2.vol x.2.unit = some (.buffer x.1))).zipIdx
  let withheld := !s.keysPresent
  let failed := fun (n : Nat) => lost.find? fun l => decide (l.1 = n)
  let write := if withheld then [] else units.filter fun x => (failed x.1.1).isNone
  let bands := if units = [] then [] else s.media.reserve.map fun k => (k, s.rowSieves (k / 2800))
  let s := bands.foldl (fun s b => openBand b.1 .reserve s) s
  let s := flushManifest bands (units.map fun x => ⟨x.1.2.vol, x.1.2.unit, x.1.2.ctx, withheld⟩) s
  let s := flushJournal (write.foldl (fun s x => flushUnit bands x.2 x.1 s) s)
  let keep := units.filterMap fun x =>
    if s.entry x.1.2.vol x.1.2.unit ≠ some (.buffer x.1.1) then none
    else some (x.1.2.vol, x.1.2.unit, if withheld then 6 else ((failed x.1.1).map fun l => s.flushCause bands x.2 l.2).getD 1)
  let done := !(withheld && !units.isEmpty) && decide (keep = [])
  let s := if done then flushJournal (journal .flushDone s) else s
  modMedia (fun m => { m.halted with manifest := m.manifest ++ keep, flushDone := done }) s

/-- The die stops without a flush (R546): what stood only in the open journal stripe reverts, and each unit that the map shows in
the write buffer, with a durable entry, is to be recorded with cause 0x05. -/
def loseBuffer (s : State) : State :=
  let s := (s.media.journal ++ (s.media.lines.flatMap WordLine.entries).reverse).foldl (fun s e => match e with
    | .map _ _ _ _ (some _) => s
    | .map o u new old none => if s.entry o u = new then modMedia (setEntry o u old) s else s
    | .band k .free _ => modBand k (fun b => { b with state := .erasing }) s
    | .band _ _ _ => s
    | .tomb i n => { s with indexes := kvMod i (fun x => { x with nodes := kvMod n (fun d => { d with tomb := d.tomb && d.removed }) x.nodes }) s.indexes }
    | .pass i linked tombs => { s with indexes := kvMod i (Index.unpublished linked tombs) s.indexes }
    | .flushDone => s) s
  let s := dropUnacked s
  let keep := s.media.map.filterMap fun e => match e.2 with
    | .buffer _ => some (e.1 / 2 ^ 40, e.1 % 2 ^ 40, 5)
    | _ => none
  modMedia (fun m => { m.halted with manifest := m.manifest ++ keep, flushDone := false }) s

/- What is left when every part except the keeper is in reset (R527, R542) -/

/-- A die, out of use. -/
def Die.stopped (d : Die) : Die :=
  { d with op := .idle, erasePrio := false, line := none, erasing := none, role := if d.role = .unresponsive then d.was else d.role }

/-- The media: what is on flash stays; the SVE registers take their values after reset, and the map cache is empty. The contexts have gone, and with
them the bindings of deferred errors to them (R98, Table 3-8). -/
def Media.stopped (m : Media) : Media :=
  { m with
    sieves := m.sieves.map fun v => { v with lane0 := false, lane1 := false, keys := [] }
    dies := m.dies.map fun d => (d.1, d.2.stopped)
    reads := [], streams := [], report := none, segments := [], delta := []
    wbHighPct := 75, retryMax := 7, corrHigh := 160, readsAround := 0, progSuspends := 0, eraseSuspends := 0, retried := 0
    soft := 0, rebuildFailed := 0, uncorrectable := 0, dieSel := 0, chkMismatch := 0, chkRepaired := 0
    deferred := m.deferred.map fun d => { d with ctx := 0xFFFF } }

/-- A plot: its role, its number and its marks are in the configuration records (R335, R336, R551). -/
def Plot.stopped (p : Plot) : Plot :=
  { p with
    parked := false, residents := [], running := none, claims := [], swap := none, tiles := [], flights := []
    window := [none, none], shadow := [none, none], bucket := Bucket.reset }

def Plots.stopped (x : Plots) : Plots :=
  { Plots.reset with list := x.list.map fun p => (p.1, p.2.stopped), extended := x.extended, soundMs := x.soundMs, soundFailed := x.soundFailed }

/-- A model slot: the image stays stored (R399). -/
def Model.stopped (m : Model) : Model :=
  { m with state := if m.state = .empty then .empty else .stored, homeKib := 0, windowKib := 0, ending := none, lost := [] }

/-- The links: spares in use, failed lanes, enablements and the domain are kept (R448, R453, R462). -/
def Links.stopped (l : Links) : Links :=
  { Links.reset with
    domain := l.domain
    lanes := l.lanes.map fun q => (q.1, { q.2 with
      state := .down, crossing := none, peerPos := none, peerSerial := 0, peerDomain := 0, uncorr := 0, crcFail := 0, fails := 0
      tried := 0, role := if q.2.role = .active ∨ q.2.role = .standby then .untrained else q.2.role })
    crossings := l.crossings.map fun c => (c.1, { c.2 with
      state := .awaiting, width := 0, standby := 0, peerStep := 0, peerCause := 0, peerDomain := 0, txSeq := 0, rxSeq := 0
      unacked := [], queue := [], credits := [1024, 1024, 1024], freedSeen := [0, 0, 0], freed := [0, 0, 0], transfers := []
      slotsSeen := [], slotsFree := [], lastValid := 0, lastSent := 0, lastEvent := 0, nakked := false }) }

/-- The vault is volatile: K and the module keys go, and so do a challenge, a hold-off and unfinished staging (R26, R502, R507). -/
def Security.stopped (x : Security) : Security :=
  let f := fun (w : FwSlot) => if w.state = .staging then FwSlot.empty else w
  { x with
    unlocked := false, kek := [], vault := [], moduleKeys := false, challenge := none, fails := 0, holdoffEnd := 0, wipes := 0, vaultFaults := 0
    slot0 := f x.slot0, slot1 := f x.slot1, recovery := false }

/-- Every part except the keeper is in reset: what is kept across resets stays, everything else takes its value after reset. -/
def stopParts (s : State) : State :=
  { State.reset with
    pending := s.pending, part := s.part, serial := s.serial, slotAddr := s.slotAddr, keeper := s.keeper, nextOrder := s.nextOrder
    nextReply := s.nextReply, events := s.events, wire := s.wire
    landing := { Landing.reset with retired := s.landing.retired, memLog := s.landing.memLog, lineEvents := s.landing.lineEvents, lastLeak := s.now }
    media := s.media.stopped
    indexes := s.indexes.map fun x => (x.1, x.2.dormant)
    plots := s.plots.stopped
    models := s.models.map fun m => (m.1, m.2.stopped)
    links := s.links.stopped
    power := { Power.reset with capW := s.power.capW, temps := s.power.temps, inputW := s.power.inputW, parts := s.power.parts }
    acct := { s.acct with drift := false, calFault := false, calibrating := false, disagree := 0, above := 0, below := 0, calFaults := 0, drifts := 0 }
    sec := s.sec.stopped
    sympathetic := s.sympathetic, starts := s.starts, cold := s.cold, free := s.free }

/-- The module goes down: DOWN is sent on every up crossing, the hold-up flush runs, no reply is sent, and every part except the
keeper stops (Tables 18-7 and 18-8). The _HI halves that the ports had latched go with their sessions, and those of the management port
stay with the keeper (DESIGN CHOICE, log entry 178). -/
def goDownWith (flush : State → State) (stage cause : Nat) (s : State) : State :=
  let s := stopParts (flush (sendAll [8] s))
  modKeeper (fun k => { k with
    moduleGood := false, stage := stage, idnAt := if stage = 7 then 0 else k.idnAt, nextCause := cause, hiLatch := k.hiLatch.filter fun h => decide (h.1 = 2) }) s

/-- A stop with the hold-up flush. -/
def stopModule (stage cause : Nat) (lost : List (Nat × Nat)) (s : State) : State := goDownWith (holdupFlush lost) stage cause s

end Sys2Proof.Machine
end

