-- ==== Sys2Proof/Machine/PowerOps.lean ====
section
/-!
DEFINITION. Machine/PowerOps.lean: the CAUSE bits in force and what a change of them, or of the lowest clock step, leads to (R468,
R470, R474, R480, R481).
-/

namespace Sys2Proof.Machine

open Sys2Proof

/-- A plot runs below its own limits on a peer's account (R470). -/
def State.sympathyOn (s : State) : Bool :=
  s.sympathetic && (List.range 272).any fun p => decide (0 < s.sympathyStep (s.plot p))

/-- The CAUSE bits in force (Table 15-2, R481): THROTTLE_N, thermal, a cap in force below 700 W or a plot stepped by the power loop,
sympathetic. -/
def State.causeBits (s : State) : Nat :=
  let stepped := s.power.limits.any fun l => decide (l = .batchStep) || decide (l = .interactiveStep)
  b2n s.keeper.throttle.asserted + 2 * b2n (s.power.warning || decide (s.power.limitW < 1250)) +
    4 * b2n (decide (s.capInForce < 700) || stepped) + 8 * b2n s.sympathyOn

/-- THROTTLED's argument bytes (R481). -/
def throttledArgs (s : State) : List Byte := evArgs [(20, 1, s.stepMin), (21, 1, s.power.cause), (22, 2, s.capInForce)]

/-- A change of the CAUSE bits raises THROTTLED; a change of them or of the lowest clock step is announced to every peer; commands
outstanding while a bit is set carry TH; and the promise lapses where its conditions fail (R153, R468, R481). -/
def settlePower (old : State) (s : State) : State :=
  let cause := s.causeBits
  let s := modPower (fun p => { p with cause := cause }) s
  let changed := decide (cause ≠ old.power.cause)
  let s := if changed then raise 0x0501 (if cause = 0 then 0 else 1) 0 0 0xFFFF (throttledArgs s) s else s
  let s := if changed ∨ s.stepMin ≠ old.stepMin then sendAll [4, s.stepMin, cause] { s with links := { s.links with lastThrottle := s.now } } else s
  markThrottled (lapsePromise s)

end Sys2Proof.Machine
end

