-- ==== Sys2Proof/Machine/Start.lean ====
section
/-!
DEFINITION. Machine/Start.lean: tampers, and the start of the module: boot, bring-up, sounding, media recovery and self-test, up to the
release of MODULE_GOOD (chapters 5, 6, 10, 17 and 18).
-/

namespace Sys2Proof.Machine

open Sys2Proof

/- Tampers (R26, R512) -/

/-- The vault is wiped: K and the module keys go; the module keys are regenerated at once while the module runs (R498, R513). -/
def wipeVault (s : State) : State :=
  let s := modSec (fun x => { x with unlocked := false, kek := [], vault := [], moduleKeys := decide (s.keeper.stage = 5) || decide (s.keeper.stage = 8) }) s
  modMedia (fun m => { m with sieves := m.sieves.map fun v => { v with keys := [] } }) s

/-- A tamper of a cause bit: the vault is wiped and TAMPER raised, in every life-cycle state (R512). -/
def tamper (cause : Nat) (s : State) : State :=
  let had := s.keysPresent
  let s := wipeVault s
  let s := modSec (fun x => { x with
    tamperBits := Nat.lor x.tamperBits (2 ^ cause), tampers := satAdd 16 x.tampers 1, wipes := satAdd 16 x.wipes 1 }) s
  raise 0x0602 3 6 (2 ^ cause) 0xFFFF (evArgs [(20, 1, s.sec.life.code), (21, 1, b2n had)]) s

/- Boot (R499 to R504) -/

/-- A firmware slot by number, and one changed. -/
def State.fwSlot (s : State) (n : Nat) : FwSlot := if n = 0 then s.sec.slot0 else s.sec.slot1
def modFw (n : Nat) (f : FwSlot → FwSlot) (s : State) : State :=
  modSec (fun x => if n = 0 then { x with slot0 := f x.slot0 } else { x with slot1 := f x.slot1 }) s

/-- The boot ROM accepts a slot (R499). -/
def State.accepts (s : State) (env : StartEnv) (n : Nat) : Bool :=
  let w := s.fwSlot n
  (decide (w.state = .valid) || decide (w.state = .trialPending)) && !bit env.slotsBad n && !bit s.sec.revoked w.keyIndex &&
    decide (s.sec.rollback ≤ w.svn) && (decide (w.serial = 0) || decide (w.serial = s.serial)) &&
    (!bit w.flags 0 || decide (s.sec.life = .service))

/-- The slot that this start tries first as a trial: the pending one, unless the last start was its trial (R504). -/
def State.trialSlot (s : State) : Option Nat :=
  if s.sec.trial then none else [0, 1].find? fun n => decide ((s.fwSlot n).state = .trialPending)

/-- The slot that boots (R500, R504). -/
def State.bootSlot (s : State) (env : StartEnv) : Option Nat :=
  ((match s.trialSlot with
    | some n => [n]
    | none => []) ++ [s.sec.preferred, 1 - s.sec.preferred]).find? (s.accepts env)

/-- The 32 bytes of a 256-bit value. -/
def bytes256 (v : BitVec 256) : List Byte := leBytes 32 v.toNat

/-- The ROM's part of a start: the slot, the measurement and the module keys, and whether a slot was accepted. A trial that was not
confirmed is over (R501, R504). -/
def boot (env : StartEnv) (s : State) : State × Bool :=
  let trial := s.trialSlot
  let spent := fun (w : FwSlot) => if s.sec.trial ∧ w.state = .trialPending then { w with state := .valid } else w
  let slot := s.bootSlot env
  let s := modSec (fun x => { x with
    slot0 := spent x.slot0, slot1 := spent x.slot1, life := if x.retiredFuse then .retired else x.life, trial := false
    measure := zeros 32, moduleKeys := true }) s
  match slot with
  | none => (s, false)
  | some n => (modSec (fun x => { x with
      booted := n, trial := decide (trial = some n), recovery := false, measure := sha256 (zeros 32 ++ (s.fwSlot n).hdrHash) }) s, true)

/-- A start halts with a fault (R534). Recovery mode is the halt with 0x01 (R501). The IDN registers read as R11 says. -/
def halt (fault : Nat) (s : State) : State :=
  modSec (fun x => { x with recovery := decide (fault = 1) })
    (modKeeper (fun k => { k with
      stage := 8, startFault := fault, idnAt := if fault = 1 then 1 else if fault = 3 then 3 else 2 }) s)

/- Bring-up (R28, R157, R177, R557) -/

/-- Stacks, sieves and dies are brought up. Each stack that is down is logged (R28); both lanes of every sieve in service come up again,
one that failed before included (DESIGN CHOICE, log entry 158); a die that fails identification or training is failed (R177, R557). -/
def bringUp (env : StartEnv) (s : State) : State :=
  let down := env.stacksDown % 64
  let s := modLanding (fun l => { l with stacksDown := down, stacksUp := 63 - down, lastLeak := s.now }) s
  let s := ((List.range 6).filter fun i => bit down i).foldl (fun s i =>
    raise 0x0103 2 2 i 0xFFFF (evArgs [(20, 1, 63 - down), (21, 4, s.poolMib)]) s) s
  let s := modMedia (fun m => { m with sieves := m.sieves.map fun v => { v with lane0 := !v.lost, lane1 := !v.lost } }) s
  let s := (List.range 52).foldl (fun s l =>
    if (s.lane l).position.isSome ∧ ((s.lane l).role = .untrained ∨ (s.lane l).role = .spareInUse) then
      modLane l (fun q => { q with state := .training, tried := s.now }) s
    else s) s
  let s := modMedia (fun m => { m with dies := m.dies.map fun d => if d.2.role = .spare then (d.1, { d.2 with began := s.now }) else d }) s
  ((env.diesFail.filter fun d => decide ((s.die d).role ≠ .failed))).foldl (fun s d => if d < s.part.dies then failDie d s else s) s

/- Plot sounding (R334, R335, R549) -/

/-- A logical number that has lost its plot goes to the lowest-numbered spare that passed; without one it stays vacant. -/
def renumber (p : Nat) (s : State) : State :=
  match (s.plot p).vacating with
  | none => s
  | some l =>
    let s := modPlot p (fun q => { q with vacating := none }) s
    match s.sparePlot with
    | none => s
    | some i => modPlot i (fun q => { q with role := .active, logical := some l }) s

/-- The plots are sounded at a cold start: a retired plot that is marked becomes a spare when it passes; any that fails is retired with
cause 0x01. The state, and whether some plot passed. -/
def soundPlots (env : StartEnv) (s : State) : State × Bool :=
  let tested := (List.range 272).filter fun p => decide ((s.plot p).role ≠ .retired) || (s.plot p).marked
  let bad := tested.filter fun p => env.plotsFail.contains p
  let back := tested.filter fun p => (s.plot p).marked && !bad.contains p
  let s := back.foldl (fun s p =>
    modPlot p (fun q => { q with role := .spare, marked := false, cause := 0 }) s) s
  let s := bad.foldl (fun s p =>
    modPlot p (fun q => { q with role := .retired, marked := false, cause := 1, vacating := q.logical, logical := none }) s) s
  let s := modPlots (fun x => { x with soundMs := min env.soundMs (if x.extended then 110 else 35), soundFailed := bad.length }) s
  (if bad = [] ∧ back = [] then s else writeRoot s, decide (bad.length < tested.length))

/-- Numbers without a plot find one, after sounding or, at a warm start, after a retirement that a reset cut short (R335, R338). -/
def renumberAll (s : State) : State := ((List.range 272).filter fun p => (s.plot p).vacating.isSome).foldl (fun s p => renumber p s) s

/- Media recovery (R209 to R211, R202, R99) -/

/-- The units of a flush manifest that did not become durable are recorded, with CONTEXT 0xFFFF (R209, R546). Each
unit makes an entry of its own, neighbours too (DESIGN CHOICE, log entry 144). -/
def recordManifest (s : State) : State :=
  let l := s.media.manifest
  let s := modMedia (fun m => { m with manifest := [] }) s
  l.foldl (fun s e => recordDeferred e.1 0xFFFF e.2.2 [e.2.1] true s) s

/-- The bands as recovery leaves them: an OPEN band is CLOSED, its stripes not journaled closed holding no live data, once its stripes have been read
up to a word line ERASED on all members (R211); one with no live unit that is neither FREE nor RETIRED, nor part of the map or of the journal
needed, is ERASING and is erased again (R202); the live units of a RELOCATING band are copied on. The changes are journaled. "Erases redone at
recovery" counts one for each band found ERASING, and none for those that recovery itself puts there (DESIGN CHOICE, log entry 184). -/
def recoverBands (s : State) : State :=
  let redo := (s.media.bands.filter fun b => decide (b.2.state = .erasing)).length
  let s := bumpErr 13 redo s
  let s := s.media.bands.foldl (fun s b =>
    let live := !(s.liveIn b.1).isEmpty || s.mapIn b.1 || s.journalNeeded b.1
    match b.2.state with
    | .free | .retired => s
    | .erasing => modBand b.1 (fun x => { x with erased := [] }) s
    | .relocating => if live then s else setBand b.1 .erasing s
    | .closed => if live then s else setBand b.1 .erasing s
    | .opened =>
      let s := setBand b.1 .closed s
      if live then s else setBand b.1 .erasing s) s
  (s.media.bands.filter fun b => decide (b.2.state = .relocating)).foldl (fun s b =>
    (s.liveIn b.1).foldl (fun s u => relocate false u.2 s) s) s

/-- The flush reserve: 32 FREE bands on as many rows, the highest-numbered of each row; those still FREE stay (R207, R209, log entry
152). -/
def takeReserve (s : State) : State :=
  let kept := s.media.reserve.filter fun k => decide ((s.band k).state = .free)
  let s := modMedia (fun m => { m with reserve := kept }) s
  let rows := (List.range s.part.rows).filter fun r => !(kept.any fun k => decide (k / 2800 = r))
  let more := rows.filterMap fun r => (findFrom (fun i => s.canOpen (r * 2800 + (2799 - i))) 2800 0).map fun i => r * 2800 + (2799 - i)
  modMedia (fun m => { m with reserve := kept ++ more.take (32 - kept.length) }) s

/-- The units whose map changes the journal holds from an entry number on. -/
def Media.journaledFrom (m : Media) (first : Nat) : List Nat :=
  (m.members.flatMap fun x => match x.2.body with
    | .journal es => es.zipIdx.filterMap fun e => match e.1 with
      | .map o u _ _ _ => if first ≤ x.2.unit + e.2 then some (unitKey o u) else none
      | _ => none
    | _ => []).eraseDups

/-- The journal is read from the chosen root's JOURNAL_HEAD to its last closed stripe, and its map changes make the delta table (Table 6-10). -/
def replayJournal (s : State) : State := modMedia (fun m => { m with segments := [], delta := m.journaledFrom m.headSeq }) s

/-- Media recovery (Table 6-10). A start is clean when the stop left FLUSH_DONE and nothing
else in the journal beyond the checkpoint (DESIGN CHOICE, log entry 160). -/
def recoverMedia (env : StartEnv) (s : State) : State :=
  let open_ := s.media.bands.any fun b => decide (b.2.state = .opened)
  let s := replayJournal (if open_ then bumpErr 14 env.openBad s else s)
  let clean := s.media.flushDone && decide (s.media.journaled ≤ 1)
  let s := modHealth (fun h => { h with unclean := satAdd 32 h.unclean (b2n !clean) }) s
  let s := (s.indexes.filter fun x => decide (x.2.state = .emptyDormant)).foldl (fun s x => dropUnits (indexOwner x.1) s) (recordManifest s)
  let s := takeReserve (recoverBands s)
  settleMedia (modMedia (fun m => { m with flushDone := false, checkpointAt := s.now, tillStart := s.now }) s)

/-- The first start in BLANK: the factory-bad markers are read and recorded, and their bitmap and the test model are written to every
sieve (R53, R161, R203). -/
def markerScan (env : StartEnv) (s : State) : State :=
  if s.sec.life = .blank ∧ !s.media.factoryRead then
    let s := recordMarkers env.factoryBad s
    writeRoots (modHealth (fun h => { h with factoryBad := s.media.factoryBad.length }) (modMedia (fun m => { m with
      factoryRead := true, shippedMargin := s.margin, sieves := m.sieves.map fun v => { v with testOk := true, bitmap := true } }) s))
  else s

/-- The self-test reads layer l from the (l mod n)th sieve in service, or from the next one that holds a good copy; a copy that mismatches
is not read again (R53). The state, and whether every layer was read. -/
def testLayers (env : StartEnv) (s : State) : State × Bool :=
  (List.range 16).foldl (fun (acc : State × Bool) l =>
    let up := (List.range 16).filter fun v => (acc.1.sieve v).up
    let turn := (up.drop (l % up.length) ++ up.take (l % up.length)).filter fun v => (acc.1.sieve v).testOk
    let bad := fun (v : Nat) => env.testBad.contains (l, v)
    let tried := turn.takeWhile bad
    (modMedia (fun m => { m with sieves := m.sieves.zipIdx.map fun v => if tried.contains v.2 then { v.1 with testOk := false } else v.1 }) acc.1,
      acc.2 && turn.any fun v => !bad v)) (s, true)

/-- Every band is erased, for a return to BLANK (R506): each goes through the states of Table 6-6 to FREE. -/
def eraseAll (s : State) : State :=
  let s := s.media.bands.foldl (fun s b =>
    if b.2.state = .retired ∨ b.2.state = .free then s
    else
      let s := if b.2.state = .opened then setBand b.1 .closed s else s
      let s := wipeBand b.1 (setBand b.1 .erasing (setBand b.1 .relocating s))
      setBand b.1 .free (modBand b.1 (fun x => { x with
        erases := x.erases + 1, held := [], erased := [], filled := 0, sieves := [], progAt := [] }) s)) s
  modSec (fun x => { x with erasing := false })
    (modMedia (fun m => { m with map := [], segments := [], directory := [], dirPlace := none, flash := [], members := [], copies := [], lines := [] }) s)

/- The start (R532 to R534) -/

/-- The last steps: the measurement is extended, MODULE_GOOD is released, accounting closes the interval that the stop cut, and a cold
start begins a recalibration (R490, R495, R500). -/
def release (old s : State) : State :=
  let (n, s) := takeFree s
  let s := modSec (fun x => { x with measure := sha256 (x.measure ++ bytes256 (Config.configHash n)) }) s
  let s := modKeeper (fun k => { k with stage := 5, moduleGood := true, idnAt := 3 }) s
  let s := modAcct (fun a => { a with standingUj := Config.standing }) (cutInterval s)
  let s := if s.cold then startRecal s else s
  settlePower old (modPower (fun p => { p with idleSince := s.now }) s)

/-- The newest of some root sets. -/
def newestRoot (l : List RootSet) : Option RootSet :=
  l.foldl (fun (best : Option RootSet) r => if best.any fun b => decide (r.seq < b.seq) then best else some r) none

/-- The directory that a root set names, as its members hold it (R192). -/
def Media.directoryAt (m : Media) (dir : Option MediaAddr) : KV MediaAddr :=
  match dir.bind fun a => kvGet a.num m.members with
  | none => []
  | some x => match x.body with
    | .directory ps => ps
    | _ => []

/-- What a start takes from the root set that it chooses. When that is not the newest one written, the older set's configuration, grown-bad table and
checkpoint hold again. -/
def Media.load (r : RootSet) (m : Media) : Media :=
  if r.seq = m.rootSeq then m
  else { m with
    volumes := r.volumes, exported := r.exported, tillDays := r.tillDays, grownBad := r.grownBad, checkpointSeq := r.checkpoint, dirPlace := r.dir
    directory := m.directoryAt r.dir, headPlace := r.head, headSeq := r.headSeq }

/-- The root areas of the sieves in service are read: each bank's set is its newest valid one, a torn or invalid one being passed over and counted, and
the set with the higher sequence is taken (R205). The state, and whether a bank has a set; before the first start in BLANK has read the markers
none has been written. -/
def chooseRoots (env : StartEnv) (s : State) : State × Bool :=
  let read := s.media.rootsLeft.filter fun r => (s.sieve r.sieve).up
  let valid := read.filter fun r => !env.rootsBad.contains r.seq
  let bank := fun (n : Nat) => newestRoot (valid.filter fun r => decide (r.seq % 2 = n))
  let s := bumpErr 12 (read.length - valid.length) (modMedia (fun m => { m with bankA := bank 0, bankB := bank 1 }) s)
  match newestRoot valid with
  | none => (s, !s.media.factoryRead)
  | some r => (modMedia (Media.load r) s, true)

/-- From bring-up on. A start that halts before its sounding leaves the figures of the last one in PLT_SOUND_RESULT (DESIGN CHOICE, log
entry 103). The self-test is one step with the start, and shows no streaming of its own (log entry 159). -/
def bringIn (env : StartEnv) (old s : State) : State :=
  let s := bringUp env s
  if s.landing.stacksUp = 0 then halt 5 s
  else
    let (s, found) := chooseRoots env s
    if !found then halt 2 s
    else
    let (s, ok) := if s.cold then soundPlots env s else (s, true)
    if !ok then halt 4 s
    else
      let s := markerScan env (recoverMedia env (renumberAll s))
      let s := if s.sec.erasing then eraseAll s else s
      let (s, read) := testLayers env s
      if env.testFail ∨ !read then halt 3 s else release old s

/-- A start, with its cause, cold or warm: deferred errors of earlier starts are no longer found at the present one (R99). It does not run while MOD_RESET_N is asserted, nor after a trip while some group is at or
above its warning temperature (R527, R530). -/
def start (cause : Nat) (cold : Bool) (env : StartEnv) (s : State) : State :=
  if s.keeper.modReset.asserted then modKeeper (fun k => { k with stage := 7, nextCause := cause, idnAt := 0 }) s
  else if s.keeper.thermtrip ∧ (s.power.temps.zip s.power.warn).any fun t => decide (t.2 ≤ t.1) then
    modKeeper (fun k => { k with stage := 9, nextCause := cause }) s
  else
    let s := modMedia (fun m => { m with deferred := m.deferred.map fun d => { d with atStart := false } }) s
    let s := modKeeper (fun k => { k with
      stage := 1, startFault := 0, idnAt := 0, cause := cause, tripped := k.tripped || k.thermtrip, thermtrip := false, holdupWeak := true, holdup := 0
      holdupState := 0, vinCv := env.vinCv, vinMin := min k.vinMin env.vinCv, startAt := s.now, writeProtect := k.pwrFail.asserted || k.writeProtect }) s
    let s := { s with starts := satAdd 16 s.starts 1, cold := cold }
    let s := if s.keeper.tamper.asserted then tamper 0 s else s
    let (s', ok) := boot env s
    if ok then bringIn env s s' else halt 1 s'

end Sys2Proof.Machine
end

