-- ==== Sys2Proof/Machine/Power.lean ====
section
/-!
DEFINITION. Machine/Power.lean: the power loop, phase hints, temperature and deep idle (chapter 16).
-/

namespace Sys2Proof.Machine

open Sys2Proof

/- The power loop (R474 to R477) -/

/-- The power that the loop compares with the cap: the input power of the past 1 ms, or what the model makes of the last window when
that is higher and the two are in drift or in a calibration fault (R476, R489). -/
def State.loopPower (s : State) : Nat :=
  if s.acct.drift ∨ s.acct.calFault then max s.power.inputW (s.acct.modelled / 100000) else s.power.inputW

/-- How many limits of a kind are in force. -/
def State.limitsOf (s : State) (l : Limit) : Nat := (s.power.limits.filter fun x => decide (x = l)).length

/-- A plot that parking may take: awake, and not one of an admitted interactive context (R477). -/
def State.parkable (s : State) (p : Nat) : Bool :=
  let q := s.plot p
  decide (q.role = .active) && !q.parked && !(q.residents.any fun r => decide (r.cls = .interactive) && s.ctxAdmitted r.ctx)

/-- A plot is parked: unclocked, and released at its next boundary, which an idle plot stands at (R131, R477). -/
def park (p : Nat) (s : State) : State :=
  let s := modPlot p (fun q => { q with parked := true }) s
  match (s.plot p).running with
  | none => settleIdle p s
  | some n => if (s.plot p).flights = [] then keepOrChoose p n (settleResidents p none s) else s

/-- The next limit in the order of R477 and Table 16-1: the plots' steps, parking, the flash, the Landing. -/
def addLimit (s : State) : State :=
  let put := fun (l : Limit) (s : State) => modPower (fun p => { p with limits := l :: p.limits }) s
  if s.limitsOf .batchStep < 3 then put .batchStep s
  else if s.limitsOf .interactiveStep < 3 then put .interactiveStep s
  else match (List.range 272).find? s.parkable with
    | some p => put .park (park p s)
    | none => if s.limitsOf .flash = 0 then put .flash s else if s.limitsOf .landing = 0 then put .landing s else s

/-- The last plot that was parked is clocked again. -/
def unpark (s : State) : State :=
  match (List.range 272).reverse.find? fun p => (s.plot p).parked with
  | none => s
  | some p => settleIdle p (modPlot p (fun q => { q with parked := false, moverAt := s.now }) s)

/-- One limit is lifted, the earliest part first and a plot's newest first (R476, R477). -/
def liftLimit (s : State) : State :=
  let drop := fun (l : Limit) (s : State) => modPower (fun p => { p with limits := p.limits.erase l }) s
  if 0 < s.limitsOf .landing then drop .landing s
  else if 0 < s.limitsOf .flash then drop .flash s
  else match s.power.limits with
    | [] => s
    | .park :: _ => drop .park (unpark s)
    | l :: _ => drop l s

/-- The loop's 1 ms step. -/
def powerLoop (s : State) : State :=
  let cap := s.capInForce
  let w := s.loopPower
  let s := modPower (fun p => { p with
    overCap := if cap < p.inputW then satAdd 32 p.overCap 1 else p.overCap
    throttleMs := if p.cause ≠ 0 then satAdd 32 p.throttleMs 1 else p.throttleMs
    belowMs := if 100 * w ≤ 95 * cap then p.belowMs + 1 else 0 }) s
  if cap < w then addLimit s
  else if 10 ≤ s.power.belowMs then liftLimit (modPower (fun p => { p with belowMs := 0 }) s)
  else s

/-- Every 1 ms: what the module measured, the stacks whose interactive reserve was fully used in more than half of it (R135), and the power
loop while it runs (R476). -/
def execPowerLoopTick (inputW vinCv : Nat) (parts : LoopReading) (s : State) : Out :=
  .next (
    let s' := modKeeper (fun k => { k with vinCv := vinCv, vinMin := min k.vinMin vinCv })
      (modPower (fun p => { p with inputW := inputW, parts := (List.range 6).map fun i => parts.parts.getD i 0 })
        (modLanding (fun l => { l with reserveFull := parts.reserveFull % 64 }) s))
    if s.keeper.stage = 5 ∧ s.power.idle = .running then settlePower s (powerLoop s') else s')

/- Phase hints (R482) -/

/-- The estimated draw of a hint, in units of 10 mW. -/
def hintCw (kind plots : Nat) : Nat := if kind = 1 then 188 * plots else if kind = 2 then 12000 else 15000

/-- Plots that run work that is not interactive, of contexts other than one. -/
def State.otherBatch (s : State) (ctx : Nat) : Nat :=
  (s.plots.list.filter fun p => p.2.running.isSome && decide (p.2.running ≠ some ctx) && !p.2.interactive).length

/-- The clock steps by which other work is held down for a hint: the fewest that make room for its estimate, three at most (Table
16-2: 0.42 W a step and plot). -/
def State.hintNeeds (s : State) (ctx kind plots : Nat) : Nat :=
  let excess := hintCw kind plots + 100 * s.power.inputW - 100 * s.capInForce
  ((List.range 3).find? fun k => decide (excess ≤ 42 * k * s.otherBatch ctx)).getD 3

/-- PHASE_HINT (Table 16-4, R482). KIND 0x04 ends the context's hints. -/
def phaseHint (c : Cmd) (_ : Ctx) (s : State) : State :=
  let p := c.payload
  let kind := fieldAt p 0 1
  let lead := fieldAt p 2 2
  let dur := fieldAt p 4 2
  let plots := fieldAt p 6 2
  let ok := decide (p.length = 16) && decide (1 ≤ kind) && decide (kind ≤ 4) && decide (fieldAt p 1 1 = 0) && decide (fieldAt p 8 8 = 0) &&
    (decide (kind = 4) || (decide (lead ≤ 50) && decide (1 ≤ dur) && decide (dur ≤ 60000))) &&
    (decide (kind ≠ 1) || (decide (1 ≤ plots) && decide (plots ≤ 256)))
  if !ok then fail c stInvalid s
  else
    let n := c.key.ctx
    let mine := s.power.hints.filter fun h => decide (h.ctx = n)
    let rest := s.power.hints.filter fun h => decide (h.ctx ≠ n)
    let from_ := s.now + lead * countsMs
    let new : Hint := ⟨n, kind, from_, from_ + dur * countsMs, if kind = 1 then plots else 0, s.hintNeeds n kind plots⟩
    let kept := if kind = 4 then [] else (mine.drop (mine.length - 3)) ++ [new]
    settlePower s (reply c stOk [] (modPower (fun p => { p with hints := rest ++ kept }) s))

def execPhaseHint (k : CmdKey) (s : State) : Out := .next (withCtx 0x72 k phaseHint s)

/-- A hint of a context ends with its duration, or when the context has run no work for 10 ms after the declared start (R482). -/
def execPhaseHintExpiry (ctx : Nat) (s : State) : Out :=
  .next (
    let last := ((kvGet ctx s.contexts).map (·.lastRun)).getD 0
    let over_ := fun (h : Hint) => decide (h.ctx = ctx) && (decide (h.ends ≤ s.now) || s.since (max h.starts last) (10 * countsMs))
    if s.power.hints.any over_ then settlePower s (modPower (fun p => { p with hints := p.hints.filter fun h => !over_ h }) s) else s)

/- Temperature (R484 to R487) -/

/-- Trip temperatures (Table 16-5). -/
def tripTemps : List Nat := [110, 95, 85, 85, 85, 85, 115, 55]

/-- THERMAL_WARNING (R487). -/
def raiseThermal (kind : Nat) (s : State) : State :=
  raise 0x0504 (if kind = 1 then 2 else 0) 0 0 0xFFFF
    (evArgs [(20, 1, s.power.warnGroup), (21, 1, s.power.temps.getD s.power.warnGroup 0), (22, 1, kind), (23, 1, s.power.limitW / 10)]) s

/-- The health log takes a sample a second and, an hour, one bin for each group (Table 6-14). -/
def healthSample (temps : List Nat) (h : Health) : Health :=
  let n := h.hourSamples + 1
  let top := if n % 1000 = 0 then (h.hourMax.zip temps).map fun t => max t.1 t.2 else h.hourMax
  if n < 3600000 then { h with hourSamples := n, hourMax := top }
  else { h with
    hourSamples := 0, hourMax := List.replicate 8 0, hours := satAdd 32 h.hours 1
    temp := (h.temp.zip top).map fun g => setAt g.1 (min 22 (g.2 / 5)) fun c => satAdd 32 c 1 }

/-- A trip: the hold-up flush runs and every part except the keeper stops (R486, R530). -/
def trip (s : State) : State := modKeeper (fun k => { k with thermtrip := true }) (stopModule 9 2 [] s)

/-- Each group's highest sensor is compared with its thresholds (R484 to R486). -/
def thermalSample (temps : List Nat) (s : State) : State :=
  let temps := (List.range 8).map fun i => temps.getD i 0
  let s' := modHealth (healthSample temps) (modPower (fun p =>
    let at_ := (List.range 8).filter fun i => decide (p.warn.getD i 0 ≤ temps.getD i 0)
    let bits := (at_.map fun i => 2 ^ i).sum
    let cool := (List.range 8).all fun i => decide (temps.getD i 0 + 5 ≤ p.warn.getD i 0)
    { p with temps := temps, peak := Nat.lor p.peak bits, coolSince := if cool then some (p.coolSince.getD s.now) else none
             warnGroup := if p.warning then p.warnGroup else at_.headD p.warnGroup }) s)
  let hot := (List.range 8).any fun i => decide (s.power.warn.getD i 0 ≤ temps.getD i 0)
  if (temps.zip tripTemps).any fun t => decide (t.2 ≤ t.1) then
    if s.keeper.stage = 0 ∨ s.keeper.stage = 9 then s' else trip s'
  else if s.keeper.stage = 5 ∧ hot ∧ !s.power.warning then
    let s' := modPower (fun p => { p with warning := true, limitW := max 400 s.capInForce, limitAt := s.now }) s'
    settlePower s (raiseThermal 1 s')
  else s'

def execThermalSample (temps : List Nat) (s : State) : Out := .next (thermalSample temps s)

/-- Every second the thermal limit moves by 50 W; the warning ends once every group has been 5 °C below for 10 s (R485). -/
def thermalStep (s : State) : State :=
  let p := s.power
  let hot := (p.temps.zip p.warn).any fun t => decide (t.2 ≤ t.1)
  let cool := match p.coolSince with
    | none => false
    | some t => s.since t (10 * countsS)
  let up := min 1250 (p.limitW + 50)
  if !p.warning then (if p.limitW < 1250 then modPower (fun p => { p with limitW := up, limitAt := s.now }) s else s)
  else if cool then modPower (fun p => { p with warning := false, limitW := up, limitAt := s.now }) (raiseThermal 2 s)
  else if hot then modPower (fun p => { p with limitW := max 400 (p.limitW - 50), limitAt := s.now }) s
  else s

def execThermalLimitStep (s : State) : Out :=
  .next (if s.keeper.stage = 5 ∧ s.since s.power.limitAt countsS then settlePower s (thermalStep s) else s)

/- Deep idle (R483) -/

/-- Nothing keeps the module awake. -/
def State.quietNow (s : State) : Bool :=
  decide (s.cmds = []) && decide (s.upCrossings = []) && decide (s.part.poolTarget ≤ s.freePool) &&
    !(s.models.any fun m => decide (m.2.state = .placing))

/-- Deep idle after DEEP_IDLE_S seconds of quiet: only the keeper runs, the stacks are in self-refresh. -/
def execDeepIdleEntry (s : State) : Out :=
  .next (
    if s.keeper.stage = 5 ∧ s.power.idle = .running ∧ s.power.deepIdleS ≠ 0 ∧ s.quietNow ∧ s.since s.power.idleSince (s.power.deepIdleS * countsS) then
      modLanding (fun l => { l with selfRefresh := true }) (modPower (fun p => { p with idle := .deepIdle }) s)
    else s)

end Sys2Proof.Machine
end

