-- ==== Sys2Proof/Machine/Boundary.lean ====
section
/-!
DEFINITION. Machine/Boundary.lean: the discrete inputs, the supply, reset, and the starts they lead to (chapter 18).
-/

namespace Sys2Proof.Machine

open Sys2Proof

/- Inputs (R525 to R527) -/

/-- An input by its number in R526: 0 MOD_RESET_N, 1 PWR_FAIL_WARN_N, 2 THROTTLE_N, 3 TAMPER_N. -/
def Keeper.pin (k : Keeper) (i : Nat) : InPin :=
  match i with
  | 0 => k.modReset
  | 1 => k.pwrFail
  | 2 => k.throttle
  | _ => k.tamper

/-- One input changed. -/
def modPin (i : Nat) (f : InPin → InPin) (s : State) : State :=
  modKeeper (fun k => match i with
    | 0 => { k with modReset := f k.modReset }
    | 1 => { k with pwrFail := f k.pwrFail }
    | 2 => { k with throttle := f k.throttle }
    | 3 => { k with tamper := f k.tamper }
    | _ => k) s

/-- MOD_RESET_N: the hold-up flush runs, and every part except the keeper is held in reset (Table 18-7). While every other part is off
or in reset already, there is nothing to flush; it is a reset all the same (R11). -/
def onReset (s : State) : State :=
  if s.keeper.stage = 0 ∨ s.keeper.stage = 7 then modKeeper (fun k => { k with idnAt := 0 }) s else stopModule 7 2 [] s

/-- PWR_FAIL_WARN_N: WRITEs not acknowledged complete WRITE_PROTECTED, and one warning flush runs (R251, R528). -/
def onPowerWarning (s : State) : State :=
  let s := modKeeper (fun k => { k with writeProtect := true }) s
  if s.keeper.stage ≠ 5 then s
  else
    let s := (s.cmds.filter fun c => decide (c.opcode = 0x21) && c.live).foldl (endCmd stWriteProtected) s
    settleMedia (modMedia (fun m => { m with flushAll := true }) s)

/-- What the assertion of an input leads to (Table 18-5). -/
def onAssert (i : Nat) (s : State) : State :=
  match i with
  | 0 => onReset s
  | 1 => onPowerWarning s
  | 3 => tamper 0 s
  | _ => s

/-- An input reads asserted: it counts, and acts, when it was released. -/
def assertPin (i : Nat) (s : State) : State :=
  if (s.keeper.pin i).asserted then s
  else
    let s' := modPin i (fun p => { p with asserted := true, raw := true, count := satAdd 8 p.count 1 }) s
    let s' := if s.keeper.powered then onAssert i s' else s'
    if i = 2 ∧ s.keeper.stage = 5 then settlePower s s' else s'

/-- An input reads released. The wait of 1 s for writes begins at the release of PWR_FAIL_WARN_N. -/
def releasePin (i : Nat) (s : State) : State :=
  if !(s.keeper.pin i).asserted then s
  else
    let s' := modPin i (fun p => { p with asserted := false, raw := false }) s
    let s' := if i = 1 then modKeeper (fun k => { k with releasedAt := s.now }) s' else s'
    if i = 2 ∧ s.keeper.stage = 5 then settlePower s s' else s'

/-- The assertion or release of an input that is not in chatter. -/
def pinAssert (i : Nat) (s : State) : Out := .next (if (s.keeper.pin i).chatter then s else assertPin i s)
def pinRelease (i : Nat) (s : State) : Out := .next (if (s.keeper.pin i).chatter then s else releasePin i s)

def execModResetNAssert (s : State) : Out := pinAssert 0 s
def execPwrFailWarnNAssert (s : State) : Out := pinAssert 1 s
def execPwrFailWarnNRelease (s : State) : Out := pinRelease 1 s
def execThrottleNAssert (s : State) : Out := pinAssert 2 s
def execThrottleNRelease (s : State) : Out := pinRelease 2 s
def execTamperNAssert (s : State) : Out := pinAssert 3 s
def execTamperNRelease (s : State) : Out := pinRelease 3 s

/-- MOD_RESET_N is released, or a reset that the module made itself ends: a cold start runs (Table 18-7 step 6). -/
def execModResetNRelease (env : StartEnv) (s : State) : Out :=
  .next (
    if s.keeper.modReset.chatter then s
    else
      let s := releasePin 0 s
      if s.keeper.stage = 7 then start s.keeper.nextCause true env s else s)

/-- Writes are accepted 1 s after PWR_FAIL_WARN_N is released. -/
def execWriteProtectEnd (s : State) : Out :=
  .next (if !s.keeper.pwrFail.asserted ∧ s.since s.keeper.releasedAt countsS then modKeeper (fun k => { k with writeProtect := false }) s else s)

/-- A glitch detector fires: a tamper by voltage or by clock (Table 17-11). -/
def execGlitchTamper (clock : Bool) (s : State) : Out := .next (tamper (if clock then 2 else 1) s)

/-- INPUT_CHATTER (R526). -/
def raiseChatter (i kind edges : Nat) (s : State) : State :=
  raise 0x0601 (if kind = 1 then 2 else 0) 6 i 0xFFFF (evArgs [(20, 1, kind), (21, 2, min 65535 edges)]) s

/-- Chatter starts: the input is treated as asserted. -/
def execInputChatterStart (input edges : Nat) (s : State) : Out :=
  .next (
    if 3 < input ∨ (s.keeper.pin input).chatter ∨ edges < 16 then s
    else raiseChatter input 1 edges (assertPin input (modPin input (fun p => { p with chatter := true }) s)))

/-- Chatter ends: the input takes the level that the line has held for 1 ms. -/
def execInputChatterEnd (input edges : Nat) (low : Bool) (s : State) : Out :=
  .next (
    if 3 < input ∨ !(s.keeper.pin input).chatter then s
    else
      let s := raiseChatter input 2 edges (modPin input (fun p => { p with chatter := false, raw := low }) s)
      if low then s else releasePin input s)

/- Supply and starts (R520 to R523, R532, R542) -/

/-- The input reaches 40 V: the keeper has left reset, and the first start runs (Table 18-6). -/
def execPowerOn (env : StartEnv) (s : State) : Out :=
  .next (
    if (s.keeper.stage = 1 ∨ !s.keeper.powered) ∧ 4000 ≤ env.vinCv then
      start 1 true env (modKeeper (fun k => { k with supplyOk := true, powered := true }) s)
    else s)

/-- The hold-up test ends: below 72 J every WRITE is acknowledged only when durable (R523). -/
def execHoldupTestEnd (energyDj : Nat) (s : State) : Out :=
  .next (if s.keeper.supplyOk then
    modKeeper (fun k => { k with holdup := energyDj % 65536, holdupState := if 720 ≤ energyDj then 1 else 2, holdupWeak := decide (energyDj < 720) }) s
    else s)

/-- MODULE_GOOD has not been released within 120 s of a trial start: the keeper forces the next start, which is warm (R504, R532). -/
def execTrialTimeout (env : StartEnv) (s : State) : Out :=
  .next (if s.sec.trial ∧ !s.keeper.moduleGood ∧ s.keeper.stage ≠ 0 ∧ s.keeper.stage ≠ 7 ∧ s.keeper.stage ≠ 9 ∧
      s.since s.keeper.startAt (120 * countsS) then start 4 false env (stopModule 7 4 [] s) else s)

/-- The keeper has stopped: the supervisor drives MODULE_GOOD low, the die and what it holds are lost, and THERMTRIP_N is left as it
was (R545, R546). -/
def execSupervisorTimeout (s : State) : Out :=
  .next (if s.keeper.powered ∧ s.keeper.supplyOk then
    modKeeper (fun k => { k with powered := false, count := 0, idnAt := 0, pecRequired := false, fastPlus := false, led := 0, hiLatch := [] })
      (stopParts (modKeeper (fun k => { k with moduleGood := false, stage := 0 }) (loseBuffer s)))
    else s)

/-- An undervoltage or overvoltage: the module runs from its hold-up store, flushes, and every part except the keeper is off (R521,
Table 18-8). `lost` names the write-buffer slots whose units did not become durable, with the cause to record (R209). -/
def execInputLoss (vinCv : Nat) (lost : List (Nat × Nat)) (s : State) : Out :=
  .next (
    if !s.keeper.supplyOk ∨ (3800 ≤ vinCv ∧ vinCv ≤ 6200) then s
    else
      let up := decide (s.keeper.stage ≠ 7) && decide (s.keeper.stage ≠ 9)
      let s := if up then stopModule 0 5 lost s else modKeeper (fun k => { k with stage := 0, nextCause := 5 }) s
      modKeeper (fun k => { k with
        supplyOk := false, vinCv := vinCv, vinMin := min k.vinMin vinCv, holdupState := 0 }) s)

/-- The hold-up store runs out: the keeper loses power, and what only the keeper keeps returns to its value after reset (R542). -/
def execKeeperPowerLoss (s : State) : Out :=
  .next (if s.keeper.supplyOk then s
    else modKeeper (fun k => { Keeper.reset with
      stage := 0, thermtrip := k.thermtrip, tripped := k.tripped, modReset := { k.modReset with count := 0 }, pwrFail := { k.pwrFail with count := 0 }
      throttle := { k.throttle with count := 0 }, tamper := { k.tamper with count := 0 }, writeProtect := k.writeProtect
      supplyOk := false, powered := false }) s)

/-- The input has held 40 V or more for 100 ms after a loss: the module starts, with cause brown-out when the keeper stayed powered and
power-on otherwise (R522). -/
def execInputRestored (env : StartEnv) (s : State) : Out :=
  .next (if s.keeper.supplyOk ∨ env.vinCv < 4000 then s
    else start (if s.keeper.powered then 5 else 1) true env (modKeeper (fun k => { k with
      supplyOk := true, powered := true, losses := if k.powered then satAdd 8 k.losses 1 else k.losses }) s))

end Sys2Proof.Machine
end

