-- ==== Sys2Proof/Machine/Scan.lean ====
section
/-!
DEFINITION. Machine/Scan.lean: scans (chapter 8): LOAD_PREDICATE, SCAN,
SCAN_AGGREGATE and SCAN_READ_RESUME.
-/

namespace Sys2Proof.Machine

open Sys2Proof

/-- LOAD_PREDICATE (R259 to R264, R267). -/
def loadPredicate (c : Cmd) (_ : Ctx) (s : State) : State :=
  let p := c.payload
  let handle := fieldAt p 0 1
  let target := fieldAt p 1 1
  let n := fieldAt p 2 1
  let l := layoutAt p 16
  let g := p.drop (48 + 4 * n)
  let proj := (List.range n).map fun i => (fieldAt p (48 + 4 * i) 2, fieldAt p (50 + 4 * i) 2)
  let ok := decide (80 ≤ p.length) && decide (handle < 32) && decide (fieldAt p 3 13 = 0) && decide (n ≤ 16) &&
    (match target with
     | 1 => l.ok (fieldAt p 24 8) && projOk l proj
     | 2 => decide (n = 0) && allZero (slice p 16 32)
     | _ => false) && programOk g l
  if !ok then fail c stInvalid s
  else
    let terms := programTerms g
    let q : Pred := ⟨target, l, proj, fieldAt g 2 1, terms⟩
    reply c stOk (leBytes 4 g.length ++ leBytes 1 (ratePct l terms) ++ zeros 3)
      { s with preds := kvSet (c.key.ctx * 32 + handle) q s.preds }

def execLoadPredicate (k : CmdKey) (s : State) : Out := .next (withCtx 0x30 k loadPredicate s)

/-- An extent list obeys Table 8-8 and R226. -/
def State.extentsOk (s : State) (session : Nat) (es : List (Extent × Bool)) : Bool :=
  es.all fun e => e.2 && decide (1 ≤ e.1.units) && (match s.volumeFor e.1.vol session with
    | none => false
    | some v => decide (e.1.first + e.1.units ≤ v.units))

/-- The head of a scan obeys Table 8-8; the length left after the extents is the caller's. -/
def scanHeadOk (p : List Byte) : Bool :=
  decide (16 ≤ p.length) && decide (fieldAt p 0 1 < 32) && decide (1 ≤ fieldAt p 1 1) && decide (fieldAt p 1 1 ≤ 16) &&
    decide (fieldAt p 2 1 ≤ 1) && decide (fieldAt p 12 4 = 0)

/-- The unit after a place in scan order: extent and unit, or none at the end (R271). -/
def unitAfter (es : List Extent) (extent unit : Nat) : Option (Nat × Nat) :=
  match es[extent]? with
  | none => none
  | some e =>
    if unit + 1 < e.first + e.units then some (extent, unit + 1)
    else (es[extent + 1]?).map fun f => (extent + 1, f.first)

/-- What a scan's reply holds: where it ends, the units before that, and the unreadable units listed. -/
structure ScanCut where
  next  : Option (Nat × Nat)
  units : List UnitScan
  bad   : List (Nat × Nat)
  stopped : Bool
  deriving DecidableEq, Repr

/-- Units are taken in order until the next one's results pass the limit, or an unreadable one stops the scan (R269, R271). -/
def cutScan (es : List Extent) (skip : Bool) (size : UnitScan → Nat) : Nat → List UnitScan → ScanCut
  | _, [] => ⟨none, [], [], false⟩
  | left, u :: us =>
    match u.bad with
    | some cause =>
      if skip then
        let r := cutScan es skip size left us
        { r with bad := (u.unit, cause) :: r.bad }
      else ⟨unitAfter es u.extent u.unit, [], [(u.unit, cause)], true⟩
    | none =>
      if left < size u then ⟨some (u.extent, u.unit), [], [], false⟩
      else
        let r := cutScan es skip size (left - size u) us
        { r with units := u :: r.units }

/-- The reply head (Table 8-9). -/
def scanHead (cut : ScanCut) (ranges results : Nat) (bytes : Nat) : List Byte :=
  let (e, u) := cut.next.getD (0xFF, 2 ^ 64 - 1)
  leBytes 8 u ++ leBytes 1 e ++ zeros 1 ++ leBytes 2 ranges ++ leBytes 4 results ++
    leBytes 8 (cut.units.map (·.examined)).sum ++ leBytes 4 (cut.units.filter (·.malformed)).length ++ leBytes 4 bytes

/-- Range entries of unreadable units. -/
def badRanges (bad : List (Nat × Nat)) : List Bad := joinBad (bad.map fun b => (16 * b.1, 16, b.2))

/-- The survivors of a unit. -/
def unitSurvivors (q : Pred) (u : UnitScan) : List Survivor :=
  u.survivors.map fun r =>
    let (b, cut) := q.body r
    ⟨u.extent, u.unit, r.ord, cut, b⟩

/-- The status of a scan: MEDIA_UNCORRECTABLE when it stopped at an unreadable unit, OK_SHORT when it skipped any (R271). -/
def ScanCut.status (c : ScanCut) : Nat := if c.stopped then stMediaUncorrectable else if c.bad = [] then stOk else stOkShort

/-- The sieve that a unit of a scan is filtered on: the one that holds it; for a unit in the write buffer the one that would, which is that of its
place, and before it has one a free value among those in service (R258, R266). -/
def State.unitSieve (s : State) (u : Nat × Nat × Nat) : Option Nat :=
  match s.entry u.2.1 u.2.2 with
  | some (.media a) => some a.member
  | some (.buffer n) =>
    let up := (List.range 16).filter fun v => !(s.sieve v).lost
    match (kvGet n s.media.slots).bind (·.place) with
    | some a => some a.member
    | none => up[Config.bufferSieve n % up.length]?
  | _ => none

/-- The sieves whose predicate engines a scan of these units needs (R266). -/
def State.scanSieves (s : State) (us : List (Nat × Nat × Nat)) : List Nat := (us.filterMap s.unitSieve).eraseDups

/-- Units in the order of their places: a sieve reads them so (R266). -/
def State.byPlace (s : State) (us : List (Nat × Nat × Nat)) : List (Nat × Nat × Nat) :=
  let at_ := fun (i : Nat) => match us[i]?.bind fun u => s.entry u.2.1 u.2.2 with
    | some (.media a) => a.num
    | _ => 0
  (orderOf at_ us.length).filterMap fun i => us[i]?

/-- Each of these predicate engines has a place for a further program: it holds up to 16 at once, of scans and of searches that fall back (R266,
R300). -/
def State.enginePlace (s : State) (k : CmdKey) (sieves : List Nat) : Bool :=
  sieves.all fun v => decide ((s.scans.filter fun q => decide (q.key ≠ k) && q.sieves.contains v).length +
    (s.searches.filter fun q => decide (q.key ≠ k) && q.sieves.contains v).length < 16)

/-- Units that the host has had read count in the health log (Table 6-14). -/
def hostReads (n : Nat) (s : State) : State := modHealth (fun h => { h with hostRead := satAdd 64 h.hostRead n }) s

/-- A scan: QUOTA_EXCEEDED when it was received without room for its results (R270); it waits for a place in each predicate engine that it
needs (R266); its units are read in windows, each window's by place, until its reply is full or an unreadable unit stops it (R266, R269,
R271); while its staged survivors reach its amount its reads pause (R270). `go` makes the reply, of so many units read. -/
def runScan (c : Cmd) (es : List Extent) (q : Scan) (skip : Bool) (max_ : Nat) (unit : State → Nat × Nat × Nat → UnitScan) (size : UnitScan → Nat)
    (go : ScanCut → Nat → State → State) (s : State) : State :=
  let us := s.scanUnits es
  let sieves := s.scanSieves us
  if q.kib = 0 then fail c stQuota s
  else if q.sieves = [] ∧ !s.enginePlace c.key sieves then s
  else
    let got := us.takeWhile (s.unitRead c)
    let early := cutScan es skip size max_ (got.map (unit s))
    let full := early.stopped || early.next.isSome
    let now := if full then got else s.windows c us
    let staged := s.stagedKib c q
    let s := modScan c.key (fun q => { q with sieves := sieves }) s
    if !full ∧ q.kib ≤ staged then
      modCmd c.key (fun c => { c with phase := .waiting .staging }) (modScan c.key (fun q => { q with paused := true, staged := staged }) s)
    else
      withUnits c ((s.byPlace now).map fun u => (u.2.1, u.2.2, 0xFFFF)) (fun s => go (cutScan es skip size max_ (now.map (unit s))) now.length s) s

/-- SCAN (R258, R265, R268 to R271). -/
def scanRecords (c : Cmd) (_ : Ctx) (s : State) : State :=
  let p := c.payload
  let n := fieldAt p 1 1
  let max_ := fieldAt p 4 4
  let es := extentsAt p 16 n
  let ok := scanHeadOk p && decide (p.length = 16 + 16 * n) && decide (fieldAt p 3 1 = 0) && outputMaxOk max_ &&
    decide (fieldAt p 8 4 = 0) && s.extentsOk c.key.session es
  match s.scanOf c.key with
  | none => fail c stInvalid s
  | some q =>
    stored c (ok && decide (q.pred.target = 1)) (fun s =>
      let ex := es.map (·.1)
      runScan c ex q (bit (fieldAt p 2 1) 0) max_ (fun s u => scanUnit q.pred c s u.2.1 u.1 u.2.2) (survivorBytes q.pred) (fun cut read s =>
        let vs := cut.units.flatMap (unitSurvivors q.pred)
        let body := vs.flatMap fun v => v.bytes (b2n v.cut)
        let bad := badRanges cut.bad
        complete c cut.status (decide (cut.bad ≠ [])) (scanHead cut bad.length vs.length body.length ++ body ++ bad.flatMap badBytes)
          (2 * max_ / 1024) [] (hostReads read s)) s) s

def execScan (k : CmdKey) (s : State) : Out := .next (withCtx 0x31 k scanRecords s)

/-- Plots or the port have drained some of a paused scan's survivors: below its amount its reads go on (R270). -/
def execScanReadResume (k : CmdKey) (drainedKib : Nat) (s : State) : Out :=
  .next (match findCmd k s, s.scanOf k with
    | some c, some q =>
      if c.phase = .waiting .staging then
        let s := modScan k (fun q => { q with staged := q.staged - drainedKib, drained := q.drained + drainedKib, paused := decide (q.kib ≤ q.staged - drainedKib) }) s
        if q.staged - drainedKib < q.kib then modCmd k (fun c => { c with phase := .received }) s else s
      else s
    | _, _ => s)

/- SCAN_AGGREGATE (R273 to R276) -/

/-- An aggregate specification (Table 8-12). -/
structure AggSpec where
  op    : Nat
  type_ : Nat
  bins  : Nat
  field : Nat
  lo    : Nat
  hi    : Nat
  big   : Bool
  deriving DecidableEq, Repr

/-- An edge as an exact value in the type's form. -/
def AggSpec.edge (a : AggSpec) (w : Nat) : FVal :=
  if typeIsFloat a.type_ then fp64.decode w else .ofRat (if typeIsSigned a.type_ then intOf 8 w else (w : Int))

/-- The specification at an offset and whether it obeys Table 8-12. -/
def aggAt (p : List Byte) (off : Nat) : AggSpec × Bool :=
  let a : AggSpec := ⟨fieldAt p off 1, fieldAt p (off + 1) 1, fieldAt p (off + 2) 2, fieldAt p (off + 4) 4, fieldAt p (off + 8) 8,
    fieldAt p (off + 16) 8, bit (fieldAt p (off + 24) 1) 0⟩
  (a, decide (1 ≤ a.op) && decide (a.op ≤ 5) && decide (fieldAt p (off + 24) 1 ≤ 1) && decide (fieldAt p (off + 25) 7 = 0) &&
    (if a.op = 1 then decide (a.type_ = 0) && decide (a.field = 0) && !a.big else decide (1 ≤ a.type_) && decide (a.type_ ≤ 12)) &&
    (if a.op = 5 then decide (1 ≤ a.bins) && decide (a.bins ≤ 4096) && (a.edge a.lo).lt (a.edge a.hi) else decide (a.bins = 0)))

/-- The value of a specification's field in a survivor; none when it is missing or a NaN (R274). -/
def AggSpec.valueOf (a : AggSpec) (l : Layout) (r : Rec) : Option FVal :=
  match r.fieldOf l a.field (typeWidth a.type_) with
  | none => none
  | some v =>
    let w := leNat (if a.big then v.reverse else v)
    if typeIsFloat a.type_ then (match (typeFmt a.type_).decode w with
      | .nan => none
      | x => some x)
    else some (.ofRat (intOf a.type_ w))

/-- A value widened to I64, U64 or F64 (Table 8-13). -/
def AggSpec.wide (a : AggSpec) (v : FVal) : Nat :=
  if typeIsFloat a.type_ then fp64.encode nearest 0 v else (v.val.num % 2 ^ 64).toNat

/-- The bin of a value at or above LO and below HI (R276); `free` stands where no bin is computed. -/
def AggSpec.bin (a : AggSpec) (free : Nat) (v : FVal) : Nat :=
  let lo := a.edge a.lo
  let hi := a.edge a.hi
  if typeIsFloat a.type_ then
    let up := fp64.round ((fp64.round (v.sub lo)).mul (.ofRat a.bins))
    match fp64.round (up.div (fp64.round (hi.sub lo))) with
    | .num _ m => min (a.bins - 1) m.floor.toNat
    | _ => Config.pick free % a.bins
  else ((v.val - lo.val) * a.bins / (hi.val - lo.val)).floor.toNat

/-- BOUND of a floating sum as a binary64 rounded toward +∞ (R275). -/
def sumBound (isF64 : Bool) (count : Nat) (abs reported : ℚ) : Nat :=
  let lg := if count ≤ 1 then 0 else Nat.log2 (count - 1) + 1
  fp64.magWord awayUp (pow2 (-46) * (4096 + lg) * abs + (if isF64 then pow2 (-48) * abs else 0) + pow2 (-53) * |reported|)

/-- The reported floating sum and its bound: the free value where it lies within the bound of the exact sum, else the exact sum
rounded (R275). A sum of infinities is that infinity, or a NaN. -/
def floatSum (isF64 : Bool) (free : Nat) (vs : List FVal) : Nat × Nat :=
  if vs.all FVal.isNum then
    let y := (vs.map FVal.val).sum
    let abs := (vs.map fun (v : FVal) => |v.val|).sum
    let bound := fun (w : Nat) => sumBound isF64 vs.length abs (fp64.decode w).val
    let w := (Config.scanSum free).toNat
    let ok := (fp64.decode w).isNum && decide (|(fp64.decode w).val - y| ≤ (fp64.decode (bound w)).val)
    let r := if ok then w else fp64.encode nearest 0 (.ofRat y)
    (r, bound r)
  else (fp64.encode nearest (Config.nan free).toNat (vs.foldl FVal.add (.num false 0)), fp64.infWord)

/-- MIN or MAX: the extreme of the values; an extreme that is a zero may be either (R274). -/
def AggSpec.extreme (a : AggSpec) (free : Nat) (vs : List FVal) : Nat :=
  let least := decide (a.op = 3)
  match vs with
  | [] =>
    if typeIsFloat a.type_ then fp64.infWord + (if least then 0 else fp64.signBit)
    else if typeIsSigned a.type_ then (if least then 0x7FFFFFFFFFFFFFFF else 0x8000000000000000)
    else (if least then 0xFFFFFFFFFFFFFFFF else 0)
  | v :: t =>
    let x := t.foldl (fun b v => if least then (if v.lt b then v else b) else (if b.lt v then v else b)) v
    if typeIsFloat a.type_ ∧ x.val = 0 ∧ x.isNum then (if Config.zeroSign free then fp64.signBit else 0) else a.wide x

/-- The result of one specification over the survivors (Table 8-13, R273 to R276). -/
def AggSpec.result (a : AggSpec) (l : Layout) (free : Nat) (rs : List Rec) : List Byte :=
  let vs := rs.filterMap (a.valueOf l)
  let count := if a.op = 1 then rs.length else vs.length
  let missing := if a.op = 1 then 0 else rs.length - vs.length
  let lo := a.edge a.lo
  let hi := a.edge a.hi
  let inside := vs.filter fun v => !v.lt lo && v.lt hi
  let value := match a.op with
    | 2 =>
      if typeIsFloat a.type_ then
        let r := floatSum (decide (a.type_ = 12)) free vs
        leBytes 8 r.1 ++ leBytes 8 r.2
      else leBytes 16 (((vs.map fun (v : FVal) => v.val.num).sum % 2 ^ 128).toNat)
    | 3 | 4 => leBytes 8 (a.extreme free vs) ++ zeros 8
    | 5 => leBytes 8 (vs.filter fun v => v.lt lo).length ++ leBytes 8 (vs.filter fun v => !v.lt hi).length
    | _ => zeros 16
  let bins := if a.op = 5 then
      let at_ := inside.map (a.bin free)
      (List.range a.bins).flatMap fun b => leBytes 8 (at_.filter fun x => decide (x = b)).length
    else []
  leBytes 1 a.op ++ leBytes 1 a.type_ ++ leBytes 2 a.bins ++ zeros 4 ++ leBytes 8 count ++ leBytes 8 missing ++ value ++ zeros 8 ++ bins

/-- SCAN_AGGREGATE: its survivors are reduced on the context's plots (R265, R270, R271, R273 to R276). -/
def scanAggregate (c : Cmd) (_ : Ctx) (s : State) : State :=
  let p := c.payload
  let n := fieldAt p 1 1
  let k := fieldAt p 3 1
  let es := extentsAt p 16 n
  let specs := (List.range k).map fun i => aggAt p (16 + 16 * n + 32 * i)
  let ok := scanHeadOk p && decide (1 ≤ k) && decide (k ≤ 8) && decide (p.length = 16 + 16 * n + 32 * k) && decide (fieldAt p 4 8 = 0) &&
    (specs.all (·.2)) && decide ((specs.map fun a => a.1.bins).sum ≤ 16384) && s.extentsOk c.key.session es
  match s.scanOf c.key with
  | none => fail c stInvalid s
  | some q =>
    stored c (ok && decide (q.pred.target = 1)) (fun s =>
      let ex := es.map (·.1)
      runScan c ex q (bit (fieldAt p 2 1) 0) 0 (fun s u => scanUnit q.pred c s u.2.1 u.1 u.2.2) (fun _ => 0) (fun cut read s =>
        let bad := badRanges cut.bad
        let s := hostReads read s
        let head := fun (cut : ScanCut) => scanHead { cut with next := none } bad.length
        if cut.stopped then
          complete c stMediaUncorrectable true (head { cut with units := [] } 0 0 ++ bad.flatMap badBytes) 65536 [] s
        else
          let rs := cut.units.flatMap (·.survivors)
          let s' := { s with free := s.free + k }
          let body := specs.zipIdx.flatMap fun a => a.1.1.result q.pred.layout (s.free + a.2) rs
          complete c cut.status (decide (cut.bad ≠ [])) (head cut k body.length ++ body ++ bad.flatMap badBytes) 65536 [] s') (seat c.key.ctx 1 s)) s

def execScanAggregate (k : CmdKey) (s : State) : Out := .next (withCtx 0x33 k scanAggregate s)

end Sys2Proof.Machine
end

