-- ==== Sys2Proof/Machine/Index.lean ====
section
/-!
DEFINITION. Machine/Index.lean: vector indexes (chapter 9): their units on flash, their codes, and the meanings of INDEX_CREATE and INDEX_BUILD.
Slots are held by number, and the units that stand for them are written as a volume's are (R279, log entry 198).
-/

namespace Sys2Proof.Machine

open Sys2Proof

/- Geometry (Tables 9-1, 9-4, 9-5) -/

def Index.codeBytes (x : Index) : Nat := x.subq * x.codeBits / 8
def Index.centroids (x : Index) : Nat := 2 ^ x.codeBits
def Index.entryBytes (x : Index) : Nat := roundUp (5 + x.codeBytes) 8
def Index.sub (x : Index) : Nat := x.dim / x.subq

/-- Bytes of a code-column entry. -/
def Index.colBytes (x : Index) : Nat := roundUp (8 + 8 * x.numeric + x.codeBytes) 8

/-- Entries of the code column in one unit. -/
def Index.perUnit (x : Index) : Nat := 65536 / x.colBytes

/-- The units of an index in order: its node units, its rerank units and its code column, for CAPACITY slots (R282), and after them the codebooks and
the silt directory (Table 9-1; DESIGN CHOICE, log entry 198). -/
def Index.nodeUnits (x : Index) : Nat := ceilDiv x.capacity 16
def Index.rerankUnits (x : Index) : Nat := if x.rerankStore then ceilDiv x.capacity (65536 / x.dim) else 0
def Index.columnAt (x : Index) : Nat := x.nodeUnits + x.rerankUnits
def Index.unitsFor (x : Index) : Nat := x.columnAt + ceilDiv x.capacity x.perUnit
def Index.codebookAt (x : Index) : Nat := x.unitsFor
def Index.siltAt (x : Index) : Nat := x.codebookAt + ceilDiv (2 * x.subq * x.centroids * x.sub) 65536

/-- The unit of a slot's rerank vector, and the codewords on which it lies; none spans two units. -/
def Index.rerankPlace (x : Index) (id : Nat) : Nat × Nat :=
  let per := 65536 / x.dim
  let off := id % per * x.dim
  (x.nodeUnits + id / per, (List.range (off % 4096 + x.dim |> (ceilDiv · 4096))).foldl (fun m i => m + 2 ^ (off / 4096 + i)) 0)

/-- A node record: 4,096 bytes (Table 9-6). -/
def Node.record (n : Node) (x : Index) (id : Nat) : List Byte :=
  fit (leBytes 5 id ++ leBytes 1 (b2n n.live + 2 * b2n n.silt) ++ leBytes 2 n.nbrs.length ++ leBytes 8 n.payload ++ leBytes 8 n.attr ++
    ((List.range 8).flatMap fun i => leBytes 8 (n.nums.getD i 0)) ++ leBytes 4 n.norm ++ leBytes 4 n.rscale ++ fit n.code 96 ++
    n.nbrs.flatMap fun e => fit (leBytes 5 e.1 ++ e.2) x.entryBytes) 4096

/-- A code-column entry: the attribute word, the numeric fields and the code (Table 9-1; their order is DEDUCED from R294, log entry 208). -/
def Node.column (n : Node) (x : Index) : List Byte :=
  fit (leBytes 8 n.attr ++ ((List.range x.numeric).flatMap fun i => leBytes 8 (n.nums.getD i 0)) ++ n.code) x.colBytes

/-- The bytes of one of an index's units, as it is written: what no slot takes is 0. -/
def Index.unitBytes (x : Index) (u : Nat) : List Byte :=
  let slot := fun (f : Node → List Byte) (n id : Nat) => (kvGet id x.nodes).elim (zeros n) f
  if u < x.nodeUnits then (List.range 16).flatMap fun i => slot (fun n => n.record x (16 * u + i)) 4096 (16 * u + i)
  else if u < x.columnAt then
    let per := 65536 / x.dim
    fit ((List.range per).flatMap fun i => slot (fun n => fit n.rerank x.dim) x.dim (per * (u - x.nodeUnits) + i)) 65536
  else if u < x.codebookAt then
    fit ((List.range x.perUnit).flatMap fun i => slot (fun n => n.column x) x.colBytes (x.perUnit * (u - x.columnAt) + i)) 65536
  else if u < x.siltAt then fit (slice x.codebook (65536 * (u - x.codebookAt)) 65536) 65536
  else (List.range 65536).map (Config.siltBytes x.siltList)

/-- The units in which some slots stand: node records, rerank vectors and code-column entries (Table 9-1). -/
def Index.unitsOf (x : Index) (ids : List Nat) : List Nat :=
  ((ids.map (· / 16)) ++ (if x.rerankStore then ids.map fun i => (x.rerankPlace i).1 else []) ++ ids.map fun i => x.columnAt + i / x.perUnit).eraseDups

/-- Units of an index are written for a command, each whole (R231, R279). -/
def writeIndex (key : CmdKey) (i : Nat) (x : Index) (us : List Nat) (acked : Bool) (s : State) : State :=
  us.foldl (fun s u => placeUnit key (indexOwner i) u (x.unitBytes u) acked s) s

/-- Nodes in breadth-first order: those found, then those still to be looked at. -/
def Index.breadth (x : Index) : Nat → List Nat → List Nat → List Nat
  | 0, _, found => found
  | _, [], found => found
  | n + 1, j :: rest, found => match kvGet j x.nodes with
    | none => x.breadth n rest found
    | some d => if found.contains j then x.breadth n rest found else x.breadth n (rest ++ d.nbrs.map (·.1)) (found ++ [j])

/-- The node records that the hot region holds: those near the entry node, in breadth-first order, as many as fit HOT_MIB (Table 9-1). -/
def Index.hotSet (x : Index) : List Nat :=
  (x.breadth (1 + x.nodes.length + (x.nodes.map fun d => d.2.nbrs.length).sum) [x.entry] []).take (256 * x.hotMib)

/-- The largest degree (Table 9-5). -/
def Index.degreeMax (x : Index) : Nat :=
  match x.codeBytes with
  | 64 => 54
  | 96 => 37
  | _ => 64

/-- MiB of the silt list and the attribute sample, and of the hot region, each rounded up to 2 MiB (Table 9-1). -/
def Index.listMib (x : Index) : Nat :=
  2 * ceilDiv (x.siltMax * (x.codeBytes + 24 + 8 * x.numeric)) 2097152 + 2 * ceilDiv (x.capacity / 1024 * (8 + 8 * x.numeric)) 2097152
def Index.hotCharge (x : Index) : Nat := 2 * ceilDiv x.hotMib 2

/-- Width of the index's vector type. -/
def Index.vecBytes (x : Index) : Nat := x.dim * typeWidth x.vecType

/-- The descriptor of a payload (Table 9-4). -/
def indexOf (p : List Byte) (owner : Nat) : Index :=
  let b := fun i => fieldAt p i 1
  { owner := owner, state := .empty, distance := b 2, subq := b 3, codeBits := b 4, degree := b 5, numeric := b 6, vecType := b 7,
    dim := fieldAt p 8 2, sessions := b 10, rerankStore := bit (b 11) 0, capacity := fieldAt p 12 8, siltMax := fieldAt p 20 4,
    hotMib := fieldAt p 24 4, numTypes := (List.range 8).map fun i => b (28 + i), beam := fieldAt p 36 2, width := b 38,
    hopMax := b 39, rerank := b 40, settlePct := b 41, units := 0, codebook := [], hot := [], entry := 0, nodes := [], siltList := [],
    pass := none, landMib := 0, badTombs := [], quarantine := [], ending := none, key := 0, wrapped := [] }

/-- The fields lie in Tables 9-4 and 9-5 (R283). -/
def Index.fieldsOk (x : Index) (p : List Byte) : Bool :=
  [1, 2, 3].contains x.distance && [16, 32, 64, 96].contains x.subq && (decide (x.codeBits = 4) || decide (x.codeBits = 8)) &&
  decide (8 ≤ x.degree) && decide (x.degree ≤ x.degreeMax) && decide (x.numeric ≤ 8) && [9, 10, 11].contains x.vecType &&
  decide (16 ≤ x.dim) && decide (x.dim ≤ 4096) && decide (x.dim % x.subq = 0) && decide (x.sessions < 16) &&
  decide (fieldAt p 11 1 ≤ 1) && decide (1024 ≤ x.capacity) && decide (x.capacity ≤ 16000000000) && decide (4096 ≤ x.siltMax) &&
  decide (x.siltMax ≤ 67108864) &&
  (x.numTypes.zipIdx.all fun t => if t.2 < x.numeric then decide (1 ≤ t.1) && decide (t.1 ≤ 12) else decide (t.1 = 0)) &&
  decide (1 ≤ x.beam) && decide (x.beam ≤ 1024) && decide (1 ≤ x.width) && decide (x.width ≤ 64) && decide (1 ≤ x.hopMax) &&
  decide (x.rerank ≤ 4) && (x.rerankStore || decide (x.rerank = 0)) &&
  (decide (x.settlePct = 0) || (decide (10 ≤ x.settlePct) && decide (x.settlePct ≤ 90))) && decide (fieldAt p 42 22 = 0)

/-- The code of an index state in a reply. -/
def IndexState.code (s : IndexState) : Byte :=
  Config.indexStateCode (match s with
    | .empty => 0
    | .building => 1
    | .ready => 2
    | .dormant => 3
    | .emptyDormant => 3)

/-- The INDEX_CREATE reply (Table 9-3). -/
def Index.created (x : Index) : List Byte := leBytes 8 x.units ++ leBytes 4 x.landMib ++ [x.state.code] ++ zeros 3

/-- One index changed. -/
def modIndex (i : Nat) (f : Index → Index) (s : State) : State := { s with indexes := kvMod i f s.indexes }

/-- Until the owner secret has been presented, every command on indexes completes LIFECYCLE_DENIED (R281). -/
def indexed (f : Cmd → Ctx → State → State) (c : Cmd) (x : Ctx) (s : State) : State := if !s.keysPresent then fail c stLifecycle s else f c x s

/-- INSERT and DELETE take the status that refuses writes while one is in force (Table 9-14, log entry 161). -/
def writable (c : Cmd) (f : State → State) (s : State) : State :=
  if s.writeProtected then fail c stWriteProtected s else if s.media.spareOut then fail c stSpareExhausted s else f s

/-- INDEX_CREATE in MODE new (R282, R283). A payload that names neither mode is refused here. -/
def indexCreateNew (c : Cmd) (_ : Ctx) (s : State) : State :=
  let p := c.payload
  if p.length = 64 ∧ fieldAt p 1 1 = 2 then s
  else
    let i := fieldAt p 0 1
    let x := indexOf p c.key.ctx
    let total := (s.indexes.map fun y => y.2.capacity).sum
    let ok := decide (p.length = 64) && decide (fieldAt p 1 1 = 1) && decide (i < 64) && x.fieldsOk p && (kvGet i s.indexes).isNone &&
      decide (total + x.capacity ≤ 16000000000) && decide (x.unitsFor ≤ s.unassigned)
    stored c ok (protectedBy c fun s =>
      let mib := x.listMib + x.hotCharge
      if !(modCmd c.key (fun c => { c with stagedKib := 0 }) s).fits c.key.ctx (1024 * mib) then fail c stQuota s
      else
        let (key, s) := takeFree s
        let x := { x with units := x.unitsFor, landMib := mib, key := key, wrapped := s.wrap key }
        reply c stOk x.created (writeRoots { holdKey key s with indexes := kvSet i x s.indexes })) s

def execIndexCreateNew (k : CmdKey) (s : State) : Out := .next (withCtx 0x40 k (indexed indexCreateNew) s)

/-- The session's bit is set in the index's mask (R280). -/
def Index.lets (x : Index) (session : Nat) : Bool := maskAllows x.sessions session

/-- What opening an index loads into the Landing: the silt list, the units with the attributes of the sample, and the records of the hot region, each
with the codewords needed (R284; where the silt list and the sample stand is log entry 208). -/
def Index.loads (x : Index) (i : Nat) : List (Nat × Nat × Nat) :=
  let sample := ((x.nodes.filter fun d => decide (d.1 % 1024 = 0)).map fun d => x.columnAt + d.1 / x.perUnit).eraseDups
  let hot := x.hotSet
  let records := (hot.map (· / 16)).eraseDups.map fun u => (indexOwner i, u, ((hot.filter fun j => decide (j / 16 = u)).map fun j => 2 ^ (j % 16)).sum)
  (indexOwner i, x.siltAt, 0xFFFF) :: (sample.map fun u => (indexOwner i, u, 0xFFFF)) ++ records

/-- INDEX_CREATE in MODE open, of a DORMANT index or one EMPTY and DORMANT (R284, R309). The owner is charged at once; the index is READY once its
Landing parts have been loaded, and until then its commands find it DORMANT. -/
def indexCreateOpen (c : Cmd) (_ : Ctx) (s : State) : State :=
  let p := c.payload
  if p.length ≠ 64 ∨ fieldAt p 1 1 ≠ 2 then s
  else
    let i := fieldAt p 0 1
    match kvGet i s.indexes with
    | none => fail c stInvalid s
    | some x =>
      let empty := decide (x.state = .emptyDormant)
      let loading := decide (c.tally = 1) && decide (x.owner = c.key.ctx)
      stored c ((decide (x.state = .dormant) || empty) && (decide (x.owner = 1024) || loading) && decide (fieldAt p 10 1 < 16)) (fun s =>
        let y := { x with sessions := fieldAt p 10 1, hotMib := if fieldAt p 24 4 = 0 then x.hotMib else fieldAt p 24 4 }
        let mib := if empty then y.listMib else y.listMib + y.hotCharge
        if !loading ∧ !(modCmd c.key (fun c => { c with stagedKib := 0 }) s).fits c.key.ctx (1024 * mib) then fail c stQuota s
        else
          let y := { y with owner := c.key.ctx, landMib := mib }
          if empty then
            let y := { y with state := .empty }
            reply c stOk y.created { s with indexes := kvSet i y s.indexes }
          else
            withUnits c (y.loads i) (fun s =>
              let y := { y with state := .ready, hot := y.hotSet }
              reply c stOk y.created { s with indexes := kvSet i y s.indexes })
              (modCmd c.key (fun c => { c with tally := 1 }) { s with indexes := kvSet i y s.indexes })) s

def execIndexCreateOpen (k : CmdKey) (s : State) : Out := .next (withCtx 0x40 k (indexed indexCreateOpen) s)

/- Vectors and codes (R286 to R289) -/

/-- A floating element as the search engine reads it: FP32 and BF16 subnormals read as zero of their sign (R345). -/
def readFloat (type_ : Nat) (w : Nat) : FVal :=
  let v := (typeFmt type_).decode w
  match v with
  | .num n m => if type_ ≠ 9 ∧ m < pow2 (-126) then .num n 0 else v
  | _ => v

/-- The elements of a vector. -/
def readVector (type_ dim : Nat) (p : List Byte) : List FVal :=
  let w := typeWidth type_
  (List.range dim).map fun i => readFloat type_ (fieldAt p (w * i) w)

/-- The vector's norm, and as an F32 word (R286, Table 9-6). -/
def normOf (v : List FVal) : ℚ := sqrtRat (v.map fun x => x.val * x.val).sum
def normWord (v : List FVal) : Nat := fp32.encode nearest 0 (.ofRat (normOf v))

/-- The vector as it is encoded: at unit norm for cosine (R286). -/
def Index.encoded (x : Index) (v : List FVal) : List ℚ := v.map fun e => if x.distance = 2 then e.val / normOf v else e.val

/-- A build or an insert takes the vector (R291). -/
def Index.vectorOk (x : Index) (v : List FVal) : Bool := v.all FVal.isNum && (decide (x.distance ≠ 2) || v.any fun e => decide (e.val ≠ 0))

/-- The centroid c of subquantiser j (Table 9-1): FP16 values, row-major. -/
def Index.centroid (x : Index) (j c : Nat) : List ℚ :=
  (List.range x.sub).map fun i => (fp16.decode (fieldAt x.codebook (2 * ((j * x.centroids + c) * x.sub + i)) 2)).val

def dot (a b : List ℚ) : ℚ := ((a.zip b).map fun p => p.1 * p.2).sum
def dist2 (a b : List ℚ) : ℚ := ((a.zip b).map fun p => (p.1 - p.2) * (p.1 - p.2)).sum

/-- The centroid nearest to a sub-vector; the first of equals (R286). -/
def Index.nearest (x : Index) (j : Nat) (v : List ℚ) : Nat :=
  ((List.range x.centroids).foldl (fun (best : Nat × Option ℚ) c =>
    let d := dist2 v (x.centroid j c)
    match best.2 with
    | none => (c, some d)
    | some b => if d < b then (c, some d) else best) (0, none)).1

/-- The product code of a vector (R286). -/
def Index.code (x : Index) (v : List ℚ) : List Byte :=
  let cs := (List.range x.subq).map fun j => x.nearest j ((v.drop (j * x.sub)).take x.sub)
  if x.codeBits = 8 then cs.map fun c => BitVec.ofNat 8 c
  else (List.range x.codeBytes).map fun i => BitVec.ofNat 8 (cs.getD (2 * i) 0 + 16 * cs.getD (2 * i + 1) 0)

/-- The index of subquantiser j in a code. -/
def Index.codeAt (x : Index) (code : List Byte) (j : Nat) : Nat :=
  if x.codeBits = 8 then (code.getD j 0#8).toNat
  else (code.getD (j / 2) 0#8).toNat / (if j % 2 = 0 then 1 else 16) % 16

/-- The rerank vector and its scale (R289). -/
def rerankOf (v : List ℚ) : Nat × List Byte :=
  let big := (v.map fun e => |e|).foldl max 0
  let w := fp32.encode nearest 0 (.ofRat (big / 127))
  let s := (fp32.decode w).val
  (w, v.map fun e =>
    if s = 0 then 0#8
    else
      let m := min 127 (roundNat nearest (|e| / s))
      if e < 0 then BitVec.ofNat 8 (256 - m) else BitVec.ofNat 8 m)

/-- A slot from a vector and its words: inserted, not yet linked (R290, R302). -/
def Index.node (x : Index) (v : List FVal) (attr payload : Nat) (nums : List Nat) (silt : Bool) : Node :=
  let e := x.encoded v
  let r := rerankOf e
  { live := true, silt := silt, tomb := false, removed := false, payload := payload, attr := attr, nums := nums,
    norm := if x.distance = 2 then normWord v else 0x3F800000, rscale := if x.rerankStore then r.1 else 0, code := x.code e,
    rerank := if x.rerankStore then r.2 else [], nbrs := [] }

/-- A slot counts as a live vector: live and not tombstoned. -/
def Node.alive (n : Node) : Bool := n.live && !n.tomb

/-- The neighbours that a build or a settling pass gives a node: up to DEGREE among the vectors it may link to (R292, R306). Which they are is a free
value. -/
def linkTo (degree free self : Nat) (among : List Nat) : List Nat :=
  let pool := among.filter fun i => decide (i ≠ self)
  if pool = [] then []
  else (((List.range degree).map fun i => pool.getD (Config.neighbour free (self * degree + i) % pool.length) 0).eraseDups)

/-- Neighbour entries, each with the neighbour's code (Table 9-6). -/
def entriesFor (nodes : KV Node) (ids : List Nat) : KV (List Byte) := ids.map fun j => (j, ((kvGet j nodes).map (·.code)).getD [])

/- Ownership -/

/-- A command of an index's owner (R280): INVALID_FIELD unless the index exists, is READY and belongs to the context. -/
def State.ownedIndex (s : State) (c : Cmd) : Option Index :=
  match kvGet (fieldAt c.payload 0 1) s.indexes with
  | none => none
  | some x => if x.owner = c.key.ctx ∧ x.ending = none then some x else none

/- INDEX_BUILD (R291, R292) -/

/-- The offset of numeric field i in the build head. -/
def buildNumOff (p : List Byte) (i : Nat) : Nat := fieldAt p (20 + 4 * i) 4

/-- A record's field of some bytes at an offset; none outside the record. -/
def recField (r : List Byte) (off n : Nat) : Option (List Byte) := if off + n ≤ r.length then some (slice r off n) else none

/-- One record of a build: its vector and words; none when it is skipped (R291). -/
def Index.buildRecord (x : Index) (p : List Byte) (unit ord : Nat) (r : List Byte) : Option (List FVal × Nat × Nat × List Nat) :=
  let word := fun (off n : Nat) (dflt : Nat) => if off = 0xFFFFFFFF then some dflt else (recField r off n).map leNat
  match recField r (fieldAt p 8 4) x.vecBytes, word (fieldAt p 12 4) 8 0, word (fieldAt p 16 4) 8 (16 * unit * 65536 + ord) with
  | some vb, some attr, some pay =>
    let nums := (List.range x.numeric).map fun i => word (buildNumOff p i) (typeWidth (x.numTypes.getD i 0)) 0
    let v := readVector x.vecType x.dim vb
    if nums.all (·.isSome) ∧ x.vectorOk v then some (v, attr, pay, nums.map (·.getD 0)) else none
  | _, _, _ => none

/-- Codebook bytes of a build: FP16 values that are finite (R292). -/
def freeCodebook (free n : Nat) : List Byte :=
  (List.range n).flatMap fun i =>
    let w := (Config.codebook free (2 * i)).toNat + 256 * (Config.codebook free (2 * i + 1)).toNat
    leBytes 2 (if (fp16.decode w).isNum then w else 0)

/-- Numbers spread evenly over n: the records that a build samples (R292). -/
def spread (most n : Nat) : List Nat := let m := min most n; (List.range m).map fun i => i * n / m

/-- The distance of two vectors as they are encoded (R287), exactly. -/
def Index.distanceOf (x : Index) (a b : List ℚ) : ℚ := if x.distance = 3 then dist2 a b else -dot a b

/-- The medoid of a sample: the least sum of distances to the others, the first of equals (R292; DESIGN CHOICE, log entry 208). -/
def Index.medoid (x : Index) (vs : List (Nat × List ℚ)) : Nat :=
  ((vs.foldl (fun (best : Option (Nat × ℚ)) v =>
    let d := (vs.map fun w => x.distanceOf v.2 w.2).sum
    match best with
    | none => some (v.1, d)
    | some b => if d < b.2 then some (v.1, d) else best) none).map (·.1)).getD 0

/-- The build itself, over the records of the readable units: codebooks, codes, the graph with its entry node at the medoid of the sample, and the hot
region (R292). -/
def Index.built (x : Index) (free sample : Nat) (vs : List (List FVal × Nat × Nat × List Nat)) : Index :=
  let x := { x with codebook := freeCodebook free (x.subq * x.centroids * x.sub) }
  let ids := List.range vs.length
  let nodes := vs.zipIdx.map fun v => (v.2, x.node v.1.1 v.1.2.1 v.1.2.2.1 v.1.2.2.2 false)
  let linked := nodes.map fun d => (d.1, { d.2 with nbrs := entriesFor nodes (linkTo x.degree free d.1 ids) })
  let picked := (spread (if sample = 0 then 1048576 else sample) vs.length).filterMap fun j => (vs[j]?).map fun v => (j, x.encoded v.1)
  let y := { x with nodes := linked, entry := x.medoid picked, siltList := [] }
  { y with hot := y.hotSet }

/-- INDEX_BUILD (R291, R292). The index is BUILDING until the reply departs (Tables 9-2 and 9-13), and EMPTY again when the build fails. -/
def indexBuild (c : Cmd) (_ : Ctx) (s : State) : State :=
  let p := c.payload
  let i := fieldAt p 0 1
  let n := fieldAt p 1 1
  let record := fieldAt p 4 4
  let es := extentsAt p 64 n
  let ex := es.map (·.1)
  match s.ownedIndex c with
  | none => fail c stInvalid s
  | some x =>
    let building := decide (c.tally = 1) && decide (x.state = .building)
    let ok := decide (p.length = 64 + 16 * n) && decide (1 ≤ n) && decide (n ≤ 16) && decide (fieldAt p 2 1 ≤ 1) &&
      decide (fieldAt p 3 1 = 0) && decide (8 ≤ record) && decide (record ≤ 65536) && decide (fieldAt p 52 4 ≤ 16777216) &&
      decide (fieldAt p 56 8 = 0) && s.extentsOk c.key.session es && (decide (x.state = .empty) || building) &&
      decide ((s.scanUnits ex).length * (65536 / record) ≤ x.capacity)
    stored c ok (fun s =>
      let hot := x.listMib + x.hotCharge - x.landMib
      if s.writeProtected then fail c stWriteProtected s
      else if s.media.spareOut then fail c stSpareExhausted s
      else if !(modCmd c.key (fun c => { c with stagedKib := 0 }) s).fits c.key.ctx (1024 * hot) then fail c stQuota s
      else
        let s := modCmd c.key (fun c => { c with tally := 1 }) (modIndex i (fun y => { y with state := .building }) (seat c.key.ctx 1 s))
        withUnits c ((s.scanUnits ex).map fun u => (u.2.1, u.2.2, 0xFFFF)) (fun s =>
          let layout : Layout := ⟨1, 0, 0, 0, record, List.replicate 16 0⟩
          let q : Pred := ⟨1, layout, [], 0, []⟩
          let cut := cutScan ex (bit (fieldAt p 2 1) 0) (fun _ => 0) 0 ((s.scanUnits ex).map fun u => scanUnit q c s u.2.1 u.1 u.2.2)
          let all := cut.units.flatMap fun u => u.survivors.map fun r => x.buildRecord p u.unit r.ord r.body
          let vs := all.filterMap id
          let bad := badRanges cut.bad
          let body := fun (built : Nat) => leBytes 8 built ++ leBytes 8 (all.length - vs.length) ++ leBytes 8 all.length ++
            leBytes 2 bad.length ++ zeros 6 ++ bad.flatMap badBytes
          let (free, s) := takeFree s
          if cut.stopped then complete c stMediaUncorrectable true (body 0) 0 [] s
          else
            let y := { x.built free (fieldAt p 52 4) vs with state := .building, landMib := x.landMib + hot }
            let us := y.unitsOf (y.nodes.map (·.1)) ++ (List.range (y.siltAt + 1 - y.codebookAt)).map (y.codebookAt + ·)
            complete c cut.status (decide (cut.bad ≠ [])) (body vs.length) 0 [.indexReady i]
              (settleMedia (writeIndex c.key i y us true { s with indexes := kvSet i y s.indexes }))) s) s

def execIndexBuild (k : CmdKey) (s : State) : Out := .next (settleEnds (withCtx 0x41 k (indexed indexBuild) s))

end Sys2Proof.Machine
end

