-- ==== Sys2Proof/Machine/Search.lean ====
section
/-!
DEFINITION. Machine/Search.lean: similarity search (R293 to R301): the meanings of SEARCH, SEARCH_DATA_RETURN and
SEARCH_DEADLINE. A search waits for node records, code-column units and rerank vectors, which the return event delivers.
-/

namespace Sys2Proof.Machine

open Sys2Proof

/-- An F32 word as a number that orders as the values do; a NaN is last. -/
def f32Key (w : Nat) : Int :=
  let m := (w % 2 ^ 31 : Nat)
  if 2 ^ 31 - 2 ^ 23 < m then 2 ^ 32 else if w < 2 ^ 31 then m else -(m : Int)

/-- Nearer by a distance word and then by ID (R296). -/
def nearer (d : Cand → Nat) (a b : Cand) : Bool :=
  decide (f32Key (d a) < f32Key (d b)) || (decide (f32Key (d a) = f32Key (d b)) && decide (a.id ≤ b.id))

/-- A candidate put into its place in a list. -/
def insertCand (d : Cand → Nat) (c : Cand) : List Cand → List Cand
  | [] => [c]
  | a :: t => if nearer d c a then c :: a :: t else a :: insertCand d c t

/-- A list in order of a distance word. -/
def sortCands (d : Cand → Nat) (l : List Cand) : List Cand := l.foldl (fun acc c => insertCand d c acc) []

/-- The query as it is measured: at unit norm for cosine (R287); and whether it can be: its elements are numbers, its norm not 0 under cosine. -/
def Search.vector (q : Search) (x : Index) : List ℚ := x.encoded (readVector q.qType x.dim q.query)
def Search.measured (q : Search) (x : Index) : Bool := x.vectorOk (readVector q.qType x.dim q.query)

/-- Table entry (j, c) before scaling (R288). -/
def tableValue (x : Index) (v : List ℚ) (j c : Nat) : ℚ :=
  let sub := (v.drop (j * x.sub)).take x.sub
  if x.distance = 3 then dist2 sub (x.centroid j c) else -dot sub (x.centroid j c)

/-- A distance table's scale for entries of magnitude up to `big`: the free value where it keeps every entry within 32,768, else
the least power of 2 that does (R288). -/
def scaleFor (free : Nat) (big : ℚ) : ℚ :=
  let s := (fp32.decode (Config.tableScale free).toNat).val
  if pow2 (-126) ≤ s ∧ big ≤ 32768 * s then s
  else if big = 0 then 1 else pow2 (expOf (big / 32768) + (if big / 32768 = pow2 (expOf (big / 32768)) then 0 else 1))

/-- The scale of a search's table. -/
def tableScale (x : Index) (v : List ℚ) (free : Nat) : ℚ :=
  scaleFor free (((List.range x.subq).flatMap fun j => (List.range x.centroids).map fun c => |tableValue x v j c|).foldl max 0)

/-- The estimated distance of a code as an F32 word (R288): the FP32 sum of its entries in order of subquantiser, times the
scale, plus 1 for cosine. What overflows FP32 is infinitely far. -/
def codeDistance (x : Index) (v : List ℚ) (scale : ℚ) (code : List Byte) : Nat :=
  let entry := fun (j : Nat) => fp16.round (.ofRat (tableValue x v j (x.codeAt code j) / scale))
  let sum := (List.range x.subq).foldl (fun acc j => f32 (acc.add (entry j))) (.num false 0)
  let d := f32 (sum.mul (.ofRat scale))
  f32Word 0 (if x.distance = 2 then f32 (d.add (.ofRat 1)) else d)

/-- The reranked distance as an F32 word, in FP32 steps in order of element (R289). A NaN, where infinities of both signs meet, has a free payload. -/
def reranked (x : Index) (v : List ℚ) (nan : Nat) (n : Node) : Nat :=
  let s := fp32.decode n.rscale
  let e := n.rerank.map fun b => f32 (s.mul (.ofRat (if b.toNat < 128 then (b.toNat : ℚ) else (b.toNat : ℚ) - 256)))
  let sum := (v.zip e).foldl (fun (acc : FVal) p =>
    let a := FVal.ofRat p.1
    if x.distance = 3 then
      let d := f32 (a.sub p.2)
      f32 (acc.add (f32 (d.mul d)))
    else f32 (acc.add (f32 (a.mul p.2)))) (.num false 0)
  f32Word nan (if x.distance = 3 then sum else if x.distance = 2 then f32 ((FVal.ofRat 1).sub sum) else sum.neg)

/-- The attribute record that a filter sees (R294). -/
def Node.attributes (n : Node) (x : Index) : Rec :=
  ⟨0, leBytes 8 n.attr ++ (List.range x.numeric).flatMap fun i => leBytes 8 (n.nums.getD i 0), []⟩

/-- A match: live, not tombstoned, and passed by the filter (R295). -/
def Search.matches (q : Search) (x : Index) (n : Node) : Bool :=
  n.alive && match q.filter with
    | none => true
    | some f => f.passes fun t => (n.attributes x).fieldOf ⟨0, 0, 0, 0, 0, []⟩ t.field t.len

/-- A candidate for a slot with a code. A query that cannot be measured has free distances (log entry 40). -/
def Search.cand (q : Search) (x : Index) (id : Nat) (code : List Byte) (source : Nat) : Cand :=
  let v := q.vector x
  let e := if q.measured x then codeDistance x v (tableScale x v q.free) code else (Config.openDistance q.free id).toNat
  ⟨id, e, false, source, e⟩

/-- A candidate joins a list that keeps the nearest `most`, once. -/
def addCand (most : Nat) (c : Cand) (l : List Cand) : List Cand :=
  if l.any fun a => decide (a.id = c.id) then l.map fun a => if a.id = c.id then { a with source := Nat.lor a.source c.source } else a
  else (insertCand (·.est) c l).take most

/-- The estimated filtered set (R300): 1,024 for each sampled vector that passes, or the live vectors without a filter. -/
def Search.setSize (q : Search) (x : Index) : Nat :=
  let live := x.nodes.filter fun d => d.2.alive
  match q.filter with
  | none => live.length
  | some _ => 1024 * (live.filter fun d => decide (d.1 % 1024 = 0) && q.matches x d.2).length

/-- The reply (R296, R297). -/
def finishSearch (q : Search) (s : State) : State :=
  match findCmd q.key s, kvGet q.index s.indexes with
  | some c, some x =>
    let pool := if q.rerank = 0 then q.matches_ else q.matches_.take (q.rerank * q.k)
    let best := (sortCands (·.dist) pool).take q.k
    let payload := fun (id : Nat) => (kvGet id x.nodes).map (·.payload) |>.getD 0
    let body := best.flatMap fun r =>
      leBytes 5 r.id ++ leBytes 1 r.source ++ zeros 2 ++ leBytes 4 r.dist ++ leBytes 4 r.est ++ leBytes 8 (payload r.id)
    let short := decide (best.length < q.k)
    let reason := if q.cut then 4 else if q.fell then (if q.skipped then 5 else 1)
      else if q.interactive ∨ q.fallbackOff then 3 else 2
    let body := if short then body ++ leBytes 8 (2 ^ 64 - 1) ++ leBytes 4 best.length ++ leBytes 1 reason ++ zeros 3 ++ leBytes 8 q.estimate
      else body
    let kib := kib4 (body.length + 32 * trainLen body.length)
    let s := { s with searches := s.searches.filter fun r => decide (r.key ≠ q.key) }
    settleEnds (if s.resultsFit c kib then complete c (if short then stOkShort else stOk) short body kib [] s else fail c stQuota s)
  | _, _ => s

/-- A search's own record replaced. -/
def putSearch (q : Search) (s : State) : State := { s with searches := s.searches.map fun r => if r.key = q.key then q else r }

/-- Where a record that a search awaits stands among the units of its index, and the codewords that it takes: a node record, a rerank vector or a
unit of the code column (Table 9-1, R290). -/
def Search.record (q : Search) (x : Index) (id : Nat) : Nat × Nat :=
  match q.phase with
  | .fallback => (x.columnAt + id, 0xFFFF)
  | .rerank => x.rerankPlace id
  | _ => (id / 16, 2 ^ (id % 16))

/-- The search awaits records: those on flash are read, at its class, and node records of the hot region from the Landing (R295, R300). -/
def await (q : Search) (x : Index) (s : State) : State :=
  let cls := if q.interactive then Cls.interactive else .batch
  q.awaiting.foldl (fun s id =>
    let r := q.record x id
    if q.phase = .walk ∧ x.hot.contains id then chargeLanding q.key.ctx 4096 s
    else match s.entry (indexOwner q.index) r.1 with
      | some (.media a) => issueReads cls (.search q.key id) [(a, r.2)] s
      | _ => s) (putSearch q s)

/-- The rerank round: the RERANK × K nearest matches are read (R295). -/
def beginRerank (q : Search) (s : State) : State :=
  let ids := (q.matches_.take (q.rerank * q.k)).map (·.id)
  match kvGet q.index s.indexes with
  | none => s
  | some x => if ids = [] then finishSearch q s else await { q with phase := .rerank, awaiting := ids } x s

/-- Once the silt sweep has come round, the rerank (R295, R298). -/
def afterWalk (q : Search) (s : State) : State :=
  if q.sweep = [] then beginRerank q s else putSearch { q with phase := .sweep, awaiting := [] } s

/-- The sieves scan the occupied units of the code column with the filter, as a scan (R300): each engine that is needed must have a place for it, and the
search waits until they have (R266). -/
def beginFallback (q : Search) (x : Index) (s : State) : State :=
  let units := (x.nodes.map fun d => d.1 / x.perUnit).eraseDups
  let sieves := s.scanSieves (units.map fun u => (0, indexOwner q.index, x.columnAt + u))
  if units = [] then afterWalk q s
  else if !s.enginePlace q.key sieves then putSearch { q with awaiting := [] } s
  else await { q with awaiting := units, sieves := sieves } x s

/-- The walk has ended: with fewer than K matches a batch search may fall back (R295, R300). -/
def endWalk (q : Search) (x : Index) (s : State) : State :=
  if q.matches_.length < q.k ∧ !q.interactive then
    let q := { q with estimate := q.setSize x }
    if q.estimate ≤ q.fallbackMax ∧ !q.fallbackOff then
      beginFallback { q with fell := true, phase := .fallback, matches_ := q.matches_.filter fun c => bit c.source 0 } x s
    else afterWalk q s
  else afterWalk q s

/-- The next round of the walk, or its end (R295, R299). -/
def nextRound (q : Search) (x : Index) (s : State) : State :=
  let todo := (q.beam.filter fun c => !c.visited).take q.width
  if todo = [] ∨ q.hopMax ≤ q.rounds ∨ q.cut then endWalk { q with awaiting := [] } x s
  else
    let ids := todo.map (·.id)
    let q := { q with awaiting := ids, rounds := q.rounds + 1, beam := q.beam.map fun c => if ids.contains c.id then { c with visited := true } else c }
    await q x s

/-- A slot lies under a tombstone line that is uncorrectable (R559). -/
def Index.badSlot (x : Index) (id : Nat) : Bool := x.badTombs.any fun r => decide (r.1 ≤ id) && decide (id ≤ r.2)

/-- A search that reached such a slot completes MEMORY_UNCORRECTABLE (R559). -/
def searchFails (k : CmdKey) (s : State) : State :=
  match findCmd k s with
  | none => s
  | some c => settleEnds (fail c stMemoryUncorrectable { s with searches := s.searches.filter fun r => decide (r.key ≠ k) })

/-- Slots in a 64 KiB segment of the silt codes (R298, R331). -/
def Index.perSegment (x : Index) : Nat := max 1 (65536 / max 1 (ceilDiv (x.subq * x.codeBits) 8))

/-- The segments of a sweep that joins now. -/
def Index.segments (x : Index) : KV (List Nat) :=
  (List.range (ceilDiv x.siltList.length x.perSegment)).map fun i => (i, (x.siltList.drop (i * x.perSegment)).take x.perSegment)

/-- The number by which SEARCH_DATA_RETURN names a segment of the silt sweep: slots have 40 bits. -/
def siltId (n : Nat) : Nat := 2 ^ 40 + n

/-- A copy of the index's codebooks sits in the plot's scratchpad: the plot holds search contexts for the index (Table 9-1, R295). -/
def State.codebookOn (s : State) (p i : Nat) : Bool := s.searches.any fun q => decide (q.plot = p) && decide (q.index = i)

/-- The plot on which a context's next search runs: one that it stands on, has been given or was swapped out of, with a search context
free; one that holds the index's codebooks before one to which they must be ferried (R295, R330). -/
def State.searchPlot (s : State) (n kib i : Nat) : Option Nat :=
  let free := s.workPlots.filter fun p => s.hasPlace n p && s.takesSearch p n kib
  let on_ := fun (l : List Nat) => (l.find? fun p => s.codebookOn p i).or l.head?
  (on_ (free.filter fun p => (s.plot p).holds n)).or (on_ free)

/-- SEARCH (R280, R285, R293, R295, R298). -/
def searchIndex (c : Cmd) (ctx : Ctx) (s : State) : State :=
  let p := c.payload
  let b := fun i => fieldAt p i 1
  let i := b 0
  match kvGet i s.indexes with
  | none => fail c stInvalid s
  | some x =>
    let k := fieldAt p 4 2
    let qt := b 3
    let vlen := x.dim * typeWidth qt
    let inl := fieldAt p 20 4
    let g := p.drop (64 + vlen)
    let none_ : Layout := ⟨0, 0, 0, 0, 0, []⟩
    let filter := match b 1 with
      | 0 => some none
      | 1 => (s.scanOf c.key).bind fun q => if q.pred.target = 2 then some (some q.pred) else none
      | 2 => if programOk g none_ then some (some ⟨2, none_, [], fieldAt g 2 1, programTerms g⟩) else none
      | _ => none
    let ending := match x.ending with
      | none => false
      | some o => decide (o ≤ c.order)
    let ok := decide (x.state = .ready) && !ending && x.lets c.key.session && decide (64 ≤ p.length) && [9, 10, 11].contains qt &&
      decide (p.length = 64 + vlen + inl) && (decide (b 1 = 2) || decide (inl = 0)) && decide (1 ≤ k) && decide (k ≤ 1024) &&
      (decide (fieldAt p 6 2 = 0) || (decide (k ≤ fieldAt p 6 2) && decide (fieldAt p 6 2 ≤ 1024))) && decide (b 8 ≤ 64) &&
      (decide (b 10 ≤ 4) || decide (b 10 = 0xFF)) && decide (b 11 ≤ 1) && decide (fieldAt p 24 40 = 0) && filter.isSome
    stored c ok (fun s =>
      if c.admitted ∧ 1048576 < x.siltMax then fail c stClassNotAdmitted s
      else
        let s := seat c.key.ctx 1 s
        match s.searchPlot c.key.ctx ctx.sramKib i, (s.plots.images.find? fun i => decide (i.ctx = c.key.ctx)).map (·.plot) with
        | none, none => s
        | here, there =>
        let (free, s) := takeFree s
        let plot := here.getD (there.getD 0)
        let s := if s.codebookOn plot i then s else chargeLanding c.key.ctx x.codebook.length s
        let q : Search :=
          { key := c.key, plot := plot, index := i, k := k, beamMax := if fieldAt p 6 2 = 0 then max k x.beam else fieldAt p 6 2,
            width := if b 8 = 0 then x.width else b 8, hopMax := if b 9 = 0 then x.hopMax else b 9,
            rerank := if x.rerankStore then (if b 10 = 0xFF then x.rerank else b 10) else 0, fallbackOff := bit (b 11) 0,
            fallbackMax := if fieldAt p 12 8 = 0 then 50000000 else fieldAt p 12 8, query := slice p 64 vlen, qType := qt,
            filter := filter.getD none, interactive := c.admitted, arrived := c.arrived, phase := .walk, beam := [], matches_ := [],
            seen := [], rounds := 0, awaiting := [], sweep := x.segments, read := [], returned := [], cut := false, free := free, estimate := 0, fell := false, skipped := false, sieves := [] }
        let start := match kvGet x.entry x.nodes with
          | none => []
          | some n => [q.cand x x.entry n.code 0]
        let q := { q with beam := start, seen := start.map (·.id) }
        let s := modCmd c.key (fun c => { c with phase := .waiting (.search i) })
          { s with searches := s.searches ++ [q], scans := s.scans.filter fun r => decide (r.key ≠ c.key) }
        if q.seen.any x.badSlot then searchFails c.key s else nextRound q x s) s

/-- SEARCH begins; or one that waits for a place in the predicate engines, to fall back, goes on once there is one (R266, R300). -/
def execSearch (k : CmdKey) (s : State) : Out :=
  .next (match s.searches.find? fun q => decide (q.key = k) && decide (q.phase = .fallback) && decide (q.awaiting = []) with
    | none => withCtx 0x44 k (indexed searchIndex) s
    | some q => match kvGet q.index s.indexes with
      | none => s
      | some x => beginFallback q x s)

/-- A node record that came back enters its neighbours, with the codes that it holds of them, into the beam, and is kept when it matches (R290, R295,
R301). The visited set is exact
for 4,096 nodes, and after that may take an unvisited node for a visited one (R332). -/
def visit (q : Search) (x : Index) (id : Nat) : Search :=
  match kvGet id x.nodes with
  | none => q
  | some n =>
    let q := if q.matches x n then { q with matches_ := addCand (q.matches_.length + 1) (q.cand x id n.code (b2n n.silt)) q.matches_ } else q
    n.nbrs.foldl (fun q e =>
      if q.seen.contains e.1 ∨ (4096 ≤ q.seen.length ∧ Config.filterSees q.free e.1) then q
      else { q with seen := e.1 :: q.seen, beam := addCand q.beamMax (q.cand x e.1 e.2 0) q.beam }) q

/-- Of the vectors that the scan of the code column found, the K nearest stay, and the silt matches beside them (R300, log entry 168). -/
def Search.keepNearest (q : Search) : Search :=
  let near := ((q.matches_.filter fun c => bit c.source 1).take q.k).map (·.id)
  { q with matches_ := q.matches_.filter fun c => !bit c.source 1 || bit c.source 0 || near.contains c.id }

/-- A code-column unit's matches join by fallback (R300). -/
def fallUnit (q : Search) (x : Index) (u : Nat) : Search :=
  Search.keepNearest <| (x.nodes.filter fun d => decide (d.1 / x.perUnit = u)).foldl (fun q d =>
    if q.matches x d.2 then { q with matches_ := addCand (q.matches_.length + 1) (q.cand x d.1 d.2.code 2) q.matches_ } else q) q

/-- A rerank vector gives its candidate its reranked distance (R289, R301). -/
def rerankCand (q : Search) (x : Index) (id : Nat) : Search :=
  match kvGet id x.nodes with
  | none => q
  | some n => { q with matches_ := q.matches_.map fun c => if c.id = id then { c with
      dist := if q.measured x then reranked x (q.vector x) (Config.nan (q.free + id)).toNat n else (Config.openDistance q.free (2 ^ 40 + id)).toNat
      source := Nat.lor c.source 4 } else c }

/-- The codes of a segment are measured: each of its entries that matches is kept, marked as found in the silt list (R296, R298). -/
def sweepSegment (q : Search) (x : Index) (n : Nat) : Search :=
  let q' := ((kvGet n q.sweep).getD []).foldl (fun q j => match kvGet j x.nodes with
    | none => q
    | some d => if q.matches x d then { q with matches_ := addCand (q.matches_.length + 1) (q.cand x j d.code 1) q.matches_ } else q) q
  { q' with sweep := kvDel n q.sweep }

/-- A search waits for this data. -/
def Search.awaits (q : Search) (id : Nat) : Bool :=
  (q.awaiting.contains id || (decide (2 ^ 40 ≤ id) && (kvGet (id - 2 ^ 40) q.sweep).isSome)) && !(q.returned.any fun d => decide (d.1 = id))

/-- The slots that data tells of. -/
def Search.slotsOf (q : Search) (x : Index) (id : Nat) : List Nat :=
  if 2 ^ 40 ≤ id then (kvGet (id - 2 ^ 40) q.sweep).getD []
  else if q.phase = .fallback then (x.nodes.map (·.1)).filter fun j => decide (j / x.perUnit = id)
  else [id]

/-- The searches on a plot whose silt sweep of an index has not come round. -/
def State.swept (s : State) (p i : Nat) : List Search :=
  s.searches.filter fun q => decide (q.plot = p) && decide (q.index = i) && decide (q.sweep ≠ [])

/-- The segment that the circular pass of a plot over an index's silt codes measures next: from where it stands, the first that one of its searches
needs (R298). -/
def State.sweepAt (s : State) (p i : Nat) : Nat :=
  let need := sortNats ((s.swept p i).flatMap fun q => q.sweep.map (·.1))
  let at_ := (kvGet (64 * p + i) s.plots.sweeps).getD 0
  ((need.find? fun n => decide (at_ ≤ n)).or need.head?).getD at_

/-- A segment of the pass is measured against the tables of up to 16 searches at once, and the pass goes on to the next (R298). The codes come from the
Landing. -/
def sweepPass (q : Search) (x : Index) (n : Nat) (s : State) : State :=
  let group := ((q :: (s.swept q.plot q.index).filter fun r => decide (r.key ≠ q.key)).filter fun r => (kvGet n r.sweep).isSome).take 16
  let s := modPlots (fun y => { y with sweeps := kvSet (64 * q.plot + q.index) (n + 1) y.sweeps })
    (chargeLanding q.key.ctx (((kvGet n q.sweep).getD []).length * x.codeBytes) s)
  group.foldl (fun s r =>
    if (r.slotsOf x (siltId n)).any x.badSlot then searchFails r.key s
    else
      let r := sweepSegment r x n
      if r.phase = .sweep then afterWalk r s else putSearch r s) s

/-- The engine works on one node record, code-column unit, rerank vector or silt segment of a search; what could not be read is counted
(R295, R300, R301, R331). -/
def processData (q : Search) (x : Index) (id : Nat) (ok around : Bool) (s : State) : State :=
  let k := q.key
  if (q.slotsOf x id).any x.badSlot then searchFails k s
  else
    let s := modCmd k (fun c => { c with ra := c.ra || around }) (if ok then s else bumpErr 4 1 s)
    if 2 ^ 40 ≤ id then sweepPass q x (id - 2 ^ 40) (putSearch q s)
    else
      let q := { q with awaiting := q.awaiting.filter fun j => decide (j ≠ id) }
      let q := match q.phase, ok with
        | .walk, true => visit q x id
        | .fallback, true => fallUnit q x id
        | .fallback, false => { q with skipped := true }
        | .rerank, true => rerankCand q x id
        | _, _ => q
      if q.awaiting ≠ [] then putSearch q s
      else match q.phase with
        | .walk => nextRound q x s
        | .fallback => afterWalk { q with sieves := [] } s
        | .sweep => putSearch q s
        | .rerank => finishSearch q s

/-- A plot's search engine, when it is free, takes the first data that has returned for a search of the running context (R330, R331). -/
def engineStep (p : Nat) (s : State) : State :=
  match (s.plot p).running with
  | none => s
  | some n =>
    if (s.plot p).flights.any fun f => decide (f.unit = 4) then s
    else match s.searches.find? fun q => decide (q.key.context = some n) && decide (q.plot = p) && decide (q.returned ≠ []) && !s.stalled q.key with
      | none => s
      | some q => match q.returned, kvGet q.index s.indexes with
        | d :: ds, some x =>
          let q := { q with returned := ds }
          let s := putSearch q (modPlot p (fun y => { y with flights := y.flights ++ [⟨q.key, 0, 16, 4, [], [], s.now⟩] }) s)
          processData q x d.1 d.2.1 d.2.2 s
        | _, _ => s

/-- The data of a record is there to return: its page has been read, or the record stands in the Landing, and a poisoned unit's cannot be read. -/
def State.hasRead (s : State) (q : Search) (id : Nat) (ok around : Bool) : Bool :=
  q.read.contains (id, ok, around) ||
    (!(s.media.reads.any fun r => decide (r.for_ = .search q.key id)) && !(q.read.any fun d => decide (d.1 = id)) && !around &&
      decide (ok = match kvGet q.index s.indexes with
        | none => true
        | some x => decide (2 ^ 40 ≤ id) || decide (s.entry (indexOwner q.index) (q.record x id).1 ≠ some .poisoned)))

/-- Data returns for a search; its context becomes runnable on the search's plot, whose engine takes it up when it runs that context
(R133, R330, R331). -/
def searchReturn (k : CmdKey) (id : Nat) (ok around : Bool) (s : State) : State :=
  match s.searches.find? fun q => decide (q.key = k) with
  | none => s
  | some q =>
    if !q.awaits id ∨ !s.hasRead q id ok around ∨ (2 ^ 40 ≤ id ∧ siltId (s.sweepAt q.plot q.index) ≠ id) then s
    else
      let s := putSearch { q with read := q.read.filter fun d => decide (d.1 ≠ id), returned := q.returned ++ [(id, ok, around)] } s
      engineStep q.plot (settleIdle q.plot (refresh q.plot s))

def execSearchDataReturn (k : CmdKey) (id : Nat) (ok around : Bool) (s : State) : Out := .next (searchReturn k id ok around s)

/-- 3.8 ms after its arrival an interactive search's walk ends, its unneeded reads cancelled (R299). -/
def execSearchDeadline (k : CmdKey) (s : State) : Out :=
  .next (match s.searches.find? fun q => decide (q.key = k) with
    | none => s
    | some q =>
      match kvGet q.index s.indexes with
      | none => s
      | some x =>
        if q.interactive ∧ q.phase = .walk ∧ s.since q.arrived (3800 * countsUs) then endWalk { q with cut := true, awaiting := [], read := [], returned := q.returned.filter fun d => decide (2 ^ 40 ≤ d.1) } x s
        else s)

end Sys2Proof.Machine
end

