-- ==== Sys2Proof/Machine/TileMath.lean ====
section
/-!
DEFINITION. Machine/TileMath.lean: what the matrix, vector, quantise, move, search and check instructions compute (R313 to R333,
R352 to R367, R375 to R384), over the working state of a sequence.
-/

namespace Sys2Proof.Machine

open Sys2Proof

/- Matrix class -/

/-- A scaled operand read across its block axis is folded (R353, R376). -/
def foldedA (x : Ref) (trans : Bool) : Bool := x.decl.scaled && (trans != x.decl.axisCols)
def foldedB (x : Ref) (trans : Bool) : Bool := x.decl.scaled && (trans == x.decl.axisCols)

/-- An operand as the array reads it (R352, R353). -/
def Exec.matOp (e : Exec) (x : Ref) (trans folded : Bool) : MatOp :=
  let t := e.tile x.home
  let at_ := fun (r c : Nat) => if trans then (x.r0 + c, x.c0 + r) else (x.r0 + r, x.c0 + c)
  { val := fun r c =>
      let p := at_ r c
      if folded then t.value x.decl p.1 p.2 else t.bare x.decl p.1 p.2
    scale := fun r c =>
      let p := at_ r c
      if folded then some 1 else t.scaleAt x.decl p.1 p.2
    folded := folded
    fmt := x.decl.format }

/-- The pairs of one problem's output, each added to what the element holds (R323). -/
def Exec.product (e : Exec) (q : QProblem) (interval : Nat) (start : Nat → Nat → Pair) (m n : Nat) : Pair :=
  let a := e.ref q.a
  let b := e.ref q.b
  matPair (e.matOp a q.transA (foldedA a q.transA)) (e.matOp b q.transB (foldedB b q.transB)) interval q.k q.n e.free (start m n) m n

/-- The write of a matrix instruction: ROUND and STATIC (R358, R360). -/
def matWrite (w free : Nat) : Write := (Write.nearest (mStatic w) free).round (mRound w)

/-- The value that a forward pass wrote as this code against a learned scale (R366): free among those that give the code. -/
def forwardValue (d : TileDecl) (s : Option ℚ) (z code free i : Nat) (shown : FVal) : FVal :=
  let x := readWide fp32 (Config.forward free i).toNat
  if x.isNum ∧ narrowCode d.format nearest 0 s z x = code then x else shown

/-- The two gradients of one element of a block (R366): of the value, and the term it adds to the scale's gradient. -/
def scaleGrad (f : Nat) (s : ℚ) (z : Nat) (q x g : FVal) : FVal × FVal :=
  let zp := if fmtIsAsym f then (z : ℚ) else 0
  let u := x.val / s + zp
  let lo : ℚ := if fmtIsInt f then fmtLo f else -(fmtHi f)
  if lo ≤ u ∧ u ≤ fmtHi f then (g, f32 (g.mul (.ofRat (q.val - u))))
  else (.num false 0, f32 (g.mul (.ofRat (q.val - zp))))

/-- The range that a scale's gradient is divided by (R366). -/
def gradRange (f : Nat) : ℚ := fmtHi f

/-- MM with SG_X: gx into OUT, and one scale gradient for each block into SG_OUT (R366, R377). -/
def Exec.scaleGrads (e : Exec) (w : Nat) (g : Nat → Nat → FVal) : Exec :=
  let x := e.ref (wf w 2 23 12)
  let d := x.decl
  let t := e.tile x.home
  let parts : Nat → Nat → FVal × FVal := fun r c =>
    let i := d.index (x.r0 + r) (x.c0 + c)
    let p := t.groupEntry d (x.r0 + r) (x.c0 + c)
    let s := scaleVal d.bf16Scale p.1
    let code := e.code x r c
    let shown := e.value x r c
    match s with
    | some s => if s = 0 then (.num false 0, .num false 0)
      else scaleGrad d.format s p.2 (codeVal d.format code) (forwardValue d (some s) p.2 code e.free i shown) (g r c)
    | none => (.nan, .nan)
  let out := e.ref (wf w 2 11 0)
  let v : TileDecl := { d with rows := x.rows, cols := x.cols }
  let grad := fun (b : Nat) =>
    let terms := (List.range 32).map fun k =>
      let p := v.blockElem b k
      (parts p.1 p.2).2
    let sum := terms.foldl addPair Pair.zero
    match sum.total with
    | .num n m => f32 (.num n (m / sqrtRat (32 * gradRange d.format)))
    | y => y
  let sg := e.ref (wf w 3 11 0)
  let bytes := (List.range v.blocks).flatMap fun b => leBytes 4 (f32Word (Config.nan (e.free + b)).toNat (grad b))
  let e := e.write out (matWrite w e.free) fun r c => (parts r c).1
  let old := (e.tile sg.home).bytesOf sg
  e.put sg.home ((e.tile sg.home).putBytes sg (patch old 0 bytes))

/-- MM (R322, R323, R352 to R358, R376, R377). -/
def Exec.mm (e : Exec) (w : Nat) : Exec :=
  let q := mmProblem w
  if mDest w then
    let old := (kvGet (matGroup w) e.me.groups).getD ⟨q.m, q.n, [], 0⟩
    let start := fun (m n : Nat) => if mOpen w then Pair.zero else Pair.ofWords (old.pairs.getD (m * q.n + n) (0, 0))
    let pairs := (List.range (q.m * q.n)).map fun i =>
      (e.product q (mInterval w) start (i / q.n) (i % q.n)).words (Config.nan (e.free + i)).toNat
    (e.modSeq fun s => { s with groups := kvSet (matGroup w) ⟨q.m, q.n, pairs, 0⟩ s.groups }).take
  else
    let g := fun (m n : Nat) => (e.product q (mInterval w) (fun _ _ => Pair.zero) m n).total
    if wf w 2 23 12 = 0xFFF then (e.write (e.ref q.out) (matWrite w e.free) g).take else (e.scaleGrads w g).take

/-- MMQ: its problems, each onto its own tile (R317, R378). -/
def Exec.mmq (e : Exec) (w : Nat) : Exec :=
  (e.prog.problems w).foldl (fun e q =>
    (e.write (e.ref q.out) (matWrite w e.free) fun m n => (e.product q (mInterval w) (fun _ _ => Pair.zero) m n).total).take) e

/-- CLOSE: the group is rounded once into OUT and is no longer open (R322, R376). -/
def Exec.close (e : Exec) (w : Nat) : Exec :=
  match kvGet (matGroup w) e.me.groups with
  | none => e
  | some g =>
    let e := e.write (e.ref (wf w 2 11 0)) (matWrite w e.free) fun m n => (Pair.ofWords (g.pairs.getD (m * g.cols + n) (0, 0))).total
    (e.modSeq fun s => { s with groups := kvDel (matGroup w) s.groups }).take

/- Vector and quantise classes (R379, R380) -/

/-- The immediate of a vector word. -/
def vImm (w : Nat) : FVal := readWide fp32 (wf w 3 31 0)

/-- B as B_MODE has it. -/
def Exec.operandB (e : Exec) (w : Nat) (r c : Nat) : FVal :=
  match wf w 0 13 12 with
  | 0 => e.lane (e.ref (wf w 1 23 12)) r c
  | 1 => e.lane (e.ref (wf w 1 23 12)) 0 c
  | 2 => e.lane (e.ref (wf w 1 23 12)) r 0
  | _ => f32 (vImm w)

/-- The write of a vector instruction: nearest even. -/
def laneWrite (w free : Nat) : Write := Write.nearest (bit w 14) free

/-- OUT of a vector word written with values. -/
def Exec.laneOut (e : Exec) (w : Nat) (val : Nat → Nat → FVal) : Exec :=
  (e.write (e.ref (wf w 2 23 12)) (laneWrite w e.free) val).take

def Exec.laneA (e : Exec) (w : Nat) : Nat → Nat → FVal := e.lane (e.ref (wf w 1 11 0))

/-- An element-wise operation (Table 12-4). -/
def Exec.laneOp (e : Exec) (o : LaneOp) (w : Nat) : Exec :=
  let c := fun (r k : Nat) => if usesC (.lane o) then e.lane (e.ref (wf w 2 11 0)) r k else .num false 0
  e.laneOut w fun r k => o.value (e.laneA w r k) (e.operandB w r k) (c r k)

/-- A function of A. -/
def Exec.laneFn (e : Exec) (f : LaneFn) (w : Nat) : Exec := e.laneOut w fun r k => f.value (e.laneA w r k)

/-- B × f′(A). -/
def Exec.laneDfn (e : Exec) (f : LaneFn) (w : Nat) : Exec := e.laneOut w fun r k => f.grad (e.laneA w r k) (e.operandB w r k)

/-- Reductions along rows or columns: the result in column 0 or row 0, and 0 elsewhere. -/
def Exec.rowSum (e : Exec) (w : Nat) : Exec :=
  let a := e.ref (wf w 1 11 0)
  e.laneOut w fun r k => if k = 0 then (sumPairs e.free r Pair.zero ((List.range a.cols).map (e.laneA w r))).total else .num false 0
def Exec.colSum (e : Exec) (w : Nat) : Exec :=
  let a := e.ref (wf w 1 11 0)
  e.laneOut w fun r k => if r = 0 then (sumPairs e.free k Pair.zero ((List.range a.rows).map fun i => e.laneA w i k)).total else .num false 0

/-- The largest of some values; a NaN when any is one (Table 10-5). -/
def maxOf (xs : List FVal) : FVal := (xs.drop 1).foldl laneMax (xs.headD (.num false 0))

def Exec.rowMax (e : Exec) (w : Nat) : Exec :=
  let a := e.ref (wf w 1 11 0)
  e.laneOut w fun r k => if k = 0 then maxOf ((List.range a.cols).map (e.laneA w r)) else .num false 0
def Exec.colMax (e : Exec) (w : Nat) : Exec :=
  let a := e.ref (wf w 1 11 0)
  e.laneOut w fun r k => if r = 0 then maxOf ((List.range a.rows).map fun i => e.laneA w i k) else .num false 0

/-- A, with −∞ where column > row + IMM, IMM taken as an integer. -/
def Exec.maskUpper (e : Exec) (w : Nat) : Exec :=
  e.laneOut w fun r k => if (r : Int) + signed 32 (wf w 3 31 0) < k then .inf true else e.laneA w r k

/-- A NaN's binary32 word that keeps the sign of a source code. -/
def nanOf (f code : Nat) : Nat := (Config.nan (code + 2 ^ 32 * f)).toNat % 2 ^ 31 + (if bit code (fmtBits f - 1) then 2 ^ 31 else 0)

/-- CONVERT (R380): a conversion of a given value always gives the same code (R364). -/
def Exec.convert (e : Exec) (w : Nat) : Exec :=
  let a := e.ref (wf w 1 11 0)
  let b := e.ref (wf w 1 23 12)
  let nan := fun (i : Nat) =>
    let p := b.decl.place i
    nanOf a.decl.format (e.code a (p.1 - b.r0) (p.2 - b.c0))
  (e.write b { Write.nearest (bit w 10) e.free with nan := nan } (e.value a)).take

/- Move class (R381) -/

/-- COPY: a region's codes and scale entries move. -/
def Exec.copy (e : Exec) (w : Nat) : Exec :=
  let a := e.ref (wf w 1 11 0)
  let b := e.ref (wf w 1 23 12)
  let sr := 16 * wf w 2 5 0
  let sc := 16 * wf w 2 11 6
  let dr := 16 * wf w 2 17 12
  let dc := 16 * wf w 2 23 18
  let x : Ref := { b with r0 := b.r0 + dr, c0 := b.c0 + dc, rows := dim16 (wf w 3 5 0), cols := dim16 (wf w 3 11 6) }
  let from_ := fun (r c : Nat) => (a.r0 + sr + (r - x.r0), a.c0 + sc + (c - x.c0))
  let t := e.tile a.home
  e.put b.home ((e.tile b.home).rebuild b.decl x.inside (fun r c => t.code a.decl (from_ r c).1 (from_ r c).2)
    (fun p => t.groupEntry a.decl (from_ p.1 p.2).1 (from_ p.1 p.2).2))

/-- FILL: one value in every element of DST, with dynamic scales for a narrow one. -/
def Exec.fill (e : Exec) (w : Nat) : Exec :=
  let nan := fun (_ : Nat) => wf w 3 31 0
  (e.write (e.ref (wf w 1 23 12)) { Write.nearest false e.free with nan := nan } fun _ _ => vImm w).take

/- Search class (R383) -/

/-- An entry of the distance table before scaling (R288): L2, or the negated inner product. -/
def Exec.tableEntry (e : Exec) (w : Nat) (sub j c : Nat) : ℚ :=
  let a := e.ref (wf w 1 11 0)
  let b := e.ref (wf w 1 23 12)
  let q := fun (i : Nat) => (e.value a (wf w 3 15 0) (j * sub + i)).val
  let m := fun (i : Nat) => (e.value b c (j * sub + i)).val
  if wf w 0 9 8 = 3 then ((List.range sub).map fun i => (q i - m i) * (q i - m i)).sum
  else -((List.range sub).map fun i => q i * m i).sum

/-- TABLE: the distance table, and its scale in element 0 of SCALE. -/
def Exec.table (e : Exec) (w : Nat) : Exec :=
  let out := e.ref (wf w 2 11 0)
  let a := e.ref (wf w 1 11 0)
  let sub := a.cols / out.rows
  let big := ((List.range out.rows).flatMap fun j => (List.range out.cols).map fun c => |e.tableEntry w sub j c|).foldl max 0
  let s := scaleFor e.free big
  let sc := e.ref (wf w 2 23 12)
  let e' := e.write out (Write.nearest false e.free) fun j c => .ofRat (e.tableEntry w sub j c / s)
  let old := (e'.tile sc.home).bytesOf sc
  (e'.put sc.home ((e'.tile sc.home).putBytes sc (patch old 0 (leBytes 4 (f32Word 0 (.ofRat s)))))).take

/-- SCORE: each code's estimated distance in column 0 of OUT (R288). -/
def Exec.score (e : Exec) (w : Nat) : Exec :=
  let a := e.ref (wf w 1 11 0)
  let b := e.ref (wf w 1 23 12)
  let out := e.ref (wf w 2 11 0)
  let s := e.value (e.ref (wf w 2 23 12)) 0 0
  let code := fun (r j : Nat) => if bit w 10 then e.code a r (j / 2) / 16 ^ (j % 2) % 16 else e.code a r j
  let est := fun (r : Nat) =>
    let sum := (List.range b.rows).foldl (fun acc j => f32 (acc.add (e.value b j (code r j)))) (.num false 0)
    let d := f32 (sum.mul s)
    if wf w 0 9 8 = 2 then f32 (d.add (.num false 1)) else d
  (e.write out (Write.nearest false e.free) fun r c => if c = 0 then est r else e.value out r c).take

/-- A row's distance as a number that orders as the values do. -/
def rowBefore (a b : Nat × FVal) : Bool := a.2.lt b.2 || (!b.2.lt a.2 && (b.2.isNan || !a.2.isNan) && decide (a.1 ≤ b.1))

def insertRow (x : Nat × FVal) : List (Nat × FVal) → List (Nat × FVal)
  | [] => [x]
  | y :: t => if rowBefore x y then x :: y :: t else y :: insertRow x t

/-- TOPK: the K smallest of column 0 of A, ascending distance and then row; +∞ and −1 past them. -/
def Exec.topk (e : Exec) (w : Nat) : Exec :=
  let a := e.ref (wf w 1 11 0)
  let out := e.ref (wf w 2 11 0)
  let rows := ((List.range a.rows).map fun r => (r, e.value a r 0)).foldl (fun l x => insertRow x l) []
  let best := rows.take (wf w 3 15 0)
  (e.write out (Write.nearest false e.free) fun r c =>
    if c = 0 then (best[r]?.map (·.2)).getD (.inf false)
    else if c = 1 then (best[r]?.map fun (x : Nat × FVal) => FVal.num false x.1).getD (.num true 1)
    else e.value out r c).take

/- Check class (R333, R384) -/

/-- The CRC-32C of SRC's bytes in stored order with the seed of the word. -/
def Exec.tileCrc (e : Exec) (w : Nat) : Nat :=
  let a := e.ref (wf w 1 11 0)
  crcFrom (wf w 3 31 0) ((e.tile a.home).bytesOf a)

/-- WRITE: the CRC stored at OFFSET of DST. -/
def Exec.checkWrite (e : Exec) (w : Nat) : Exec :=
  let b := e.ref (wf w 1 23 12)
  let old := (e.tile b.home).bytesOf b
  e.put b.home ((e.tile b.home).putBytes b (patch old (wf w 2 19 0) (leBytes 4 (e.tileCrc w))))

/-- COMPARE finds a mismatch with the 4 bytes at OFFSET of DST. -/
def Exec.mismatch (e : Exec) (w : Nat) : Bool :=
  let b := e.ref (wf w 1 23 12)
  decide (fieldAt ((e.tile b.home).bytesOf b) (wf w 2 19 0) 4 ≠ e.tileCrc w)

/-- COMPARE: a mismatch sets BIT of the check word. -/
def Exec.compare (e : Exec) (w : Nat) : Exec :=
  if e.mismatch w then { e with run := { e.run with check := Nat.lor e.run.check (2 ^ wf w 0 12 8) } } else e

end Sys2Proof.Machine
end

