-- ==== Sys2Proof/Machine/Updates.lean ====
section
/-!
DEFINITION. Machine/Updates.lean: parameter blocks, the update rules and the reduction pass (R423 to R430, R436).
-/

namespace Sys2Proof.Machine

open Sys2Proof

/-- A parameter entry's 16 bytes (Table 14-1). -/
def paramOf (b : List Byte) : Param :=
  { w := bits (fieldAt b 0 2) 11 0, g := bits (fieldAt b 2 2) 11 0, uses := bits (fieldAt b 2 2) 14 12, rule := bits (fieldAt b 4 1) 3 0,
    round := bits (fieldAt b 4 1) 5 4, scales := bit (fieldAt b 4 1) 6, b1 := bits (fieldAt b 5 1) 3 0, b2 := bits (fieldAt b 5 1) 7 4,
    state := bits (fieldAt b 6 2) 11 0, mult := fieldAt b 8 2, decay := fieldAt b 10 2, modelTile := fieldAt b 12 2 }

/-- The entry's rule (R428). -/
def Param.ruleOf (p : Param) : Rule :=
  match p.rule with
  | 0 => .step
  | 1 => .sign
  | 2 => .signDecay
  | 3 => .adam
  | _ => if p.scales then .adam else if p.decay % 2 ^ 15 = 0 then .sign else .signDecay

/-- The step multiplier and λ of an entry (Table 14-1). -/
def Param.multOf (p : Param) : FVal := if p.mult = 0 then .num false 1 else readWide bf16 p.mult
def Param.decayOf (p : Param) : FVal := readWide bf16 p.decay

/-- Blocks of an entry (R423). -/
def Param.blocks (p : Param) (tiles : List TileDecl) : Nat :=
  let d := tiles.getD p.w (tileDecl [])
  if p.scales then d.blocks / 32 else d.blocks

/-- One block's update: what it is made to and how (R428, R385). -/
structure Upd where
  w      : Ref
  g      : Ref
  state  : Ref
  rule   : Rule
  round  : Nat
  scales : Bool
  param  : Param
  eta    : FVal
  frozen : List Nat
  deriving DecidableEq, Repr

/-- The update an entry makes from a gradient tile. -/
def Exec.updOf (e : Exec) (i : Nat) (p : Param) (g : Nat) (rule : Rule) (round : Nat) : Upd :=
  ⟨e.ref p.w, e.ref g, e.ref p.state, rule, round, p.scales, p, readWide fp32 e.run.eta, (kvGet i e.run.frozen).getD []⟩

/-- Blocks that an update is aimed at. -/
def Upd.blocks (u : Upd) : Nat := if u.scales then u.w.decl.blocks / 32 else u.w.decl.blocks

/-- Weight and gradient i of a block (R423, R428): represented values, or scales and scale gradients. -/
def Exec.weight (e : Exec) (u : Upd) (b i : Nat) : FVal :=
  let d := u.w.decl
  let t := e.tile u.w.home
  if u.scales then
    match scaleVal d.bf16Scale (t.entry d (32 * b + i)).1 with
    | some s => .num false s
    | none => .nan
  else
    let p := d.blockElem b i
    f32 (t.value d p.1 p.2)
def Exec.gradient (e : Exec) (u : Upd) (b i : Nat) : FVal :=
  if u.scales then readWide fp32 (fieldAt (e.tile u.g.home).elems (4 * (32 * b + i)) 4)
  else
    let p := u.w.decl.blockElem b i
    f32 ((e.tile u.g.home).value u.g.decl p.1 p.2)

/-- sign(g); sign(0) is 0. -/
def signOf (g : FVal) : FVal := if g.val = 0 then .num false 0 else .num g.isNeg 1

/-- Square roots, reciprocals and powers, free within the errors of Table 10-5. -/
def freeSqrt (free i : Nat) (x : FVal) : FVal := within (Config.adam free i).toNat (sqrtRat x.val) (2 * ulp32 (sqrtRat x.val))
def freeRecip (free i : Nat) (x : FVal) : FVal :=
  if x.val = 0 then .inf x.isNeg else within (Config.adam free i).toNat (1 / x.val) (ulp32 (1 / x.val))
def freePow (free i : Nat) (b : ℚ) (n : Nat) : FVal := within (Config.adam free i).toNat (b ^ n) (2 * ulp32 (b ^ n))

/-- β = 1 − 2^−B, with the value that 0 gives (Table 14-1). -/
def betaOf (b dflt : Nat) : ℚ := 1 - pow2 (-(if b = 0 then dflt else b : Nat))

/-- The block's state record (Table 11-7). -/
def Exec.record (e : Exec) (u : Upd) (b : Nat) : List Byte := slice (e.tile u.state.home).elems (72 * b) 72

/-- A stored average: FP8 E4M3 codes with a BF16 scale. -/
def average (rec_ : List Byte) (off scaleAt i : Nat) : FVal :=
  match scaleVal true (fieldAt rec_ scaleAt 2) with
  | some s => if s = 0 then .num false 0 else (codeVal 4 (fieldAt rec_ (off + i) 1)).mul (.num false s)
  | none => .nan

/-- The averages and the weight of ADAM_BC for element i (R428). -/
def Exec.adam (e : Exec) (u : Upd) (a : FVal) (b i : Nat) : FVal × FVal × FVal :=
  let r0 := e.record u b
  let t := fieldAt r0 68 4
  let g := e.gradient u b i
  let w := e.weight u b i
  let b1 := betaOf u.param.b1 3
  let b2 := betaOf u.param.b2 10
  let k := 8 * (32 * b + i)
  let mul := fun (x : ℚ) (v : FVal) => f32 ((FVal.ofRat x).mul v)
  let m := f32 ((mul b1 (average r0 0 64 i)).add (mul (1 - b1) g))
  let old := average r0 32 66 i
  let r := freeSqrt e.free k (f32 ((f32 ((mul b2 old).mul old)).add (f32 ((mul (1 - b2) g).mul g))))
  let c1 := f32 ((FVal.num false 1).sub (freePow e.free (k + 1) b1 (t + 1)))
  let c2 := freeSqrt e.free (k + 2) (f32 ((FVal.num false 1).sub (freePow e.free (k + 3) b2 (t + 1))))
  let mh := f32 (m.mul (freeRecip e.free (k + 4) c1))
  let rh := f32 (r.mul (freeRecip e.free (k + 5) c2))
  let q := f32 (mh.mul (freeRecip e.free (k + 6) (f32 (rh.add (.num false (pow2 (-26)))))))
  (m, r, f32 (w.sub (f32 (a.mul (f32 (q.add (f32 (u.param.decayOf.mul w))))))))

/-- The new weight of element i of a block (R428). -/
def Exec.newWeight (e : Exec) (u : Upd) (b i : Nat) : FVal :=
  let a := f32 (u.eta.mul u.param.multOf)
  let g := e.gradient u b i
  let w := e.weight u b i
  match u.rule with
  | .step => f32 (w.sub (f32 (a.mul g)))
  | .sign => f32 (w.sub (f32 (a.mul (signOf g))))
  | .signDecay => f32 (w.sub (f32 (a.mul (f32 ((signOf g).add (f32 (u.param.decayOf.mul w)))))))
  | .adam => (e.adam u a b i).2.2

/-- A block's gradient holds a NaN or an infinity (R430). -/
def Exec.nonfinite (e : Exec) (u : Upd) (b : Nat) : Bool := (List.range 32).any fun i => !(e.gradient u b i).isNum

/-- A block that the update leaves as it is: frozen (R436), or with a gradient that is not finite (R430). -/
def Exec.skips (e : Exec) (u : Upd) (b : Nat) : Bool := u.frozen.contains b || e.nonfinite u b

/-- The state record after a block's ADAM_BC step (R369, R428). -/
def Exec.newRecord (e : Exec) (u : Upd) (b : Nat) : List Byte :=
  let a := f32 (u.eta.mul u.param.multOf)
  let vs := (List.range 32).map fun i => e.adam u a b i
  let w := (Write.nearest false e.free).round u.round
  let store := fun (off : Nat) (xs : List FVal) =>
    let s := (dynamicScale 4 true (e.free + b) xs).1
    (s, xs.zipIdx.flatMap fun x => leBytes 1 (narrowCode 4 (w.up (off + 64 * b + x.2)) (w.nan (off + 64 * b + x.2)) (scaleVal true s) 0 x.1))
  let m := store 0 (vs.map (·.1))
  let r := store 32 (vs.map (·.2.1))
  m.2 ++ r.2 ++ leBytes 2 m.1 ++ leBytes 2 r.1 ++ leBytes 4 (min (2 ^ 32 - 1) (fieldAt (e.record u b) 68 4 + 1))

/-- W with its blocks updated (R429): static scales where its scales are learned; otherwise one span group at a time, a group
with a block left as it is keeping its scale. -/
def Exec.newTile (e : Exec) (u : Upd) : Tile :=
  let d := u.w.decl
  let t := e.tile u.w.home
  let w := (Write.nearest false e.free).round u.round
  if u.scales then
    let word := fun (n : Nat) =>
      if e.skips u (n / 32) then (t.entry d n).1 else learnedScale (wideCode 7 (w.up n) (w.nan n) (e.newWeight u (n / 32) (n % 32)))
    { t with scales := (List.range d.blocks).flatMap fun n =>
        let old := slice t.scales (n * d.entryBytes) d.entryBytes
        patch old 0 (leBytes 2 (word n)) }
  else
    let blockAt := fun (p : Nat × Nat) => d.blockOf p.1 p.2
    let val := fun (p : Nat × Nat) =>
      let b := blockAt p
      if e.skips u b then f32 (t.value d p.1 p.2) else e.newWeight u b (if d.axisCols then p.1 % 32 else p.2 % 32)
    let entry := fun (p : Nat × Nat) =>
      let es := d.groupElems p
      if d.learned ∨ es.any (fun q => e.skips u (blockAt q)) then t.entry d (blockAt p)
      else dynamicScale d.format d.bf16Scale (e.free + blockAt p) (es.map val)
    let code := fun (r c : Nat) =>
      let i := d.index r c
      if e.skips u (blockAt (r, c)) then t.code d r c
      else if d.scaled then
        let s := entry (d.groupStart r c)
        narrowCode d.format (w.up i) (w.nan i) (scaleVal d.bf16Scale s.1) s.2 (val (r, c))
      else wideCode d.format (w.up i) (w.nan i) (val (r, c))
    t.rebuild d (fun _ _ => true) code entry

/-- An update of every block (R428 to R430, R436), and its counts: updated, frozen skips, not finite. -/
def Exec.update (e : Exec) (u : Upd) : Exec × Nat × Nat × Nat :=
  let bs := List.range u.blocks
  let frozen := (bs.filter fun b => u.frozen.contains b).length
  let bad := (bs.filter fun b => !u.frozen.contains b && e.nonfinite u b).length
  let tile := e.newTile u
  let state := if u.rule = .adam then
      bs.foldl (fun (p : List Byte) b => if e.skips u b then p else patch p (72 * b) (e.newRecord u b)) (e.tile u.state.home).elems
    else []
  let e := e.put u.w.home tile
  let e := if u.rule = .adam then e.put u.state.home { e.tile u.state.home with elems := state } else e
  let e := { e with run := { e.run with skips := e.run.skips + frozen, nonfinite := e.run.nonfinite + bad } }
  (e.take, bs.length - frozen - bad, frozen, bad)

/-- The update of an instruction (R385). -/
def Exec.updateWord (e : Exec) (rule : Rule) (w : Nat) : Exec :=
  let i := wf w 2 19 12
  let p := e.prog.params.getD i (paramOf [])
  let u := e.updOf i { p with w := wf w 1 11 0, scales := bit w 10, state := wf w 2 11 0 } (wf w 1 23 12) rule (wf w 0 9 8)
  (e.update u).1

/-- A gradient tile cleared: scales 0, or FP32 zeros (R427). -/
def Exec.clearGrad (e : Exec) (n : Nat) : Exec :=
  match e.prog.tiles[n]? with
  | none => e
  | some d => e.put n (if d.scaled then { e.tile n with scales := zeros d.scaleBytes } else d.zero)

/-- The reduction pass of one entry (R427). -/
def Exec.reduce (e : Exec) (p : Param) : Exec :=
  let x := e.ref p.g
  let bufs := (List.range (p.uses + 1)).map fun i => p.g + 1 + i
  let sum := fun (r c : Nat) => (sumPairs e.free (x.decl.index r c) Pair.zero ((p.g :: bufs).map fun n => e.lane (e.ref n) r c)).total
  let e := (e.write x ((Write.nearest false e.free).round p.round) sum).take
  bufs.foldl (fun e n => e.clearGrad n) e

/-- The reduction pass of every entry. -/
def Exec.reduceAll (e : Exec) : Exec := e.prog.params.foldl (fun e p => e.reduce p) e

/-- Every G_ACC cleared, and every use buffer with them (R440, R442). -/
def Exec.clearAcc (e : Exec) : Exec := e.prog.params.foldl (fun e p => e.clearGrad p.g) e
def Exec.clearAll (e : Exec) : Exec :=
  e.prog.params.foldl (fun e p => (List.range (p.uses + 2)).foldl (fun e i => e.clearGrad (p.g + i)) e) e

end Sys2Proof.Machine
end

