-- ==== Sys2Proof/Machine/TileCheck.lean ====
section
/-!
DEFINITION. Machine/TileCheck.lean: the checks that PROGRAM_LOAD makes of an image, with the reasons of Table 12-8 (R315, R317,
R343, R352, R361, R365, R373, R374, R376 to R378, R382, R386 to R388, R391, R422 to R425).
-/

namespace Sys2Proof.Machine

open Sys2Proof

/-- A refusal of PROGRAM_LOAD: sequence or 0xFFFF, instruction or table entry, reason (Table 12-7). -/
abbrev LoadBad := Nat × Nat × Nat

/-- The first of some checks that fails. -/
def firstBad : List (Bool × Nat) → Option Nat
  | [] => none
  | (ok, r) :: t => if ok then firstBad t else some r

/-- The first refusal among numbered entries. -/
def firstAt {α : Type} (l : List α) (f : Nat → α → Option LoadBad) : Option LoadBad :=
  l.zipIdx.foldl (fun acc x => match acc with
    | some r => some r
    | none => f x.2 x.1) none

/- Reading the image (Table 12-5) -/

/-- The tables of an image, unchecked. -/
def parseProgram (image : List Byte) : Program :=
  let off := fun (i : Nat) => fieldAt image i 4
  { image := image, model := none,
    tiles := (List.range (fieldAt image 8 2)).map fun i => tileDecl (slice image (off 16 + 32 * i) 32),
    qdescs := (List.range (fieldAt image 10 2)).map fun i => qDesc (slice image (off 20 + 64 * i) 64),
    chains := (List.range (fieldAt image 5 1)).map fun i =>
      let c := slice image (off 24 + 32 * i) 32
      ⟨(List.range (min 16 (fieldAt c 0 1))).map fun k => fieldAt c (16 + k) 1, bit (fieldAt c 1 1) 0⟩,
    params := (List.range (fieldAt image 12 2)).map fun i => paramOf (slice image (off 28 + 16 * i) 16),
    seqs := (List.range (fieldAt image 6 2)).map fun i => (fieldAt image (off 32 + 8 * i) 4, fieldAt image (off 32 + 8 * i + 4) 4),
    chainBase := 0, homes := [], frozen := [], kib := 0 }

/-- The header, offsets and IMAGE_CRC (reason 0x01). -/
def headerOk (image : List Byte) : Bool :=
  let n := image.length
  let table := fun (at_ count size : Nat) => decide (count = 0) || decide (fieldAt image at_ 4 + size * count ≤ n)
  decide (64 ≤ n) && decide (n ≤ 16777200) && decide (fieldAt image 0 4 = 0x4B5A5450) && decide (fieldAt image 4 1 = 1) &&
    decide (fieldAt image 5 1 ≤ 16) && decide (1 ≤ fieldAt image 6 2) && decide (fieldAt image 6 2 ≤ 256) &&
    decide (1 ≤ fieldAt image 8 2) && decide (fieldAt image 8 2 ≤ 4095) && decide (fieldAt image 14 2 = 0) &&
    table 16 (fieldAt image 8 2) 32 && table 20 (fieldAt image 10 2) 64 && table 24 (fieldAt image 5 1) 32 &&
    table 28 (fieldAt image 12 2) 16 && table 32 (fieldAt image 6 2) 8 && decide (fieldAt image 36 4 ≤ n) &&
    decide (fieldAt image 40 4 = n) && decide (fieldAt image 44 4 = crc32c (patch image 44 (zeros 4))) && allZero (slice image 48 16)

/-- A sequence entry's offset and length (reason 0x01). -/
def seqEntryOk (image : List Byte) (q : Nat × Nat) : Bool :=
  decide (q.1 % 16 = 0) && decide (1 ≤ q.2) && decide (q.2 ≤ 65536) && decide (q.1 + 16 * q.2 ≤ image.length)

/- Tile declarations (reason 0x02) -/

/-- The layout of a tile: its parent's for a view (R391). -/
def laidOut (tiles : List TileDecl) (d : TileDecl) : TileDecl :=
  if d.source = 6 then
    match tiles[d.io % 4096]? with
    | some p => { p with rows := d.rows, cols := d.cols }
    | none => d
  else d

/-- A view lies inside a parent that is no view, on its boundaries (R391). -/
def viewOk (tiles : List TileDecl) (d : TileDecl) : Bool :=
  match tiles[d.io % 4096]? with
  | none => false
  | some p =>
    let n := 32 * p.span
    decide (p.source ≠ 6) && decide (d.vrow % 16 = 0) && decide (d.vcol % 16 = 0) && decide (d.vrow + d.rows ≤ p.rows) &&
      decide (d.vcol + d.cols ≤ p.cols) && (!p.scaled || decide ((if p.axisCols then d.vrow else d.vcol) % n = 0))

/-- A learned scale tile has BF16 scales and SPAN 1 (R365). -/
def learnedOk (d : TileDecl) : Bool := !d.learned || (d.bf16Scale && decide (d.span = 1))

/-- The raw bytes of a declaration obey Table 12-6. -/
def declBytesOk (b : List Byte) : Bool :=
  decide (fieldAt b 4 1 < 16) && !bit (fieldAt b 5 1) 7 && decide (bits (fieldAt b 5 1) 2 1 ≤ 2) && decide (fieldAt b 6 1 ≤ 6) &&
    decide (fieldAt b 7 1 = 0) && decide (fieldAt b 28 4 = 0) && (decide (fieldAt b 6 1 ≠ 6) || decide (fieldAt b 16 4 < 4096))

/-- Bytes of the input tiles' layouts (Table 12-9). -/
def inputBytes (tiles : List TileDecl) : Nat := (tiles.map fun d => if d.source = 2 then d.bytes else 0).sum

/-- Where the data of a tile lie (Table 12-6): constant and persistent data in the image, all of it or, for a persistent tile,
none (log entry 31); input tiles inside the run payload. -/
def tileDataOk (image : List Byte) (tiles : List TileDecl) (d : TileDecl) : Bool :=
  match d.source with
  | 1 => decide (d.dataLen = d.bytes) && decide (fieldAt image 36 4 + d.dataOff + d.dataLen ≤ image.length)
  | 4 => decide (d.dataLen = 0) || (decide (d.dataLen = d.bytes) && decide (fieldAt image 36 4 + d.dataOff + d.dataLen ≤ image.length))
  | 2 => decide (d.io + d.bytes ≤ inputBytes tiles)
  | _ => true

/-- A model tile matches the model image in shape, format and layout (R390). -/
def modelTileOk (model : Option (List Byte)) (d : TileDecl) (n : Nat) : Bool :=
  match model with
  | none => false
  | some m => decide (n < fieldAt m 8 4) && d.same (modelDecl m n)

def tileOk (image : List Byte) (model : Option (List Byte)) (tiles : List TileDecl) (b : List Byte) (d : TileDecl) : Bool :=
  declBytesOk b && (laidOut tiles d).shapeOk && learnedOk (laidOut tiles d) && (decide (d.source ≠ 6) || viewOk tiles d) &&
    tileDataOk image tiles d && (decide (d.source ≠ 5) || modelTileOk model d d.modelTile)

/- Quadrant descriptors and chains -/

/-- A descriptor's bytes (R378, reason 0x0C). -/
def qDescOk (b : List Byte) : Bool :=
  let n := fieldAt b 0 1
  decide (1 ≤ n) && decide (n ≤ 4) && allZero (slice b 1 15) && allZero (b.drop (16 + 12 * n)) &&
    (List.range n).all fun i =>
      let e := slice b (16 + 12 * i) 12
      decide (fieldAt e 6 1 < 64) && decide (fieldAt e 7 1 < 64) && decide (fieldAt e 8 1 < 64) && decide (fieldAt e 9 1 < 4) &&
        decide (fieldAt e 10 2 = 0)

/-- A chain entry (Table 12-5, reason 0x0B): 0xFF stands for a peer's member, in an EXTERNAL chain only. -/
def chainOk (seqs : Nat) (c : List Byte) : Bool :=
  let n := fieldAt c 0 1
  decide (2 ≤ n) && decide (n ≤ 16) && decide (fieldAt c 1 1 ≤ 1) && allZero (slice c 2 14) &&
    (List.range n).all fun i =>
      let m := fieldAt c (16 + i) 1
      decide (m < seqs) || (decide (m = 0xFF) && bit (fieldAt c 1 1) 0)

/-- The place of a sequence in a chain. -/
def Chain.at_ (c : Chain) (seq : Nat) : Option Nat := c.members.findIdx? fun m => decide (m = seq)

/- Parameters (R422 to R425) -/

/-- A gradient tile of R368 for W. -/
def gradOk (w g : TileDecl) : Bool :=
  decide (g.format = 5) && g.bf16Scale && !g.raw && decide (g.span = 1) && (g.axisCols == w.axisCols) && decide (g.rows = w.rows) &&
    decide (g.cols = w.cols)

/-- A scale-gradient tile for W: FP32 entries for every block (R366, R377). -/
def scaleGradOk (w g : TileDecl) : Bool := decide (g.format = 8) && g.scaleGrad && decide (w.blocks ≤ g.elems)

/-- The tile that holds gradients for W. -/
def gradTileOk (scales : Bool) (w g : TileDecl) : Bool := if scales then scaleGradOk w g else gradOk w g

/-- A BF16 step multiplier or decay: 0, or positive and finite. -/
def posOrZero (w : Nat) : Bool := decide (w < 0x7F80)

/-- The blocks of W divide its block axis (R423). -/
def blocksOk (w : TileDecl) (scales : Bool) : Bool :=
  if scales then decide (w.blocks % 32 = 0) else decide ((if w.axisCols then w.rows else w.cols) % 32 = 0) && decide (w.format ≤ 5 ∨ w.format = 7)

/-- One parameter entry (R425). -/
def paramBad (model : Option (List Byte)) (tiles : List TileDecl) (raw : List Byte) (p : Param) : Option Nat :=
  let d := fun (n : Nat) => tiles[n]?
  let kept := fun (n : Nat) => (d n).any fun x => decide (x.source = 4)
  let w := (d p.w).getD (tileDecl [])
  let adam := decide (p.ruleOf = .adam)
  firstBad [
    (decide (bits (fieldAt raw 0 2) 15 12 = 0) && !bit (fieldAt raw 2 2) 15 && decide (p.rule ≤ 3 ∨ p.rule = 15) && decide (p.round ≤ 1) &&
      !bit (fieldAt raw 4 1) 7 && decide (p.b1 ≤ 12) && decide (bits (fieldAt raw 6 2) 15 12 = 0) && posOrZero p.mult && posOrZero p.decay &&
      decide (fieldAt raw 14 2 = 0) && kept p.w && kept p.g && (decide (p.state = 0xFFF) || kept p.state), 4),
    (((List.range (p.uses + 2)).all fun i => (d (p.g + i)).any (gradTileOk p.scales w)) && (!p.scales || w.learned) && blocksOk w p.scales, 6),
    (if adam then (d p.state).any (fun s => s.raw && decide (72 * p.blocks tiles ≤ s.elemBytes)) else decide (p.state = 0xFFF), 4),
    (decide (p.modelTile = 0xFFFF) || modelTileOk model w p.modelTile, 2)]

/-- Two entries of one kind name one W, or two share an accumulator or a use buffer (R425). -/
def paramsClash (a b : Param) : Bool :=
  (decide (a.w = b.w) && (a.scales == b.scales)) || (decide (a.g ≤ b.g + b.uses + 1) && decide (b.g ≤ a.g + a.uses + 1))

/- Instructions -/

/-- Bits outside the layout of an operation are 0 (reason 0x03). -/
def reservedOk (k : TKind) (w : Nat) : Bool :=
  let z := fun (i hi lo : Nat) => decide (wf w i hi lo = 0)
  match k with
  | .mm | .close => z 0 31 24 && z 1 31 24 && z 2 31 24 && z 3 31 30
  | .mmq => z 0 31 24 && z 1 31 12 && z 2 31 24 && z 3 31 30
  | .lane _ | .fn _ | .dfn _ | .rowSum | .rowMax | .colSum | .colMax | .maskUpper => z 0 31 15 && z 1 31 24 && z 2 31 24
  | .convert => z 0 9 8 && z 0 31 11 && z 1 31 24 && z 2 31 0 && z 3 31 0
  | .copy => z 0 31 12 && z 1 31 24 && z 2 31 24 && z 3 31 12
  | .fill => z 0 31 12 && z 1 31 24 && z 2 31 0
  | .chainSend | .chainRecv => z 0 31 12 && z 1 31 24 && z 2 31 0 && z 3 31 0
  | .table | .score | .topk => z 0 31 11 && z 1 31 24 && z 2 31 24 && z 3 31 16 && (decide (k = .topk) || decide (1 ≤ wf w 0 9 8))
  | .checkWrite | .compare => z 0 31 13 && z 1 31 24 && z 2 31 20
  | .update _ => z 0 31 11 && z 1 31 24 && z 2 31 20 && z 3 31 0
  | .signal | .wait => z 0 31 8 && z 1 31 24 && z 2 31 0 && z 3 31 0
  | .sectionOpen => z 0 31 8 && z 1 31 11 && z 2 31 0 && z 3 31 0
  | .haltIf => z 0 31 8 && z 2 31 0 && z 3 31 0
  | .sectionClose | .endSeq => z 0 31 8 && z 1 31 0 && z 2 31 0 && z 3 31 0

/-- Multiply-accumulates of an operand format a cell does in four cycles (R313). -/
def rate4 (f : Nat) : Nat := if f ≤ 1 then 8 else if f = 7 then 1 else 4

/-- W of a problem under one dataflow, on an array or quadrant of n cells a side (R313 to R315, R317, R353). -/
def flowWork (n flow : Nat) (a b : Ref) (q : QProblem) : Nat :=
  let r := min (rate4 a.decl.format) (rate4 b.decl.format)
  let slow := fun (folded : Bool) (r : Nat) => if folded then min r 2 else r
  let fa := foldedA a q.transA
  let fb := foldedB b q.transB
  let work := fun (p l r : Nat) => p * max (ceilDiv (4 * l) r) n
  match flow with
  | 1 => work (ceilDiv q.k n * ceilDiv q.n n) q.m (slow fa r)
  | 2 => work (ceilDiv q.m n * ceilDiv q.n n) q.k (slow (fa || fb) r)
  | _ => work (ceilDiv q.m n * ceilDiv q.k n) q.n (slow fb r)

/-- The dataflow a problem runs with: the one named, or the one of least work, in the order of R314. -/
def workOf (n flow : Nat) (a b : Ref) (q : QProblem) : Nat :=
  if flow = 0 then min (flowWork n 1 a b q) (min (flowWork n 2 a b q) (flowWork n 3 a b q)) else flowWork n flow a b q

/-- The largest work an instruction may have (R315, R374). -/
def workMax : Nat := 13696

/-- A matrix operand: format (R343) and shape as stored. -/
def operandOk (x : Ref) (trans : Bool) (rows cols : Nat) : Bool :=
  decide (x.decl.format ≤ 5 ∨ x.decl.format = 7) && (if trans then decide (x.rows = cols) && decide (x.cols = rows)
    else decide (x.rows = rows) && decide (x.cols = cols))

/-- The interval fits an operand read along its block axis (R352). -/
def spanOk (x : Ref) (folded : Bool) (i : Nat) : Bool := !x.decl.scaled || folded || decide (i ≤ 32 * x.decl.span)

/-- One matrix problem's shape, work and interval checks. -/
def problemBad (tiles : List TileDecl) (w n : Nat) (toTile : Bool) (q : QProblem) : List (Bool × Nat) :=
  match tileRef tiles q.a, tileRef tiles q.b with
  | some a, some b =>
    let out := if toTile then (tileRef tiles q.out).any fun o => decide (o.rows = q.m) && decide (o.cols = q.n) else true
    [(operandOk a q.transA q.m q.k && operandOk b q.transB q.k q.n && out, 4),
     (decide (q.m * q.n * q.k ≤ 2 ^ 25) && decide (workOf n (mFlow w) a b q ≤ workMax), 5),
     (decide (wf w 0 12 11 ≠ 3) && decide (q.k % mInterval w = 0) && spanOk a (foldedA a q.transA) (mInterval w) &&
       spanOk b (foldedB b q.transB) (mInterval w), 6)]
  | _, _ => [(false, 4)]

/-- Output elements of a cycle (Table 12-4). -/
def laneRate : TKind → Nat
  | .fn .gelu => 16
  | .fn .softplus => 16
  | .fn _ => 32
  | .dfn .gelu => 8
  | .dfn .softplus => 8
  | .dfn _ => 16
  | _ => 64

/-- The shapes of a vector instruction (R379). -/
def laneShapes (tiles : List TileDecl) (k : TKind) (w : Nat) : Bool :=
  match tileRef tiles (wf w 1 11 0), tileRef tiles (wf w 2 23 12) with
  | some a, some o =>
    let same := fun (n : Nat) => (tileRef tiles n).any fun x => decide (x.rows = a.rows) && decide (x.cols = a.cols)
    let b := !usesB k || (match wf w 0 13 12 with
      | 0 => same (wf w 1 23 12)
      | 1 => (tileRef tiles (wf w 1 23 12)).any fun x => decide (x.cols = a.cols)
      | 2 => (tileRef tiles (wf w 1 23 12)).any fun x => decide (x.rows = a.rows)
      | _ => true)
    let c := !usesC k || same (wf w 2 11 0)
    (match k with
     | .rowSum | .rowMax => decide (o.rows = a.rows) && decide (o.cols = 16)
     | .colSum | .colMax => decide (o.rows = 16) && decide (o.cols = a.cols)
     | _ => b && c && decide (o.rows = a.rows) && decide (o.cols = a.cols))
  | _, _ => false

/-- Elements of a named tile, and its bytes with scales. -/
def refElems (tiles : List TileDecl) (n : Nat) : Nat := ((tileRef tiles n).map fun x => x.rows * x.cols).getD 0
def Ref.bytes (x : Ref) : Nat := { x.decl with rows := x.rows, cols := x.cols : TileDecl }.bytes
def Ref.elemBytes (x : Ref) : Nat := { x.decl with rows := x.rows, cols := x.cols : TileDecl }.elemBytes
def refBytes (tiles : List TileDecl) (n : Nat) : Nat := ((tileRef tiles n).map Ref.bytes).getD 0

/-- COPY: one format, scale format and layout; regions inside, on span boundaries for a narrow format (R381). -/
def copyBad (tiles : List TileDecl) (w : Nat) : List (Bool × Nat) :=
  match tileRef tiles (wf w 1 11 0), tileRef tiles (wf w 1 23 12) with
  | some a, some b =>
    let rows := dim16 (wf w 3 5 0)
    let cols := dim16 (wf w 3 11 6)
    let at_ := fun (r c : Nat) => 16 * (if a.decl.axisCols then r else c)
    let n := 32 * a.decl.span
    let one := { a.decl with rows := 0, cols := 0, source := 0 : TileDecl }
    let two := { b.decl with rows := 0, cols := 0, source := 0 : TileDecl }
    [(one.same two && decide (16 * wf w 2 5 0 + rows ≤ a.rows) && decide (16 * wf w 2 11 6 + cols ≤ a.cols) &&
        decide (16 * wf w 2 17 12 + rows ≤ b.rows) && decide (16 * wf w 2 23 18 + cols ≤ b.cols), 4),
     (!a.decl.scaled || (decide (at_ (wf w 2 5 0) (wf w 2 11 6) % n = 0) && decide (at_ (wf w 2 17 12) (wf w 2 23 18) % n = 0)), 6)]
  | _, _ => [(false, 4)]

/-- The search class (R383). -/
def searchOk (tiles : List TileDecl) (k : TKind) (w : Nat) : Bool :=
  let t := tileRef tiles
  let centroids := if bit w 10 then 16 else 256
  match k with
  | .table =>
    (match t (wf w 1 11 0), t (wf w 1 23 12), t (wf w 2 11 0), t (wf w 2 23 12) with
     | some a, some b, some o, some s =>
       decide (wf w 3 15 0 < a.rows) && decide (b.decl.format = 6) && decide (a.cols = b.cols) && decide (b.rows = centroids) &&
         decide (o.decl.format = 6) && decide (o.cols = centroids) && decide (a.cols % o.rows = 0) && decide (s.decl.format = 8) &&
         decide (s.rows = 16) && decide (s.cols = 16)
     | _, _, _, _ => false)
  | .score =>
    (match t (wf w 1 11 0), t (wf w 1 23 12), t (wf w 2 11 0), t (wf w 2 23 12) with
     | some a, some b, some o, some s =>
       decide (a.decl.format = 3) && decide (b.decl.format = 6) && decide (b.cols = centroids) &&
         decide (ceilDiv (if bit w 10 then b.rows else 2 * b.rows) 2 ≤ a.cols) && decide (o.decl.format = 8) && decide (o.rows = a.rows) &&
         decide (o.cols = 16) && decide (s.decl.format = 8) && decide (s.rows = 16) && decide (s.cols = 16)
     | _, _, _, _ => false)
  | _ =>
    (match t (wf w 1 11 0), t (wf w 2 11 0) with
     | some _, some o =>
       let n := wf w 3 15 0
       decide (1 ≤ n) && decide (n ≤ 1024) && decide (o.decl.format = 8) && decide (o.rows = roundUp n 16) && decide (o.cols = 16)
     | _, _ => false)

/-- The update class (R385, R425). -/
def updateBad (tiles : List TileDecl) (params : List Param) (r : Rule) (w : Nat) : List (Bool × Nat) :=
  match tileRef tiles (wf w 1 11 0), tileRef tiles (wf w 1 23 12) with
  | some x, some g =>
    let scales := bit w 10
    let blocks := if scales then x.decl.blocks / 32 else x.decl.blocks
    let state := if r = .adam then
        (tileRef tiles (wf w 2 11 0)).any fun s => s.decl.raw && s.decl.writable && decide (72 * blocks ≤ s.decl.elemBytes)
      else decide (wf w 2 11 0 = 0xFFF)
    [(decide (x.decl.source = 4 ∨ x.decl.source = 0) && decide (x.home = wf w 1 11 0) && state &&
        (params[wf w 2 19 12]?).any fun p => decide (p.w = wf w 1 11 0), 4),
     (decide ((if r = .adam then blocks else ceilDiv blocks 4) ≤ workMax), 5),
     (gradTileOk scales x.decl g.decl && (!scales || x.decl.learned) && blocksOk x.decl scales, 6),
     (decide (wf w 0 9 8 ≤ 1), 7)]
  | _, _ => [(false, 4)]

/-- What the fields of one instruction must obey, by operation. -/
def kindBad (p : Program) (k : TKind) (w : Nat) : List (Bool × Nat) :=
  let tiles := p.tiles
  let work := fun (n : Nat) => (decide (n ≤ workMax), 5)
  match k with
  | .mm =>
    let sg := decide (wf w 2 23 12 ≠ 0xFFF)
    problemBad tiles w 64 (!mDest w) (mmProblem w) ++
    [(!sg || (decide (wf w 0 12 11 = 0) && mGrad w && !mDest w && (match tileRef tiles (wf w 2 23 12), tileRef tiles (wf w 3 11 0) with
        | some x, some o => x.decl.learned && x.decl.scaled && decide (x.rows = (mmProblem w).m) && decide (x.cols = (mmProblem w).n) &&
          o.decl.scaleGrad && decide (o.decl.format = 8) && decide (x.rows * x.cols / 32 ≤ o.rows * o.cols)
        | _, _ => false)), 6),
     (decide (mRound w ≤ 1) && (decide (mRound w = 0) || mGrad w), 7)]
  | .mmq =>
    [(decide (wf w 1 11 0 < p.qdescs.length), 0x0C), (!mDest w && !mOpen w && decide (wf w 2 23 12 = 0), 0x0C)] ++
    ((p.qdescs.getD (wf w 1 11 0) []).flatMap (problemBad tiles w 32 true)) ++
    [(((p.qdescs.getD (wf w 1 11 0) []).all fun q => (match tileRef tiles q.a, tileRef tiles q.b,
        (p.qdescs.getD (wf w 1 11 0) []).head?.bind fun h => (tileRef tiles h.a).bind fun a => (tileRef tiles h.b).map fun b => (a, b) with
        | some a, some b, some h => decide (a.decl.format = h.1.decl.format) && decide (b.decl.format = h.2.decl.format)
        | _, _, _ => false)), 4),
     (decide (mRound w ≤ 1) && (decide (mRound w = 0) || mGrad w), 7)]
  | .close => [(decide (mRound w ≤ 1) && (decide (mRound w = 0) || mGrad w), 7)]
  | .lane _ | .fn _ | .dfn _ | .maskUpper =>
    [(laneShapes tiles k w, 4), work (ceilDiv (refElems tiles (wf w 2 23 12)) (laneRate k))]
  | .rowSum | .rowMax | .colSum | .colMax => [(laneShapes tiles k w, 4), work (ceilDiv (refElems tiles (wf w 1 11 0)) 64)]
  | .convert =>
    [((match tileRef tiles (wf w 1 11 0), tileRef tiles (wf w 1 23 12) with
       | some a, some b => decide (a.rows = b.rows) && decide (a.cols = b.cols)
       | _, _ => false), 4), work (ceilDiv (refElems tiles (wf w 1 23 12)) 128)]
  | .copy =>
    let bytes := (tileRef tiles (wf w 1 23 12)).map fun b => ({ b with rows := dim16 (wf w 3 5 0), cols := dim16 (wf w 3 11 6) } : Ref).bytes
    copyBad tiles w ++ [work (ceilDiv (bytes.getD 0) 128)]
  | .fill => [work (ceilDiv (refBytes tiles (wf w 1 23 12)) 128)]
  | .table => [(searchOk tiles k w, 4), work (ceilDiv (refElems tiles (wf w 1 23 12)) 64)]
  | .score =>
    let rows := ((tileRef tiles (wf w 1 11 0)).map (·.rows)).getD 0
    let subq := ((tileRef tiles (wf w 1 23 12)).map (·.rows)).getD 0
    [(searchOk tiles k w, 4), work (ceilDiv (rows * subq) 2048)]
  | .topk => [(searchOk tiles k w, 4), work (ceilDiv (((tileRef tiles (wf w 1 11 0)).map (·.rows)).getD 0) 16 + wf w 3 15 0)]
  | .checkWrite | .compare =>
    [((tileRef tiles (wf w 1 23 12)).any fun b => decide (wf w 2 19 0 % 4 = 0) && decide (wf w 2 19 0 + 4 ≤ b.elemBytes), 4),
     work (ceilDiv (((tileRef tiles (wf w 1 11 0)).map Ref.elemBytes).getD 0) 256)]
  | .update r => updateBad tiles p.params r w
  | .wait => [(decide (1 ≤ wf w 1 23 8), 0x0A)]
  | .sectionOpen => [(decide (1 ≤ wf w 1 10 0) && decide (wf w 1 10 0 ≤ 2000), 9)]
  | _ => []

/-- Declared tiles, and none written that may not be (R373, reason 0x04). -/
def usesOk (p : Program) (k : TKind) (w : Nat) : Bool :=
  let qs := p.problems w
  ((tilesRead k w qs ++ tilesWritten k w qs).all fun n => (tileRef p.tiles n).isSome) &&
    (tilesWritten k w qs).all fun n => (tileRef p.tiles n).any fun x => x.decl.writable

/-- One instruction by itself. -/
def instrBad (p : Program) (w : Nat) : Option Nat :=
  match kindOf w with
  | none => some 3
  | some k => firstBad ([(reservedOk k w, 3), (usesOk p k w, 4)] ++ kindBad p k w)

/-- W of an instruction (Table 12-2), given the pairs of the group it names. -/
def instrWork (p : Program) (pairs w : Nat) : Nat :=
  let tiles := p.tiles
  match kindOf w with
  | some .mm => (match tileRef tiles (wf w 1 11 0), tileRef tiles (wf w 1 23 12) with
    | some a, some b => workOf 64 (mFlow w) a b (mmProblem w)
    | _, _ => 0)
  | some .mmq => ((p.problems w).map fun q => match tileRef tiles q.a, tileRef tiles q.b with
    | some a, some b => workOf 32 (mFlow w) a b q
    | _, _ => 0).foldl max 0
  | some .close => ceilDiv pairs 64
  | some .chainSend => ceilDiv pairs 11
  | some .chainRecv => ceilDiv pairs 16
  | some .rowSum | some .rowMax | some .colSum | some .colMax => ceilDiv (refElems tiles (wf w 1 11 0)) 64
  | some .convert => ceilDiv (refElems tiles (wf w 1 23 12)) 128
  | some .copy => ceilDiv (((tileRef tiles (wf w 1 23 12)).map fun b =>
      ({ b with rows := dim16 (wf w 3 5 0), cols := dim16 (wf w 3 11 6) } : Ref).bytes).getD 0) 128
  | some .fill => ceilDiv (refBytes tiles (wf w 1 23 12)) 128
  | some .table => ceilDiv (refElems tiles (wf w 1 23 12)) 64
  | some .score => ceilDiv ((((tileRef tiles (wf w 1 11 0)).map (·.rows)).getD 0) * (((tileRef tiles (wf w 1 23 12)).map (·.rows)).getD 0)) 2048
  | some .topk => ceilDiv (((tileRef tiles (wf w 1 11 0)).map (·.rows)).getD 0) 16 + wf w 3 15 0
  | some .checkWrite | some .compare => ceilDiv (((tileRef tiles (wf w 1 11 0)).map Ref.elemBytes).getD 0) 256
  | some (.update r) =>
    let d := tiles.getD (wf w 1 11 0) (tileDecl [])
    let blocks := if bit w 10 then d.blocks / 32 else d.blocks
    if r = .adam then blocks else ceilDiv blocks 4
  | some (.lane o) => ceilDiv (refElems tiles (wf w 2 23 12)) (laneRate (.lane o))
  | some (.fn f) => ceilDiv (refElems tiles (wf w 2 23 12)) (laneRate (.fn f))
  | some (.dfn f) => ceilDiv (refElems tiles (wf w 2 23 12)) (laneRate (.dfn f))
  | some .maskUpper => ceilDiv (refElems tiles (wf w 2 23 12)) 64
  | _ => 0

/- Following a sequence (R376, R382, R387, R388) -/

/-- What is open along a sequence. -/
structure Follow where
  groups  : KV (Nat × Nat)
  /-- An open section's bound and the cycles in it so far. -/
  section_ : Option (Nat × Nat)
  ended   : Bool
  deriving DecidableEq, Repr

/-- Pairs held open on one array. -/
def Follow.open_ (f : Follow) (array : Nat) : Nat := (f.groups.map fun g => if g.1 / 8 = array then g.2.1 * g.2.2 else 0).sum

/-- The chain of a move word, and this sequence's place in it. -/
def chainPlace (p : Program) (seq w : Nat) : Option (Chain × Nat) :=
  (p.chains[wf w 1 11 0]?).bind fun c => (c.at_ seq).map fun i => (c, i)

/-- Groups along the sequence: what an instruction needs open and leaves open. -/
def followGroups (p : Program) (seq : Nat) (f : Follow) (k : TKind) (w : Nat) : Follow × Option Nat :=
  match k with
  | .mm =>
    if !mDest w then (f, none)
    else
      let q := mmProblem w
      (match kvGet (matGroup w) f.groups with
       | none =>
         if !mOpen w then (f, some 8)
         else
           let g := { f with groups := kvSet (matGroup w) (q.m, q.n) f.groups }
           if 16384 < g.open_ (mArray w) then (f, some 8) else (g, none)
       | some g => if mOpen w ∨ g ≠ (q.m, q.n) then (f, some 8) else (f, none))
  | .close =>
    (match kvGet (matGroup w) f.groups with
     | none => (f, some 8)
     | some g =>
       let ok := (tileRef p.tiles (wf w 2 11 0)).any fun o => decide (o.rows = g.1) && decide (o.cols = g.2)
       ({ f with groups := kvDel (matGroup w) f.groups }, if ok then none else some 8))
  | .chainSend =>
    (match chainPlace p seq w, kvGet (movGroup w) f.groups with
     | some (c, i), some _ => ({ f with groups := kvDel (movGroup w) f.groups }, if i + 1 = c.members.length then some 0x0B else none)
     | none, _ => (f, some 0x0B)
     | _, none => (f, some 8))
  | .chainRecv =>
    (match chainPlace p seq w, kvGet (movGroup w) f.groups with
     | some (_, i), some _ => (f, if i = 0 then some 0x0B else none)
     | none, _ => (f, some 0x0B)
     | _, none => (f, some 8))
  | _ => (f, none)

/-- Cycles that an instruction adds to an open section. -/
def followSection (p : Program) (f : Follow) (k : TKind) (w : Nat) : Follow × Option Nat :=
  let g := if k = .close then matGroup w else movGroup w
  let pairs := ((kvGet g f.groups).map fun x => x.1 * x.2).getD 0
  match k, f.section_ with
  | .sectionOpen, none => ({ f with section_ := some (wf w 1 10 0, 0) }, none)
  | .sectionOpen, some _ => (f, some 9)
  | .sectionClose, none => (f, some 9)
  | .sectionClose, some (b, n) => ({ f with section_ := none }, if n ≤ 700 * b then none else some 9)
  | .endSeq, some _ => (f, some 0x0A)
  | .haltIf, some _ => (f, some 0x0A)
  | _, some (b, n) => ({ f with section_ := some (b, n + instrWork p pairs w + 304) }, none)
  | _, none => (f, none)

/-- One sequence of the program, from an instruction on. -/
def followSeq (p : Program) (seq : Nat) : List Nat → Nat → Follow → Option LoadBad
  | [], n, f => if f.ended then none else some (seq, n - 1, 0x0A)
  | w :: t, n, f =>
    match kindOf w with
    | none => some (seq, n, 3)
    | some k =>
      match instrBad p w with
      | some r => some (seq, n, r)
      | none =>
        let (f1, r1) := followSection p f k w
        let (f2, r2) := followGroups p seq f1 k w
        let f3 := { f2 with ended := decide (k = .endSeq) }
        let left := if k = .endSeq ∧ f.groups ≠ [] then some 8 else if k = .endSeq ∧ f1.section_.isSome then some 9 else none
        match r1.or (r2.or left) with
        | some r => some (seq, n, r)
        | none => followSeq p seq t (n + 1) f3

/-- The shape of the group that each chain instruction of a sequence hands on or merges into. -/
def chainShapes (p : Program) (seq : Nat) : List (Nat × Nat × Nat) :=
  let n := (p.seqs.getD seq (0, 0)).2
  ((List.range n).foldl (fun (acc : Follow × List (Nat × Nat × Nat)) pc =>
    let w := p.word seq pc
    match kindOf w with
    | none => acc
    | some k =>
      let found := if k = .chainSend ∨ k = .chainRecv then
          (match kvGet (movGroup w) acc.1.groups with
           | some g => [(wf w 1 11 0, g.1, g.2)]
           | none => [])
        else []
      ((followGroups p seq acc.1 k w).1, acc.2 ++ found)) (⟨[], none, false⟩, [])).2

/-- Every member's group has the chain's shape (R382). -/
def chainsAgree (p : Program) : Bool :=
  let all := (List.range p.seqs.length).flatMap (chainShapes p)
  all.all fun a => all.all fun b => decide (a.1 ≠ b.1) || decide (a.2 = b.2)

/-- Rectangles that GRAD instructions write (R425). -/
def gradWrites (p : Program) : List Ref :=
  (List.range p.seqs.length).flatMap fun s => (List.range (p.seqs.getD s (0, 0)).2).flatMap fun pc =>
    let w := p.word s pc
    let outs := match kindOf w with
      | some .mm => if mGrad w then tilesWritten .mm w [] else []
      | some .mmq => if mGrad w then tilesWritten .mmq w (p.problems w) else []
      | some .close => if mGrad w then [wf w 2 11 0] else []
      | _ => []
    outs.filterMap (tileRef p.tiles)

/-- Two of some rectangles overlap. -/
def someOverlap : List Ref → Bool
  | [] => false
  | a :: t => t.any a.overlaps || someOverlap t

/-- Every check of PROGRAM_LOAD that the image alone, and the model it names, decide: the header and tables, the parameter table,
then each sequence in order. -/
def imageBad (image : List Byte) (model : Option (List Byte)) : Option LoadBad :=
  if !headerOk image then some (0xFFFF, 0, 1)
  else
    let p := parseProgram image
    let at_ := fun (off size i : Nat) => slice image (fieldAt image off 4 + size * i) size
    let fail := fun (ok : Bool) (i r : Nat) => if ok then none else some (0xFFFF, i, r)
    let seqs := firstAt p.seqs fun i q => fail (seqEntryOk image q) i 1
    let tiles := firstAt p.tiles fun i d => fail (tileOk image model p.tiles (at_ 16 32 i) d) i 2
    let qs := firstAt p.qdescs fun i _ => fail (qDescOk (at_ 20 64 i)) i 0x0C
    let chains := firstAt p.chains fun i _ => fail (chainOk p.seqs.length (at_ 24 32 i)) i 0x0B
    let params := firstAt p.params fun i q => (paramBad model p.tiles (at_ 28 16 i) q).map fun r => (0xFFFF, i, r)
    let clash := firstAt p.params fun i a => fail (!(p.params.zipIdx.any fun b => decide (b.2 < i) && paramsClash a b.1)) i 4
    let code := firstAt p.seqs fun i q => followSeq p i ((List.range q.2).map (p.word i)) 0 ⟨[], none, false⟩
    let agree := fail (chainsAgree p) 0 0x0B
    let writes := gradWrites p
    let bufs := firstAt p.params fun i q => fail ((List.range (q.uses + 1)).all fun j =>
      !someOverlap (writes.filter fun x => decide (x.home = q.g + 1 + j))) i 4
    [seqs, tiles, qs, chains, params, clash, code, agree, bufs].foldl Option.or none

end Sys2Proof.Machine
end

