-- ==== Sys2Proof/Machine/Ferries.lean ====
section
/-!
DEFINITION. Machine/Ferries.lean: the tiles resident in a plot's scratchpad: ferries, pins, write-back and eviction, and the schedule that
leads a run (R32 to R35, R45, R46, R375).
-/

namespace Sys2Proof.Machine

open Sys2Proof

/- What an instruction names -/

/-- The tile of a number; one that no declaration gives is never named by a loaded program. -/
def Program.ref (p : Program) (n : Nat) : Ref := (tileRef p.tiles n).getD ⟨tileDecl [], 4095, 0, 0, 0, 0⟩

/-- One tile holds all of another (R391). -/
def Ref.covers (a b : Ref) : Bool :=
  decide (a.home = b.home) && decide (a.r0 ≤ b.r0) && decide (b.r0 + b.rows ≤ a.r0 + a.rows) && decide (a.c0 ≤ b.c0) &&
    decide (b.c0 + b.cols ≤ a.c0 + a.cols)

/-- The tiles that a word reads, those that it writes, and all of them. -/
def Program.reads (p : Program) (w : Nat) : List Nat := ((kindOf w).map fun k => tilesRead k w (p.problems w)).getD []
def Program.writes (p : Program) (w : Nat) : List Nat := ((kindOf w).map fun k => tilesWritten k w (p.problems w)).getD []
def Program.names (p : Program) (w : Nat) : List Nat := (p.reads w ++ p.writes w).eraseDups

/-- Some tile of one list overlaps some tile of another (R375). -/
def Program.meet (p : Program) (a b : List Nat) : Bool := a.any fun x => b.any fun y => (p.ref x).overlaps (p.ref y)

/-- The unit that runs a word (Table 12-1): 0 and 1 the arrays, 2 the vector unit, 3 the mover, 4 the search engine, 5 the check unit; none
is the sequencer. The update word has no field for its array: it runs on array 0 (log entry 149). -/
def unitOf (w : Nat) : Option Nat :=
  match wf w 0 3 0 with
  | 1 => some (mArray w)
  | 2 | 3 => some 2
  | 4 => some 3
  | 5 => some 4
  | 6 => some 5
  | 7 => some 0
  | _ => none

/- Residency on a plot (R32 to R35) -/

/-- A tile resident for a program's tile: it holds all of it. -/
def Held.serves (t : Held) (p : Program) (n handle tile : Nat) : Bool :=
  decide (t.ctx = n) && decide (t.handle = handle) && (p.ref t.tile).covers (p.ref tile)

/-- The tile is resident on the plot, or its ferry is under way. -/
def State.heldOn (s : State) (p n handle : Nat) (g : Program) (tile : Nat) : Option Held := (s.plot p).tiles.find? fun t => t.serves g n handle tile

/-- A tile that an instruction in flight names is pinned (R34). -/
def State.pinned (s : State) (p : Nat) (g : Program) (t : Held) : Bool :=
  (s.plot p).flights.any fun f => decide (f.key.context = some t.ctx) && decide (f.handle = t.handle) && g.meet [t.tile] (f.reads ++ f.writes)

/-- Instructions that the context's sequences on the plot have still to issue before they name a tile: how far ahead its next use lies. -/
def State.nextUse (s : State) (p : Nat) (g : Program) (t : Held) : Nat :=
  (((s.seqsOn p t.ctx).filter fun x => decide (x.1.handle = t.handle)).filterMap fun x =>
    g.ahead x.2 (x.1.seq x.2).pc fun w => g.meet [t.tile] (g.names w)).foldl min (2 ^ 32)

/-- Tiles that a model's step in progress reads before it comes to a tile of the model on the plot: one that it has passed comes in the next
step; without a step its use is not known. -/
def State.layerUse (s : State) (t : Held) : Nat :=
  ((s.steps.find? fun x => decide (x.ctx = t.ctx) && decide (modelHandle x.slot = t.handle)).map fun x =>
    if x.next ≤ t.tile then t.tile - x.next else 2 ^ 32 - x.next + t.tile).getD (2 ^ 32)

/-- The unpinned tile of a context whose next use lies furthest ahead, those to be kept apart (R35). -/
def State.evictable (s : State) (p n : Nat) (keep : Nat → Nat → Bool) : Option Held :=
  let far := fun (t : Held) => ((s.program n t.handle).map fun g => s.nextUse p g t).getD (s.layerUse t)
  ((s.plot p).tiles.filter fun t => decide (t.ctx = n) && !keep t.handle t.tile &&
    !((s.program n t.handle).any fun g => s.pinned p g t)).foldl
    (fun (best : Option Held) t => match best with
      | none => some t
      | some b => if far b < far t then some t else best) none

/-- A tile leaves a plot's scratchpad, written back to its home when it was modified (R35). -/
def evict (p : Nat) (t : Held) (s : State) : State :=
  modPlot p (fun q => { q with tiles := q.tiles.erase t }) (if t.modified then chargeLanding t.ctx t.bytes s else s)

/-- Scratchpad quota of a context on a plot, in KiB: as it is resident there. -/
def State.quotaOn (s : State) (p n : Nat) : Nat := (((s.plot p).residents.find? fun r => decide (r.ctx = n)).map (·.sramKib)).getD 0

/-- Tiles leave the plot until some bytes more fit the context's SRAM quota there (R32, R35). -/
def makeRoom (p n bytes : Nat) (keep : Nat → Nat → Bool) : Nat → State → State
  | 0, s => s
  | f + 1, s =>
    if s.sramOn p n + ceilDiv bytes 1024 ≤ s.quotaOn p n then s
    else match s.evictable p n keep with
      | none => s
      | some t => makeRoom p n bytes keep f (evict p t s)

/-- Modified copies of any part of a tile on other plots. -/
def State.newerOn (s : State) (p n handle : Nat) (g : Program) (tile : Nat) : List (Nat × Held) :=
  ((s.plotsOf n).filter fun q => decide (q ≠ p)).flatMap fun q =>
    ((s.plot q).tiles.filter fun t => decide (t.ctx = n) && decide (t.handle = handle) && t.modified && g.meet [t.tile] [tile]).map fun t => (q, t)

/-- The tile reads 0 and no home holds anything else of it: a scratch or output tile that the run has not written (R390). -/
def Run.blank (r : Run) (g : Program) (tile : Nat) : Bool :=
  decide ((g.ref tile).decl.source = 0 ∨ (g.ref tile).decl.source = 3) && (kvGet (g.ref tile).home r.tiles).isNone

/-- A tile is ferried to a plot (R33): from the plot that has changed it, else from its home, its bytes charged to the context. Where the
quota has no room once other tiles have left it is not, nor while an instruction pins a changed copy (R34); a tile that reads 0 is ready at
once. -/
def ferry (r : Run) (g : Program) (p : Nat) (keep : Nat → Nat → Bool) (s : State) (tile : Nat) : State :=
  let bytes := (g.ref tile).bytes
  if (s.heldOn p r.ctx r.handle g tile).isSome ∨ !(s.plot p).holds r.ctx then s
  else
    let s := makeRoom p r.ctx bytes keep ((s.plot p).tiles.length) s
    if s.quotaOn p r.ctx < s.sramOn p r.ctx + ceilDiv bytes 1024 then s
    else
      let newer := s.newerOn p r.ctx r.handle g tile
      if newer.any fun x => s.pinned x.1 g x.2 then s else
      let put := fun (ready : Bool) => modPlot p (fun q => { q with tiles := q.tiles ++ [⟨r.ctx, r.handle, tile, bytes, ready, false⟩] })
      if r.blank g tile then put true s
      else if newer.any fun x => (g.ref x.2.tile).covers (g.ref tile) then put false s
      else
        let s := newer.foldl (fun s x => modPlot x.1 (fun q => { q with
          tiles := q.tiles.map fun t => if t = x.2 then { t with modified := false } else t }) (chargeLanding r.ctx x.2.bytes s)) s
        put false (chargeLanding r.ctx bytes s)

/-- A tile that an instruction has written is modified where it stands; other copies of any part of it are gone, written back first where
they were modified (R35). -/
def written (r : Run) (g : Program) (p : Nat) (s : State) (tile : Nat) : State :=
  (s.plotsOf r.ctx).foldl (fun s q => (s.plot q).tiles.foldl (fun s t =>
    if t.ctx ≠ r.ctx ∨ t.handle ≠ r.handle ∨ !g.meet [t.tile] [tile] then s
    else if q = p ∧ (g.ref t.tile).covers (g.ref tile) then
      modPlot q (fun x => { x with tiles := x.tiles.map fun u => if u = t then { u with modified := true } else u }) s
    else evict q t s) s) s

/- The ferry schedule of a run (R45) -/

/-- The words of a sequence from a place on, segment by segment: so many segments, each up to and with its SIGNAL or WAIT (R386). -/
def segments (ws : List Nat) : Nat → List Nat
  | 0 => []
  | k + 1 =>
    let ends := fun w => decide (kindOf w = some .signal) || decide (kindOf w = some .wait)
    match ws.findIdx? ends with
    | none => ws
    | some i => ws.take (i + 1) ++ segments (ws.drop (i + 1)) k

/-- What a sequence has still to issue. -/
def Program.rest (p : Program) (seq pc : Nat) : List Nat := (List.range ((p.seqs.getD seq (0, 0)).2 - pc)).map fun i => p.word seq (pc + i)

/-- The tiles of the present segment of a sequence and of so many after it, in the order of their use. -/
def Program.layerTiles (p : Program) (seq pc lead : Nat) : List Nat := ((segments (p.rest seq pc) (lead + 1)).flatMap p.names).eraseDups

/-- The lead of a schedule. -/
def State.leadOf (s : State) (o : SchedOwner) : Nat := ((s.landing.schedules.find? fun x => decide (x.owner = o)).map (·.lead)).getD 1

/-- The tiles of the layers that a sequence's schedule leads by are ferried to its plot, those of the present instruction first; none of
them leaves for another (R35, R45). -/
def ferryAhead (r : Run) (g : Program) (seq : Nat) (s : State) : State :=
  let q := r.seq seq
  let now := g.names (g.word seq q.pc)
  let all := (now ++ g.layerTiles seq q.pc (s.leadOf (.program r.ctx r.handle))).eraseDups
  let keep := fun (ts : List Nat) (h t : Nat) => decide (h = r.handle) && g.meet [t] ts
  let s := now.foldl (ferry r g q.plot (keep now)) s
  all.foldl (ferry r g q.plot (keep all)) s

/-- Every sequence of a run. -/
def ferryRun (r : Run) (g : Program) (s : State) : State :=
  (List.range r.seqs.length).foldl (fun s i => if (r.seq i).ended then s else ferryAhead r g i s) s

/-- Tiles of a program that some plots hold go, without being written back: of a program that has ended all of them, of a run those that are
its own (R390, R395). -/
def dropHeld (n handle : Nat) (which : Nat → Bool) (s : State) : State :=
  mapPlots (fun p => { p with tiles := p.tiles.filter fun t => !(decide (t.ctx = n) && decide (t.handle = handle) && which t.tile) }) s

/-- A tile whose contents belong to one run: input, scratch or output (R390). -/
def Program.ofRun (g : Program) (tile : Nat) : Bool :=
  let c := (g.ref tile).decl.source
  decide (c = 0 ∨ c = 2 ∨ c = 3)

/- Shadow sets (R318 to R320) -/

/-- A column's stationary operand in the steps of a pass: as the swap token passes the column it takes its shadow value, and not before
(R318). -/
def columnOperand (old shadow : Nat) (tokenAt column step : Nat) : Nat := if tokenAt + column ≤ step then shadow else old

end Sys2Proof.Machine
end

