-- ==== Sys2Proof/Machine/LinkOps.lean ====
section
/-!
DEFINITION. Machine/LinkOps.lean: flits, their sequence numbers and credits, transfers, and resending (R454 to R457).
-/

namespace Sys2Proof.Machine

open Sys2Proof

/-- A flit's 256 bytes (Table 15-1). -/
def flitBytes (f : OutFlit) (fseq ack : Nat) : List Byte :=
  let b := leBytes 2 (f.kind + 16 * fseq) ++ leBytes 2 (ack + 4096 * f.cls + 16384 * b2n f.last) ++ leBytes 2 f.stream ++
    leBytes 1 f.pay.length ++ leBytes 5 f.off ++ fit f.pay 240
  b ++ leBytes 4 (crc32c b)

/-- FSEQ of the last sequenced flit received in order. -/
def Crossing.ackNo (c : Crossing) : Nat := (c.rxSeq + 4095) % 4096

/-- A flit may go: fewer than 2,048 are unacknowledged, and a data flit has a credit of its class (R455, R457). -/
def Crossing.sendable (c : Crossing) (f : OutFlit) : Bool :=
  decide (c.unacked.length < 2048) && (decide (f.kind = 3) || decide (0 < c.credits.getD f.cls 0))

/-- The position of a crossing whose turn it is, some flits after the next (R454). -/
def State.turnOf (s : State) (c : Crossing) (n : Nat) : Nat :=
  (((s.lanesTo c.serial)[(c.turn + n) % max 1 c.width]?).bind fun l => (s.lane l).position).getD 0x3F

/-- One sequenced flit goes out, whole on the next position in turn, and is held for resending (R454). -/
def sendFlit (x : Nat) (f : OutFlit) (s : State) : State :=
  match s.crossing x with
  | none => s
  | some c =>
    let body := flitBytes f c.txSeq c.ackNo
    modCrossing x (fun c => { c with
      txSeq := (c.txSeq + 1) % 4096
      unacked := c.unacked ++ [⟨c.txSeq, f.cls, body, s.now, 0⟩]
      credits := if f.kind = 3 then c.credits else setAt c.credits f.cls (· - 1)
      turn := c.turn + 1
      lastSent := s.now }) { s with wire := .flit x (s.turnOf c 0) f.cls c.txSeq body :: s.wire }

/-- The first waiting flit that may go is sent. -/
def pumpOne (x : Nat) (s : State) : State :=
  match s.crossing x with
  | none => s
  | some c => match c.queue.findIdx? c.sendable with
    | none => s
    | some i => match c.queue[i]? with
      | none => s
      | some f => sendFlit x f (modCrossing x (fun c => { c with queue := c.queue.eraseIdx i }) s)

/-- Every waiting flit that may go is sent. -/
def pump (x : Nat) (s : State) : State :=
  match s.crossing x with
  | none => s
  | some c => c.queue.foldl (fun s _ => pumpOne x s) s

/-- The flits of a transfer: 240 bytes each. -/
def transferFlits (kind cls stream : Nat) (bytes : List Byte) : List OutFlit :=
  let n := max 1 (ceilDiv bytes.length 240)
  (List.range n).map fun i => ⟨kind, cls, stream, decide (i + 1 = n), 240 * i, slice bytes (240 * i) 240⟩

/-- A transfer is sent on a crossing and its flits charged to a context (Table 16-6); its number is the next one. -/
def sendTransfer (x kind cls : Nat) (ctx : Option Nat) (bytes : List Byte) (s : State) : State :=
  let stream := s.links.nextStream
  let fs := transferFlits kind cls stream bytes
  let s := account ctx (fun a => { a with flits := a.flits + fs.length }) s
  let s := modLinks (fun l => { l with nextStream := (stream + 1) % 65536 }) s
  pump x (modCrossing x (fun c => { c with queue := c.queue ++ fs }) s)

/-- Flits up to an FSEQ are acknowledged (R455). -/
def ackFlits (x fseq : Nat) (s : State) : State :=
  pump x (modCrossing x (fun c => { c with unacked := c.unacked.filter fun u => decide (2048 ≤ (fseq + 4096 - u.fseq) % 4096) }) s)

/-- Unacknowledged flits from an FSEQ on. -/
def Crossing.from_ (c : Crossing) (fseq : Nat) (u : HeldFlit) : Bool := decide ((u.fseq + 4096 - fseq) % 4096 < 2048) && c.unacked.contains u

/-- Every unacknowledged flit from an FSEQ on is sent again and counted (R455). -/
def resendFrom (x fseq : Nat) (s : State) : State :=
  match s.crossing x with
  | none => s
  | some c =>
    let again := c.unacked.filter (c.from_ fseq)
    let s := { s with wire := (again.zipIdx.map fun u => WireOut.flit x (s.turnOf c u.2) u.1.cls u.1.fseq u.1.body).reverse ++ s.wire }
    modLinks (fun l => { l with resent := satAdd 32 l.resent again.length })
      (modCrossing x (fun c => { c with
        lastSent := s.now
        turn := c.turn + again.length
        unacked := c.unacked.map fun u => if again.contains u then { u with sentAt := s.now, resent := u.resent + 1 } else u }) s)

/-- Some flit has been resent RETRY_LIMIT times (R455). -/
def State.worn (s : State) (x : Nat) : Bool :=
  match s.crossing x with
  | none => false
  | some c => c.unacked.any fun u => decide (s.links.retryLimit ≤ u.resent)

/-- CREDIT sent: the buffers freed in a class since training (R457, Table 15-2). -/
def sendCredit (x cls : Nat) (s : State) : State :=
  match s.crossing x with
  | none => s
  | some c =>
    let n := (c.freed.getD cls 0 + 1) % 2 ^ 32
    sendControl x (1 :: cls :: wordBytes 4 n) (modCrossing x (fun c => { c with freed := setAt c.freed cls fun _ => n }) s)

/-- An ACK word (Table 15-2). -/
def sendAck (x : Nat) (s : State) : State :=
  match s.crossing x with
  | none => s
  | some c => sendControl x (2 :: wordBytes 2 c.ackNo) s

/-- One NAK for the FSEQ that is expected: another one only once that flit has been taken (R455, log entry 163). -/
def sendNak (x : Nat) (s : State) : State :=
  match s.crossing x with
  | none => s
  | some c => if c.nakked then s else sendControl x (3 :: wordBytes 2 c.rxSeq) (modCrossing x (fun c => { c with nakked := true }) s)

/-- What the taking of a sequenced flit leads to. -/
inductive Taken where
  /-- Discarded: it failed its CRC, came out of order, or had been taken. -/
  | nothing
  /-- Taken, with more of its transfer to come. -/
  | part
  /-- The last flit of a transfer: its class, number and bytes. -/
  | whole (cls stream : Nat) (bytes : List Byte)
  deriving DecidableEq, Repr

/-- A sequenced flit arrives on a lane of a crossing (R455, R457). -/
def takeFlit (x lane kind : Nat) (flit : List Byte) (s : State) : State × Taken :=
  match s.crossing x with
  | none => (s, .nothing)
  | some c =>
    if c.state ≠ .up then (s, .nothing)
    else if flit.length ≠ 256 ∨ fieldAt flit 252 4 ≠ crc32c (flit.take 252) then
      (sendNak x (modLane lane (fun l => { l with crcFail := satAdd 16 l.crcFail 1 }) s), .nothing)
    else
      let fseq := bits (fieldAt flit 0 2) 15 4
      let cls := bits (fieldAt flit 2 2) 13 12
      let stream := fieldAt flit 4 2
      let pay := slice flit 12 (min 240 (fieldAt flit 6 1))
      let s := ackFlits x (bits (fieldAt flit 2 2) 11 0) (modCrossing x (fun c => { c with lastValid := s.now }) s)
      if bits (fieldAt flit 0 2) 3 0 ≠ kind then (s, .nothing)
      else if fseq ≠ c.rxSeq then
        if 2048 ≤ (fseq + 4096 - c.rxSeq) % 4096 then (sendAck x s, .nothing) else (sendNak x s, .nothing)
      else
        let old := (c.transfers.find? fun t => decide (t.stream = stream) && decide (t.cls = cls)).map (·.bytes)
        let bytes := (old.getD []) ++ pay
        let last := bit (fieldAt flit 2 2) 14
        let rest := c.transfers.filter fun t => !(decide (t.stream = stream) && decide (t.cls = cls))
        let s := sendAck x (modCrossing x (fun c => { c with
          rxSeq := (c.rxSeq + 1) % 4096, nakked := false, transfers := if last then rest else rest ++ [⟨stream, cls, bytes⟩] }) s)
        let s := if kind = 3 then s else sendCredit x cls s
        (s, if last then .whole cls stream bytes else .part)

/-- A hand-on block from its bytes (Table 10-4). -/
def handOnOf (b : List Byte) : HandOn :=
  { chain := fieldAt b 0 4, from_ := fieldAt b 4 2, block := fieldAt b 6 2, last := bit (fieldAt b 10 1) 0, peer := bit (fieldAt b 10 1) 1,
    step := fieldAt b 16 8, crc := fieldAt b 24 4,
    pairs := (List.range (fieldAt b 8 2)).map fun i => (fieldAt b (64 + 8 * i) 4, fieldAt b (68 + 8 * i) 4) }

end Sys2Proof.Machine
end

