-- ==== Sys2Proof/Machine/Programs.lean ====
section
/-!
DEFINITION. Machine/Programs.lean: PROGRAM_LOAD and PROGRAM_RUN, and
the parts of a run that its end leaves behind (R382, R386 to R398, R463 to R466).
-/

namespace Sys2Proof.Machine

open Sys2Proof

/-- KiB of a program's tile homes: each tile and each scale tile rounded up to 4 KiB (Table 2-2, R349, R393). -/
def homesKib (tiles : List TileDecl) : Nat :=
  (tiles.map fun d => if d.source = 5 ∨ d.source = 6 then 0 else kib4 d.elemBytes + kib4 d.scaleBytes).sum

/-- SRAM bytes of an instruction: its tiles with their scale tiles, and 16 KiB for a search context (R394). -/
def instrSram (p : Program) (w : Nat) : Nat :=
  match kindOf w with
  | none => 0
  | some k =>
    let qs := p.problems w
    let ts := (tilesRead k w qs ++ tilesWritten k w qs).eraseDups
    (ts.map (refBytes p.tiles)).sum + (if wf w 0 3 0 = 5 then 16384 else 0)

/-- Every word of a program. -/
def Program.words (p : Program) : List Nat :=
  (List.range p.seqs.length).flatMap fun q => (List.range (p.seqs.getD q (0, 0)).2).map (p.word q)

/-- Every instruction can be pinned whole within an SRAM quota (R394). -/
def Program.fitsSram (p : Program) (kib : Nat) : Bool := p.words.all fun w => decide (instrSram p w ≤ 1024 * kib)

/-- The update words of a program (R385). -/
def Program.updates (p : Program) : List Nat := p.words.filter fun w => decide (wf w 0 3 0 = 7)

/-- A placed model that a session may name by a handle (R404). -/
def State.modelNamed (s : State) (handle session : Nat) : Option Model :=
  match kvGet (handle % 64) s.models with
  | none => none
  | some m =>
    if m.count = handle / 64 ∧ (m.state = .placed ∨ m.state = .placing) ∧ maskAllows m.sessions session then some m else none

/-- A program ends: its bindings break, its tiles leave the plots, and its charges, chain numbers and schedule are released (R395, R463). -/
def endProgram (ctx handle : Nat) (s : State) : State :=
  let s := dropHeld ctx handle (fun _ => true) s
  let s := (s.boundTo ctx handle).foldl (fun s f => breakChain f none s) s
  { s with
    programs := kvDel (progKey ctx handle) s.programs
    landing := { s.landing with schedules := s.landing.schedules.filter fun x => decide (x.owner ≠ .program ctx handle) } }

/-- Chain numbers in use: ranges of loaded programs, and fabric numbers (R463). -/
def State.chainRanges (s : State) : List (Nat × Nat) :=
  (s.programs.map fun p => (p.2.chainBase, p.2.chains.length)) ++ s.links.bindings.map fun b => (b.1, 1)

/-- The lowest base of n free chain numbers that fit CHAIN_BASE (Table 12-7). -/
def State.chainBase (s : State) (n : Nat) : Option Nat :=
  let used := s.chainRanges
  let ok := fun (b : Nat) => decide (b + n ≤ 65536) && used.all fun u => decide (u.2 = 0) || decide (b + n ≤ u.1) || decide (u.1 + u.2 ≤ b) || decide (n = 0)
  ((0 :: used.map fun u => u.1 + u.2).filter ok).foldl (fun best b => match best with
    | none => some b
    | some a => some (min a b)) none

/-- ADAM_BC elements, parameter elements and state bytes of a program (R431). -/
def Program.adamElems (p : Program) : Nat := (p.params.map fun q => if q.ruleOf = .adam then 32 * q.blocks p.tiles else 0).sum
def Program.paramElems (p : Program) : Nat :=
  (p.params.map fun q =>
    let d := p.tiles.getD q.w (tileDecl [])
    if q.scales then d.blocks else d.elems).sum
def Program.adamBytes (p : Program) : Nat := (p.params.map fun q => if q.ruleOf = .adam then 72 * q.blocks p.tiles else 0).sum

/-- The limits of R431 over a context's programs. -/
def adamOk (ps : List Program) : Bool :=
  decide (50 * (ps.map Program.adamElems).sum ≤ (ps.map Program.paramElems).sum) && decide ((ps.map Program.adamBytes).sum ≤ 2 ^ 32)

/-- The initial contents of constant and persistent tiles (R390, R426). -/
def initialHomes (p : Program) (model : List Byte) : KV Tile :=
  p.tiles.zipIdx.filterMap fun x =>
    let d := x.1
    if d.source = 1 ∨ d.source = 4 then
      let from_ := (p.params.find? fun q => decide (q.w = x.2) && decide (q.modelTile ≠ 0xFFFF)).map (·.modelTile)
      some (x.2, match from_ with
        | some m => if d.dataLen = 0 then loadTile d (modelData model m) else loadTile d (slice p.image (fieldAt p.image 36 4 + d.dataOff) d.dataLen)
        | none => if d.dataLen = 0 then d.zero else loadTile d (slice p.image (fieldAt p.image 36 4 + d.dataOff) d.dataLen))
    else none

/-- The reply to a refused program (Table 12-7). -/
def badProgram (b : LoadBad) : List Byte := leBytes 2 b.1 ++ leBytes 4 b.2.1 ++ leBytes 1 b.2.2 ++ zeros 9

/-- An image is read from its store with the stream check units armed: a segment that cannot be rebuilt completes the
command MEDIA_UNCORRECTABLE, and nothing is stored (R182, R393, R402). -/
def readBack (c : Cmd) (f : State → State) (s : State) : State :=
  streamCheck (fail { c with ra := true } stMediaUncorrectable) f s

/-- PROGRAM_LOAD (R373 to R395, R425, R426, R431, R435). -/
def loadProgram (c : Cmd) (x : Ctx) (s : State) : State :=
  let pay := c.payload
  let handle := fieldAt pay 0 1
  let mh := fieldAt pay 4 4
  let image := pay.drop 16
  let model := if mh = 0xFFFFFFFF then none else s.modelNamed mh c.key.session
  if mh ≠ 0xFFFFFFFF ∧ s.unloadAhead (mh % 64) c.order then s
  else if pay.length < 16 ∨ 15 < handle ∨ fieldAt pay 1 3 ≠ 0 ∨ fieldAt pay 8 8 ≠ 0 then reply c stInvalid (badProgram (0xFFFF, 0, 1)) s
  else if mh ≠ 0xFFFFFFFF ∧ model.isNone then reply c stInvalid (badProgram (0xFFFF, 0, 2)) s
  else match imageBad image (model.map (·.image)) with
    | some b => reply c stInvalid (badProgram b) s
    | none =>
      let old := endProgram c.key.ctx handle s
      let p := parseProgram image
      match old.chainBase p.chains.length with
      | none => reply c stInvalid (badProgram (0xFFFF, 0, 0x0B)) s
      | some base =>
        let kib := homesKib p.tiles
        let mine := (old.programs.filter fun q => decide (q.1 / 16 = c.key.ctx)).map (·.2)
        let old := modCmd c.key (fun c => { c with stagedKib := 0 }) old
        if !p.fitsSram x.sramKib ∨ !adamOk (p :: mine) ∨ !old.fits c.key.ctx kib then fail c stQuota s
        else if s.keeper.writeProtect then fail c stWriteProtected s
        else if s.media.spareOut then fail c stSpareExhausted s
        else
          let q := { p with
            model := if mh = 0xFFFFFFFF then none else some mh
            chainBase := base
            homes := initialHomes p ((model.map (·.image)).getD [])
            kib := kib }
          readBack c (fun t =>
            reply c stOk (leBytes 4 image.length ++ leBytes 4 (ceilDiv kib 1024) ++ leBytes 2 base ++ zeros 6)
              { old with programs := kvSet (progKey c.key.ctx handle) q old.programs, free := t.free, media := t.media }) s

def execProgramLoad (k : CmdKey) (s : State) : Out := .next (withCtx 0x70 k loadProgram s)

/- PROGRAM_RUN -/

/-- The model of a loaded program stands (R396): none loaded, unavailable, or good. -/
inductive ModelNow where
  | none
  | gone
  | unavailable
  | good (image : List Byte)
  deriving DecidableEq, Repr

def State.modelNow (s : State) (p : Program) : ModelNow :=
  match p.model with
  | Option.none => .none
  | some h => match kvGet (h % 64) s.models with
    | Option.none => .gone
    | some m =>
      if m.count ≠ h / 64 then .gone
      else match m.state with
        | .placed => .good m.image
        | .placing => .good m.image
        | .unavailable => .unavailable
        | _ => .gone

/-- The binding of an EXTERNAL chain of a program (R463). -/
def State.bindingOf (s : State) (ctx handle chain : Nat) : Option (Nat × Binding) :=
  s.links.bindings.find? fun b => decide (b.2.ctx = ctx) && decide (b.2.handle = handle) && decide (b.2.chain = chain)

/-- Every EXTERNAL chain is bound (R464). -/
def State.chainsBound (s : State) (ctx handle : Nat) (p : Program) : Bool :=
  p.chains.zipIdx.all fun c => !c.1.external || (s.bindingOf ctx handle c.2).isSome

/-- A block named by an update instruction is frozen (R396 check 5). -/
def Program.namesFrozen (p : Program) : Bool := p.updates.any fun w => decide ((kvGet (wf w 2 19 12) p.frozen).getD [] ≠ [])

/-- The step check of R396 and R434. -/
def Ctx.stepOk (x : Ctx) (step : Nat) : Bool := decide (x.stepNo = some step)

/-- The checks of R396 from the second on, with R464 after the first; the status of the first that fails. -/
def State.runBad (s : State) (x : Ctx) (ctx handle step : Nat) (p : Program) : Option Nat :=
  if !s.chainsBound ctx handle p then some stInvalid
  else match s.modelNow p with
    | .gone => some stInvalid
    | .unavailable => some stWeightsUnavailable
    | _ =>
      if !p.fitsSram x.sramKib then some stQuota
      else if p.updates ≠ [] ∧ !x.stepOk step then some stStepStale
      else if p.updates ≠ [] ∧ x.strict ∧ p.namesFrozen then some stFrozen
      else none

/-- Bytes of the output tiles of a reply, after its head: each at its IO_OFF (R390). -/
def Program.outBytes (p : Program) : Nat := (p.tiles.map fun d => if d.source = 3 then d.io + d.bytes else 0).foldl max 0

/-- The output tiles of a run. -/
def Exec.outputs (e : Exec) : List Byte :=
  e.prog.tiles.zipIdx.foldl (fun out x =>
    if x.1.source = 3 then
      let t := e.tile x.2
      patch out x.1.io (t.elems ++ t.scales)
    else out) (zeros e.prog.outBytes)

/-- Input tiles from a payload after its head (R390). -/
def inputTiles (p : Program) (data : List Byte) : KV Tile :=
  p.tiles.zipIdx.filterMap fun x =>
    if x.1.source = 2 then some (x.2, loadTile x.1 (slice data x.1.io x.1.bytes)) else none

/-- A new run: every sequence at its first instruction, tokens 0, scratch tiles unlisted (R386, R390, R392). -/
def startRun (c : Cmd) (handle : Nat) (p : Program) (x : Ctx) (tiles : KV Tile) (plots : List Nat) : Run :=
  { key := c.key, ctx := c.key.ctx, handle := handle
    seqs := (List.range p.seqs.length).map fun i => ⟨0, false, .none, none, true, none, [], if plots = [] then 0 else plots.getD (i % plots.length) 0⟩
    tokens := [], check := 0, skips := 0, nonfinite := 0, issued := 0, tiles := tiles, eta := x.stepSize, frozen := p.frozen, sent := [],
    landed := [], again := [], steps := [], late := false }

/-- The plots that a run's sequences are laid on: those the context stands on, has been given, or was swapped out of (R392). -/
def State.seats (s : State) (n : Nat) : List Nat := (List.range 272).filter (s.hasPlace n)

/-- Chain steps and early blocks of the bound chains enter a run (R325, R465). -/
def enterChains (r : Run) (s : State) : Run × State :=
  let bs := s.links.bindings.filter fun b => decide (b.2.ctx = r.ctx) && decide (b.2.handle = r.handle)
  let steps := bs.foldl (fun (acc : KV Nat) b => b.2.steps.foldl (fun acc m => kvSet (16 * b.2.chain + m.1) m.2 acc) acc) r.steps
  let landed := bs.flatMap fun b => b.2.early.map fun h => (b.1, h.from_ + 1, h)
  ({ r with steps := steps, landed := r.landed ++ landed },
    modLinks (fun l => { l with bindings := l.bindings.map fun b => if b.2.ctx = r.ctx ∧ b.2.handle = r.handle then (b.1, { b.2 with early := [] }) else b }) s)

/-- A ferry schedule starts with its lead at LEAD_MIN, and with the limits as they stand (R45, R72). -/
def startSchedule (o : SchedOwner) (s : State) : State :=
  if s.landing.schedules.any fun x => decide (x.owner = o) then s
  else modLanding (fun l => { l with
    schedules := l.schedules ++ [⟨o, l.leadMin, l.leadMin, l.leadMax, l.lateLimit, l.shallowS, none, [], s.now⟩] }) s

/-- A layer boundary of a schedule: it takes the limits of LND_FERRY_CFG, and a lead outside them moves to the nearest (R72). -/
def layerBoundary (o : SchedOwner) (s : State) : State :=
  modLanding (fun l => { l with schedules := l.schedules.map fun x =>
    if x.owner = o then
      { x with leadMin := l.leadMin, leadMax := l.leadMax, lateLimit := l.lateLimit, shallowS := l.shallowS
               lead := max l.leadMin (min l.leadMax x.lead) }
    else x }) s

/-- A run is entered: its command waits for it, its context is woken, and its first layers are ferried; it begins at a layer boundary of its
schedule (R45, R72, R392). -/
def enterRun (r : Run) (g : Program) (s : State) : State :=
  let s := modCmd r.key (fun c => { c with phase := .waiting (.run r.handle) }) { s with runs := s.runs ++ [r] }
  ferryRun r g (wakeCtx r.ctx (layerBoundary (.program r.ctx r.handle) s))

/-- PROGRAM_RUN (R396, R464). -/
def runProgram (c : Cmd) (x : Ctx) (s : State) : State :=
  let pay := c.payload
  let handle := fieldAt pay 0 1
  match s.program c.key.ctx handle with
  | none => fail c stInvalid s
  | some p =>
    if p.model.any fun m => s.unloadAhead (m % 64) c.order then s
    else if pay.length < 32 ∨ 15 < handle ∨ fieldAt pay 1 3 ≠ 0 ∨ !allZero (slice pay 12 20) ∨ fieldAt pay 8 4 ≠ inputBytes p.tiles ∨
        pay.length ≠ 32 + inputBytes p.tiles then fail c stInvalid s
    else match s.runBad x c.key.ctx handle (fieldAt pay 4 4) p with
      | some st => fail c st s
      | none =>
        let kib := kib4 (32 + p.outBytes + 32 * trainLen (32 + p.outBytes))
        if !s.fits c.key.ctx kib then fail c stQuota s
        else
          let s := startSchedule (.program c.key.ctx handle) (seat c.key.ctx p.seqs.length s)
          let (r, s) := enterChains (startRun c handle p x (inputTiles p (pay.drop 32)) (s.seats c.key.ctx)) s
          enterRun r p s

def execProgramRun (k : CmdKey) (s : State) : Out := .next (withCtx 0x71 k runProgram s)

/- The working state of a run, and its return -/

/-- The working state of a sequence of a run. -/
def State.execOf (s : State) (r : Run) (seq : Nat) : Option Exec :=
  (s.program r.ctx r.handle).map fun p =>
    { prog := p, run := r, seq := seq, model := match s.modelNow p with
        | .good m => m
        | _ => []
      free := s.free }

/-- The working state's parts go back. -/
def commit (e : Exec) (s : State) : State :=
  { s with
    programs := kvMod (progKey e.run.ctx e.run.handle) (fun _ => e.prog) s.programs
    runs := s.runs.map fun r => if r.key = e.run.key then e.run else r
    free := e.free }

/-- The run of a key. -/
def State.runOf (s : State) (k : CmdKey) : Option Run := s.runs.find? fun r => decide (r.key = k)

/-- Chain steps of a run that ends well go back to its bindings. -/
def keepSteps (r : Run) (s : State) : State :=
  modLinks (fun l => { l with bindings := l.bindings.map fun b =>
    if b.2.ctx = r.ctx ∧ b.2.handle = r.handle then
      (b.1, { b.2 with steps := r.steps.filterMap fun m => if m.1 / 16 = b.2.chain then some (m.1 % 16, m.2) else none })
    else b }) s

end Sys2Proof.Machine
end

