-- ==== Sys2Proof/Machine/Layers.lean ====
section
/-!
DEFINITION. Machine/Layers.lean: late arrivals and the lead of a ferry schedule, and the tiles that a model's steps read, layer by layer (R32,
R45 to R49, R72).
-/

namespace Sys2Proof.Machine

open Sys2Proof

/- The lead (R47 to R49) -/

/-- A late arrival of a schedule: counted, and the lead deepened after LATE_LIMIT of them within 1 s, up to LEAD_MAX (R47, R48).
Where the quotas of the plots that run the work leave no room, the lead stays and LEAD_CAPPED goes up (R49); the arrivals counted so far are
forgotten then too, so that a capped deepening is tried again after LATE_LIMIT more (DESIGN CHOICE, log entry 162). -/
def lateArrival (o : SchedOwner) (room : Bool) (s : State) : State :=
  let lates := fun (x : Schedule) => (s.now :: x.lates).filter fun t => decide (s.now < t + countsS)
  let deeper := fun (x : Schedule) => decide (x.owner = o) && decide (x.lateLimit ≤ (lates x).length) && decide (x.lead < x.leadMax)
  modLanding (fun l => { l with
    lateArrivals := satAdd 16 l.lateArrivals 1
    leadCapped := if !room && l.schedules.any deeper then satAdd 16 l.leadCapped 1 else l.leadCapped
    schedules := l.schedules.map fun x =>
      if deeper x then { x with lead := if room then x.lead + 1 else x.lead, lates := [], lastLate := s.now }
      else if x.owner = o then { x with lates := lates x, lastLate := s.now }
      else x }) s

/-- Bytes of some tiles of a program. -/
def Program.tileBytes (p : Program) (ts : List Nat) : Nat := (ts.map fun t => (p.ref t).bytes).sum

/-- The tiles of a model from one on to the end of the layer that so many layers follow it by, of those that this module holds. -/
def Model.ahead (m : Model) (tile lead : Nat) : List Nat :=
  let last := min m.lastLayer ((imgLayerOf m.image tile).getD m.lastLayer + lead)
  let l := imgLayer m.image last
  (List.range (l.1 + l.2.1 - tile)).map (tile + ·)

/-- The scratchpad of the plots that run a schedule's work holds one more layer: for a program, of each plot the segments that its
sequences lead by; for a model, of each plot of the contexts that its steps run for the layers that they lead by (R49). -/
def State.leadRoom (s : State) (o : SchedOwner) : Bool :=
  let lead := s.leadOf o + 1
  match o with
  | .model slot => (kvGet slot s.models).all fun m => (s.steps.filter fun x => decide (x.slot = slot)).all fun x => (s.plotsOf x.ctx).all fun p =>
      decide (((m.ahead x.next lead).map (imgTileBytes m.image)).sum ≤ 1024 * s.quotaOn p x.ctx)
  | .program n h => (s.program n h).all fun g => (s.plotsOf n).all fun p =>
      let ts := ((s.seqsOn p n).filter fun x => decide (x.1.handle = h)).flatMap fun x => g.layerTiles x.2 (x.1.seq x.2).pc lead
      decide (g.tileBytes ts.eraseDups ≤ 1024 * s.quotaOn p n)

/- The tiles of a model on a plot (R32, R45, R46) -/

/-- A tile of a model on a slot stands on the plot for a context, its ferry ended. -/
def State.tileStands (s : State) (p n slot tile : Nat) : Bool :=
  (s.plot p).tiles.any fun t => decide (t.ctx = n) && decide (t.handle = modelHandle slot) && decide (t.tile = tile) && t.ready

/-- A tile of a model is ferried to a context's plot, its bytes charged there and split among the streams of the step (R32, R33, R488): one that its quota holds not even
alone takes all of the quota, part by part (DESIGN CHOICE, log entry 191). Where there is no room once others have left it is not. -/
def ferryLayer (slot : Nat) (m : Model) (p n : Nat) (ctxs keep : List Nat) (s : State) (tile : Nat) : State :=
  let bytes := min (imgTileBytes m.image tile) (1024 * s.quotaOn p n)
  if (s.plot p).tiles.any fun t => decide (t.ctx = n) && decide (t.handle = modelHandle slot) && decide (t.tile = tile) then s
  else
    let s := makeRoom p n bytes (fun h t => decide (h = modelHandle slot) && keep.contains t) ((s.plot p).tiles.length) s
    if s.quotaOn p n < s.sramOn p n + ceilDiv bytes 1024 then s
    else modPlot p (fun q => { q with tiles := q.tiles ++ [⟨n, modelHandle slot, tile, bytes, false, false⟩] }) (shareLanding ctxs bytes s)

/-- The layers from a tile on that a model's schedule leads by are ferried to a plot of the context, the tile itself first (R35, R45). -/
def ferryLayers (slot : Nat) (m : Model) (p n : Nat) (ctxs : List Nat) (tile : Nat) (s : State) : State :=
  let all := m.ahead tile (s.leadOf (.model slot))
  all.foldl (ferryLayer slot m p n ctxs all) (ferryLayer slot m p n ctxs [tile] s tile)

/-- The plot on which a context's work goes on now: one that runs it, where it does not have to make place (R132, R133). -/
def State.runsOn (s : State) (n : Nat) : Option Nat := (List.range 272).find? fun p => decide ((s.plot p).running = some n) && !s.yields p n

/-- The first tile of a step's remaining layers that does not stand on the plot. -/
def State.firstMissing (s : State) (x : ModelStep) (m : Model) (p : Nat) : Option Nat :=
  ((List.range (m.endTile - x.next)).map (x.next + ·)).find? fun t => !s.tileStands p x.ctx x.slot t

/-- A step stalls on a tile: the layers that its schedule leads by are ferried. At the start of a layer, once a layer, the stall is a late arrival,
and each command of the step carries LT (R45 to R47). -/
def stallLayer (x : ModelStep) (m : Model) (p tile : Nat) (s : State) : State :=
  let o := SchedOwner.model x.slot
  let layer := imgLayerOf m.image tile
  let late := decide (layer.map (fun i => (imgLayer m.image i).1) = some tile)
  let counted := s.landing.schedules.any fun y => decide (y.owner = o) && decide (y.layer = layer)
  let s := ferryLayers x.slot m p x.ctx (x.keys.map (·.ctx)) tile
    { s with steps := s.steps.filter (fun y => decide (y.keys ≠ x.keys)) ++ [{ x with next := tile }] }
  if !late then s
  else
    let s := if counted then s else lateArrival o (s.leadRoom o) s
    let s := modLanding (fun l => { l with schedules := l.schedules.map fun y => if y.owner = o then { y with layer := layer } else y }) s
    { s with cmds := s.cmds.map fun c => if x.keys.contains c.key then { c with lt := true } else c }

/-- The step of some commands on a slot, as it stands or as it begins: on a plot that runs one of their contexts. -/
def State.stepOf (s : State) (slot : Nat) (m : Model) (batch : Bool) (keys : List CmdKey) : Option ModelStep :=
  (s.steps.find? fun x => decide (x.keys = keys)).or
    ((keys.find? fun k => (s.runsOn k.ctx).isSome).map fun k => ⟨slot, batch, keys, k.ctx, m.firstTile⟩)

/-- A step of a model goes on: from layer boundary to layer boundary, as far as the tiles stand ready on the plot that runs it, and stalls on
the first that does not; with all layers read, what the step does is done, and the first layers are ferried for the next (R45, R46, R72). In
streaming mode the layers come from flash through the stream check units (R51, R182). -/
def throughLayers (slot : Nat) (m : Model) (batch : Bool) (keys : List CmdKey) (done : State → State) (s : State) : State :=
  match s.stepOf slot m batch keys with
  | none => s
  | some x => match s.runsOn x.ctx with
    | none => s
    | some p =>
      let o := SchedOwner.model slot
      let s := layerBoundary o s
      match s.firstMissing x m p with
      | some t => stallLayer x m p t s
      | none =>
        let s := { s with steps := s.steps.filter fun y => decide (y.keys ≠ x.keys) }
        let s := modLanding (fun l => { l with schedules := l.schedules.map fun y =>
          if y.owner = o then { y with layer := none } else y }) s
        let s := ferryLayers slot m p x.ctx (x.keys.map (·.ctx)) m.firstTile s
        if s.streams_ slot then streamCheck (fun s => keys.foldl (fun s k => match findCmd k s with
          | some c => settleEnds (endCmd stMediaUncorrectable s { c with ra := true })
          | none => s) s) done s
        else done s

end Sys2Proof.Machine
end

