-- ==== Sys2Proof/Machine/Models.lean ====
section
/-!
DEFINITION. Machine/Models.lean: the model store, placement, embedding and generation (chapter 13 and SCAN_EMBED of R272).
-/

namespace Sys2Proof.Machine

open Sys2Proof

/- Model images pass R400 -/

/-- Bytes of an embedding (R401). -/
def imgOutBytes (m : List Byte) : Nat := imgOutDim m * fmtBits (imgOutFormat m) / 8

/-- A program of the entry table: PREFILL, DECODE, EMBED; none when absent. -/
def imgEntry (m : List Byte) (i : Nat) : Option (List Byte) :=
  let o := fieldAt m 44 4 + 16 * i
  if fieldAt m (o + 8) 4 = 0 then none else some (slice m (fieldAt m o 8) (fieldAt m (o + 8) 4))

/-- The header's fields are in range (Table 13-1). -/
def imgHeaderOk (m : List Byte) : Bool :=
  decide (128 ≤ m.length) && decide (fieldAt m 0 4 = 0x4B5A4D44) && decide (fieldAt m 4 1 = 1) && decide (fieldAt m 56 8 = m.length) &&
    decide (crc32c (patch m 64 (zeros 4)) = fieldAt m 64 4) && decide (1 ≤ imgLayers m) && decide (imgLayers m ≤ 1024) &&
    decide (1 ≤ imgTiles m) &&
    (match imgKind m with
     | 1 => decide (1 ≤ imgKvLayer m) && decide (imgKvLayer m ≤ 65536)
     | 2 => decide (1 ≤ imgInput m) && decide (imgInput m ≤ 8192) && decide (16 ≤ imgOutDim m) && decide (imgOutDim m ≤ 8192) &&
        decide (6 ≤ imgOutFormat m) && decide (imgOutFormat m ≤ 8)
     | _ => false)

/-- The three tables lie in the image. -/
def imgTablesOk (m : List Byte) : Bool :=
  decide (fieldAt m 36 4 + 32 * imgTiles m ≤ m.length) && decide (fieldAt m 40 4 + 16 * imgLayers m ≤ m.length) &&
    decide (fieldAt m 44 4 + 48 ≤ m.length)

/-- Tiles obey R30 and R346. -/
def imgTilesOk (m : List Byte) : Bool :=
  (List.range (imgTiles m)).all fun n =>
    let d := modelDecl m n
    decide (fieldAt m (fieldAt m 36 4 + 32 * n + 4) 1 < 16) && decide (bits (fieldAt m (fieldAt m 36 4 + 32 * n + 5) 1) 2 1 ≤ 2) &&
      d.shapeOk && learnedOk d

/-- The layers' tiles are consecutive, and cover every tile in order. -/
def imgLayersOk (m : List Byte) : Bool :=
  let ends := (List.range (imgLayers m)).foldl (fun (acc : Option Nat) l =>
    match acc with
    | none => none
    | some n =>
      let e := imgLayer m l
      let own := (List.range e.2.1).all fun i => decide (fieldAt m (fieldAt m 36 4 + 32 * (n + i) + 20) 2 = l)
      if e.1 = n ∧ own then some (n + e.2.1) else none) (some 0)
  decide (ends = some (imgTiles m))

/-- The entry programs that the kind needs are there, and each passes the checks of PROGRAM_LOAD. -/
def imgEntriesOk (m : List Byte) : Bool :=
  let good := fun (i : Nat) => match imgEntry m i with
    | none => true
    | some p => (imageBad p (some m)).isNone
  good 0 && good 1 && good 2 &&
    (if imgKind m = 1 then (imgEntry m 0).isSome && (imgEntry m 1).isSome else (imgEntry m 2).isSome)

/-- An image passes R400. -/
def imgOk (m : List Byte) : Bool := imgHeaderOk m && imgTablesOk m && imgTilesOk m && imgLayersOk m && imgEntriesOk m

/-- An image that replaces an unavailable one has its layers, tiles and tile entries (R402). -/
def imgSame (a b : List Byte) : Bool :=
  decide (imgLayers a = imgLayers b) && decide (imgTiles a = imgTiles b) &&
    decide (slice a (fieldAt a 36 4) (32 * imgTiles a) = slice b (fieldAt b 36 4) (32 * imgTiles b))

/- Placement (R403, R408) -/

/-- What a module holds of a model: PLACEMENT, first and last layer, shards. -/
structure Placing where
  placement : Nat
  first     : Nat
  last      : Nat
  shards    : Nat
  deriving DecidableEq, Repr

def Placing.layers (p : Placing) : Nat := if p.placement = 2 then 0 else p.last + 1 - p.first

/-- KiB that a placing charges its loader: homes, and the window while it streams. -/
def Placing.homeKib (p : Placing) (m : List Byte) : Nat := kib2m (layersBytes m p.first p.layers)
def Placing.streamKib (p : Placing) (m : List Byte) (window : Nat) : Nat := windowKib m p.first p.layers window
def Placing.kib (p : Placing) (m : List Byte) (window : Nat) : Nat := p.homeKib m + p.streamKib m window

/-- The cut of an image at layer boundaries into n shards of near-equal bytes: where each shard begins. -/
def shardStart (m : List Byte) (n i : Nat) : Nat :=
  if i = 0 then 0 else if n ≤ i then imgLayers m
  else ((List.range (imgLayers m + 1)).find? fun l => decide (i * layersBytes m 0 (imgLayers m) ≤ n * layersBytes m 0 l)).getD (imgLayers m)

def shardOf (m : List Byte) (n i : Nat) : Placing := ⟨1, shardStart m n i, shardStart m n (i + 1) - 1, n⟩

/-- Failure domains of the members: this module and the peers on its first crossings that are up (log entry 60). -/
def State.memberDomains (s : State) (members : Nat) : List Nat :=
  s.links.domain :: (s.upCrossings.take (members - 1)).map fun x => ((s.crossing x).map (·.peerDomain)).getD 0

/-- Domains by member count, most first, then by number (R408). -/
def rankDomains (ds : List Nat) : List Nat :=
  ds.eraseDups.insertionSort fun a b => ds.count b < ds.count a ∨ (ds.count a = ds.count b ∧ a ≤ b)

/-- The policy of R408 on a member with some headroom; none when there are fewer domains than shards. -/
def State.placing (s : State) (m : List Byte) (headKib members : Nat) : Option Placing :=
  let window := s.landing.windowLayers
  let whole : Placing := ⟨0, 0, imgLayers m - 1, 1⟩
  if whole.kib m window ≤ headKib then some whole
  else
    let n := (List.range (imgLayers m + 1)).find? fun n => decide (2 ≤ n) && (List.range n).all fun i =>
      decide (shardStart m n i < shardStart m n (i + 1)) && decide ((shardOf m n i).kib m window ≤ headKib)
    let ds := rankDomains (s.memberDomains members)
    match n with
    | none => none
    | some n =>
      if ds.length < n then none
      else match ds.findIdx? fun d => decide (d = s.links.domain) with
        | none => none
        | some i => some (if i < n then shardOf m n i else ⟨2, 0, 0, n⟩)

/-- The handle of a slot's present placement (R404). -/
def Model.handle (m : Model) (slot : Nat) : Nat := slot + 64 * m.count

/-- STATE of Table 13-3. -/
def ModelState.code : ModelState → Nat
  | .placing => 0
  | .placed => 1
  | .unavailable => 2
  | .stored => 3
  | .empty => 4

/-- The reply of MODEL_LOAD (Table 13-3). -/
def modelReply (slot : Nat) (m : Option Model) : List Byte :=
  match m with
  | none => leBytes 4 slot ++ leBytes 1 4 ++ zeros 27
  | some m =>
    leBytes 4 (m.handle slot) ++ leBytes 1 m.state.code ++ leBytes 1 m.placement ++ leBytes 2 m.firstLayer ++ leBytes 2 m.lastLayer ++
      leBytes 1 m.shards ++ zeros 1 ++ leBytes 4 ((m.homeKib + m.windowKib) / 1024) ++ leBytes 8 (65536 * m.units) ++ zeros 8

/-- A command of this chapter: LIFECYCLE_DENIED until the owner secret has been presented after the start (R399). -/
def modelled (c : Cmd) (f : State → State) (s : State) : State := if !s.keysPresent then fail c stLifecycle s else f s

/-- A MODEL_LOAD payload is in order (Table 13-3). -/
def modelLoadOk (p : List Byte) : Bool :=
  let mode := fieldAt p 0 1
  let group := fieldAt p 4 4
  decide (p.length = 64) && decide (1 ≤ mode) && decide (mode ≤ 3) && decide (fieldAt p 1 1 < 64) && decide (fieldAt p 2 1 ≤ 1) &&
    decide (fieldAt p 3 1 < 16) && decide (1 ≤ fieldAt p 8 1) && decide (fieldAt p 8 1 ≤ 49) &&
    (decide (group ≠ 0) || decide (fieldAt p 8 1 = 1)) && allZero (slice p 9 7) && allZero (slice p 32 32) &&
    (decide (mode = 1) || allZero (slice p 16 16))

/-- An image comes into a slot of the store, under a key of its own (R399). -/
def storeModel (slot : Nat) (m : Model) (s : State) : Model × State :=
  let (key, s) := takeFree s
  let m := { m with key := key, wrapped := s.wrap key }
  (m, writeRoots { holdKey key s with models := kvSet slot m s.models })

/-- A checked image is placed in a slot: its charges fit, its members can be reached, and the reply waits for the end of placement,
or departs at once with EARLY (R403, R408). -/
def placeModel (c : Cmd) (slot : Nat) (old : Option Model) (image : List Byte) (s : State) : State :=
  let p := c.payload
  let group := fieldAt p 4 4
  let members := fieldAt p 8 1
  let s0 := modCmd c.key (fun c => { c with stagedKib := 0 })
    { s with models := kvMod slot (fun m => { m with homeKib := 0, windowKib := 0 }) s.models }
  let batch := match kvGet c.key.ctx s.contexts with
    | none => 0
    | some x => if x.cls = .batch then 256 else 0
  if group ≠ 0 ∧ s.upCrossings.length + 1 < members then fail c stPeerUnreachable s
  else
    let whole : Placing := ⟨0, 0, imgLayers image - 1, 1⟩
    match if group = 0 then some whole else s0.placing image (s0.headroomKib c.key.ctx - batch) members with
    | none => fail c stInvalid s
    | some pl =>
      if !s0.fits c.key.ctx (pl.kib image s.landing.windowLayers) then fail c stQuota s
      else
        let keep := old.any fun m => decide (m.state = .unavailable)
        let count := ((old.map (·.count)).getD 0 + (if keep then 0 else 1)) % 2 ^ 26
        let early := bit (fieldAt p 2 1) 0
        let m : Model :=
          { state := .placing, image := image, units := ceilDiv image.length 65536, count := count, loader := c.key.ctx,
            sessions := fieldAt p 3 1, early := early, homeKib := pl.homeKib image,
            windowKib := pl.streamKib image s.landing.windowLayers, windowLayers := s.landing.windowLayers, group := group,
            members := members, placement := pl.placement, firstLayer := pl.first, lastLayer := pl.last, shards := pl.shards,
            key := (old.map (·.key)).getD 0, wrapped := (old.map (·.wrapped)).getD [], ending := none, lost := [] }
        let (m, s) := if old.any fun o => decide (o.image = image) then (m, { s with models := kvSet slot m s.models })
          else storeModel slot m (old.elim s fun o => dropKey o.key s)
        let s := startSchedule (.model slot) s
        if early then reply c stOk (modelReply slot (some m)) s
        else modCmd c.key (fun c => { c with phase := .waiting (.placed slot), stagedKib := 0 }) s

/-- The bytes of an extent (R402). -/
def State.extentData (s : State) (e : Extent) : List Byte :=
  (List.range e.units).flatMap fun i => (s.unitData e.vol (e.first + i)).getD (zeros 65536)

/-- The slot's model, when there is an image in it. -/
def State.modelIn (s : State) (slot : Nat) : Option Model := (kvGet slot s.models).bind fun m => if m.state = .empty then none else some m

/-- MODEL_LOAD MODE 0x01 (R400, R402). -/
def modelImport (c : Cmd) (_ : Ctx) (s : State) : State :=
  let p := c.payload
  if modelLoadOk p ∧ fieldAt p 0 1 ≠ 1 then s
  else modelled c (fun s =>
    let slot := fieldAt p 1 1
    let e := extentAt p 16
    let old := s.modelIn slot
    if s.unloadAhead slot c.order then s
    else if !modelLoadOk p ∨ !s.extentsOk c.key.session [e] ∨ (old.any fun m => decide (m.state ≠ .unavailable)) then fail c stInvalid s
    else protectedBy c (fun s =>
      if s.media.spareOut then fail c stSpareExhausted s
      else
        let us := (List.range e.1.units).map (e.1.first + ·)
        withUnits c (wholeUnits e.1.vol us) (fun s =>
          if s.badUnits c e.1.vol us ≠ [] then fail c stMediaUncorrectable s
          else
            let data := s.extentData e.1
            let image := data.take (fieldAt data 56 8)
            let free := s.unassigned + (old.map (·.units)).getD 0
            if !imgOk image ∨ free < ceilDiv image.length 65536 ∨ (old.any fun m => !imgSame m.image image || decide (m.loader ≠ c.key.ctx)) then
              fail c stInvalid s
            else readBack c (placeModel c slot (kvGet slot s.models) image) s) s) s) s

def execModelLoadImport (k : CmdKey) (s : State) : Out := .next (withCtx 0x50 k modelImport s)

/-- MODEL_LOAD MODE 0x02 (R402, R404). -/
def modelPlace (c : Cmd) (_ : Ctx) (s : State) : State :=
  let p := c.payload
  if !modelLoadOk p ∨ fieldAt p 0 1 ≠ 2 then s
  else modelled c (fun s =>
    let slot := fieldAt p 1 1
    if s.unloadAhead slot c.order then s
    else match s.modelIn slot with
      | none => fail c stInvalid s
      | some m =>
        if m.state = .stored then readBack c (placeModel c slot (some m) m.image) s
        else if m.loader ≠ c.key.ctx then fail c stInvalid s
        else if m.state = .unavailable then readBack c (placeModel c slot (some m) m.image) s
        else reply c stOk (modelReply slot (some m)) s) s

def execModelLoadPlace (k : CmdKey) (s : State) : Out := .next (withCtx 0x50 k modelPlace s)

/-- MODEL_LOAD MODE 0x03 (R402). -/
def modelQuery (c : Cmd) (_ : Ctx) (s : State) : State :=
  let p := c.payload
  if !modelLoadOk p ∨ fieldAt p 0 1 ≠ 3 then s
  else modelled c (fun s => reply c stOk (modelReply (fieldAt p 1 1) (kvGet (fieldAt p 1 1) s.models)) s) s

def execModelLoadQuery (k : CmdKey) (s : State) : Out := .next (withCtx 0x50 k modelQuery s)

/-- A refetch of a line of the model's weights runs, or of a line that the MODEL_LOAD waiting for it reads (R56). -/
def State.refetchingModel (s : State) (slot : Nat) : Bool :=
  (s.landing.faults.any fun f => !f.poisoned && decide (f.data = .weights slot)) ||
    s.cmds.any fun c => decide (c.phase = .waiting (.placed slot)) && s.stalled c.key

/-- Placement ends: the model leaves streaming mode, its window's charge is released, and a MODEL_LOAD that waits is answered
(R403). -/
def placementEnd (slot : Nat) (s : State) : State :=
  match kvGet slot s.models with
  | none => s
  | some m =>
    if m.state ≠ .placing ∨ s.refetchingModel slot then s
    else
      let m := { m with state := .placed, windowKib := 0 }
      let s := { s with models := kvSet slot m s.models, power := { s.power with idleSince := s.now } }
      (s.cmds.filter fun c => decide (c.phase = .waiting (.placed slot))).foldl (fun s c => reply c stOk (modelReply slot (some m)) s) s

def execModelPlacementEnd (slot : Nat) (s : State) : Out := .next (placementEnd slot s)

/-- MODEL_UNLOAD (R404, R405). -/
def modelUnload (c : Cmd) (_ : Ctx) (s : State) : State :=
  modelled c (fun s =>
    let p := c.payload
    let h := fieldAt p 0 4
    let slot := if h = 0xFFFFFFFF then fieldAt p 4 1 else h % 64
    let drop := bit (fieldAt p 5 1) 0
    let ok := decide (p.length = 8) && decide (fieldAt p 5 1 ≤ 1) && decide (fieldAt p 6 2 = 0) && decide (slot < 64)
    if ok ∧ s.modelBusy slot c.order then s
    else match if ok then s.modelIn slot else none with
      | none => fail c stInvalid s
      | some m =>
        let named := decide (h = 0xFFFFFFFF) || decide (m.handle slot = h)
        let placed := decide (m.state ≠ .stored)
        let good := if placed then named && decide (m.loader = c.key.ctx) && !(drop && decide (h = 0xFFFFFFFF)) else drop && decide (h = 0xFFFFFFFF)
        if !good then fail c stInvalid s
        else
          let streams := (s.streamsOn slot).length
          let mib := if placed then (m.homeKib + m.windowKib) / 1024 else 0
          let s := if placed then unloadModel slot s else s
          let s := if drop then renewRoots (dropKey m.key { s with models := kvMod slot (fun m => { m with state := .empty, image := [], units := 0, wrapped := [] }) s.models }) else s
          reply c stOk (leBytes 4 streams ++ leBytes 4 mib) s) s

def execModelUnload (k : CmdKey) (s : State) : Out := .next (withCtx 0x51 k modelUnload s)

/- Naming a model -/

/-- A command that names a model by a handle: INVALID_FIELD for a stale handle, one not placed, or a user left out; and
WEIGHTS_UNAVAILABLE for one marked unavailable (R63, R404). It waits behind an earlier MODEL_UNLOAD (R405). -/
def namingModel (user : Model → Bool) (c : Cmd) (handle : Nat) (f : Model → State → State) (s : State) : State :=
  match kvGet (handle % 64) s.models with
  | none => fail c stInvalid s
  | some m =>
    if s.unloadAhead (handle % 64) c.order then s
    else if m.count ≠ handle / 64 ∨ !user m then fail c stInvalid s
    else if m.state = .unavailable then fail c stWeightsUnavailable s
    else if m.state ≠ .placed ∧ m.state ≠ .placing then fail c stInvalid s
    else f m s

/-- A command of any context whose session SESSIONS names: GEN_OPEN, EMBED (R404). -/
def withModel (c : Cmd) : Nat → (Model → State → State) → State → State := namingModel (fun m => maskAllows m.sessions c.key.session) c

/-- A command of the loader only: SCAN_EMBED (R404). -/
def withOwnModel (c : Cmd) : Nat → (Model → State → State) → State → State := namingModel (fun m => decide (m.loader = c.key.ctx)) c

/-- The module holds the model whole, or shard 0 of it (R409). -/
def Model.heads (m : Model) : Bool := decide (m.placement = 0) || (decide (m.placement = 1) && decide (m.firstLayer = 0))

/-- The work of a step of the model's own programs: its multiply-accumulates and Landing bytes are not stated, and are free
counts (log entry 61), split equally among the streams of the step, whose contexts are given; counts that no equal split takes go one each to the first
streams (R488, DESIGN CHOICE, log entry 213). -/
def shareWork (ctxs : List Nat) (s : State) : State :=
  let (i, s) := takeFree s
  ctxs.zipIdx.foldl (fun s x =>
    let n := fun (j : Nat) =>
      let total := (Config.stepWork i j).toNat
      total / ctxs.length + b2n (decide (x.2 < total % ctxs.length))
    account (some x.1) (fun a => { a with
      macsInt8 := a.macsInt8 + n 0
      macsInt4 := a.macsInt4 + n 1
      macsBf16 := a.macsBf16 + n 2
      landing := a.landing + n 3 }) s) s

/-- The work of one context. -/
def freeWork (ctx : Nat) (s : State) : State := shareWork [ctx] s

/-- Little-endian elements of the embedding of an input: their values are the model's own arithmetic, which is not stated bit for bit. -/
def freeEmbedding (m : List Byte) (free : Nat) (input : List Nat) : List Byte :=
  (List.range (imgOutDim m)).flatMap fun e => leBytes (fmtBits (imgOutFormat m) / 8) (Config.embeddingOf free input e).toNat

/-- A survivor body as an input: whole 4-byte identifiers, cut at INPUT_TOKENS or padded with PAD_TOKEN (R272, R401). -/
def imgInputOf (m body : List Byte) : List Nat :=
  let ids := ((List.range (body.length / 4)).map fun i => fieldAt body (4 * i) 4).take (imgInput m)
  ids ++ List.replicate (imgInput m - ids.length) (fieldAt m 28 4)

/-- EMBED, which reads the model's layers one after the other (R45, R401, R409, R417). -/
def embed (c : Cmd) (_ : Ctx) (s : State) : State :=
  modelled c (fun s =>
    let p := c.payload
    if p.length < 16 ∨ fieldAt p 8 8 ≠ 0 then fail c stInvalid s
    else withModel c (fieldAt p 0 4) (fun m s =>
      let n := fieldAt p 4 4
      let img := m.image
      let ids := (List.range (n * imgInput img)).all fun i => decide (fieldAt p (16 + 4 * i) 4 < imgVocab img)
      let bytes := n * imgOutBytes img
      if imgKind img ≠ 2 ∨ n = 0 ∨ p.length ≠ 16 + 4 * n * imgInput img ∨ 16777216 < bytes ∨ !ids ∨ !m.heads then fail c stInvalid s
      else
        let kib := kib4 (bytes + 32 * trainLen bytes)
        if !s.resultsFit c kib then fail c stQuota s
        else
          let inputs := (List.range n).map fun i => (List.range (imgInput img)).map fun j => fieldAt p (16 + 4 * (i * imgInput img + j)) 4
          throughLayers (fieldAt p 0 4 % 64) m (decide (c.cls ≠ 0)) [c.key] (fun s =>
            let (free, s) := takeFree (freeWork c.key.ctx s)
            complete c stOk false (inputs.flatMap (freeEmbedding img free)) kib [] s)
            (seat c.key.ctx 1 s)) s) s

def execEmbed (k : CmdKey) (s : State) : Out := .next (withCtx 0x52 k embed s)

/-- SCAN_EMBED: each survivor body is an input, cut to fit or padded as the model declares, and its embedding the result
(R265, R268 to R272, R401). -/
def scanEmbed (c : Cmd) (_ : Ctx) (s : State) : State :=
  let p := c.payload
  let n := fieldAt p 1 1
  let max_ := fieldAt p 4 4
  let h := fieldAt p 8 4
  let es := extentsAt p 16 n
  let ok := scanHeadOk p && decide (p.length = 16 + 16 * n) && decide (fieldAt p 3 1 = 0) && outputMaxOk max_ && s.extentsOk c.key.session es
  match s.scanOf c.key with
  | none => fail c stInvalid s
  | some q =>
    stored c (ok && decide (q.pred.target = 1)) (withOwnModel c h fun m s =>
      if imgKind m.image ≠ 2 then fail c stInvalid s
      else
        let ex := es.map (·.1)
        let size := 16 + roundUp (imgOutBytes m.image) 8
        runScan c ex q (bit (fieldAt p 2 1) 0) max_ (fun s u => scanUnit q.pred c s u.2.1 u.1 u.2.2)
          (fun u => size * u.survivors.length) (fun cut read s =>
          let vs := cut.units.flatMap (unitSurvivors q.pred)
          let done := fun (s : State) =>
            let (free, s) := takeFree (freeWork c.key.ctx (hostReads read s))
            let body := vs.flatMap fun v =>
              { v with body := freeEmbedding m.image free (imgInputOf m.image v.body) }.bytes
                (b2n v.cut + 2 * b2n (decide (4 * imgInput m.image < v.body.length)))
            let bad := badRanges cut.bad
            complete c cut.status (decide (cut.bad ≠ [])) (scanHead cut bad.length vs.length body.length ++ body ++ bad.flatMap badBytes)
              (2 * max_ / 1024) [] s
          if vs = [] then done s
          else throughLayers (h % 64) m (decide (c.cls ≠ 0)) [c.key] done (seat c.key.ctx 1 s)) s) s

def execScanEmbed (k : CmdKey) (s : State) : Out := .next (withCtx 0x32 k scanEmbed s)

/- Generation (R410 to R416) -/

/-- A block reference obeys Table 13-7 and the volume access mask (R411). -/
def State.refOk (s : State) (session : Nat) (r : List Byte) : Bool :=
  let off := fieldAt r 12 2
  let n := fieldAt r 14 2
  decide (fieldAt r 1 3 = 0) && decide (1 ≤ n) && decide (off + n ≤ 1024) && (match s.volumeFor (fieldAt r 0 1) session with
    | none => false
    | some v => decide (fieldAt r 4 8 < 16 * v.units))

/-- The parameters of GEN_OPEN that depend on nothing but the image (Table 13-6). -/
def genFieldsOk (p img : List Byte) : Bool :=
  let sample := bit (fieldAt p 11 1) 1
  let n := fieldAt p 8 2
  let r := fieldAt p 10 1
  decide (p.length = 64 + 4 * n + 16 * r) && decide (n ≤ 8192) && decide (r ≤ 64) && decide (fieldAt p 11 1 < 4) && allZero (slice p 48 16) &&
    decide (imgKind img = 1) && decide (fieldAt p 4 4 ≤ imgContext img) &&
    (!sample || (decide (1 ≤ fieldAt p 12 4) && decide (fieldAt p 12 4 ≤ 0x7F800000) && decide (1 ≤ fieldAt p 16 4) &&
      decide (fieldAt p 16 4 ≤ 0x3F800000) && decide (fieldAt p 20 4 ≤ imgVocab img)))

/-- KiB of a stream's KV pages (R412). -/
def kvPagesKib (m : Model) (maxContext : Nat) : Nat :=
  64 * (m.lastLayer + 1 - m.firstLayer) * ceilDiv maxContext (65536 / imgKvLayer m.image)

/-- GEN_OPEN (R409 to R413). -/
def genOpen (c : Cmd) (x : Ctx) (s : State) : State :=
  modelled c (fun s =>
    let p := c.payload
    if p.length < 64 then fail c stInvalid s
    else withModel c (fieldAt p 0 4) (fun m s =>
      let n := fieldAt p 8 2
      let refs := (List.range (fieldAt p 10 1)).map fun i => slice p (64 + 4 * n + 16 * i) 16
      let total := n + (refs.map fun r => fieldAt r 14 2).sum
      let ok := genFieldsOk p m.image && m.heads && refs.all (s.refOk c.key.session) && decide (1 ≤ total) && decide (total < fieldAt p 4 4)
      if !ok then fail c stInvalid s
      else
        let unitOf := fun (r : List Byte) => fieldAt r 4 8 / 16
        withUnits c (refs.map fun r => (fieldAt r 0 1, unitOf r, 0xFFFF)) (fun s =>
          if refs.any fun r => s.badUnits c (fieldAt r 0 1) [unitOf r] ≠ [] then fail c stMediaUncorrectable s
          else
            let inline := (List.range n).map fun i => fieldAt p (64 + 4 * i) 4
            let named := refs.flatMap fun r =>
              let d := (s.unitData (fieldAt r 0 1) (unitOf r)).getD (zeros 65536)
              (List.range (fieldAt r 14 2)).map fun i => fieldAt d (4096 * (fieldAt r 4 8 % 16) + 4 * (fieldAt r 12 2 + i)) 4
            let prompt := if bit (fieldAt p 11 1) 0 then inline ++ named else named ++ inline
            let kib := kvPagesKib m (fieldAt p 4 4)
            let s0 := modCmd c.key (fun c => { c with stagedKib := 0 }) s
            if prompt.any fun t => decide (imgVocab m.image ≤ t) then fail c stInvalid s
            else match kvFree s.streams 1024 with
              | none => fail c stQuota s
              | some t =>
                if !s0.fits c.key.ctx kib then fail c stQuota s
                else
                  let st : Stream :=
                    { ctx := c.key.ctx, cls := x.cls, admitted := decide (x.cls = .interactive), slot := fieldAt p 0 4 % 64,
                      maxContext := fieldAt p 4 4, prompt := prompt, tokens := [], pos := none, replies := [], ended := 0,
                      stops := ((List.range 4).map fun i => fieldAt p (32 + 4 * i) 4).filter fun v => decide (v ≠ 0xFFFFFFFF),
                      sample := bit (fieldAt p 11 1) 1, temperature := fieldAt p 12 4, topP := fieldAt p 16 4, topK := fieldAt p 20 4,
                      seed := fieldAt p 24 8, kvKib := kib, lastOut := s.now, opened := false }
                  let slot := fieldAt p 0 4 % 64
                  let s := seat c.key.ctx 1 { s with streams := kvSet t st s.streams }
                  let s := match s.runsOn c.key.ctx with
                    | none => s
                    | some q => ferryLayers slot m q c.key.ctx [c.key.ctx] m.firstTile s
                  modCmd c.key (fun c => { c with phase := .waiting (.token t), stagedKib := 0, tally := 0 }) s) s) s) s

def execGenOpen (k : CmdKey) (s : State) : Out := .next (withCtx 0x53 k genOpen s)

/-- A token reply (Table 13-5). -/
def tokenReply (stream : Nat) (r : Nat × Nat × Nat) : List Byte := leBytes 4 r.2.1 ++ leBytes 2 stream ++ leBytes 1 r.2.2 ++ zeros 1

/-- The stream of a number when it is open and the context's own. -/
def State.streamOf (s : State) (n ctx : Nat) : Option Stream := (kvGet n s.streams).bind fun t => if t.ctx = ctx then some t else none

/-- GEN_STEP (R414, R415); on a stream that closed with its model it completes WEIGHTS_UNAVAILABLE (R63, Table 13-11). -/
def genStep (c : Cmd) (_ : Ctx) (s : State) : State :=
  modelled c (fun s =>
    let p := c.payload
    let n := fieldAt p 0 2
    let pos := fieldAt p 4 4
    match if p.length = 16 ∧ fieldAt p 2 2 = 0 ∧ fieldAt p 8 8 = 0 then s.streamOf n c.key.ctx else none with
    | none => fail c (if s.models.any fun m => m.2.lost.contains (n, c.key.ctx) then stWeightsUnavailable else stInvalid) s
    | some t =>
      if s.unloadAhead t.slot c.order then s
      else match t.pos with
        | none => fail c stInvalid s
        | some last =>
          if pos = last + 1 ∧ t.ended = 0 then modCmd c.key (fun c => { c with phase := .waiting (.token n) }) s
          else match t.replies.find? fun r => decide (r.1 = pos) with
            | some r => complete c stOk false (tokenReply n r) 0 [.tokenOut n] s
            | none => fail c stInvalid s) s

def execGenStep (k : CmdKey) (s : State) : Out := .next (withCtx 0x54 k genStep s)

/-- A stream's next token answers a command: its value is free below VOCAB, and it ends the stream when it is a STOP identifier or
fills MAX_CONTEXT (R413 to R415). -/
def giveToken (c : Cmd) (n : Nat) (s : State) : State :=
  match kvGet n s.streams with
  | none => s
  | some t =>
    let (i, s) := takeFree s
    let vocab := ((kvGet t.slot s.models).map fun m => imgVocab m.image).getD 1
    let tok := Config.token i % vocab
    let pos := match t.pos with
      | none => 0
      | some q => q + 1
    let kind := if t.stops.contains tok then 1 else if t.maxContext ≤ t.prompt.length + pos + 1 then 2 else 0
    let r := (pos, tok, kind)
    let t := { t with pos := some pos, tokens := t.tokens ++ [tok], replies := (r :: t.replies).take 4, ended := kind }
    complete c stOk false (tokenReply n r) 0 [.tokenOut n] { s with streams := kvSet n t s.streams }

/-- The commands of an opcode that wait for the next token of a stream on a slot and do not stall on a line, in order of receipt (R56). -/
def State.tokenWaits (s : State) (op slot : Nat) : List (Cmd × Nat) :=
  s.cmds.filterMap fun c => match c.phase with
    | .waiting (.token n) => if c.opcode = op ∧ (s.streamsOn slot).contains n ∧ !s.stalled c.key then some (c, n) else none
    | _ => none

/-- A chunk of 512 prompt tokens of a stream is prefilled; with the last the stream's first token answers its GEN_OPEN (R413). -/
def prefill (c : Cmd) (n : Nat) (s : State) : State :=
  let len := ((kvGet n s.streams).map fun t => t.prompt.length).getD 0
  let s := freeWork c.key.ctx s
  if len ≤ c.tally + 512 then giveToken c n s
  else modCmd c.key (fun c => { c with tally := c.tally + 512 }) s

/-- The commands that a generation step of a model serves: those of the step that has begun, or else every waiting GEN_STEP of its class and, of an
interactive step, the first GEN_OPEN that waits for its prompt (R413). -/
def State.servedKeys (s : State) (slot : Nat) (m : Model) (batch : Bool) : List CmdKey :=
  let cls : Cls := if batch then .batch else .interactive
  let steps := (s.tokenWaits 0x54 slot).filter fun x => (kvGet x.2 s.streams).any fun t => decide (t.cls = cls)
  let chunk := if batch then [] else (s.tokenWaits 0x53 slot).take 1
  match s.steps.find? fun x => decide (x.slot = slot) && decide (x.batch = batch) && decide (imgKind m.image = 1) with
  | some x => x.keys
  | none => (steps ++ chunk).map fun x => x.1.key

/-- A generation step of a model: every stream of the class with a GEN_STEP waiting when it began advances by one token, the layers' tiles read
once for all of them; after an interactive step one chunk of 512 prompt tokens of one stream is prefilled, which reads them with it (R45, R413,
log entry 191). A step begins at a layer boundary of the model's schedule (R72). -/
def generation (slot : Nat) (batch : Bool) (s : State) : State :=
  match kvGet slot s.models with
  | none => s
  | some m =>
    let cls : Cls := if batch then .batch else .interactive
    let steps := (s.tokenWaits 0x54 slot).filter fun x => (kvGet x.2 s.streams).any fun t => decide (t.cls = cls)
    let chunk := if batch then [] else (s.tokenWaits 0x53 slot).take 1
    let keys := s.servedKeys slot m batch
    let mine := fun (l : List (Cmd × Nat)) => l.filter fun x => keys.contains x.1.key
    if mine (steps ++ chunk) = [] then { s with steps := s.steps.filter fun x => decide (x.keys ≠ keys) }
    else throughLayers slot m batch keys (fun s =>
      let s := if mine steps = [] then s else shareWork ((mine steps).map fun x => x.1.key.ctx) s
      (mine chunk).foldl (fun s x => prefill x.1 x.2 s) ((mine steps).foldl (fun s x => giveToken x.1 x.2 s) s)) s

def execGenerationStep (slot : Nat) (batch : Bool) (s : State) : Out := .next (generation slot batch s)

/-- GEN_CLOSE: one stream, or every stream of the context; it comes after the earlier commands on them (R416). -/
def genClose (c : Cmd) (_ : Ctx) (s : State) : State :=
  modelled c (fun s =>
    let p := c.payload
    let n := fieldAt p 0 2
    if p = [] then
      if s.cmds.any fun d => d.live && decide (d.order < c.order) && decide (d.key.ctx = c.key.ctx) && decide (d.key.queue = .work) &&
          (decide (d.opcode = 0x53) || decide (d.opcode = 0x54)) then s
      else reply c stOk [] (((s.streams.filter fun t => decide (t.2.ctx = c.key.ctx)).map (·.1)).foldl (fun s n => closeStream n s) s)
    else if p.length ≠ 8 ∨ !allZero (slice p 2 6) ∨ (s.streamOf n c.key.ctx).isNone then fail c stInvalid s
    else reply c stOk [] (closeStream n s)) s

def execGenClose (k : CmdKey) (s : State) : Out := .next (withCtx 0x55 k genClose s)

/- Loss of a model (R63, R409, R420) -/

/-- An event that goes to some sessions only. -/
def raiseTo (sessions : List Nat) (code sev kind source : Nat) (args : List Byte) (s : State) : State :=
  let e : EventRec := ⟨code, sev, kind, source, s.now, 0xFFFF, args⟩
  sessions.foldl (deliver e) (logEvent e s)

/-- The outstanding commands on a stream, or waiting for its first token, complete with a status, and it closes. -/
def breakStream (status n : Nat) (s : State) : State :=
  let s := (s.cmds.filter fun c => decide (c.phase = .waiting (.token n))).foldl (fun s c => fail c status s) s
  closeStream n s

/-- A model is marked unavailable: its streams close and MODEL_UNAVAILABLE goes to the loader's session and to every session with a
stream on it (R63, R420). -/
def markUnavailable (slot status kind source cause : Nat) (s : State) : State :=
  let s0 := s
  match kvGet slot s.models with
  | none => s
  | some m =>
    let streams := s.streamsOn slot
    let owners := m.loader :: streams.filterMap fun n => (kvGet n s.streams).map (·.ctx)
    let sessions := (owners.filterMap fun n => (kvGet n s.contexts).map (·.session)).eraseDups
    let s := streams.foldl (fun s n => breakStream status n s) s
    let gone := streams.filterMap fun n => (kvGet n s0.streams).map fun t => (n, t.ctx)
    let s := dropSteps slot { s with models := kvMod slot (fun m => { m with state := .unavailable, lost := gone }) s.models }
    raiseTo sessions 0x0104 2 kind source (evArgs [(20, 4, m.handle slot), (24, 1, cause), (25, 1, streams.length)]) s

end Sys2Proof.Machine
end

