-- ==== Sys2Proof/Machine/TrainOps.lean ====
section
/-!
DEFINITION. Machine/TrainOps.lean: a TRAIN_STEP from micro-batch to micro-batch (R427, R438 to R442), and what a run leaves behind.
-/

namespace Sys2Proof.Machine

open Sys2Proof

/-- A run is gone: its own tiles and hand-on blocks with it, the steps of its bound chains kept when it ended well, and the chains aborted when it
did not (R466). -/
def leaveRun (r : Run) (status : Nat) (s : State) : State :=
  let s := match s.program r.ctx r.handle with
    | none => s
    | some g => dropHeld r.ctx r.handle g.ofRun s
  let s := dropBlocks ((r.sent ++ r.landed).map fun x => x.2.2) { s with runs := s.runs.filter fun q => decide (q.key ≠ r.key) }
  if status = stOk then keepSteps r s else (s.boundTo r.ctx r.handle).foldl (fun s f => breakChain f none s) s

/-- A working state of a program outside any run: for updates and reductions (R427, R443). -/
def State.programExec (s : State) (k : CmdKey) (handle eta : Nat) (frozen : KV (List Nat)) (p : Program) : Exec :=
  { prog := p
    run := { key := k, ctx := k.ctx, handle := handle, seqs := [], tokens := [], check := 0, skips := 0, nonfinite := 0, issued := 0,
             tiles := [], eta := eta, frozen := frozen, sent := [], landed := [], again := [], steps := [], late := false }
    seq := 0
    model := match s.modelNow p with
      | .good m => m
      | _ => []
    free := s.free }

/-- The program and the free-value counter of a working state go back; copies of its persistent tiles on the plots are gone (R35). -/
def commitProgram (e : Exec) (s : State) : State :=
  let s := dropHeld e.run.ctx e.run.handle (fun t => decide ((e.prog.ref t).decl.source = 4)) s
  { s with programs := kvMod (progKey e.run.ctx e.run.handle) (fun _ => e.prog) s.programs, free := e.free }

/-- Every block of some entries is updated from its G_ACC, which is then cleared (R440, R443): blocks updated, frozen, not finite. -/
def Exec.updateEntries (e : Exec) (first n : Nat) : Exec × Nat × Nat × Nat :=
  (List.range n).foldl (fun (acc : Exec × Nat × Nat × Nat) j =>
    let i := first + j
    match acc.1.prog.params[i]? with
    | none => acc
    | some p =>
      let r := acc.1.update (acc.1.updOf i p p.g p.ruleOf p.round)
      (r.1.clearGrad p.g, acc.2.1 + r.2.1, acc.2.2.1 + r.2.2.1, acc.2.2.2 + r.2.2.2)) (e, 0, 0, 0)

/-- The train step of a command. -/
def State.trainOf (s : State) (k : CmdKey) : Option Train := s.trains.find? fun t => decide (t.key = k)

/-- One train step changed. -/
def modTrain (k : CmdKey) (f : Train → Train) (s : State) : State := { s with trains := s.trains.map fun t => if t.key = k then f t else t }

/-- The records of the next micro-batch, with those rejected before its last, and the records after it; none when the rest holds
too few (R438). -/
def takeMicro : Nat → List TrainRec → Option (List TrainRec × List TrainRec)
  | 0, rs => some ([], rs)
  | _, [] => none
  | n + 1, r :: rs =>
    if r.kept then (takeMicro n rs).map fun x => (r :: x.1, x.2)
    else (takeMicro (n + 1) rs).map fun x => (r :: x.1, x.2)

/-- The input tiles of a micro-batch: record r supplies row r of each, from its IO_OFF (R438). -/
def microTiles (p : Program) (recs : List TrainRec) : KV Tile :=
  p.tiles.zipIdx.filterMap fun x =>
    let d := x.1
    if d.source = 2 then
      let w := fmtBits d.format
      let codes := (List.range d.elems).map fun i =>
        let q := d.place i
        fieldAt (((recs[q.1]?).map (·.body)).getD []) (d.io + q.2 * (w / 8)) (w / 8)
      some (x.2, ⟨packCodes w codes, []⟩)
    else none

/-- Where the first record not used stands: unit, extent and ordinal (Table 14-5). -/
def Train.next (t : Train) : Nat × Nat × Nat :=
  match t.recs.head?, t.after with
  | some r, _ => (r.unit, r.extent, r.ord)
  | none, some a => (a.2, a.1, 0)
  | none, none => (2 ^ 64 - 1, 0xFF, 0)

/-- The reply head (Table 14-5). -/
def Train.head (t : Train) (next : Nat × Nat × Nat) (endKind left ranges : Nat) : List Byte :=
  leBytes 8 next.1 ++ leBytes 1 next.2.1 ++ leBytes 1 endKind ++ leBytes 2 next.2.2 ++ leBytes 4 t.micro ++ leBytes 8 t.used ++
    leBytes 8 t.filtered ++ leBytes 4 left ++ leBytes 4 t.skips ++ leBytes 4 t.nonfinite ++ leBytes 4 t.check ++ leBytes 2 ranges ++ zeros 14

/-- Range entries of unreadable units. -/
def trainRanges (bad : List (Nat × Nat)) : List Bad := joinBad (bad.map fun b => (16 * b.1, 16, b.2))

/-- The sum of an output tile as FP32 elements, in stored order (R439). -/
def Train.output (t : Train) (p : Program) (free : Nat) : List Byte :=
  p.tiles.zipIdx.foldl (fun out x =>
    if x.1.source = 3 then
      let ps := (kvGet x.2 t.sums).getD []
      patch out x.1.io ((List.range x.1.elems).flatMap fun i =>
        leBytes 4 (f32Word (Config.nan (free + i)).toNat (Pair.ofWords (ps.getD i (0, 0))).total))
    else out) (zeros p.outBytes)

/-- A TRAIN_STEP fails: no update, every G_ACC and use buffer cleared, and no output tiles (R442). -/
def trainFail (c : Cmd) (t : Train) (status : Nat) (bad : List (Nat × Nat)) (next : Nat × Nat × Nat) (s : State) : State :=
  let s := match s.program c.key.ctx t.handle with
    | none => s
    | some p => commitProgram (s.programExec c.key t.handle t.eta t.frozen p).clearAll s
  let rs := trainRanges bad
  complete { c with fs := c.fs || decide (t.skips ≠ 0) } status (decide (rs ≠ [])) (t.head next 0 0 rs.length ++ rs.flatMap badBytes) t.kib [] s

/-- A TRAIN_STEP ends: by MAX_MICRO, at the end of its extents, or by HALT_IF; with UPDATE_AFTER and no halt every entry is updated
(R440). -/
def trainDone (c : Cmd) (t : Train) (endKind left : Nat) (s : State) : State :=
  match s.program c.key.ctx t.handle with
  | none => s
  | some p =>
    let e := s.programExec c.key t.handle t.eta t.frozen p
    let u := if t.update ∧ endKind = 0 then e.updateEntries 0 p.params.length else (e, 0, 0, 0)
    let s := commitProgram u.1.take s
    let t := { t with skips := t.skips + u.2.2.1, nonfinite := t.nonfinite + u.2.2.2 }
    let rs := trainRanges t.bad
    complete { c with fs := c.fs || decide (t.skips ≠ 0) } (if t.bad = [] then stOk else stOkShort) (decide (t.bad ≠ []))
      (t.head t.next endKind left rs.length ++ t.output p e.free ++ rs.flatMap badBytes) t.kib [] s

/-- The next micro-batch runs, or the step ends (R439, R442). -/
def nextMicro (c : Cmd) (t : Train) (s : State) : State :=
  match s.program c.key.ctx t.handle, kvGet c.key.ctx s.contexts with
  | some p, some x =>
    if t.maxMicro ≠ 0 ∧ t.maxMicro ≤ t.micro then trainDone c t 0 0 s
    else match takeMicro t.rows t.recs with
      | some (used, rest) =>
        let kept := used.filter (·.kept)
        let t := { t with recs := rest, used := t.used + kept.length, filtered := t.filtered + (used.length - kept.length) }
        let s := seat c.key.ctx p.seqs.length s
        let r := { startRun c t.handle p x (microTiles p kept) (s.seats c.key.ctx) with eta := t.eta, frozen := t.frozen }
        let (r, s) := enterChains r s
        let s := modTrain c.key (fun _ => t) s
        enterRun r p (modCmd c.key (fun d => { d with lt := c.lt, fs := c.fs }) s)
      | none =>
        let kept := t.recs.filter (·.kept)
        let t' := { t with recs := [], filtered := t.filtered + (t.recs.length - kept.length) }
        match t.stop with
        | some b => trainFail c t' stMediaUncorrectable (t.bad ++ [b]) t'.next s
        | none => trainDone c t' 0 kept.length s
  | _, _ => s

/-- A micro-batch's run has ended: its outputs are added to the sums, the reduction pass is made, and the step goes on, or ends by
HALT_IF (R427, R439); a status other than OK ends the step (R442). -/
def trainRunEnd (c : Cmd) (r : Run) (status endKind : Nat) (s : State) : State :=
  match s.trainOf c.key, s.execOf r 0 with
  | some t, some e =>
    let outs := e.prog.tiles.zipIdx.filterMap fun x =>
      if x.1.source = 3 then
        let old := (kvGet x.2 t.sums).getD []
        let tile := e.tile x.2
        some (x.2, (List.range x.1.elems).map fun i =>
          (addPair (Pair.ofWords (old.getD i (0, 0))) (readWide fp32 (Tile.codeAt 32 tile.elems i))).words (Config.nan (e.free + i)).toNat)
      else none
    let t := { t with
      micro := t.micro + 1, check := Nat.lor t.check r.check, skips := t.skips + r.skips, nonfinite := t.nonfinite + r.nonfinite
      sums := if status = stOk then outs else t.sums }
    let s := if status = stOk then commit e.take.reduceAll s else s
    let s := leaveRun r status s
    if status ≠ stOk then trainFail c t status t.bad t.next s
    else if endKind = 1 then trainDone c t 1 0 s
    else nextMicro c t s
  | _, _ => s

end Sys2Proof.Machine
end

