-- ==== Sys2Proof/Machine/Runs.lean ====
section
/-!
DEFINITION. Machine/Runs.lean: the end of a run, the issue of a sequence's next instruction, chain hand-ons and ferries (R45 to
R49, R325 to R328, R382, R386 to R398, R463 to R466).
-/

namespace Sys2Proof.Machine

open Sys2Proof

/-- A run ends with a status, an END_KIND and, for a deadlock, the blocked sequence and instruction (Table 12-9, R397); a status
other than OK aborts its bound chains (R466). A run of a TRAIN_STEP is followed by what R439 says. -/
def finishRun (k : CmdKey) (status endKind : Nat) (blocked : Nat × Nat) (s : State) : State :=
  match s.runOf k, findCmd k s with
  | some r, some c =>
    let c := { c with lt := c.lt || r.late, fs := c.fs || decide (r.skips ≠ 0) }
    if c.opcode = 0x60 then trainRunEnd c r status endKind s
    else
      let out := if status = stOk then ((s.execOf r 0).map Exec.outputs).getD [] else []
      let head := leBytes 4 r.issued ++ leBytes 4 r.check ++ leBytes 4 r.skips ++ leBytes 1 endKind ++ zeros 3 ++ leBytes 2 blocked.1 ++
        leBytes 4 blocked.2 ++ zeros 10
      complete c status false (head ++ out) (kib4 (head.length + out.length + 32 * trainLen (head.length + out.length))) []
        (leaveRun r status s)
  | _, _ => s

/- Issue (R375, R386, R387, R392) -/

/-- The plot that runs a sequence now: its own; or another that runs the context, when the context has no place on its own (R392). -/
def State.issuePlot (s : State) (ctx own : Nat) : Option Nat :=
  if (s.plot own).running = some ctx then some own
  else if s.hasPlace ctx own then none
  else (List.range 272).find? fun p => decide ((s.plot p).running = some ctx)

/-- A section has run for longer than its bound, not counting time blocked on outside input (R145, R146). -/
def Section.overrun (x : Section) (now : Nat) : Bool :=
  match x.start with
  | none => false
  | some t => decide (x.bound * countsUs < x.blockedAt.getD now - t)

/-- A section as it goes on: its time starts with its first instruction, and time blocked on outside input is taken out. -/
def Section.resume (x : Section) (now : Nat) : Section :=
  match x.start with
  | none => { x with start := some now }
  | some t => { x with start := some (t + (now - x.blockedAt.getD now)), blockedAt := none }

/-- The sequence waits, for the reason given. -/
def Exec.wait (e : Exec) (b : SeqBlock) (now : Nat) : Exec :=
  e.modSeq fun q => { q with
    block := b
    waitAt := if b = .peer then some (q.waitAt.getD now) else none
    section_ := if b = .peer then q.section_.map fun x => { x with blockedAt := some (x.blockedAt.getD now) } else q.section_ }

/-- The instruction has issued; the sequence goes on to the next. -/
def Exec.next (e : Exec) (fresh : Bool) : Exec :=
  let e := { e with run := { e.run with issued := e.run.issued + 1 } }
  e.modSeq fun q => { q with pc := q.pc + 1, block := .none, waitAt := none, fresh := fresh }

/-- A word that waits until every earlier instruction of its sequence has ended: SIGNAL, HALT_IF, END and the end of a section, and the
chain exchanges, whose group an earlier instruction may still fill (R386, R387, log entry 149). -/
def waitsAll (w : Nat) : Bool :=
  [some TKind.signal, some .haltIf, some .endSeq, some .sectionClose, some .chainSend, some .chainRecv].contains (kindOf w)

/-- A copy of a tile that the word writes would have to leave a plot, and an instruction in flight there has it pinned (R34, R35). -/
def State.pinsCopy (s : State) (p : Nat) (e : Exec) (w : Nat) : Bool :=
  let ws := e.prog.writes w
  decide (ws ≠ []) && (s.plotsOf e.run.ctx).any fun q => (s.plot q).tiles.any fun t =>
    decide (t.ctx = e.run.ctx) && decide (t.handle = e.run.handle) && e.prog.meet [t.tile] ws &&
      (decide (q ≠ p) || !ws.any fun x => (e.prog.ref t.tile).covers (e.prog.ref x)) && s.pinned q e.prog t

/-- The word has to wait for an instruction in flight: on its plot for its unit, for a tile that one of its own sequence writes and it
names, or reads and it writes, or, where it waits for all, for any of its sequence (R375); on any plot for one that pins a copy of what it
writes (R34). -/
def State.hazard (s : State) (p : Nat) (e : Exec) (w : Nat) : Bool :=
  s.pinsCopy p e w || (s.plot p).flights.any fun f =>
    let mine := decide (f.key = e.run.key) && decide (f.seq = e.seq)
    decide (unitOf w = some f.unit) ||
      (mine && (waitsAll w || e.prog.meet f.writes (e.prog.names w) || e.prog.meet f.reads (e.prog.writes w)))

/-- The word is in flight: its unit runs it, and the tiles that it names are pinned until it ends (R34). -/
def issue (e : Exec) (w : Nat) (s : State) : State :=
  match unitOf w with
  | none => s
  | some u => modPlot e.me.plot (fun q => { q with
      flights := q.flights ++ [⟨e.run.key, e.seq, e.run.handle, u, e.prog.reads w, e.prog.writes w, s.now⟩], moverAt := s.now }) s

/-- A sequence cannot go on: with nothing in flight on its plot, the plot stands at a boundary (log entry 146). -/
def pause (p : Nat) (s : State) : State :=
  let s := refresh p s
  match (s.plot p).running with
  | none => s
  | some n => if (s.plot p).flights = [] then keepOrChoose p n (settleResidents p none s) else s

/-- The first tile named by a word that is not resident and ready on the plot (R46). -/
def State.notReady (s : State) (p : Nat) (e : Exec) (w : Nat) : Option Nat :=
  (e.prog.names w).find? fun t => !((s.plot p).tiles.any fun h => h.serves e.prog e.run.ctx e.run.handle t && h.ready)

/-- An instruction stalls on a tile: it and the layers its schedule leads by are ferried, and at the start of a layer the stall is a late
arrival (R45 to R47). Where its ferry has no room yet, nothing waits. -/
def stallTile (p t : Nat) (e : Exec) (s : State) : State :=
  let o := SchedOwner.program e.run.ctx e.run.handle
  let s := ferryAhead e.run e.prog e.seq s
  match s.heldOn p e.run.ctx e.run.handle e.prog t with
  | none => s
  | some h =>
    if h.ready then s
    else
      let late := e.me.fresh
      let e := e.wait (.tile h.tile) s.now
      let e := { e with run := { e.run with late := e.run.late || late } }
      let s := commit (e.modSeq fun q => { q with fresh := false }) s
      let s := if late then lateArrival o (s.leadRoom o) s else s
      pause p s

/-- The sequence cannot go on until another sequence of the run does: a token, a slot, or a hand-on of this module (R389). -/
def State.stuck (s : State) (e : Exec) (seq : Nat) : Bool :=
  let q := e.run.seq seq
  let w := e.prog.word seq q.pc
  match kindOf w with
  | some .wait => decide ((kvGet (wf w 1 7 0) e.run.tokens).getD 0 < wf w 1 23 8)
  | some .chainSend =>
    (match chainPlace e.prog seq w with
     | none => false
     | some (c, i) =>
       let m := c.members.getD (i + 1) 0xFF
       decide (m ≠ 0xFF) && (s.plot (e.run.seq m).plot).window.all (·.isSome))
  | some .chainRecv =>
    (match chainPlace e.prog seq w with
     | none => false
     | some (c, i) =>
       decide (c.members.getD (i - 1) 0xFF ≠ 0xFF) && !((e.run.sent ++ e.run.landed).any fun x => decide (x.2.1 = i)))
  | _ => false

/-- A run in which every sequence that has not ended is stuck, with no instruction of it in flight, ends in deadlock (R389). -/
def settleRun (k : CmdKey) (s : State) : State :=
  match s.runOf k with
  | none => s
  | some r => match s.execOf r 0 with
    | none => s
    | some e =>
      let open_ := (List.range r.seqs.length).filter fun i => !(r.seq i).ended
      match open_.head? with
      | none => s
      | some i =>
        if s.plots.list.any fun q => q.2.flights.any fun f => decide (f.key = k) then s
        else if open_.all (s.stuck e) then finishRun k stInvalid 2 (i, (r.seq i).pc) s else s

/-- A sequence goes on on a plot: time that it waited for a peer is counted, and its section's time goes on (R145, R469). -/
def resumeSeq (e : Exec) (p : Nat) (s : State) : Exec × State :=
  (e.modSeq fun q => { q with plot := p, block := .none, waitAt := none, section_ := q.section_.map fun x => x.resume s.now },
   match e.me.waitAt with
   | none => s
   | some t => account (some e.run.ctx) (fun a => { a with waitUs := a.waitUs + (s.now - t) / countsUs }) s)

/-- The next instruction of a sequence, when it is of this operation and may issue: a plot runs the context, nothing in flight is in its
way, and the tiles it names stand ready there. Otherwise the sequence waits, or nothing changes (log entry 3). Work that has to make place
issues nothing more: with nothing in flight, its plot stands at a boundary (R132, R133). -/
def withTile (kind : TKind) (k : CmdKey) (seq : Nat) (go : Exec → Nat → State → State) (s : State) : State :=
  match s.runOf k with
  | none => s
  | some r => match s.execOf r seq with
    | none => s
    | some e =>
      let w := e.word
      if r.seqs.length ≤ seq ∨ e.me.ended ∨ kindOf w ≠ some kind ∨ s.stalled k then s
      else match s.issuePlot r.ctx e.me.plot with
        | none => s
        | some p =>
          let e := e.modSeq fun q => { q with plot := p }
          if s.yields p r.ctx then (if (s.plot p).flights = [] then keepOrChoose p r.ctx (settleResidents p none s) else s)
          else if s.hazard p e w then s
          else match s.notReady p e w with
            | some t => stallTile p t e s
            | none =>
              let x := resumeSeq e p s
              settleRun k (go x.1 w x.2)

/-- The tiles that a word has written are modified where they stand (R35). -/
def writtenBy (e : Exec) (w : Nat) (s : State) : State := (e.prog.writes w).foldl (written e.run e.prog e.me.plot) s

/-- Multiply-accumulates of a context by format class (Table 16-6). -/
def countMacs (ctx n : Nat) (a b : Nat) (s : State) : State :=
  account (some ctx) (fun c =>
    if a = 7 ∨ b = 7 then { c with macsBf16 := c.macsBf16 + n }
    else if a ≤ 1 ∧ b ≤ 1 then { c with macsInt4 := c.macsInt4 + n }
    else { c with macsInt8 := c.macsInt8 + n }) s

/-- The multiply-accumulates of some problems are charged. -/
def countProblems (e : Exec) (qs : List QProblem) (s : State) : State :=
  qs.foldl (fun s q => countMacs e.run.ctx (q.m * q.n * q.k) (e.ref q.a).decl.format (e.ref q.b).decl.format s) s

/-- An instruction that only computes: it is in flight, its results written. -/
def runWord (f : Exec → Nat → Exec) (e : Exec) (w : Nat) (s : State) : State := writtenBy e w (issue e w (commit ((f e w).next false) s))

def dataTile (kind : TKind) (f : Exec → Nat → Exec) (k : CmdKey) (seq : Nat) (s : State) : State := withTile kind k seq (runWord f) s

/- Shadow sets (R318 to R320) -/

/-- The next matrix instruction of a sequence that reads tiles, on the same array, with no SIGNAL, WAIT or END before it. -/
def Program.nextMatrix (p : Program) (seq pc array : Nat) : Option Nat :=
  let n := (p.seqs.getD seq (0, 0)).2 - pc
  match (List.range n).find? fun i =>
      let w := p.word seq (pc + i)
      decide (wf w 0 3 0 = 8) || (decide (wf w 0 3 0 = 1) && decide (mArray w = array) && decide (wf w 0 7 4 ≤ 1)) with
  | none => none
  | some i => if wf (p.word seq (pc + i)) 0 3 0 = 1 then some (pc + i) else none

/-- A matrix instruction that reads tiles takes the shadow set of its array: when it is not the one loaded, its first pass stalls until the
set is complete, and the stall is counted (R319). The feeders then load the set of the sequence's next such instruction, when the tiles
that it reads stand ready (R320). -/
def useShadow (e : Exec) (w : Nat) (s : State) : State :=
  let p := e.me.plot
  let a := mArray w
  let here : Shadow := ⟨e.run.key, e.seq, e.me.pc⟩
  let s := if (s.plot p).shadow.getD a none = some here then s else modPlots (fun x => { x with stalls := satAdd 32 x.stalls 1 }) s
  let ready := fun (pc : Nat) => (e.prog.reads (e.prog.word e.seq pc)).all fun t =>
    (s.plot p).tiles.any fun h => h.serves e.prog e.run.ctx e.run.handle t && h.ready
  let next := (e.prog.nextMatrix e.seq (e.me.pc + 1) a).bind fun pc => if ready pc then some (⟨e.run.key, e.seq, pc⟩ : Shadow) else none
  modPlot p (fun q => { q with shadow := setAt q.shadow a fun _ => next }) s

/- Chains (R325 to R328, R382, R465) -/

/-- The number of a chain in hand-on headers: FABRIC_ID of a bound one, else CHAIN_BASE and its index. -/
def State.chainNo (s : State) (e : Exec) (i : Nat) : Nat :=
  match s.bindingOf e.run.ctx e.run.handle i with
  | some b => b.1
  | none => e.prog.chainBase + i

/-- A block with its CRC. -/
def HandOn.seal (h : HandOn) : HandOn := { h with crc := h.check }

/-- The next block of a group's hand-on: up to 8,184 pairs (R325). -/
def handOnBlock (g : Group) (chain from_ step : Nat) (peer : Bool) : HandOn :=
  let ps := (g.pairs.drop g.moved).take 8184
  HandOn.seal ⟨chain, from_, g.moved / 8184, decide (g.pairs.length ≤ g.moved + 8184), peer, step, 0, ps⟩

/-- The step that a member works on: member 0 begins a new one with its first block (R325). -/
def Exec.chainStep (e : Exec) (i place : Nat) (first : Bool) : Nat :=
  let old := (kvGet (16 * i + place) e.run.steps).getD 0
  if place = 0 ∧ first then old + 1 else old

/-- A block has gone: the group is released with its last one (R382). -/
def Exec.sentBlock (e : Exec) (g i place to_ : Nat) (grp : Group) (h : HandOn) : Exec :=
  let e := { e with run := { e.run with
    sent := e.run.sent ++ [(h.chain, to_, h)], steps := kvSet (16 * i + place) h.step e.run.steps } }
  if h.last then (e.modSeq fun q => { q with groups := kvDel g q.groups }).next false
  else e.modSeq fun q => { q with block := .none, groups := kvSet g { grp with moved := grp.moved + h.pairs.length } q.groups }

/-- CHAIN_SEND: the next block goes to the successor's slot, here or over a crossing; without a free slot the sequence waits
(R326, R327, R382, R465). -/
def chainSend (e : Exec) (w : Nat) (s : State) : State :=
  let i := wf w 1 11 0
  match chainPlace e.prog e.seq w, kvGet (movGroup w) e.me.groups with
  | some (c, place), some g =>
    let m := c.members.getD (place + 1) 0xFF
    let step := e.chainStep i place (decide (g.moved = 0))
    let h := handOnBlock g (s.chainNo e i) place step (decide (m = 0xFF))
    if m ≠ 0xFF then
      let q := (e.run.seq m).plot
      match (s.plot q).accept h with
      | none => pause e.me.plot (commit (e.wait .slot s.now) s)
      | some win => commit (e.sentBlock (movGroup w) i place (place + 1) g h) (issue e w <| modPlot q (fun p => { p with window := win, moverAt := s.now }) s)
    else
      match (s.bindingOf e.run.ctx e.run.handle i).bind fun b => (s.upTo (b.2.members.getD (place + 1) 0)).map fun x => (b.1, x) with
      | none => pause e.me.plot (commit (e.wait .peer s.now) s)
      | some (fid, x) =>
        let free := ((s.crossing x).bind fun c => kvGet fid c.slotsFree).getD 0
        if free = 0 then pause e.me.plot (commit (e.wait .peer s.now) s)
        else
          let s := modCrossing x (fun c => { c with slotsFree := kvSet fid (free - 1) c.slotsFree }) s
          let s := sendTransfer x 3 3 (some e.run.ctx) h.bytes s
          commit (e.sentBlock (movGroup w) i place (place + 1) g h) (issue e w s)
  | _, _ => s

/-- Pairs of a block merged into a group in order (R323, R326). -/
def mergeBlock (g : Group) (free : Nat) (h : HandOn) : Group :=
  let merged := h.pairs.zipIdx.map fun p =>
    (mergePair (Pair.ofWords (g.pairs.getD (g.moved + p.2) (0, 0))) (Pair.ofWords p.1)).words (Config.nan (free + p.2)).toNat
  { g with
    pairs := g.pairs.take g.moved ++ merged ++ g.pairs.drop (g.moved + h.pairs.length)
    moved := if h.last then 0 else g.moved + h.pairs.length }

/-- A slot is returned: to a sender here it is free; to a peer SLOT_FREE goes out with its count (R326, R465). -/
def returnSlot (fid from_ : Nat) (h : HandOn) (s : State) : State :=
  let s := dropBlocks [h] s
  if !h.peer then s
  else match kvGet fid s.links.bindings with
    | none => s
    | some b =>
      let n := (b.returned + 1) % 256
      let s := modLinks (fun l => { l with bindings := kvMod fid (fun b => { b with returned := n }) l.bindings }) s
      match s.upTo (b.members.getD from_ 0) with
      | none => s
      | some x => sendControl x (5 :: wordBytes 4 fid ++ [n]) s

/-- CHAIN_RECV: the predecessor's next block, once it has arrived and passed its check, is merged (R326, R382). -/
def chainRecv (e : Exec) (w : Nat) (s : State) : State :=
  let i := wf w 1 11 0
  match chainPlace e.prog e.seq w, kvGet (movGroup w) e.me.groups with
  | some (c, place), some g =>
    let no := s.chainNo e i
    match e.run.landed.find? fun x => decide (x.1 = no) && decide (x.2.1 = place) && decide (x.2.2.block = g.moved / 8184) with
    | none => pause e.me.plot (commit (e.wait (if c.members.getD (place - 1) 0xFF = 0xFF then .peer else .handOn) s.now) s)
    | some x =>
      let s := issue e w s
      let h := x.2.2
      let g' := mergeBlock g e.free h
      let e := { e with run := { e.run with
        landed := e.run.landed.filter fun y => decide (y ≠ x), steps := if h.last then kvSet (16 * i + place) h.step e.run.steps else e.run.steps } }
      let e := (e.modSeq fun q => { q with block := .none, groups := kvSet (movGroup w) g' q.groups }).take
      returnSlot no (place - 1) h (commit (if h.last then e.next false else e) s)
  | _, _ => s

/-- The sender's copy of a block, checked as an SRAM line is, is bad: its own check fails, or a line of the exchange window of the plot it
stands on is poisoned, which has no other source (Tables 2-3 and 10-8). -/
def State.copyBad (s : State) (plot : Nat) (h : HandOn) : Bool :=
  decide (h.crc ≠ h.check) || s.landing.faults.any fun f => f.poisoned && (match f.line with
    | .sram p l => decide (p = plot) && decide (47104 ≤ l)
    | _ => false)

/-- The plot of the sequence that sent a block. -/
def State.senderPlot (s : State) (r : Run) (h : HandOn) : Nat :=
  (r.seq ((s.memberSeq r h.chain h.from_).getD 0xFF)).plot

/-- A block that a member on this module sent is checked where it landed: on a failure it is asked for again and counted, and one for a
peer is sent again over its crossing (R326, R465). When it fails a second time and the sender's copy is bad, the chain's command
completes MEMORY_UNCORRECTABLE (R340). The waiting member can go on once the block has passed. -/
def handOnArrives (k : CmdKey) (chain member : Nat) (crcOk : Bool) (s : State) : State :=
  match s.runOf k with
  | none => s
  | some r => match r.sent.find? fun x => decide (x.1 = chain) && decide (x.2.1 = member) && !(r.landed.contains x) with
    | none => s
    | some x =>
      let mod := fun (f : Run → Run) (s : State) => { s with runs := s.runs.map fun q => if q.key = k then f q else q }
      if crcOk ∧ x.2.2.crc = x.2.2.check then
        if x.2.2.peer then s
        else wakeCtx r.ctx (mod (fun q => { q with sent := q.sent.erase x, landed := q.landed ++ [x], again := q.again.erase x }) s)
      else
        let s := modPlots (fun p => { p with chainResend := satAdd 16 p.chainResend 1 }) s
        if r.again.contains x ∧ s.copyBad (s.senderPlot r x.2.2) x.2.2 then finishRun k stMemoryUncorrectable 0 (0, 0) s
        else
          let s := mod (fun q => { q with again := q.again ++ [x] }) s
          if x.2.2.peer then
            match ((kvGet chain s.links.bindings).bind fun b => s.upTo (b.members.getD member 0)) with
            | none => s
            | some c => sendTransfer c 3 3 (some r.ctx) x.2.2.bytes s
          else s

def execHandOnBlockArrival (k : CmdKey) (chain member : Nat) (crcOk : Bool) (s : State) : Out :=
  .next (handOnArrives k chain member crcOk s)

/-- A block arrives from a peer: it is written into the slot of the receiving member's plot; one of another step is discarded and
counted, and so is one that fails its check (R465). Before a run it waits in its slot. -/
def peerBlock (h : HandOn) (s : State) : State :=
  let miss := modPlots (fun p => { p with chainResend := satAdd 16 p.chainResend 1 }) s
  match kvGet h.chain s.links.bindings with
  | none => s
  | some b =>
    let place := h.from_ + 1
    if h.crc ≠ h.check then miss
    else match s.runs.find? fun r => decide (r.ctx = b.ctx) && decide (r.handle = b.handle) with
      | none =>
        if h.step ≠ (kvGet place b.steps).getD 0 + 1 then miss
        else modLinks (fun l => { l with bindings := kvMod h.chain (fun b => { b with early := b.early ++ [h] }) l.bindings }) s
      | some r =>
        if h.step ≠ (kvGet (16 * b.chain + place) r.steps).getD 0 + 1 then miss
        else
          let seq := ((s.program r.ctx r.handle).bind fun p => p.chains[b.chain]?).map fun c => c.members.getD place 0xFF
          let q := (r.seq (seq.getD 0xFF)).plot
          let s := match (s.plot q).accept h with
            | none => s
            | some win => modPlot q (fun p => { p with window := win }) s
          wakeCtx r.ctx { s with runs := s.runs.map fun t => if t.key = r.key then { t with landed := t.landed ++ [(h.chain, place, h)] } else t }

/- Ferries (R46 to R48) -/

/-- A refetch runs for a line that a ferry of the tile was reading: the tile is not ready until each such refetch ends (R61, Table 2-4). -/
def State.refetchFor (s : State) (o : SchedOwner) (n : Nat) (t : TileAt) : Bool :=
  s.landing.faults.any fun f => !f.poisoned && f.ferries.contains ⟨o, n, t⟩

/-- The number of a schedule owner's tiles among its context's tiles on a plot. -/
def SchedOwner.handle : SchedOwner → Nat
  | .model slot => modelHandle slot
  | .program _ h => h

/-- The schedule is the context's: a program's own, a model's any. -/
def SchedOwner.of (o : SchedOwner) (n : Nat) : Bool :=
  match o with
  | .model _ => true
  | .program m _ => decide (m = n)

/-- TILE_READY: a tile that was ferried for a context has arrived on a plot: its ready flag is set, and what stalled on it goes on (R46). -/
def tileReady (o : SchedOwner) (at_ : TileAt) (n : Nat) (s : State) : State :=
  if !o.of n ∨ s.refetchFor o n at_ then s
  else
    let s := modPlot at_.plot (fun q => { q with tiles := q.tiles.map fun t =>
      if t.ctx = n ∧ t.handle = o.handle ∧ t.tile = at_.tile then { t with ready := true } else t }) s
    let s := { s with runs := s.runs.map fun r =>
      if r.ctx = n ∧ r.handle = o.handle then
        { r with seqs := r.seqs.map fun q => if q.block = .tile at_.tile ∧ q.plot = at_.plot then { q with block := .none } else q }
      else r }
    (n :: (s.steps.filter fun x => decide (x.ctx = n)).flatMap fun x => x.keys.map (·.ctx)).eraseDups.foldl (fun s m => wakeCtx m s) s

def execTileReady (owner : SchedOwner) (tile : TileAt) (ctx : Nat) (s : State) : Out := .next (tileReady owner tile ctx s)

/-- A schedule without a late arrival for SHALLOW_S seconds leads by one layer less, down to LEAD_MIN (R48). After a step a whole new
SHALLOW_S is wanted for the next, and the arrivals counted towards DEEPEN_AFTER are forgotten when the lead deepens (DESIGN CHOICE, log
entry 162). -/
def execFerryLeadShallow (owner : SchedOwner) (s : State) : Out :=
  .next (modLanding (fun l => { l with schedules := l.schedules.map fun x =>
    if x.owner = owner ∧ x.leadMin < x.lead ∧ s.since x.lastLate (x.shallowS * countsS) then { x with lead := x.lead - 1, lastLate := s.now } else x }) s)

end Sys2Proof.Machine
end

