-- ==== Sys2Proof/Machine/Lines.lean ====
section
/-!
DEFINITION. Machine/Lines.lean: memory lines that fail their check, refetches, corrected-event buckets and the memory error log
(R55 to R67, R559); RETIRE_RANGE (R68 to R70) and RESTORE_SPARE (R549 to R551).
-/

namespace Sys2Proof.Machine

open Sys2Proof

/- The buckets (R65) -/

/-- A corrected event arrives at a bucket; whether it overflows, and whether the overflow raises an event. -/
def Bucket.add (cap : Nat) (b : Bucket) : Bucket × Bool × Bool :=
  if b.level < cap then ({ b with level := b.level + 1 }, false, false)
  else ({ b with overflow := true, armed := false }, true, b.armed)

/-- A leak period passes. -/
def Bucket.leak (cap : Nat) (b : Bucket) : Bucket :=
  { b with level := b.level - 1, armed := b.armed || decide (b.level - 1 ≤ cap / 2) }

/-- The last 24 hours (R67, Table 10-6). -/
def State.today (s : State) (t : Nat) : Bool := decide (t ≤ s.now) && !s.since t (86400 * countsS)

/-- CORRECTED_OVERFLOW, with the bucket's capacity and leak period. -/
def raiseOverflow (kind source : Nat) (s : State) : State :=
  raise 0x0101 1 kind source 0xFFFF (evArgs [(20, 1, s.landing.capacity), (21, 2, s.landing.leakS)]) s

/-- One corrected event on a line: the count, the bucket, and the plot's retirement at its second overflow within 24 hours
(R56, R65, Table 10-6). -/
def corrected (l : Line) (s : State) : State :=
  match l with
  | .landing st _ _ _ _ =>
    let r := (s.landing.buckets.getD st Bucket.reset).add s.landing.capacity
    let s := modLanding (fun x => { x with corrected := satAdd 32 x.corrected 1, buckets := setAt x.buckets st fun _ => r.1 }) s
    if r.2.2 then raiseOverflow 2 st s else s
  | .sram p _ =>
    let r := (s.plot p).bucket.add s.landing.capacity
    let s := modPlots (fun x => { x with sramCorr := satAdd 32 x.sramCorr 1 }) s
    let before := (s.plot p).overflowAt.filter s.today
    let s := modPlot p (fun q => { q with bucket := r.1, overflowAt := if r.2.1 then s.now :: before else before }) s
    let s := if r.2.2 then raiseOverflow 3 p s else s
    if r.2.1 ∧ before ≠ [] then retirePlot p 4 s else s

/-- One uncorrectable line: the counts, and the plot's retirement at its second within 24 hours (R59, Table 10-6). -/
def uncorrectable (l : Line) (s : State) : State :=
  match l with
  | .landing st _ _ _ _ =>
    modLanding (fun x => { x with uncorrected := satAdd 32 x.uncorrected 1, uncorr := Nat.lor x.uncorr (2 ^ st) }) s
  | .sram p _ =>
    let before := (s.plot p).uncorrAt.filter s.today
    let s := modPlots (fun x => { x with sramUncorr := satAdd 32 x.sramUncorr 1 }) s
    let s := modPlot p (fun q => { q with uncorrAt := s.now :: before }) s
    if before ≠ [] then retirePlot p 3 s else s

/-- Every leak period each bucket loses one (R65). -/
def bucketLeak (s : State) : State :=
  if s.keeper.stage = 5 ∧ s.since s.landing.lastLeak (s.landing.leakS * countsS) then
    mapPlots (fun p => { p with bucket := p.bucket.leak s.landing.capacity })
      (modLanding (fun x => { x with lastLeak := x.lastLeak + x.leakS * countsS, buckets := x.buckets.map (Bucket.leak x.capacity) }) s)
  else s

def execBucketLeak (s : State) : Out := .next (bucketLeak s)

/- The memory error log (R67) -/

/-- KIND of Table 2-6. -/
def Line.errKind (l : Line) (uncorr : Bool) : Nat :=
  match l with
  | .landing _ _ _ _ _ => if uncorr then 2 else 1
  | .sram _ _ => if uncorr then 4 else 3

/-- Room for one more entry in a log of 4,096: the oldest corrected entry goes first. -/
def memRoom (l : List MemErr) : List MemErr :=
  if l.length < 4096 then l
  else match l.find? fun e => decide (e.kind = 1) || decide (e.kind = 3) with
    | some e => l.erase e
    | none => l.drop 1

/-- An event on a line is recorded (R67). -/
def logLine (l : Line) (uncorr : Bool) (source : Nat) (s : State) : State :=
  let events := s.landing.lineEvents.filter fun e => s.today e.when_
  let mine := events.filter fun e => decide (e.line = l)
  let kind := l.errKind uncorr
  let log := s.landing.memLog
  let log :=
    if log.any fun e => decide (e.kind = kind) && decide (e.line = l) then
      log.map fun e => if e.kind = kind ∧ e.line = l then { e with count := satAdd 32 e.count 1, last := s.now } else e
    else if uncorr ∨ mine.any fun e => !e.uncorr then
      memRoom log ++ [⟨kind, l, source, mine.length + 1, (mine.map (·.when_)).foldl min s.now, s.now⟩]
    else log
  modLanding (fun x => { x with memLog := log, lineEvents := events ++ [⟨l, uncorr, s.now⟩] }) s

/- Failed checks (R56) -/

/-- The sources of Table 2-3, by number (Table 2-6 SOURCE). -/
def LineFault.sources (f : LineFault) : List Nat :=
  (match f.line with
   | .landing _ _ _ _ _ => [0]
   | .sram _ _ => []) ++
  match f.data with
  | .flashBacked => [1, 2]
  | .weights _ => [1, 2]
  | .mapCache _ => [1, 2]
  | .writeData _ => [3]
  | .peerData => [4]
  | .produced => [5]
  | .tombstone _ _ _ => [6]
  | .firmware => [7]
  | .sramTile modified held => (if modified then [] else [8]) ++ if held then [5] else []
  | .sramAcc held => if held then [5] else []
  | .only => []

/-- The refetch read flash: it ended there, or it failed after it. A tombstone's line is rebuilt from the journal on flash (Table 2-3). -/
def LineFault.readFlash (f : LineFault) (source : Option Nat) : Bool :=
  match source with
  | some n => decide (n = 1) || decide (n = 2) || decide (n = 6)
  | none => f.sources.contains 1 || f.sources.contains 6

/-- A refetch from flash exempts every outstanding command of the interactive contexts that have a reader stalled on the line (R62). -/
def exemptReaders (f : LineFault) (s : State) : State :=
  let stalled := fun (n : Nat) => (kvGet n s.contexts).any (fun x => decide (x.cls = .interactive)) && f.readers.any fun k =>
    decide (k.context = some n) && (findCmd k s).any (·.live)
  { s with cmds := s.cmds.map fun c => if c.key.context.any stalled then { c with covered := false } else c }

/-- A stalled command ends with a status: the run it has, its search, or the command alone (R59). -/
def readerEnds (status : Nat) (s : State) (k : CmdKey) : State :=
  if (s.runOf k).isSome then finishRun k status 0 (0, 0) s
  else match findCmd k s with
    | none => s
    | some c => settleEnds (endCmd status { s with searches := s.searches.filter fun q => decide (q.key ≠ k) } c)

/-- A command is outstanding on the model: by its handle, by a stream on it, by a program that holds its tiles, or as the MODEL_LOAD that waits
for its placement. -/
def Cmd.onModel (c : Cmd) (slot : Nat) (s : State) : Bool :=
  decide (c.phase = .waiting (.placed slot)) || c.objects.any fun o => match o with
    | .model m => decide (m = slot) && ([0x32, 0x52, 0x53, 0x70].contains c.opcode)
    | .stream n => decide (c.opcode = 0x54) && (s.streamsOn slot).contains n
    | .program h => (decide (c.opcode = 0x71) || decide (c.opcode = 0x60)) &&
        ((s.program c.key.ctx h).bind (·.model)).any fun m => decide (m % 64 = slot)
    | _ => false

/-- The requesters of a shared model's weights: the outstanding commands on the model (R63, Table 13-11). -/
def State.requesters (s : State) (slot : Nat) : List CmdKey := (s.cmds.filter fun c => c.live && c.onModel slot s).map (·.key)

/-- A stalled READ of a write-buffer unit that is lost completes MEDIA_UNCORRECTABLE with the unit's range (R559). -/
def readLost (x : Slot) (s : State) (k : CmdKey) : State :=
  match findCmd k s with
  | none => s
  | some c =>
    if c.opcode = 0x20 ∧ c.live then
      let r := rangeDesc c.payload
      reply c stMediaUncorrectable (badReply 0 (r.first + r.blocks) [r.clip x.unit 2]) s
    else readerEnds stMemoryUncorrectable s k

/-- The lost unit of a write-buffer line: recorded with cause 0x02 and poisoned (R556, R559). -/
def loseSlot (n : Nat) (x : Slot) (s : State) : State :=
  let s := modMedia (freeSlot n (some .poisoned)) s
  if s.entry x.vol x.unit = some (.buffer n) then
    deferInService x.vol (if (kvGet x.ctx s.contexts).isSome then x.ctx else 0xFFFF) 2 [x.unit] (poison x.vol x.unit s)
  else s

/-- Bytes of a line (R29, R55). -/
def Line.size : Line → Nat
  | .landing _ _ _ _ _ => 128
  | .sram _ _ => 64

/-- A line's address: in the Landing by stack, pseudo-channel, bank, page and line, and in a plot by line (Tables 2-1 and 2-6). -/
def Line.address : Line → Nat
  | .landing st p b g l => (((st * 64 + p) * 32 + b) * 16 + g) * 2097152 + 128 * l
  | .sram _ l => 64 * l

/-- The CRC-32C that a line carries: over the line, seeded with its address, of which the check has 32 bits (R55, log entry 150). -/
def Line.check (l : Line) (bytes : List Byte) : Nat := crcFrom (l.address % 2 ^ 32) bytes

/-- The line passes its check. -/
def Line.passes (l : Line) (bytes : List Byte) (crc : Nat) : Bool := decide (bytes.length = l.size) && decide (crc = l.check bytes)

/-- The class of a refetch's flash read: interactive when a stalled reader is (R58). -/
def State.refetchCls (s : State) (f : LineFault) : Cls :=
  if f.readers.any fun k => k.context.any fun n => (kvGet n s.contexts).any fun x => decide (x.cls = .interactive) then .interactive else .batch

/-- The flash read of a refetch is issued, for the line's codeword, or raised to the class of a reader that has joined (R58, R61, R174). -/
def readLine (f : LineFault) (cw : Nat) (s : State) : State :=
  match f.flash with
  | none => s
  | some a =>
    let cls := s.refetchCls f
    modMedia (fun m => { m with reads := m.reads.map fun r => if r.for_ = .refetch f.line then { r with cls := cls } else r })
      (issueReads cls (.refetch f.line) [(a, 2 ^ (cw % 16))] s)

/-- A line is read whose bytes do not have its check: its readers stall and the refetch starts, or goes on to flash; a reader of a line whose
refetch runs joins the stall (R56, R61, R62). A poisoned line ends its readers at once (R59). -/
def lineFails (f : LineFault) (cw : Nat) (s : State) : State :=
  let others := s.landing.faults.filter fun g => decide (g.line ≠ f.line)
  let put := fun (g : LineFault) =>
    let s := readLine g cw (settleWindows (modLanding (fun x => { x with faults := others ++ [g] }) s))
    if g.flash.isSome then exemptReaders g s else s
  match s.landing.faults.find? fun g => decide (g.line = f.line) with
  | none => put f
  | some g =>
    if g.poisoned then f.readers.foldl (readerEnds stMemoryUncorrectable) s
    else put { g with
      readers := (g.readers ++ f.readers).eraseDups, flash := g.flash.or f.flash, ferries := (g.ferries ++ f.ferries).eraseDups }

/-- LINE_CHECK_FAIL: acts on a line whose bytes do fail their check (R55, R56). -/
def execLineCheckFail (line : Line) (data : LineRead) (owner : Option Nat) (readers : List CmdKey) (s : State) : Out :=
  .next (if s.keeper.stage ≠ 5 ∨ line.passes data.bytes data.crc then s
    else lineFails { line := line, data := data.data, owner := owner, flash := data.flash, readers := readers.eraseDups, ferries := data.ferries,
                     poisoned := false } data.cw s)

/-- What follows an uncorrectable line, by the data it held (R60, R63, R559). The units of a lost map-cache line count in ERRORS count 4
(DESIGN CHOICE, log entry 144). -/
def lineLost (f : LineFault) (s : State) : State :=
  let ends := fun (s : State) => f.readers.foldl (readerEnds stMemoryUncorrectable) s
  let stack := match f.line with
    | .landing st _ _ _ _ => st
    | .sram _ _ => 0
  match f.data with
  | .weights slot =>
    let s := (s.requesters slot).foldl (readerEnds stMemoryUncorrectable) (ends s)
    markUnavailable slot stMemoryUncorrectable 2 stack 1 s
  | .mapCache units =>
    let s := ends s
    bumpErr 4 units.length (units.foldl (fun s u => poison u.1 u.2 s) s)
  | .tombstone i first last =>
    ends { s with indexes := kvMod i (fun x => { x with badTombs := x.badTombs ++ [(first, last)] }) s.indexes }
  | .writeData n =>
    (match kvGet n s.media.slots with
     | none => ends s
     | some x => settleMedia (f.readers.foldl (readLost x) (loseSlot n x s)))
  | _ =>
    let s := ends s
    match f.owner with
    | none => s
    | some n => tearDown n stMemoryUncorrectable none s

/-- The line is whole again: one corrected event, and its readers go on (R56, R61). -/
def lineGood (f : LineFault) (source : Nat) (s : State) : State :=
  let s := modLanding (fun x => { x with faults := x.faults.filter fun g => decide (g.line ≠ f.line) }) s
  let s := settleWindows (settleRetiring (corrected f.line (logLine f.line false source s)))
  (f.readers.filterMap (·.context)).foldl (fun s n => wakeCtx n s) s

/-- No source of Table 2-3 gave a good line: it stays poisoned (R59). Without its firmware the module stops and starts again (R559). -/
def lineBad (f : LineFault) (s : State) : State :=
  let s := logLine f.line true 0xFF (modLanding (fun x => { x with
    faults := (x.faults.filter fun g => decide (g.line ≠ f.line)) ++ [{ f with readers := [], poisoned := true }] }) s)
  if f.data = .firmware then stopModule 7 6 [] (uncorrectable f.line s)
  else settleWindows (settleRetiring (uncorrectable f.line (lineLost f s)))

/-- REFETCH_COMPLETE: a refetch ends with a line that passes its check from a source of Table 2-3, or with none; or a writer overwrites the
line, which ends the refetch, or a poison (R56, R59, R61). -/
def refetchEnds (l : Line) (res : RefetchEnd) (s : State) : State :=
  match s.landing.faults.find? fun f => decide (f.line = l) with
  | none => s
  | some f =>
    match res with
    | .good n bytes crc =>
      if f.poisoned ∨ !f.sources.contains n ∨ !l.passes bytes crc then s
      else lineGood f n (if f.readFlash (some n) then exemptReaders f s else s)
    | .failed => if f.poisoned then s else lineBad f (if f.readFlash none then exemptReaders f s else s)
    | .overwritten =>
      if f.poisoned then modLanding (fun x => { x with faults := x.faults.filter fun g => decide (g.line ≠ l) }) s
      else lineGood f 0xFF s

def execRefetchComplete (line : Line) (res : RefetchEnd) (s : State) : Out := .next (refetchEnds line res s)

/- RETIRE_RANGE -/

/-- RETIRE_RANGE, whose range left the quota pool at its receipt, or was refused there (R69, R70): its lines are relocated, and it completes
when no refetch runs in the range (R61). -/
def retireRange (c : Cmd) (_ : Ctx) (s : State) : State :=
  if !retireOk c.payload then fail c stInvalid s
  else if s.landing.retiring.any fun r => decide (r.order = c.order) then
    settleRetiring (modCmd c.key (fun c => { c with phase := .waiting .lines }) s)
  else fail c stQuota s

def execRetireRange (k : CmdKey) (s : State) : Out := .next (withCtx 0x90 k retireRange s)

/- RESTORE_SPARE -/

/-- ROLE of Table 10-11. -/
def PlotRole.code : PlotRole → Nat
  | .active => 0
  | .spare => 1
  | .retired => 2
  | .sounding => 3

/-- ROLE of Table 15-12. -/
def LaneRole.code : LaneRole → Nat
  | .active => 0
  | .spareUnused => 1
  | .spareInUse => 2
  | .standby => 3
  | .failed => 4
  | .channelFault => 5
  | .untrained => 6

/-- The reply of RESTORE_SPARE (Table 19-5). -/
def restoreReply (role used : Nat) : List Byte := leBytes 1 role ++ leBytes 1 (2 - used) ++ zeros 6

/-- The payload of RESTORE_SPARE names a lane. -/
def namesLane (p : List Byte) : Bool :=
  decide (p.length = 8) && decide (fieldAt p 0 1 = 2) && decide (fieldAt p 1 1 = 0) && decide (fieldAt p 2 2 < 52) && decide (fieldAt p 4 4 = 0)

/-- RESTORE_SPARE of a plot: it is marked for sounding at the next cold start (R549, R551). A payload that names neither a plot nor
a lane is refused here. -/
def restorePlot (c : Cmd) (_ : Ctx) (s : State) : State :=
  let p := c.payload
  let n := fieldAt p 2 2
  let q := s.plot n
  if namesLane p then s
  else if p.length ≠ 8 ∨ fieldAt p 0 1 ≠ 1 ∨ fieldAt p 1 1 ≠ 0 ∨ fieldAt p 4 4 ≠ 0 ∨ 272 ≤ n ∨ q.role ≠ .retired ∨ 2 ≤ q.restores then fail c stInvalid s
  else
    reply c stOk (restoreReply q.role.code (q.restores + 1)) (writeRoot (modPlot n (fun q => { q with marked := true, restores := q.restores + 1 }) s))

def execRestoreSparePlot (k : CmdKey) (s : State) : Out := .next (withCtx 0x91 k restorePlot s)

/-- A lane whose test passed goes to where R550 says: its group's unused spare when a spare serves its position, else its position
again. -/
def Lane.restored (l : Nat) (served : Bool) (now : Nat) (q : Lane) : Lane :=
  if served then { q with role := .spareUnused, state := .down, position := none, fails := 0 }
  else
    { q with
      role := if l % 13 = 12 ∨ q.position ≠ some (12 * (l / 13) + l % 13) then .spareInUse else .untrained
      state := .training, tried := now, fails := 0 }

/-- RESTORE_SPARE of a lane (R550, R551). -/
def restoreLane (loopback retrained : Bool) (c : Cmd) (_ : Ctx) (s : State) : State :=
  let p := c.payload
  let l := fieldAt p 2 2
  let q := s.lane l
  if !namesLane p then s
  else if (q.role ≠ .failed ∧ q.role ≠ .channelFault) ∨ 2 ≤ q.restores then fail c stInvalid s
  else
    let ok := loopback && (decide (q.role = .failed) || retrained)
    let served := ((List.range 13).map (13 * (l / 13) + ·)).any fun m =>
      decide (m ≠ l) && decide ((s.lane m).role = .spareInUse) && decide ((s.lane m).position = q.position)
    let s := writeRoot (modLane l (fun q => { (if ok then q.restored l served s.now else q) with restores := q.restores + 1 }) s)
    reply c stOk (restoreReply (s.lane l).role.code (s.lane l).restores) s

def execRestoreSpareLane (k : CmdKey) (loopback retrained : Bool) (s : State) : Out :=
  .next (withCtx 0x91 k (restoreLane loopback retrained) s)

end Sys2Proof.Machine
end

