-- ==== Sys2Proof/Machine/Departure.lean ====
section
/-!
DEFINITION. Machine/Departure.lean: the departure of a reply and what waits for it (R20, R82 to R84, R91 to R93, R99, R102, R113, R116,
R117, R122, R124, R127, R150, R152 to R154, R555).
-/

namespace Sys2Proof.Machine

open Sys2Proof

/-- The port a reply departs on: that of its command while it is up, else the other (R92). -/
def State.departPort (s : State) (r : Reply) : Option Nat := if (s.port r.port).up then some r.port else s.lowPort

/-- Two replies belong to one queue (R83). -/
def sameQueue (a b : CmdKey) : Bool := decide (a.session = b.session) && decide (a.ctx = b.ctx) && decide (a.queue = b.queue)

/-- Both replies belong to one session. -/
def Reply.shares (a b : Reply) : Bool := decide (a.key.session = b.key.session)

/-- The reply of the OPEN_SESSION that opened or resumed a session goes before every other of the session (R113). -/
def Reply.opens (a : Reply) : Bool :=
  a.acts.any fun x => match x with
    | .afterOpen n _ => decide (n = a.key.session)
    | _ => false

/-- It resumed a held session. -/
def Reply.resumes (a : Reply) : Bool :=
  a.acts.any fun x => match x with
    | .afterOpen n true => decide (n = a.key.session)
    | _ => false

/-- The reply of a successful OPEN_SESSION goes before another of the session: at a resumption before every other (R113); of a new session
before all but those of the admin queue that were made earlier (R20, R99). -/
def Reply.leads (a b : Reply) : Bool := a.opens && a.shares b && (a.resumes || !(sameQueue a.key b.key && decide (b.id < a.id)))

/-- Replies that the last one of its kind waits for, whenever they were made: those of a context's commands before that of its
CLOSE_CONTEXT, those of its data queue before that of its QUEUE_RESET, and the session's before that of CLOSE_SESSION (R102, R116,
R127). -/
def Reply.endsFor (b a : Reply) : Bool :=
  !b.reject && decide (b.status = stOk) &&
    ((decide (b.opcode = 0x13) && !a.reject && decide (a.key.context = some b.hdrCtx)) ||
      (decide (b.opcode = 0x14) && !a.reject && decide (a.key.context = some b.hdrCtx) && decide (a.key.queue = .data)) ||
      (decide (b.opcode = 0x0B) && a.shares b))

/-- Reply a must depart before reply b. Where neither is bound to come first or last, an earlier reply goes before a later one of
its queue (R20), and at a resumption the held replies go in the order they completed, before any that were not held (R113). `passes` says
that b goes before held replies of other queues. -/
def Reply.goesBefore (a b : Reply) (passes : Bool) : Bool :=
  decide (a.id ≠ b.id) &&
    (a.leads b || b.endsFor a ||
      (!a.endsFor b && !b.leads a &&
        ((a.held && !b.held && a.shares b && !passes) ||
          (decide (a.id < b.id) && (a.held == b.held || passes) && (sameQueue a.key b.key || (a.held && b.held && a.shares b))))))

/-- A reply that was not held and that a held QUEUE_RESET reply waits for: a command that arrived after the resume was aborted. It need not
wait for held replies of other queues, which may stand behind the reset's own (R113, R116; log entry 183). -/
def State.passesHeld (s : State) (r : Reply) : Bool :=
  !r.held && s.replies.any fun b => b.held && decide (b.opcode = 0x14) && b.endsFor r

/-- The reply of a CLOSE_CONTEXT, QUEUE_RESET or CLOSE_SESSION still has a completion before it that quota holds back (R44). -/
def State.behindQuota (s : State) (b : Reply) : Bool :=
  s.cmds.any fun c => (match c.phase with
    | .waiting (.quota _ _ _ _ _) => true
    | _ => false) && decide (b.status = stOk) &&
    ((decide (b.opcode = 0x13) && decide (c.key.context = some b.hdrCtx)) ||
      (decide (b.opcode = 0x14) && decide (c.key.context = some b.hdrCtx) && decide (c.key.queue = .data)) ||
      (decide (b.opcode = 0x0B) && decide (c.key.session = b.key.session)))

/-- May the reply depart now? A held session's replies wait for its resumption; a refused OPEN_SESSION is no such reply (R112 to
R114). -/
def State.departs (s : State) (r : Reply) : Bool :=
  !s.behindQuota r &&
    if (s.session r.key.session).phase = .held then
      !r.held && s.replies.all fun a => !(!a.held && a.goesBefore r (s.passesHeld r))
    else s.replies.all fun a => !a.goesBefore r (s.passesHeld r)

/- What follows an OPEN_SESSION reply (R99, R107, R113, R555) -/

/-- DEFERRED_ERROR for the entries found during this start that the session may read and that are not released (R99). -/
def sendStartErrors (n : Nat) (s : State) : State :=
  let mine := s.deferredOf n
  match mine.find? fun d => d.atStart with
  | none => s
  | some d =>
    let ev := fun (count : Nat) => (⟨0x0005, 2, 0, 0, s.now, d.ctx, deferredArgs count d⟩ : EventRec)
    sendEvent n (ev mine.length) (logEvent (ev s.media.deferred.length) s)

/-- LANDING_STACK_DOWN for each stack that is down; the log has them already (R555). -/
def sendStacksDown (n : Nat) (s : State) : State :=
  ((List.range 6).filter fun i => bit s.landing.stacksDown i).foldl (fun s i =>
    sendEvent n ⟨0x0103, 2, 2, i, s.now, 0xFFFF, evArgs [(20, 1, s.landing.stacksUp), (21, 4, s.poolMib)]⟩ s) s

/-- The queued events, and the EVENTS_DROPPED record last, once no held reply is left (R107, R113). Its WHEN is the moment it is sent and
logged (DESIGN CHOICE, log entry 144). -/
def flushEvents (n : Nat) (s : State) : State :=
  if (s.session n).phase ≠ .opened ∨ s.opening n then s
  else
    let x := s.session n
    let s := modSession n (fun x => { x with queued := [], dropped := none }) s
    let s := x.queued.foldl (fun s e => sendEvent n e s) s
    match x.dropped with
    | none => s
    | some d =>
      let e : EventRec := ⟨0x0004, 1, 0, n, s.now, 0xFFFF, evArgs [(20, 4, d)]⟩
      sendEvent n e (logEvent e s)

/- The acts -/

/-- One act that waited for a departed reply. A SET_CLASS takes effect at the departure of its reply, from which on commands must carry
the new class (Table 3-21; DESIGN CHOICE, log entry 145), and what was begun in between is admitted no more; its residents follow at the next boundary of their plots (R123). -/
def doAct (s : State) (a : Act) : State :=
  match a with
  | .disablePort enable => setEnable enable s
  | .releaseDeferred ids => modMedia (fun m => { m with deferred := m.deferred.filter fun d => !ids.contains d.id }) s
  | .freeSession n => freeSession n s
  | .freeContext n => freeContext n s
  | .landingQuota n mib => modCtx n (fun x => { x with landingMib := mib }) s
  | .setClass n c => wakeCtx n (modCtx n (fun x => { x with cls := c }) (if c = .batch then lapseAdmission n s else s))
  | .afterOpen n _ => sendStacksDown n (sendStartErrors n s)
  | .queueReset n => modCtx n (fun x => { x with resetting := false }) s
  | .restart cause => stopModule 7 cause [] s
  | .indexReady i => modIndex i (fun x => if x.state = .building then { x with state := .ready } else x) s
  | .acknowledged k => modMedia (fun m => { m with slots := m.slots.map fun x =>
      (x.1, if x.2.writer = k ∧ x.2.acked then { x.2 with departed := true } else x.2) }) s
  | .tokenOut n => { s with streams := kvMod n (fun t => { t with lastOut := s.now, opened := true }) s.streams }

/- The promise and the accounts (R152 to R154) -/

/-- When a command's bound ends: 30 ms after the later of its arrival and its stream's last token, or 5 ms after the arrival of a
search (R152). -/
def State.bound (s : State) (r : Reply) (c : Cmd) : Nat :=
  if c.opcode = 0x54 then
    (r.acts.filterMap fun a => match a with
      | .tokenOut n => (kvGet n s.streams).map (·.lastOut)
      | _ => none).foldl max c.arrived + 30 * countsMs
  else c.arrived + 5 * countsMs

/-- The departure is counted: with TH, and as an interactive completion that was covered, exceeded its bound, or was exempt. A command keeps
the class under which it was received (Table 3-21). -/
def countDeparture (r : Reply) (c : Option Cmd) (late : Bool) (s : State) : State :=
  let s := account r.key.context (fun a => { a with thReplies := a.thReplies + b2n (bit r.cflags 1) }) s
  match c with
  | none => s
  | some c =>
    if c.cls = 0 ∧ (c.opcode = 0x44 ∨ c.opcode = 0x54) then
      account r.key.context (fun a => { a with
        covered := a.covered + b2n c.covered, exceeded := a.exceeded + b2n (c.covered && late), exempt := a.exempt + b2n !c.covered }) s
    else s

/- The departure -/

/-- A torn-down context's number is free once a reply with its teardown status, or CONTEXT_CLOSED, has gone to its session (R150). -/
def freeTorn (r : Reply) (s : State) : State :=
  let n := match r.key.context with
    | some n => some n
    | none => if opsTarget.contains r.opcode then some r.hdrCtx else none
  match n with
  | none => s
  | some n =>
    match kvGet n s.contexts with
    | none => s
    | some x =>
      match x.torn with
      | none => s
      | some st => if x.session = r.key.session ∧ (r.status = st ∨ r.status = stContextClosed) then freeContext n s else s

/-- Replies of the session go before what quota holds back: its OPEN_SESSION reply, and those held that do not wait for it themselves. -/
def State.heldAhead (s : State) (n : Nat) : Bool :=
  s.replies.any fun r => r.acts.any (Act.opensSession n) || (r.held && decide (r.key.session = n) && !s.behindQuota r)

/-- Completions held back for want of quota are tried again once the session has been resumed and its held replies have gone (R44). -/
def retryQuota (s : State) : State :=
  s.cmds.foldl (fun s c =>
    match c.phase with
    | .waiting (.quota st sh payload kib acts) =>
      if (s.session c.key.session).phase = .opened ∧ !s.heldAhead c.key.session ∧
          (withoutOwn c.key s).fits c.key.ctx (waitKib c.key.queue false payload kib) then
        putReply c st sh payload kib acts s
      else s
    | _ => s) s

/-- The reply and its tag are gone (R83, R94). -/
def dropReply (r : Reply) (s : State) : State :=
  { s with
    replies := s.replies.filter fun a => decide (a.id ≠ r.id)
    cmds := if r.reject then s.cmds else s.cmds.filter fun c => decide (c.key ≠ r.key) || decide (c.phase ≠ .replied) }

/-- The last packet of a reply has left: it has departed (R83). -/
def departed (r : Reply) (s : State) : State :=
  let c := if r.reject then none else findCmd r.key s
  let late := (c.map fun c => decide (s.bound r c < s.now)).getD false
  let s := countDeparture r c late s
  let s := freeTorn r (r.acts.foldl doAct (dropReply r s))
  let s := retryQuota (settleEnds s)
  let s := flushEvents r.key.session s
  modPower (fun p => { p with idleSince := s.now }) s

/-- The next packet of a reply leaves on a port (R80); the reply has departed with its last. -/
def depart (r : Reply) (port : Nat) (s : State) : State :=
  let s := emitReply r port s
  if r.sent + 1 < trainLen r.payload.length then
    modPower (fun p => { p with idleSince := s.now })
      { s with replies := s.replies.map fun a => if a.id = r.id then { a with sent := a.sent + 1, on := some port } else a }
  else departed r s

/-- REPLY_DEPARTURE of the next packet of the reply with an identity: one that may not depart yet stays (log entry 3). A train goes
on on the port it began on, until that port is lost (R80, R93). -/
def execReplyDeparture (id : Nat) (s : State) : Out :=
  .next (match s.replies.find? fun r => decide (r.id = id) with
    | none => s
    | some r =>
      match r.on.or (s.departPort r) with
      | none => s
      | some p => if s.serving ∧ s.departs r then depart r p s else s)

end Sys2Proof.Machine
end

