-- ==== Sys2Proof/Machine/Links.lean ====
section
/-!
DEFINITION. Machine/Links.lean: lanes, crossings, their commands, flits and control words (chapter 15).
-/

namespace Sys2Proof.Machine

open Sys2Proof

/- Lanes and widths (R449 to R452, R553) -/

/-- The largest of 1, 2, 4 and 8 that is not above the good positions (R452). -/
def widthOf (n : Nat) : Nat := if 8 ≤ n then 8 else if 4 ≤ n then 4 else if 2 ≤ n then 2 else n

/-- The lanes to a peer take their roles, and its crossing its width: the lowest-numbered lanes carry traffic, the others stand
by (R452). -/
def settleSerial (serial : Nat) (s : State) : State :=
  let lanes := s.lanesTo serial
  let w := widthOf lanes.length
  let x := s.crossingTo serial
  let s := lanes.zipIdx.foldl (fun s l => modLane l.1 (fun q => { q with
    role := if q.role = .spareInUse then .spareInUse else if l.2 < w then .active else .standby
    crossing := x }) s) s
  match x with
  | none => s
  | some x => modCrossing x (fun c => { c with width := w, standby := lanes.length - w }) s

/-- A lane that is not up reports no peer and no crossing. -/
def Lane.quiet (l : Lane) : Lane :=
  { l with
    state := .down, crossing := none, peerPos := none, peerSerial := 0, peerDomain := 0
    role := if l.role = .active ∨ l.role = .standby then .untrained else l.role }

/-- A crossing as it comes up: nothing sent or received yet, and every credit granted (R455, R457). -/
def Crossing.fresh (c : Crossing) (state : CrossState) (now : Nat) : Crossing :=
  { c with
    state := state, txSeq := 0, rxSeq := 0, unacked := [], queue := [], credits := [1024, 1024, 1024], freedSeen := [0, 0, 0]
    freed := [0, 0, 0], transfers := [], slotsSeen := [], slotsFree := [], lastValid := now, nakked := false }

/-- CROSSING_DOWN: down, narrowed or up again (R460). -/
def raiseCrossing (x kind : Nat) (s : State) : State :=
  match s.crossing x with
  | none => s
  | some c =>
    raise 0x0402 (if kind = 1 then 2 else if kind = 2 then 1 else 0) 5 x 0xFFFF
      (evArgs [(20, 8, c.serial), (28, 1, kind), (29, 1, c.width)]) s

/-- A PEER_COPY ends with a status and its DONE (Table 15-6). -/
def endCopy (k : CmdKey) (status : Nat) (bad : List Bad) (s : State) : State :=
  match findCmd k s, s.links.copies.find? fun p => decide (p.key = k) with
  | some c, some p =>
    let s := modLinks (fun l => { l with copies := l.copies.filter fun q => decide (q.key ≠ k) }) s
    complete c status false (badReply p.done 0 bad) 0 [] s
  | _, _ => s

/-- The runs on a bound chain complete CHAIN_BROKEN, and the chain is broken (R459, R466). -/
def breakWork (fid : Nat) (from_ : Option Nat) (s : State) : State :=
  match kvGet fid s.links.bindings with
  | none => s
  | some b =>
    let keys := (s.runs.filter fun r => decide (r.ctx = b.ctx) && decide (r.handle = b.handle)).map (·.key)
    keys.foldl (fun s k => finishRun k stChainBroken 0 (0, 0) s) (breakChain fid from_ s)

/-- The shard that a peer's domain holds of a model kept as shards (R408, R409). -/
def State.shardAt (s : State) (m : Model) (domain : Nat) : Option Nat :=
  if m.placement = 0 ∨ m.shards < 2 then none
  else ((rankDomains (s.memberDomains m.members)).findIdx? fun d => decide (d = domain)).bind fun i => if i < m.shards then some i else none

/-- The commands whose step of a model on a slot runs, and those of them that are still to be answered complete CHAIN_BROKEN: their work needs a
shard that is lost (R409, R459). -/
def State.stepKeys (s : State) (slot : Nat) : List CmdKey := (s.steps.filter fun x => decide (x.slot = slot)).flatMap (·.keys)
def breakSteps (slot : Nat) (keys : List CmdKey) (s : State) : State :=
  keys.foldl (fun s k => match findCmd k s with
    | some c => if c.live then fail c stChainBroken s else s
    | none => s) { s with steps := s.steps.filter fun x => decide (x.slot ≠ slot) }

/-- A crossing goes down (R458 to R460). With `quiet` its lanes go back to training. -/
def downCrossing (x : Nat) (quiet : Bool) (s : State) : State :=
  match s.crossing x with
  | none => s
  | some c =>
    if c.state = .down then s
    else
      let wasUp := decide (c.state = .up)
      let lost := s.models.filterMap fun m => (s.shardAt m.2 c.peerDomain).map fun _ => (m.1, s.stepKeys m.1)
      let s := modCrossing x (fun c => { c.fresh .down s.now with width := 0, standby := 0, peerStep := 0, peerCause := 0 }) s
      let s := if quiet then (s.lanesTo c.serial).foldl (fun s l => modLane l Lane.quiet s) s else s
      let s := modLinks (fun l => { l with
        downs := if wasUp then satAdd 16 l.downs 1 else l.downs
        incoming := l.incoming.filter fun i => decide (i.crossing ≠ x) }) s
      let s := modPower (fun p => { p with idleSince := s.now }) s
      if !wasUp then s
      else
        let fids := (s.links.bindings.filter fun b => b.2.members.contains c.serial).map (·.1)
        let s := fids.foldl (fun s f => breakWork f none s) s
        let s := ((s.links.copies.filter fun p => decide (p.crossing = x)).map (·.key)).foldl (fun s k => endCopy k stChainBroken [] s) s
        let s := lost.foldl (fun s x =>
          let (slot, keys) := x
          match kvGet slot s.models with
          | none => s
          | some m =>
            let left := (s.memberDomains m.members).contains c.peerDomain
            let s := if left then (s.streamsOn slot).foldl (fun s n => breakStream stChainBroken n s) s
              else markUnavailable slot stChainBroken 0 0 2 s
            breakSteps slot keys s) s
        raiseCrossing x 1 s

/-- A crossing down in its course: what it stepped is settled (R470). -/
def goDown (x : Nat) (quiet : Bool) (s : State) : State := settlePower s (downCrossing x quiet s)

/-- A lane that carried traffic is lost: its crossing narrows, or goes down with its last position (R452, R460). -/
def afterLoss (serial : Nat) (s : State) : State :=
  match s.crossingTo serial with
  | none => settleSerial serial s
  | some x =>
    let old := ((s.crossing x).map (·.width)).getD 0
    let up := decide (((s.crossing x).map (·.state)) = some .up)
    if s.lanesTo serial = [] then goDown x true s
    else
      let s := settleSerial serial s
      if up ∧ ((s.crossing x).map (·.width)).getD 0 < old then raiseCrossing x 2 s else s

/-- The training of a position ends: with a peer the lane is up, without one it is untrained (R449). The positions of a down crossing
that retrain with the enabled serial number bring it up again (R460). -/
def trainingEnd (pos : Nat) (peer : Option (Nat × Nat × Nat)) (s : State) : State :=
  match s.laneAt pos with
  | none => s
  | some l =>
    if (s.lane l).state = .up ∨ (s.lane l).role = .channelFault then s
    else match peer with
      | none => modLane l (fun q => { q with state := .down, tried := s.now, fails := q.fails + 1 }) s
      | some (serial, domain, peerPos) =>
        let s := modLane l (fun q => { q with
          state := .up, tried := s.now, peerSerial := serial, peerDomain := domain, peerPos := some peerPos, fails := 0
          role := if q.role = .untrained then .active else q.role }) s
        let s := settleSerial serial s
        match s.crossingTo serial with
        | none => s
        | some x =>
          match s.crossing x with
          | none => s
          | some c =>
            if c.state = .down then raiseCrossing x 3 (modCrossing x (fun c => { c.fresh .up s.now with peerDomain := domain }) s) else s

def execLaneTrainingEnd (position : Nat) (peer : Option (Nat × Nat × Nat)) (s : State) : Out := .next (trainingEnd position peer s)

/-- Untrained positions are tried again every 10 s (R449). -/
def execLaneRetrainTimer (s : State) : Out :=
  .next ((List.range 52).foldl (fun s l =>
    let q := s.lane l
    if q.position.isSome ∧ q.state = .down ∧ (q.role = .untrained ∨ q.role = .spareInUse) ∧ s.since q.tried (10 * countsS) then
      modLane l (fun q => { q with state := .training, tried := s.now }) s
    else s) s)

/-- A lane fails (R450, R451): with its loopback failed the group's unused spare takes its position; with its loopback passed the
fault is in the channel. One in training fails with the third attempt running that ends without a peer. -/
def laneFails (l : Nat) (loopback : Bool) (s : State) : State :=
  let q := s.lane l
  if 52 ≤ l ∨ q.state = .down ∨ q.position.isNone ∨ (q.state = .training ∧ q.fails < 2) then s
  else
    let serial := q.peerSerial
    let was := decide (q.state = .up)
    let s := modLinks (fun x => { x with lanesFailed := satAdd 16 x.lanesFailed 1 }) s
    let s := modLane l (fun q => { q.quiet with role := if loopback then .channelFault else .failed }) s
    let s := match if loopback then none else s.groupSpare (l / 13) with
      | none => s
      | some spare =>
        let s := modLane spare (fun p => { p with role := .spareInUse, position := q.position, state := .training, tried := s.now }) s
        raise 0x0401 1 5 l 0xFFFF (evArgs [(20, 1, q.position.getD 0x3F), (21, 1, spare), (22, 1, s.spareLanes)]) s
    if was then afterLoss serial s else s

def execLaneFail (lane : Nat) (loopback : Bool) (s : State) : Out := .next (laneFails lane loopback s)

/- Commands -/

/-- The reply of CROSSING_SETUP for a peer (Table 15-3). -/
def crossingReply (s : State) (serial : Nat) : List Byte :=
  let lanes := s.lanesTo serial
  match s.crossingTo serial with
  | some x =>
    (match s.crossing x with
     | none => zeros 16
     | some c =>
       let st := match c.state with
         | .free => 0
         | .trained => 1
         | .awaiting => 2
         | .up => 3
         | .down => 4
       leBytes 1 x ++ leBytes 1 st ++ leBytes 1 c.width ++ leBytes 1 c.standby ++ leBytes 1 c.peerDomain ++ leBytes 1 c.peerStep ++ zeros 10)
  | none =>
    let w := widthOf lanes.length
    let dom := (lanes.head?.map fun l => (s.lane l).peerDomain).getD 0
    leBytes 1 0xFF ++ leBytes 1 (if lanes = [] then 0 else 1) ++ leBytes 1 w ++ leBytes 1 (lanes.length - w) ++ leBytes 1 dom ++ zeros 11

/-- A CROSSING_SETUP payload is in order. -/
def crossingOk (p : List Byte) : Bool :=
  decide (p.length = 16) && decide (1 ≤ fieldAt p 8 1) && decide (fieldAt p 8 1 ≤ 3) && decide (fieldAt p 9 1 ≤ 1) && allZero (slice p 10 6)

/-- CROSSING_SETUP enable (R453, R461). A payload that is out of order is refused here. -/
def crossingEnable (c : Cmd) (_ : Ctx) (s : State) : State :=
  let p := c.payload
  let serial := fieldAt p 0 8
  let accept := bit (fieldAt p 9 1) 0
  if crossingOk p ∧ fieldAt p 8 1 ≠ 1 then s
  else if !crossingOk p then fail c stInvalid s
  else match s.crossingTo serial with
    | some x =>
      let s := writeRoot (modCrossing x (fun c => { c with acceptCopy := accept }) s)
      reply c stOk (crossingReply s serial) s
    | none =>
      match s.lanesTo serial, kvFree s.links.crossings 48 with
      | [], _ => fail c stPeerUnreachable s
      | _, none => fail c stPeerUnreachable s
      | l :: _, some x =>
        let new : Crossing :=
          { state := .awaiting, serial := serial, enabled := true, acceptCopy := accept, width := 0, standby := 0, peerStep := 0,
            peerCause := 0, peerDomain := (s.lane l).peerDomain, txSeq := 0, rxSeq := 0, unacked := [], queue := [], credits := [],
            freedSeen := [], freed := [], transfers := [], slotsSeen := [], slotsFree := [], lastValid := 0, lastSent := 0, lastEvent := 0,
            nakked := false, turn := 0 }
        let s := settleSerial serial (writeRoot (modLinks (fun l => { l with crossings := kvSet x (new.fresh .awaiting s.now) l.crossings }) s))
        reply c stOk (crossingReply s serial) s

def execCrossingEnable (k : CmdKey) (s : State) : Out := .next (withCtx 0x80 k crossingEnable s)

/-- CROSSING_SETUP disable: DOWN is sent, the crossing goes down and its number is free (R458, R461). -/
def crossingDisable (c : Cmd) (_ : Ctx) (s : State) : State :=
  let p := c.payload
  let serial := fieldAt p 0 8
  if !crossingOk p ∨ fieldAt p 8 1 ≠ 2 then s
  else match s.crossingTo serial with
    | none => fail c stInvalid s
    | some x =>
      let s := if ((s.crossing x).map (·.state)) = some .up then sendControl x [8] s else s
      let s := goDown x false s
      let s := writeRoot (modLinks (fun l => { l with crossings := kvDel x l.crossings }) s)
      let s := settleSerial serial s
      reply c stOk (crossingReply s serial) s

def execCrossingDisable (k : CmdKey) (s : State) : Out := .next (withCtx 0x80 k crossingDisable s)

/-- CROSSING_SETUP query. -/
def crossingQuery (c : Cmd) (_ : Ctx) (s : State) : State :=
  let p := c.payload
  if !crossingOk p ∨ fieldAt p 8 1 ≠ 3 then s else reply c stOk (crossingReply s (fieldAt p 0 8)) s

def execCrossingQuery (k : CmdKey) (s : State) : Out := .next (withCtx 0x80 k crossingQuery s)

/-- SET_DOMAIN (R462). -/
def setDomain (c : Cmd) (_ : Ctx) (s : State) : State :=
  let p := c.payload
  if p.length ≠ 4 ∨ fieldAt p 1 3 ≠ 0 then fail c stInvalid s
  else
    let old := s.links.domain
    let s := writeRoot (modLinks (fun l => { l with domain := fieldAt p 0 1 }) s)
    reply c stOk (leBytes 4 old) (sendAll [7, fieldAt p 0 1] s)

def execSetDomain (k : CmdKey) (s : State) : Out := .next (withCtx 0x83 k setDomain s)

/-- Peers next to local members before them in the chain: the senders of its hand-ons to this module. -/
def Binding.senders (b : Binding) (me : Nat) : List Nat :=
  ((List.range b.members.length).filterMap fun i =>
    if 0 < i ∧ b.members.getD i 0 = me then some (b.members.getD (i - 1) me) else none).filter fun m => decide (m ≠ me)

/-- SLOT_FREE goes to the peers whose hand-ons this module takes on a chain (R465). -/
def sendSlots (fid : Nat) (s : State) : State :=
  match kvGet fid s.links.bindings with
  | none => s
  | some b => (b.senders s.serial).foldl (fun s m => match s.upTo m with
    | none => s
    | some x => sendControl x (5 :: wordBytes 4 fid ++ [b.returned]) s) s

/-- CHAIN_SETUP (R463). The two slots of a receiving plot are announced as returned (log entry 62). -/
def chainSetup (c : Cmd) (_ : Ctx) (s : State) : State :=
  let p := c.payload
  let handle := fieldAt p 0 1
  let i := fieldAt p 1 1
  let fid := fieldAt p 4 4
  match (s.program c.key.ctx handle).bind fun g => g.chains[i]? with
  | none => fail c stInvalid s
  | some ch =>
    let n := ch.members.length
    let list := (List.range n).map fun j => fieldAt p (16 + 8 * j) 8
    let agree := (ch.members.zip list).all fun m => decide (m.1 ≠ 0xFF) == decide (m.2 = s.serial)
    let used := s.chainRanges.any fun r => decide (r.1 ≤ fid) && decide (fid < r.1 + r.2)
    if p.length ≠ 16 + 8 * n ∨ 15 < handle ∨ fieldAt p 2 2 ≠ 0 ∨ fieldAt p 8 8 ≠ 0 ∨ !ch.external ∨ !agree ∨ used then fail c stInvalid s
    else
      let b : Binding := ⟨c.key.ctx, handle, i, list, [], 2, []⟩
      if (b.peers s.serial).any fun m => (s.upTo m).isNone then fail c stPeerUnreachable s
      else
        let old := (s.links.bindings.filter fun x => decide (x.2.ctx = c.key.ctx) && decide (x.2.handle = handle) && decide (x.2.chain = i)).map (·.1)
        let s := modLinks (fun l => { l with bindings := kvSet fid b (old.foldl (fun t f => kvDel f t) l.bindings) }) s
        reply c stOk [] (sendSlots fid s)

def execChainSetup (k : CmdKey) (s : State) : Out := .next (withCtx 0x81 k chainSetup s)

/- PEER_COPY (R467, log entry 63) -/

/-- The 24 bytes before a unit's data: kind (1 write, 2 discard, 3 answer), volume, transfer answered, status, unit, end. -/
def copyHead (kind vol stream status unit end_ : Nat) : List Byte :=
  leBytes 1 kind ++ leBytes 1 vol ++ leBytes 2 stream ++ leBytes 2 status ++ zeros 2 ++ leBytes 8 unit ++ leBytes 8 end_

/-- The next unit of a copy goes to the peer; an unreadable one, or the last one's end, ends the copy. -/
def copyNext (k : CmdKey) (s : State) : State :=
  match findCmd k s, s.links.copies.find? fun p => decide (p.key = k) with
  | some c, some q =>
    let p := c.payload
    let e := (extentAt p 8).1
    let dest := fieldAt p 28 5
    if e.units ≤ q.done then endCopy k stOk [] s
    else
      let u := e.first + q.done
      let bad := s.badUnits c e.vol [u]
      if bad ≠ [] then endCopy k stMediaUncorrectable (bad.map fun b => (16 * b.1, 16, b.2)) s
      else
        let head := fun (kind : Nat) => copyHead kind (fieldAt p 24 1) 0 0 (dest + q.done) (dest + e.units)
        let body := if s.entry e.vol u = none then head 2 else head 1 ++ (s.unitData e.vol u).getD (zeros 65536)
        let stream := s.links.nextStream
        let s := modLinks (fun l => { l with copies := l.copies.map fun r => if r.key = k then { r with stream := stream } else r }) s
        sendTransfer q.crossing 1 1 (some k.ctx) body s
  | _, _ => s

/-- PEER_COPY (R467). -/
def peerCopy (c : Cmd) (_ : Ctx) (s : State) : State :=
  let p := c.payload
  let e := extentAt p 8
  let ok := decide (p.length = 48) && s.extentsOk c.key.session [e] && allZero (slice p 25 3) && allZero (slice p 33 15)
  stored c ok (fun s =>
    match s.upTo (fieldAt p 0 8) with
    | none => fail c stPeerUnreachable s
    | some x =>
      let us := (List.range e.1.units).map (e.1.first + ·)
      withUnits c (wholeUnits e.1.vol us) (fun s =>
        let s := modHealth (fun h => { h with hostRead := satAdd 64 h.hostRead (s.placesOf e.1.vol us).length }) s
        let s := modLinks (fun l => { l with copies := l.copies ++ [⟨c.key, x, 0, 0⟩] }) s
        copyNext c.key (modCmd c.key (fun c => { c with phase := .waiting (.peer x), stagedKib := 0 }) s)) s) s

def execPeerCopy (k : CmdKey) (s : State) : Out := .next (withCtx 0x82 k peerCopy s)

/-- An answer to a peer's unit. -/
def copyAnswer (x stream status : Nat) (s : State) : State := sendTransfer x 1 1 none (copyHead 3 0 stream status 0 0) s

/-- The writer of a unit that a peer copies here: no command of this module (R467). -/
def peerWriter : CmdKey := ⟨4, 0, .admin, 32⟩

/-- A unit from a peer is placed in the write buffer for no context. -/
def placePeerUnit (vol unit : Nat) (data : List Byte) (s : State) : Nat × State :=
  let n := s.media.nextSlot
  (n, modMedia (fun m => { m with slots := kvMod n (fun x => { x with ctx := 0xFFFF }) m.slots }) (placeUnit peerWriter vol unit data false s))

/-- A peer's PEER_COPY request, or its answer, has arrived whole (R467). -/
def copyArrives (x stream : Nat) (bytes : List Byte) (s : State) : State :=
  match s.crossing x with
  | none => s
  | some c =>
    let vol := fieldAt bytes 1 1
    let unit := fieldAt bytes 8 8
    match fieldAt bytes 0 1 with
    | 3 =>
      (match s.links.copies.find? fun p => decide (p.crossing = x) && decide (p.stream = fieldAt bytes 2 2) with
       | none => s
       | some p =>
         if fieldAt bytes 4 2 ≠ stOk then endCopy p.key (fieldAt bytes 4 2) [] s
         else copyNext p.key (modLinks (fun l => { l with copies := l.copies.map fun q => if q.key = p.key then { q with done := q.done + 1 } else q }) s))
    | k =>
      if k ≠ 1 ∧ k ≠ 2 then s
      else if (!c.acceptCopy || (match kvGet vol s.media.volumes with
          | none => true
          | some v => decide (v.units < fieldAt bytes 16 8))) = true then copyAnswer x stream stInvalid s
      else if !s.keysPresent then copyAnswer x stream stLifecycle s
      else if s.keeper.writeProtect ∨ s.deferredFull then copyAnswer x stream stWriteProtected s
      else if k = 2 then copyAnswer x stream stOk (unmap vol unit s)
      else if s.media.spareOut then copyAnswer x stream stSpareExhausted s
      else
        let (n, s) := placePeerUnit vol unit (fit (bytes.drop 24) 65536) s
        settleMedia (modLinks (fun l => { l with incoming := l.incoming ++ [⟨x, stream, n, stOk⟩] }) s)

/-- Units of a peer's copy that have become durable, or whose writing has failed, are answered. -/
def answerDurable (x : Nat) (s : State) : State :=
  let done := s.links.incoming.filter fun i => decide (i.crossing = x) && (kvGet i.slot s.media.slots).isNone
  let s := modLinks (fun l => { l with incoming := l.incoming.filter fun i => !done.contains i }) s
  done.foldl (fun s i => copyAnswer x i.stream i.status s) s

/- Flits and control words -/

/-- Something valid came from the peer: an enabled crossing that awaited it is up (R453, log entry 64). -/
def hear (x : Nat) (s : State) : State :=
  match s.crossing x with
  | none => s
  | some c =>
    if c.state = .awaiting ∧ s.lanesTo c.serial ≠ [] then modCrossing x (fun c => c.fresh .up s.now) s
    else modCrossing x (fun c => { c with lastValid := s.now }) s

/-- The crossing is up once the peer's word is heard. -/
def withUp (x : Nat) (f : Crossing → State → State) (s : State) : State :=
  let s := hear x s
  match s.crossing x with
  | none => s
  | some c => if c.state = .up then f c s else s

/-- A control flit on an enabled crossing: ACK, the counts of CREDIT and SLOT_FREE again, and answers that have come due (R456,
R458). -/
def controlFlit (x : Nat) (s : State) : State :=
  match s.crossing x with
  | none => s
  | some c =>
    if c.state ≠ .up ∧ c.state ≠ .awaiting then s
    else
      let s := sendAck x s
      if c.state ≠ .up then s
      else
        let s := [0, 1, 2].foldl (fun s k => sendControl x (1 :: k :: wordBytes 4 (c.freed.getD k 0)) s) s
        let s := s.links.bindings.foldl (fun s b => if (b.2.senders s.serial).contains c.serial then sendControl x (5 :: wordBytes 4 b.1 ++ [b.2.returned]) s else s) s
        answerDurable x s

def execControlFlitSend (crossing : Nat) (s : State) : Out := .next (controlFlit crossing s)

/-- Nothing valid for 4 µs: the crossing goes down (R458). -/
def execCrossingLossTimeout (crossing : Nat) (s : State) : Out :=
  .next (match s.crossing crossing with
    | none => s
    | some c => if c.state = .up ∧ s.since c.lastValid (4 * countsUs) then goDown crossing true s else s)

/-- Flits from an FSEQ are sent again, and a flit resent RETRY_LIMIT times brings the crossing down (R455). -/
def resend (x fseq : Nat) (s : State) : State :=
  let s := resendFrom x fseq s
  if s.worn x then goDown x true s else s

/-- The oldest unacknowledged flit has waited 2 µs (R455). -/
def execFlitResendTimeout (crossing : Nat) (s : State) : Out :=
  .next (match s.crossing crossing with
    | none => s
    | some c => match c.unacked.head? with
      | none => s
      | some u => if c.state = .up ∧ s.since u.sentAt (2 * countsUs) then resend crossing u.fseq s else s)

/-- Received flits are charged to a context where one is known (R488). -/
def chargeFlit (ctx : Option Nat) (s : State) : State := account ctx (fun a => { a with flits := a.flits + 1 }) s

/-- A data flit arrives (R455, R457, R467). -/
def execDataFlitReceive (crossing lane : Nat) (flit : List Byte) (s : State) : Out :=
  .next (withUp crossing (fun _ s =>
    match takeFlit crossing lane 1 flit (chargeFlit none s) with
    | (s, .whole _ stream bytes) => copyArrives crossing stream bytes s
    | (s, _) => s) s)

/-- The context of a chain flit: that of the bound chain whose number begins its transfer, in the bytes received before or in the flit
itself (Table 10-4). -/
def State.flitCtx (s : State) (c : Crossing) (flit : List Byte) : Option Nat :=
  let t := c.transfers.find? fun t => decide (t.stream = fieldAt flit 4 2) && decide (t.cls = bits (fieldAt flit 2 2) 13 12)
  (kvGet (fieldAt ((t.map (·.bytes)).getD (slice flit 12 240)) 0 4) s.links.bindings).map (·.ctx)

/-- A chain flit arrives: a whole block goes into its slot (R465). -/
def execChainFlitReceive (crossing lane : Nat) (flit : List Byte) (s : State) : Out :=
  .next (withUp crossing (fun c s =>
    let ctx := s.flitCtx c flit
    match takeFlit crossing lane 3 flit (chargeFlit ctx s) with
    | (s, .whole _ _ bytes) => peerBlock { handOnOf bytes with peer := true } s
    | (s, _) => s) s)

/-- CREDIT: buffers freed since training, cumulative (R457). -/
def execCredit (crossing cls freed : Nat) (s : State) : Out :=
  .next (withUp crossing (fun c s =>
    let new := (freed % 2 ^ 32 + 2 ^ 32 - c.freedSeen.getD cls 0) % 2 ^ 32
    if 2 < cls ∨ 2 ^ 31 ≤ new then s
    else pump crossing (modCrossing crossing (fun c => { c with
      credits := setAt c.credits cls (· + new), freedSeen := setAt c.freedSeen cls fun _ => freed % 2 ^ 32 }) s)) s)

/-- ACK (R455). -/
def execAck (crossing fseq : Nat) (s : State) : Out := .next (withUp crossing (fun _ s => ackFlits crossing (fseq % 4096) s) s)

/-- NAK: the flits before the one expected have come, and it and those after are sent again (R455). -/
def execNak (crossing fseq : Nat) (s : State) : Out :=
  .next (withUp crossing (fun _ s => resend crossing (fseq % 4096) (ackFlits crossing ((fseq % 4096 + 4095) % 4096) s)) s)

/-- THROTTLE: a new STEP or CAUSE raises PEER_THROTTLED, at most once a second, and steps the work shared with the peer (R468,
R470). -/
def execThrottle (crossing step cause : Nat) (s : State) : Out :=
  .next (withUp crossing (fun c s =>
    if c.peerStep = step % 4 ∧ c.peerCause = cause % 16 then s
    else
      let due := decide (c.lastEvent = 0) || s.since c.lastEvent countsS
      let s' := modCrossing crossing (fun c => { c with
        peerStep := step % 4, peerCause := cause % 16, lastEvent := if due then s.now else c.lastEvent }) s
      let s' := if due then raise 0x0403 0 5 crossing 0xFFFF (evArgs [(20, 1, step % 4), (21, 1, cause % 16)]) s' else s'
      settlePower s s') s)

/-- SLOT_FREE: slots returned since CHAIN_SETUP, cumulative modulo 256; a sender's copies of the returned blocks are done with
(R326, R465). -/
def execSlotFree (crossing chain returned : Nat) (s : State) : Out :=
  .next (withUp crossing (fun c s =>
    let new := (returned % 256 + 256 - (kvGet chain c.slotsSeen).getD 0) % 256
    if 128 ≤ new ∨ new = 0 then s
    else
      let seen := (kvGet chain c.slotsSeen).isSome
      let s := modCrossing crossing (fun c => { c with
        slotsSeen := kvSet chain (returned % 256) c.slotsSeen
        slotsFree := kvSet chain ((kvGet chain c.slotsFree).getD 0 + new) c.slotsFree }) s
      let s := if seen then { s with runs := s.runs.map fun r =>
          let mine := (r.sent.filter fun x => decide (x.1 = chain) && x.2.2.peer).take new
          { r with sent := r.sent.filter fun x => !mine.contains x } }
        else s
      match kvGet chain s.links.bindings with
      | none => s
      | some b => wakeCtx b.ctx s) s)

/-- CHAIN_ABORT: the chain's work completes CHAIN_BROKEN and the word is passed on (R466). -/
def execChainAbort (crossing chain : Nat) (s : State) : Out :=
  .next (withUp crossing (fun c s => breakWork chain (some c.serial) s) s)

/-- DOMAIN: the peer's failure domain (Table 15-2). -/
def execDomain (crossing domain : Nat) (s : State) : Out :=
  .next (withUp crossing (fun _ s => modCrossing crossing (fun c => { c with peerDomain := domain % 256 }) s) s)

/-- DOWN: the peer is going down (R458). -/
def execDown (crossing : Nat) (s : State) : Out :=
  .next (match s.crossing crossing with
    | none => s
    | some c => if c.state = .up ∨ c.state = .awaiting then goDown crossing true s else s)

/-- THROTTLE is repeated every 1 ms while a CAUSE bit is set (R468). -/
def execThrottleRepeat (s : State) : Out :=
  .next (if s.power.cause ≠ 0 ∧ s.since s.links.lastThrottle countsMs then
    sendAll [4, s.stepMin, s.power.cause] (modLinks (fun l => { l with lastThrottle := s.now }) s) else s)

end Sys2Proof.Machine
end

