-- ==== Sys2Proof/Machine/Trust.lean ====
section
/-!
DEFINITION. Machine/Trust.lean: firmware staging and commitment, attestation, the owner secret and the life cycle (chapter 17).
-/

namespace Sys2Proof.Machine

open Sys2Proof

/- Firmware (R499, R502, R503) -/

/-- SEC_FW_SLOT state codes (Table 17-12). -/
def FwState.code : FwState → Nat
  | .empty => 0
  | .valid => 1
  | .trialPending => 2
  | .staging => 3

/-- The slot that was not booted. -/
def State.otherSlot (s : State) : Nat := 1 - s.sec.booted

/-- Why a staged image is refused, if it is: the first failure in the order of R499. -/
def State.imageStatus (s : State) (img : List Byte) : Nat :=
  let h := img.take 256
  let body := img.drop 8112
  let key := fieldAt h 5 1
  if img.length < 8113 ∨ fieldAt h 0 4 ≠ 0x4B5A4657 ∨ fieldAt h 4 1 ≠ 1 ∨ 1 < key ∨ bit s.sec.revoked key ∨ fieldAt h 6 1 > 64 ∨
      fieldAt h 7 1 > 3 ∨ !allZero (slice h 56 200) then stInvalid
  else if !Config.vendorVerify key h (slice img 256 7856) then stSignature
  else if fieldAt h 12 4 ≠ body.length ∨ 50331648 < body.length then stInvalid
  else if sha256 body ≠ slice h 16 32 then stSignature
  else if fieldAt h 6 1 < s.sec.rollback ∨ (fieldAt h 48 8 ≠ 0 ∧ fieldAt h 48 8 ≠ s.serial) then stInvalid
  else stOk

/-- A slot with a checked image in it (Table 17-2). -/
def FwSlot.of (img : List Byte) : FwSlot :=
  let h := img.take 256
  { state := .valid, version := fieldAt h 8 4, svn := fieldAt h 6 1, keyIndex := fieldAt h 5 1, flags := fieldAt h 7 1, hdrHash := sha256 h
    serial := fieldAt h 48 8, staged := img, length := img.length, session := 0 }

/-- The reply of FW_STAGE. -/
def stageReply (n slot : Nat) (st : FwState) : List Byte := leBytes 4 n ++ leBytes 1 slot ++ leBytes 1 st.code ++ zeros 2

/-- FW_STAGE (R502). -/
def fwStage (c : Cmd) (s : State) : State :=
  let p := c.payload
  let off := fieldAt p 0 4
  let total := fieldAt p 4 4
  let body := p.drop 16
  let n := s.otherSlot
  let w := s.fwSlot n
  let staging := decide (w.state = .staging)
  let goes := if off = 0 then true else staging && decide (off = w.staged.length) && decide (total = w.length)
  if s.sec.life = .retired then fail c stLifecycle s
  else if p.length < 16 ∨ fieldAt p 8 8 ≠ 0 ∨ 50339760 < total ∨ total = 0 ∨ total < off + body.length ∨ !goes ∨
      (staging ∧ w.session ≠ c.key.session) then fail c stInvalid s
  else
    let img := (if off = 0 then [] else w.staged) ++ body
    if img.length < total then
      reply c stOk (stageReply img.length n .staging)
        (modFw n (fun _ => { FwSlot.empty with state := .staging, staged := img, length := total, session := c.key.session }) s)
    else
      let st := s.imageStatus img
      if st = stOk then reply c stOk (stageReply img.length n .valid) (modFw n (fun _ => FwSlot.of img) s)
      else fail c st (modFw n (fun _ => FwSlot.empty) s)

def execFwStage (k : CmdKey) (s : State) : Out := .next (withCmd 0x07 k fwStage s)

/-- A FW_COMMIT payload is in order (Table 17-3). -/
def commitOk (p : List Byte) : Bool :=
  decide (p.length = 8) && decide (1 ≤ fieldAt p 0 1) && decide (fieldAt p 0 1 ≤ 3) && decide (fieldAt p 1 1 ≤ 1) && decide (fieldAt p 2 6 = 0)

/-- A MODE of FW_COMMIT whose condition holds acts, and a restart follows the reply when RESET is set (R503). -/
def commitMode (ok : Bool) (act : State → State) (c : Cmd) (s : State) : State :=
  if s.sec.life = .retired then fail c stLifecycle s
  else if !ok then fail c stInvalid s
  else
    let s := act s
    complete c stOk false (leBytes 1 s.sec.preferred ++ leBytes 1 s.sec.rollback ++ zeros 6) 0
      (if bit (fieldAt c.payload 1 1) 0 then [.restart 3] else []) s

/-- A valid image stands in the slot that was not booted. -/
def State.otherValid (s : State) : Bool :=
  decide ((s.fwSlot s.otherSlot).state = .valid) || decide ((s.fwSlot s.otherSlot).state = .trialPending)

/-- MODE TRIAL; a payload that names no MODE is refused here. -/
def fwTrial (c : Cmd) (s : State) : State :=
  let p := c.payload
  if commitOk p ∧ fieldAt p 0 1 ≠ 1 then s
  else commitMode (commitOk p && s.otherValid) (fun s => modFw s.otherSlot (fun w => { w with state := .trialPending }) s) c s

def execFwCommitTrial (k : CmdKey) (s : State) : Out := .next (withCmd 0x08 k fwTrial s)

/-- MODE CONFIRM: the booted slot is preferred, the rollback counter rises to its SVN, and vendor key 0 may be revoked. -/
def confirm (s : State) : State :=
  let n := s.sec.booted
  let w := s.fwSlot n
  modSec (fun x => { x with
    preferred := n, rollback := max x.rollback w.svn, trial := false
    revoked := if bit w.flags 1 ∧ w.keyIndex = 1 then Nat.lor x.revoked 1 else x.revoked })
    (modFw n (fun w => { w with state := if w.state = .trialPending then .valid else w.state }) s)

def fwConfirm (c : Cmd) (s : State) : State :=
  let p := c.payload
  if !commitOk p ∨ fieldAt p 0 1 ≠ 2 then s else commitMode (!s.sec.recovery) confirm c s

def execFwCommitConfirm (k : CmdKey) (s : State) : Out := .next (withCmd 0x08 k fwConfirm s)

/-- MODE REVERT: the other slot is preferred. -/
def fwRevert (c : Cmd) (s : State) : State :=
  let p := c.payload
  if !commitOk p ∨ fieldAt p 0 1 ≠ 3 then s
  else commitMode (s.otherValid && decide (s.sec.rollback ≤ (s.fwSlot s.otherSlot).svn))
    (fun s => modSec (fun x => { x with preferred := s.otherSlot }) s) c s

def execFwCommitRevert (k : CmdKey) (s : State) : Out := .next (withCmd 0x08 k fwRevert s)

/- Identity (R497, R498, R514) -/

/-- IDN_PART (Table 0-7), its PART_CODE, and IDN_FW_ACTIVE (Table 0-14). -/
def Part.code : Part → Nat
  | .kz1280 => 0x1280
  | .kz640 => 0x0640
def Part.idn (p : Part) : Nat := p.code * 65536 + 0x2103
def State.fwActive (s : State) : Nat := (s.fwSlot s.sec.booted).version / 16 * 16 + s.sec.booted

/-- The module's public keys. -/
def identityKey : List Byte := bytes256 (Config.slhPublic identitySeed)
def accountingKey : List Byte := bytes256 (Config.slhPublic accountingSeed)

/-- The identity certificate body of this module. -/
def State.certBody (s : State) (key : Nat) : List Byte :=
  leBytes 4 0x4B5A4943 ++ leBytes 1 1 ++ leBytes 1 key ++ leBytes 2 s.part.code ++ leBytes 8 s.serial ++ identityKey ++ accountingKey ++ zeros 48

/-- The attestation report (Table 17-8). -/
def State.report (s : State) (nonce : List Byte) : List Byte :=
  let w := s.fwSlot s.sec.booted
  leBytes 4 0x4B5A4154 ++ leBytes 1 1 ++ leBytes 1 s.sec.life.code ++
    leBytes 1 (b2n s.sec.unlocked + 2 * b2n s.sec.trial + 4 * b2n (decide (s.sec.tamperBits ≠ 0))) ++ leBytes 1 w.svn ++ leBytes 8 s.serial ++
    leBytes 4 s.part.idn ++ leBytes 4 s.fwActive ++ leBytes 1 s.sec.rollback ++ leBytes 1 s.links.domain ++ leBytes 2 s.activePlots ++
    leBytes 8 s.now ++ leBytes 8 s.sec.mediaSetId ++ leBytes 8 s.acct.nextSeq ++ nonce ++ s.sec.measure ++ identityKey ++ accountingKey ++ zeros 76

/-- The head of an ATTEST payload is in order: an OP, and 0 in its reserved bytes (Table 17-7). -/
def attestOk (p : List Byte) : Bool :=
  decide (16 ≤ p.length) && decide (1 ≤ fieldAt p 0 1) && decide (fieldAt p 0 1 ≤ 5) && allZero (slice p 2 14) &&
    (decide (fieldAt p 0 1 = 5) || decide (fieldAt p 1 1 = 0))

/-- One OP of ATTEST, with the states that serve it; a payload that names no OP is refused by the first (Tables 17-4 and 17-7). -/
def attest (op : Nat) (len : List Nat) (states : List LifeState) (f : Cmd → State → State) (deny : Cmd → State → State) (c : Cmd) (s : State) : State :=
  let p := c.payload
  if !attestOk p then (if op = 1 then fail c stInvalid s else s)
  else if fieldAt p 0 1 ≠ op then s
  else if !len.contains p.length then fail c stInvalid s
  else if !states.contains s.sec.life then deny c s
  else f c s

/-- The 8-byte reply of UNLOCK and TRANSITION. -/
def trustReply (s : State) (reason keys : Nat) : List Byte := leBytes 1 s.sec.life.code ++ leBytes 1 reason ++ leBytes 6 keys

/-- LIFECYCLE_DENIED with a REASON. -/
def deny (reason : Nat) (c : Cmd) (s : State) : State := reply c stLifecycle (trustReply s reason 0) s

def execAttestReport (k : CmdKey) (s : State) : Out :=
  .next (withCmd 0x09 k (attest 1 [48] [.provisioned, .owned, .service, .retired] (fun c s =>
    let r := s.report (c.payload.drop 16)
    reply c stOk (r ++ signature128f identitySeed r) s) (fun c s => fail c stLifecycle s)) s)

def execAttestCertificate (k : CmdKey) (s : State) : Out :=
  .next (withCmd 0x09 k (attest 2 [16] [.blank, .provisioned, .owned, .service, .retired] (fun c s =>
    reply c stOk (if s.sec.life = .blank then s.certBody 0 else s.sec.certificate) s) (fun c s => fail c stLifecycle s)) s)

def execAttestChallenge (k : CmdKey) (s : State) : Out :=
  .next (withCmd 0x09 k (attest 3 [16] [.blank, .provisioned, .owned, .service] (fun c s =>
    let (i, s) := takeFree s
    let n := bytes256 (Config.challenge i)
    reply c stOk n (modSec (fun x => { x with challenge := some n }) s)) (fun c s => fail c stLifecycle s)) s)

/- The owner secret (R508 to R512) -/

/-- The wrapping key and the verifier of a secret (R508). -/
def wrapKey (secret salt : List Byte) : List Byte := hkdf secret salt (ascii "KZ-KEK") 32
def verifierOf (secret salt : List Byte) : List Byte := hkdf secret salt (ascii "KZ-VERIFY") 32

/-- A wrong secret: after five failures running, a hold-off that doubles with each further one (R511). -/
def secretFails (s : State) : State :=
  modSec (fun x =>
    let n := satAdd 8 x.fails 1
    { x with fails := n, holdoffEnd := if n < 5 then x.holdoffEnd else s.now + min 3600 (60 * 2 ^ (n - 5)) * countsS }) s

/-- The secret is checked against the bound media set, with the hold-off (R510, R511). -/
def withSecret (secret : List Byte) (f : Cmd → State → State) (c : Cmd) (s : State) : State :=
  if s.now < s.sec.holdoffEnd then deny 3 c s
  else if verifierOf secret s.sec.kekSalt ≠ s.sec.verifier then deny 2 c (secretFails s)
  else f c (modSec (fun x => { x with fails := 0, holdoffEnd := 0 }) s)

/-- Media keys that K unwraps: one for each volume, index and model image (Table 17-1). -/
def State.keyNumbers (s : State) : List Nat :=
  (s.media.volumes.map fun v => v.2.key) ++ (s.indexes.map fun x => x.2.key) ++
    (s.models.filter fun m => decide (m.2.state ≠ .empty)).map fun m => m.2.key
def State.mediaKeys (s : State) : Nat := s.keyNumbers.length

/-- K goes into the vault and the media keys are unwrapped; the set is bound to this base, its root sets rewritten when that changes
(R508, R510, R511). -/
def bind (secret : List Byte) (always : Bool) (s : State) : State :=
  let rewrite := always || decide (s.sec.baseSerial ≠ s.serial)
  let s := modSec (fun x => { x with unlocked := true, kek := wrapKey secret x.kekSalt, baseSerial := s.serial }) s
  let s := s.keyNumbers.foldl (fun s n => holdKey n s) s
  settleMedia (if rewrite then writeRoots s else s)

/-- UNLOCK (R511, R512). -/
def unlock (c : Cmd) (s : State) : State :=
  if s.keeper.tamper.asserted then deny 4 c s
  else withSecret (c.payload.drop 16) (fun c s =>
    let s := bind (c.payload.drop 16) false s
    reply c stOk (trustReply s 0 s.mediaKeys) s) c s

def execAttestUnlock (k : CmdKey) (s : State) : Out :=
  .next (withCmd 0x09 k (attest 4 [48] [.owned] unlock (deny 1)) s)

/- Transitions (R505 to R510, Table 17-5) -/

/-- The owner's data and keys are destroyed (Table 17-5, as R249 destroys a volume key). -/
def releaseMedia (s : State) : State :=
  let s := s.media.lines.foldl (fun s l => dropLine l s) s
  let s := s.media.map.foldl (fun s e => unmap (e.1 / 2 ^ 40) (e.1 % 2 ^ 40) s) s
  let s := modMedia (fun m => { m with volumes := [], slots := [], copies := [], manifest := [], deferred := [] }) s
  let s := modMedia (fun m => { m with sieves := m.sieves.map fun v => { v with keys := [] } }) s
  let s := renewRoots (modSec (fun x => { x with vault := [], baseSerial := 0, mediaSetId := 0, verifier := zeros 32, kekSalt := zeros 32 }) s)
  settleMedia { s with indexes := [], models := [] }

/-- Every context closes as CLOSE_CONTEXT closes it (R506). -/
def closeAll (s : State) : State :=
  s.contexts.foldl (fun s x => freeContext x.1 (endCmdsNow x.1 (fun _ => true) stContextClosed s)) s

/-- A transition's record is written: contexts close when the module leaves OWNED, the vault is wiped, the challenge is void (R505 to
R507). -/
def enter (target : LifeState) (s : State) : State :=
  let s := if s.sec.life = .owned then closeAll s else s
  let s := wipeVault s
  writeRoot
    (modSec (fun x => { x with
      life := target, challenge := none, transitions := x.transitions + 1, mediaTransitions := x.mediaTransitions + 1 }) s)

/-- A vendor token's body and signature, in order apart from the state it names (R507). -/
def State.tokenSigned (s : State) (t : List Byte) : Bool :=
  let key := fieldAt t 5 1
  decide (t.length = 7920) && decide (fieldAt t 0 4 = 0x4B5A544B) && decide (fieldAt t 4 1 = 1) && decide (key ≤ 1) && !bit s.sec.revoked key &&
    decide (fieldAt t 8 8 = s.serial) && allZero (slice t 48 16) && Config.vendorVerify key (t.take 64) (t.drop 64)

/-- A vendor token authorises a transition when it names the present state, the requested one and the current challenge, which is void
after this use (R507). -/
def withToken (target : LifeState) (f : Cmd → State → State) (c : Cmd) (s : State) : State :=
  let t := c.payload.drop 16
  if !s.tokenSigned t then fail c stSignature s
  else
    let good := decide (fieldAt t 6 1 = s.sec.life.code) && decide (fieldAt t 7 1 = target.code) && decide (s.sec.challenge = some (slice t 16 32))
    let s := if s.sec.challenge = some (slice t 16 32) then modSec (fun x => { x with challenge := none }) s else s
    if good then f c s else deny 1 c s

/-- The reply of a transition. -/
def transitionDone (keys : Nat) (acts : List Act) (c : Cmd) (s : State) : State := complete c stOk false (trustReply s 0 keys) 0 acts s

/-- BLANK to PROVISIONED: the certificate names this serial and this module's two public keys. -/
def provision (c : Cmd) (s : State) : State :=
  let t := c.payload.drop 16
  let key := fieldAt t 5 1
  if t.length ≠ 7984 ∨ 1 < key ∨ bit s.sec.revoked key ∨ t.take 128 ≠ s.certBody key ∨ !Config.vendorVerify key (t.take 128) (t.drop 128) then
    fail c stSignature s
  else transitionDone 0 [] c (modSec (fun x => { x with certificate := t }) (enter .provisioned s))

/-- PROVISIONED to OWNED: a media set not owned is taken fresh; one that is owned opens to its secret (R510). -/
def takeOver (c : Cmd) (s : State) : State :=
  let secret := c.payload.drop 16
  if s.sec.mediaSetId = 0 then
    if s.now < s.sec.holdoffEnd then deny 3 c s
    else
      let (i, s) := takeFree s
      let salt := bytes256 (Config.kekSalt i)
      let s := modSec (fun x => { x with
        mediaSetId := (Config.mediaSetId i).toNat % (2 ^ 64 - 1) + 1, kekSalt := salt, verifier := verifierOf secret salt, ownerGen := x.ownerGen + 1, fails := 0, holdoffEnd := 0 }) s
      let s := bind secret true (enter .owned s)
      transitionDone s.mediaKeys [] c s
  else withSecret secret (fun c s =>
    let s := bind secret true (enter .owned s)
    transitionDone s.mediaKeys [] c s) c s

/-- SERVICE to OWNED, as UNLOCK. -/
def reopen (c : Cmd) (s : State) : State :=
  if s.keeper.tamper.asserted then deny 4 c s
  else withSecret (c.payload.drop 16) (fun c s =>
    let s := bind (c.payload.drop 16) false (enter .owned s)
    transitionDone s.mediaKeys [] c s) c s

/-- SERVICE to BLANK: as release; every band is to be erased, retirements, capacity reductions and the certificate go, the accounting
store is emptied, and the module restarts. -/
def blank (c : Cmd) (s : State) : State :=
  let s := releaseMedia (enter .blank s)
  let s := modSec (fun x => { x with certificate := [], erasing := true }) s
  let s := modLanding (fun l => { l with retired := [] }) (modMedia (fun m => { m with exported := s.part.exportedUnits }) s)
  let s := modAcct (fun a => { a with records := [], oldest := a.nextSeq, segFirst := a.nextSeq, prevHash := zeros 32, journaled := none }) s
  transitionDone 0 [.restart 2] c s

/-- To RETIRED: as release, then the fuse is burned. -/
def retire (c : Cmd) (s : State) : State :=
  transitionDone 0 [] c (modSec (fun x => { x with retiredFuse := true }) (releaseMedia (enter .retired s)))

/-- TRANSITION by its TARGET (Table 17-5); one that the table does not give is denied with REASON 0x01. -/
def transition (c : Cmd) (s : State) : State :=
  let n := c.payload.length
  let byToken := decide (s.sec.mediaSetId = 0)
  match s.sec.life, fieldAt c.payload 1 1 with
  | .blank, 1 => provision c s
  | .provisioned, 2 => if n ≠ 48 then fail c stInvalid s else takeOver c s
  | .owned, 3 => if n ≠ 48 then fail c stInvalid s else withSecret (c.payload.drop 16) (fun c s => transitionDone 0 [] c (enter .service s)) c s
  | .service, 2 => if n ≠ 48 then fail c stInvalid s else reopen c s
  | .owned, 1 =>
    if n ≠ 48 then fail c stInvalid s
    else withSecret (c.payload.drop 16) (fun c s => transitionDone 0 [] c (releaseMedia (enter .provisioned s))) c s
  | .service, 0 => withToken .blank blank c s
  | .provisioned, 4 =>
    if byToken then withToken .retired retire c s else if n ≠ 48 then fail c stInvalid s else withSecret (c.payload.drop 16) retire c s
  | .owned, 4 =>
    if byToken then withToken .retired retire c s else if n ≠ 48 then fail c stInvalid s else withSecret (c.payload.drop 16) retire c s
  | .service, 4 =>
    if byToken then withToken .retired retire c s else if n ≠ 48 then fail c stInvalid s else withSecret (c.payload.drop 16) retire c s
  | _, t => if 4 < t then fail c stInvalid s else deny 1 c s

/-- ATTEST TRANSITION. -/
def attestTransition (c : Cmd) (s : State) : State :=
  let p := c.payload
  if !attestOk p ∨ fieldAt p 0 1 ≠ 5 then s
  else if s.sec.life = .retired then deny 1 c s
  else transition c s

def execAttestTransition (k : CmdKey) (s : State) : Out := .next (withCmd 0x09 k attestTransition s)

/- The vault (R27, R513) -/

/-- A vault line fails: the entry is cleared and VAULT_FAULT raised. A module key is regenerated, a media key is unwrapped again, and a
cleared K leaves the module locked (R513). -/
def execVaultLineFail (kind index : Nat) (s : State) : Out :=
  .next (
    let held := if kind = 1 then s.sec.moduleKeys && decide (index < 2) else s.sec.unlocked && (decide (kind = 2) || (decide (kind = 3) && decide (index < s.mediaKeys)))
    if !held then s
    else
      let s := if kind = 2 then wipeVault s else s
      let s := modSec (fun x => { x with vaultFaults := satAdd 16 x.vaultFaults 1 }) s
      raise 0x0102 (if kind = 2 then 2 else 1) 0 0 0xFFFF (evArgs [(20, 1, kind)]) s)

end Sys2Proof.Machine
end

