-- ==== Sys2Proof/Machine/Registers.lean ====
section
/-!
DEFINITION. Machine/Registers.lean: what every register reads as, what reading it changes, and what writing it does (R4 to R11, R71,
R104 and the register tables); REG_READ, LO_READ_LATCH, REG_WRITE and the rows of registers that have a behaviour of their own; the
management port (R536 to R538).
-/

namespace Sys2Proof.Machine

open Sys2Proof

/-- The low and the high half of a 64-bit quantity. -/
def low32 (v : Nat) : Nat := v % 2 ^ 32
def high32 (v : Nat) : Nat := v / 2 ^ 32 % 2 ^ 32

/-- Two 16-bit counts of a register. -/
def halves (hi lo : Nat) : Nat := hi * 2 ^ 16 + lo

/-- Four bytes of a register, the first lowest. -/
def bytesReg (l : List Nat) : Nat := (l.zipIdx.map fun b => b.1 * 2 ^ (8 * b.2)).sum

/- IDN (Tables 0-6 to 0-14) -/

/-- IDN_SERIAL_HI reads its value once the boot ROM has read the fuses; IDN_FW_ACTIVE once firmware runs; IDN_PLOTS and IDN_SPARES
from the end of media recovery (R11). The keeper holds how far the last start came, until the next reset. -/
def State.fusesRead (s : State) : Bool := decide (1 ≤ s.keeper.idnAt)
def State.firmwareRuns (s : State) : Bool := decide (2 ≤ s.keeper.idnAt)
def State.recovered (s : State) : Bool := decide (3 ≤ s.keeper.idnAt)

/-- Active plots as reported (R2, R11). -/
def State.idnActive (s : State) : Nat := if s.recovered then s.activePlots else 0

/-- Fewest unused spare dies on any sieve in service (R12). -/
def State.spareDiesMin (s : State) : Nat :=
  (((List.range 16).filter fun v => !(s.sieve v).lost).map s.sieveSpares).min?.getD 0

/-- User capacity as shipped, in GB (Table 0-9). -/
def Part.shippedGb : Part → Nat
  | .kz1280 => 1280000
  | .kz640 => 640000

def State.idnReg (s : State) (off : Nat) : Nat :=
  match off with
  | 0x0000 => 0x0C5A00A1
  | 0x0004 => halves s.part.code 0x2103
  | 0x0008 => low32 s.serial
  | 0x000C => if s.fusesRead then high32 s.serial else 0
  | 0x0010 => s.part.shippedGb
  | 0x0014 => 0x04100800 + s.part.diesPerChannel
  | 0x0018 => if s.recovered then halves 0x0110 s.activePlots else 0
  | 0x001C => if s.recovered then bytesReg [0, s.spareDiesMin, s.spareLanes, s.sparePlots] else 0
  | 0x0020 => 0x06400180
  | 0x0024 => if s.firmwareRuns then s.fwActive else 0
  | _ => 0

/- KPR (Tables 18-14 to 18-22) -/

/-- One value of each input, input 0 lowest. -/
def Keeper.pins (k : Keeper) {α : Type} (f : InPin → α) : List α := [f k.modReset, f k.pwrFail, f k.throttle, f k.tamper]

def State.kprReg (s : State) (off : Nat) : Nat :=
  let k := s.keeper
  match off with
  | 0x1000 => packFields [(16, k.startFault), (8, k.stage), (4, b2n s.alert), (3, b2n k.holdupWeak), (2, b2n s.cold), (1, b2n k.thermtrip),
      (0, b2n k.moduleGood)]
  | 0x1004 => packFields [(16, s.starts), (8, b2n k.tripped), (0, k.cause)]
  | 0x1008 => packFields [(16, bitSet (k.pins (·.chatter))), (8, bitSet (k.pins (·.asserted))), (0, bitSet (k.pins (·.raw)))]
  | 0x100C => bytesReg (k.pins (·.count))
  | 0x1010 => halves k.vinMin k.losses
  | 0x1014 => halves k.holdupState k.holdup
  | 0x1018 => packFields [(8, s.slotAddr), (1, b2n k.pecRequired), (0, b2n k.fastPlus)]
  | 0x101C => k.led
  | 0x1020 => low32 k.count
  | 0x1024 => high32 k.count
  | _ => 0

/- PRT (Tables 3-24 to 3-32) -/

/-- One count of each port, port 0 low. -/
def State.portPair (s : State) (f : Port → Nat) : Nat := halves (f (s.port 1)) (f (s.port 0))

/-- Shortest grace left among the held sessions, in counts. -/
def State.graceLeft (s : State) : Nat :=
  ((s.sessions.filter fun x => decide (x.phase = .held)).map fun x => x.graceEnd - s.now).min?.getD 0

def State.prtReg (s : State) (off : Nat) : Nat :=
  match off with
  | 0x2000 => packFields [(12, s.heldBits), (8, s.openBits), (2, b2n (s.port 0).lock), (3, b2n (s.port 1).lock), (0, s.portsUp)]
  | 0x2004 => b2n s.alert
  | 0x2008 => b2n (s.port 0).enabled + 2 * b2n (s.port 1).enabled
  | 0x200C => s.portPair (·.hdrErr)
  | 0x2010 => s.portPair (·.payErr)
  | 0x2014 => s.portPair (·.fecUncorr)
  | 0x2018 => s.portPair (·.losses)
  | 0x201C => s.portPair (·.dupPkts)
  | 0x2020 => (s.port 0).fecCorr
  | 0x2024 => (s.port 1).fecCorr
  | 0x2028 => bytesReg (s.sessions.map (·.seqGaps))
  | 0x202C => s.cmds.length
  | 0x2030 => ((s.replies.filter fun r => r.held).map (·.kib)).sum
  | 0x2034 => s.graceLeft / (16 * countsMs)
  | _ => 0

/- LNK (Tables 15-8 to 15-16) -/

/-- STATE of Table 15-12. -/
def LaneState.code : LaneState → Nat
  | .down => 0
  | .training => 1
  | .up => 2

/-- STATE of Table 15-14. -/
def CrossState.code : CrossState → Nat
  | .free => 0
  | .trained => 1
  | .awaiting => 2
  | .up => 3
  | .down => 4

/-- Bit g set: a spare of group g is in use. -/
def State.sparesUsed (s : State) : Nat :=
  bitSet ((List.range 4).map fun g => ((List.range 13).map (13 * g + ·)).any fun l => decide ((s.lane l).role = .spareInUse))

/-- LNK_LANE_INFO (Table 15-12, R553). -/
def Lane.info (q : Lane) : Nat :=
  let up := decide (q.state = .up)
  packFields [(29, q.role.code), (27, q.state.code), (21, q.position.getD 0x3F), (15, if up then q.crossing.getD 0x3F else 0x3F),
    (9, if up then q.peerPos.getD 0x3F else 0x3F)]

/-- LNK_XINFO (Table 15-14). -/
def Crossing.info (c : Crossing) : Nat :=
  packFields [(29, c.state.code), (25, c.width), (21, c.standby), (20, b2n c.acceptCopy), (18, c.peerStep % 4), (14, c.peerCause % 16),
    (0, c.peerDomain)]

def State.lnkReg (s : State) (off : Nat) : Nat :=
  let l := s.links
  match off with
  | 0x3000 => packFields [(16, s.upCrossings.length),
      (8, ((List.range 52).filter fun i => decide ((s.lane i).state = .up) && (s.lane i).position.isSome).length), (0, s.sparesUsed)]
  | 0x3004 => packFields [(8, l.laneErrLimit), (0, l.retryLimit)]
  | 0x3008 => l.domain
  | 0x300C => l.laneSel
  | 0x3010 => (s.lane l.laneSel).info
  | 0x3014 => halves (s.lane l.laneSel).uncorr (s.lane l.laneSel).crcFail
  | 0x3018 => l.xSel
  | 0x301C => ((s.crossing l.xSel).map Crossing.info).getD 0
  | 0x3020 => low32 (((s.crossing l.xSel).map (·.serial)).getD 0)
  | 0x3024 => high32 (((s.crossing l.xSel).map (·.serial)).getD 0)
  | 0x3028 => l.resent
  | 0x302C => halves l.downs l.lanesFailed
  | _ => 0

/- PWR and THM (Tables 16-9 to 16-17) -/

/-- STATE of Table 16-9. -/
def IdleState.code : IdleState → Nat
  | .running => 0
  | .deepIdle => 1
  | .waking => 2

def State.pwrReg (s : State) (off : Nat) : Nat :=
  let p := s.power
  match off with
  | 0x4000 => packFields [(8, p.idle.code), (4, s.stepMin), (0, p.cause)]
  | 0x4004 => halves s.capInForce p.capW
  | 0x4008 => halves s.keeper.vinCv p.inputW
  | 0x400C => halves (p.parts.getD 1 0) (p.parts.getD 0 0)
  | 0x4010 => halves (p.parts.getD 3 0) (p.parts.getD 2 0)
  | 0x4014 => halves (p.parts.getD 5 0) (p.parts.getD 4 0)
  | 0x4018 => p.deepIdleS
  | 0x401C => p.throttleMs
  | 0x4020 => p.overCap
  | 0x4040 => bytesReg ((p.temps.take 4).map (min 255))
  | 0x4044 => bytesReg (((p.temps.drop 4).take 4).map (min 255))
  | 0x4048 => bytesReg (p.warn.take 4)
  | 0x404C => bytesReg ((p.warn.drop 4).take 4)
  | 0x4050 => packFields [(16, p.limitW / 10), (8, p.peak), (0, bitSet ((List.range 8).map fun i => decide (p.warn.getD i 0 ≤ p.temps.getD i 0)))]
  | _ => 0

/- LND (Tables 2-8 to 2-17) -/

/-- Some model is in streaming mode (R51, R54). -/
def State.streaming (s : State) : Bool := s.models.any fun m => s.streams_ m.1

def State.lndReg (s : State) (off : Nat) : Nat :=
  let l := s.landing
  let level := fun i => (l.buckets.getD i Bucket.reset).level
  match off with
  | 0x5000 => packFields [(15, b2n s.streaming), (14, b2n l.selfRefresh), (8, l.stacksDown), (0, l.stacksUp)]
  | 0x5004 => s.poolMib
  | 0x5008 => s.grantedMib
  | 0x500C => l.retired.length
  | 0x5010 => packFields [(8, l.leakS), (0, l.capacity)]
  | 0x5014 => bytesReg [level 0, level 1, level 2, level 3]
  | 0x5018 => bytesReg [level 4, level 5]
  | 0x501C => packFields [(8, l.uncorr), (0, bitSet (l.buckets.map (·.overflow)))]
  | 0x5020 => l.corrected
  | 0x5024 => l.uncorrected
  | 0x5028 => packFields [(16, l.shallowS), (8, l.lateLimit), (4, l.leadMax), (0, l.leadMin)]
  | 0x502C => halves l.lateArrivals l.leadCapped
  | 0x5030 => l.reservePct
  | 0x5034 => l.windowLayers
  | _ => 0

/- SVE (Tables 5-7 to 5-17) -/

/-- ROLE of Table 5-16. -/
def DieRole.code : DieRole → Nat
  | .member => 0
  | .rebuilding => 1
  | .spare => 2
  | .unresponsive => 3
  | .failed => 4

/-- OP of Table 5-16. -/
def DieOp.code : DieOp → Nat
  | .idle => 0
  | .read => 1
  | .continuousRead => 2
  | .program => 3
  | .erase => 4
  | .programSuspended => 5
  | .eraseSuspended => 6

/-- SVE_DIE_INFO (Table 5-16). -/
def State.dieInfo (s : State) (n : Nat) : Nat :=
  let d := s.die n
  let serves := decide (d.role ≠ .spare) && decide (d.role ≠ .failed) && !(decide (d.role = .unresponsive) && decide (d.was = .spare))
  packFields [(29, d.role.code), (28, b2n d.erasePrio), (20, if serves then d.row else 0xFF), (16, (s.opOf n).code), (0, d.goodMin)]

/-- The die that SVE_DIE_SEL selects. -/
def State.selectedDie (s : State) : Nat :=
  let v := s.media.dieSel
  (bits v 11 8 * 8 + bits v 7 5) * s.part.diesPerChannel + bits v 4 0

def State.sveReg (s : State) (off : Nat) : Nat :=
  let m := s.media
  match off with
  | 0x6000 => halves (bitSet (m.sieves.map (·.lost))) (bitSet (m.sieves.map Sieve.up))
  | 0x6004 => bitSet (m.sieves.flatMap fun v => [v.lane0, v.lane1])
  | 0x6008 => packFields [(16, m.wbHighPct), (8, m.retryMax), (0, m.corrHigh)]
  | 0x600C => m.readsAround
  | 0x6010 => m.progSuspends
  | 0x6014 => m.eraseSuspends
  | 0x6018 => halves m.retried m.soft
  | 0x601C => halves m.rebuildFailed m.uncorrectable
  | 0x6020 => packFields ((List.range 8).map fun i => (4 * i, s.sieveSpares i))
  | 0x6024 => packFields ((List.range 8).map fun i => (4 * i, s.sieveSpares (8 + i)))
  | 0x6028 => (m.dies.filter fun d => d.2.erasePrio).length
  | 0x602C => m.dieSel
  | 0x6030 => s.dieInfo s.selectedDie
  | 0x6034 => halves m.chkMismatch m.chkRepaired
  | _ => 0

/- PLT (Tables 10-9 to 10-19) -/

/-- PLT_INFO (Table 10-11). -/
def State.pltInfo (s : State) (p : Nat) : Nat :=
  let q := s.plot p
  let awake := decide (q.role = .active) && !q.parked && decide (s.keeper.stage = 5) && decide (s.power.idle = .running)
  packFields [(29, q.role.code), (27, s.clockOf p), (26, b2n awake), (23, (q.residents.filter fun r => decide (r.ctx ≠ 65535)).length), (16, s.searchesOn p), (0, q.logical.getD 0x1FF)]

def State.pltReg (s : State) (off : Nat) : Nat :=
  let x := s.plots
  let q := s.plot x.sel
  if 0x7044 ≤ off ∧ off ≤ 0x7064 then
    bitSet ((List.range 32).map fun i => decide (8 * (off - 0x7044) + i < 272) && (s.plot (8 * (off - 0x7044) + i)).bucket.overflow)
  else match off with
  | 0x7000 => packFields [(16, (s.plotsIn .retired).length), (15, b2n x.sounding), (0, s.awakePlots)]
  | 0x7004 => x.sel
  | 0x7008 => s.pltInfo x.sel
  | 0x700C => packFields [(24, q.cause), (8, b2n q.bucket.armed), (0, q.bucket.level)]
  | 0x7010 => x.sramCorr
  | 0x7014 => x.sramUncorr
  | 0x7018 => b2n x.extended
  | 0x701C => halves x.soundMs x.soundFailed
  | 0x7020 => halves x.chainResend x.chkMismatch
  | 0x7024 => s.searches.length
  | 0x7040 => x.stalls
  | _ => 0

/- SEC (Tables 17-10 to 17-16) -/

/-- A slot that holds a valid image (R504). -/
def FwSlot.isValid (f : FwSlot) : Bool := decide (f.state = .valid) || decide (f.state = .trialPending)

/-- SEC_FW_SLOT (Table 17-12). -/
def FwSlot.reg (f : FwSlot) : Nat := f.version / 16 * 16 + 4 * (f.flags % 2) + f.state.code

/-- Hold-off remaining, in seconds, rounded up (R511). -/
def State.holdoffS (s : State) : Nat := ceilDiv (s.sec.holdoffEnd - s.now) countsS

def State.secReg (s : State) (off : Nat) : Nat :=
  let x := s.sec
  if 0x8018 ≤ off ∧ off ≤ 0x8034 then fieldAt x.measure (off - 0x8018) 4
  else match off with
  | 0x8000 => packFields [(10, b2n x.slot1.isValid), (9, b2n x.slot0.isValid), (8, x.booted), (6, b2n s.keeper.tamper.asserted), (5, b2n x.trial),
      (4, b2n x.recovery), (3, b2n x.unlocked), (0, x.life.code)]
  | 0x8004 => halves x.tampers x.tamperBits
  | 0x8008 => x.slot0.reg
  | 0x800C => x.slot1.reg
  | 0x8010 => packFields [(24, x.rollback), (16, x.revoked), (8, x.slot1.svn), (0, x.slot0.svn)]
  | 0x8014 => halves s.holdoffS (min 255 x.fails)
  | 0x8038 => x.transitions
  | 0x803C => halves x.wipes x.vaultFaults
  | _ => 0

/- ACC (Tables 16-18 to 16-21) -/

def State.accReg (s : State) (off : Nat) : Nat :=
  let a := s.acct
  match off with
  | 0x9000 => packFields [(2, b2n a.calibrating), (1, b2n a.calFault), (0, b2n a.drift)]
  | 0x9008 => min 0xFFFF a.disagree
  | 0x900C => low32 a.nextSeq
  | 0x9010 => high32 a.nextSeq
  | 0x9014 => low32 a.oldest
  | 0x9018 => high32 a.oldest
  | 0x901C => a.intervalS
  | 0x9020 => halves a.calFaults a.drifts
  | _ => 0

/-- What a register reads as now; an unassigned offset reads 0 (R6, Table 0-5). -/
def State.reg (s : State) (off : Nat) : Nat :=
  match off / 0x1000 with
  | 0 => s.idnReg off
  | 1 => s.kprReg off
  | 2 => s.prtReg off
  | 3 => s.lnkReg off
  | 4 => s.pwrReg off
  | 5 => s.lndReg off
  | 6 => s.sveReg off
  | 7 => s.pltReg off
  | 8 => s.secReg off
  | 9 => s.accReg off
  | _ => 0

/- Reading -/

/-- The fields that a read clears (access RC). -/
def clearRead (off : Nat) (s : State) : State :=
  match off with
  | 0x100C => modKeeper (fun k => { k with
      modReset := { k.modReset with count := 0 }, pwrFail := { k.pwrFail with count := 0 }, throttle := { k.throttle with count := 0 }
      tamper := { k.tamper with count := 0 } }) s
  | 0x1010 => modKeeper (fun k => { k with vinMin := 0xFFFF, losses := 0 }) s
  | 0x200C => { s with ports := s.ports.map fun p => { p with hdrErr := 0 } }
  | 0x2010 => { s with ports := s.ports.map fun p => { p with payErr := 0 } }
  | 0x2014 => { s with ports := s.ports.map fun p => { p with fecUncorr := 0 } }
  | 0x2018 => { s with ports := s.ports.map fun p => { p with losses := 0 } }
  | 0x201C => { s with ports := s.ports.map fun p => { p with dupPkts := 0 } }
  | 0x2020 => modPort 0 (fun p => { p with fecCorr := 0 }) s
  | 0x2024 => modPort 1 (fun p => { p with fecCorr := 0 }) s
  | 0x2028 => { s with sessions := s.sessions.map fun x => { x with seqGaps := 0 } }
  | 0x3014 => modLane s.links.laneSel (fun q => { q with uncorr := 0, crcFail := 0 }) s
  | 0x3028 => modLinks (fun l => { l with resent := 0 }) s
  | 0x302C => modLinks (fun l => { l with downs := 0, lanesFailed := 0 }) s
  | 0x401C => modPower (fun p => { p with throttleMs := 0 }) s
  | 0x4020 => modPower (fun p => { p with overCap := 0 }) s
  | 0x4050 => modPower (fun p => { p with peak := 0 }) s
  | 0x5020 => modLanding (fun l => { l with corrected := 0 }) s
  | 0x5024 => modLanding (fun l => { l with uncorrected := 0 }) s
  | 0x502C => modLanding (fun l => { l with lateArrivals := 0, leadCapped := 0 }) s
  | 0x600C => modMedia (fun m => { m with readsAround := 0 }) s
  | 0x6010 => modMedia (fun m => { m with progSuspends := 0 }) s
  | 0x6014 => modMedia (fun m => { m with eraseSuspends := 0 }) s
  | 0x6018 => modMedia (fun m => { m with retried := 0, soft := 0 }) s
  | 0x601C => modMedia (fun m => { m with rebuildFailed := 0, uncorrectable := 0 }) s
  | 0x6034 => modMedia (fun m => { m with chkMismatch := 0, chkRepaired := 0 }) s
  | 0x7010 => modPlots (fun x => { x with sramCorr := 0 }) s
  | 0x7014 => modPlots (fun x => { x with sramUncorr := 0 }) s
  | 0x7020 => modPlots (fun x => { x with chainResend := 0, chkMismatch := 0 }) s
  | 0x7040 => modPlots (fun x => { x with stalls := 0 }) s
  | 0x803C => modSec (fun x => { x with wipes := 0, vaultFaults := 0 }) s
  | 0x9020 => modAcct (fun a => { a with calFaults := 0, drifts := 0 }) s
  | _ => s

/-- The _LO registers of R10, each with its _HI: serial numbers, keeper count, spare dies, and the accounting sequence numbers. -/
def loHi : List (Nat × Nat) :=
  [(0x0008, 0x000C), (0x1020, 0x1024), (0x3020, 0x3024), (0x6020, 0x6024), (0x900C, 0x9010), (0x9014, 0x9018)]

/-- A read of a _LO latches the matching _HI for its requester, until its next read of the same _LO (R10). -/
def latchHi (who off : Nat) (s : State) : State :=
  match loHi.find? fun p => decide (p.1 = off) with
  | none => s
  | some p => modKeeper (fun k => { k with
      hiLatch := (who, off, s.reg p.2) :: k.hiLatch.filter fun h => !(decide (h.1 = who) && decide (h.2.1 = off)) }) s

/-- What a requester reads: a _HI whose _LO it has read reads as it was latched (R10). -/
def State.regFor (s : State) (who off : Nat) : Nat :=
  match loHi.find? fun p => decide (p.2 = off) with
  | none => s.reg off
  | some p => ((s.keeper.hiLatch.find? fun h => decide (h.1 = who) && decide (h.2.1 = p.1)).map (·.2.2)).getD (s.reg off)

/-- One access that reads a register: its value, and what the read changes (R9, R10). -/
def readReg (who off : Nat) (s : State) : Nat × State := (s.regFor who off, latchHi who off (clearRead off s))

/-- Consecutive registers, one access each (R104). -/
def readRegs (who off : Nat) : Nat → State → List Byte × State
  | 0, s => ([], s)
  | n + 1, s =>
    let r := readReg who off s
    let t := readRegs who (off + 4) n r.2
    (leBytes 4 r.1 ++ t.1, t.2)

/-- REG_READ (R5, R104, Table 3-14). The requester is the port the command came in on. -/
def regReadCmd (c : Cmd) (s : State) : State :=
  let p := c.payload
  let off := fieldAt p 0 4
  let n := fieldAt p 4 4
  if p.length ≠ 8 ∨ off % 4 ≠ 0 ∨ n < 1 ∨ 64 < n ∨ 0x10000 < off + 4 * n then fail c stInvalid s
  else
    let r := readRegs c.port off n s
    reply c stOk r.1 r.2

def execRegRead (k : CmdKey) (s : State) : Out := .next (withCmd 0x05 k regReadCmd s)

/-- LO_READ_LATCH: the access of a _LO register alone. -/
def execLoReadLatch (requester offset : Nat) (s : State) : Out := .next (latchHi requester offset s)

/- Writing -/

/-- What a write answers: a status, the state, and acts that wait for the reply's departure. -/
abbrev Written := Nat × State × List Act

/-- A write that a range refuses, and one that is taken (R71). -/
def inRange (ok : Bool) (f : State → State) (s : State) : Written := if ok then (stOk, f s, []) else (stInvalid, s, [])

/-- A value is between two bounds. -/
def inside (v lo hi : Nat) : Bool := decide (lo ≤ v) && decide (v ≤ hi)

/-- Bits of a value cleared by the ones written. -/
def clearBits (old v : Nat) : Nat := old - Nat.land old v

/-- PRT_PORT_CFG (R117). -/
def writePortCfg (port v : Nat) (s : State) : Written :=
  if v % 4 = 0 then (stInvalid, s, [])
  else if bit v port ∨ !(s.port port).enabled then (stOk, setEnable (v % 4) s, [])
  else (stOk, setEnable (Nat.lor (v % 4) (2 ^ port)) s, [.disablePort (v % 4)])

/-- PRT_ALERT (R106). -/
def writeAlert (_ v : Nat) (s : State) : Written := (stOk, if bit v 0 then { s with alert := false } else s, [])

/-- LND_BUCKET_CFG (R66). -/
def writeBucketCfg (_ v : Nat) (s : State) : Written :=
  let cap := bits v 7 0
  let leak := bits v 23 8
  inRange (inside cap 1 255 && inside leak 1 3600) (fun s =>
    let low := fun (b : Bucket) => { b with level := min b.level cap }
    mapPlots (fun p => { p with bucket := low p.bucket })
      (modLanding (fun l => { l with capacity := cap, leakS := leak, lastLeak := s.now, buckets := l.buckets.map low }) s)) s

/-- LND_FERRY_CFG: each schedule takes the new limits at its next layer boundary (R72). -/
def writeFerryCfg (_ v : Nat) (s : State) : Written :=
  let sh := bits v 23 16
  let lim := bits v 15 8
  let hi := bits v 7 4
  let lo := bits v 3 0
  inRange (inside sh 10 255 && inside lim 1 16 && inside hi lo 3 && inside lo 1 hi) (modLanding fun l => { l with
    shallowS := sh, lateLimit := lim, leadMax := hi, leadMin := lo }) s

/-- LND_RESERVE_CFG and LND_STREAM_CFG (R72). -/
def writeReserveCfg (_ v : Nat) (s : State) : Written :=
  inRange (inside (bits v 7 0) 40 70) (modLanding fun l => { l with reservePct := bits v 7 0 }) s
def writeStreamCfg (_ v : Nat) (s : State) : Written :=
  inRange (inside (bits v 7 0) 4 32) (modLanding fun l => { l with windowLayers := bits v 7 0 }) s

/-- LND_ERR_STATUS (R65). -/
def writeErrStatus (_ v : Nat) (s : State) : Written :=
  (stOk, modLanding (fun l => { l with
    uncorr := clearBits l.uncorr (bits v 13 8)
    buckets := l.buckets.zipIdx.map fun b => if bit v b.2 then { b.1 with overflow := false } else b.1 }) s, [])

/-- SVE_CFG (R184). -/
def writeSveCfg (_ v : Nat) (s : State) : Written :=
  inRange (inside (bits v 23 16) 50 95 && inside (bits v 11 8) 1 7 && inside (bits v 7 0) 16 255) (modMedia fun m => { m with
    wbHighPct := bits v 23 16, retryMax := bits v 11 8, corrHigh := bits v 7 0 }) s

/-- SVE_DIE_SEL (R183). -/
def writeDieSel (_ v : Nat) (s : State) : Written :=
  inRange (decide (bits v 4 0 < s.part.diesPerChannel)) (modMedia fun m => { m with dieSel := bits v 11 0 }) s

/-- PLT_SEL (R341). -/
def writePltSel (_ v : Nat) (s : State) : Written :=
  inRange (decide (bits v 8 0 < 272)) (modPlots fun x => { x with sel := bits v 8 0 }) s

/-- PLT_OVERFLOW_k (R342). -/
def writePltOverflow (off v : Nat) (s : State) : Written :=
  let base := 8 * (off - 0x7044)
  (stOk, modPlots (fun x => { x with list := x.list.map fun p =>
    if base ≤ p.1 ∧ p.1 < base + 32 ∧ bit v (p.1 - base) then (p.1, { p.2 with bucket := { p.2.bucket with overflow := false } }) else p }) s, [])

/-- LNK_LANE_SEL and LNK_XSEL (R473). -/
def writeLnkSel (off v : Nat) (s : State) : Written :=
  let n := bits v 5 0
  if off = 0x300C then inRange (decide (n < 52)) (modLinks fun l => { l with laneSel := n }) s
  else inRange (decide (n < 48)) (modLinks fun l => { l with xSel := n }) s

/-- PWR_CAP (R474). -/
def writePwrCap (_ v : Nat) (s : State) : Written :=
  inRange (inside (bits v 15 0) 400 1250) (fun s => settlePower s (writeRoot (modPower (fun p => { p with capW := bits v 15 0 }) s))) s

/-- ACC_CTRL (R490). -/
def writeAccCtrl (_ v : Nat) (s : State) : Written := (stOk, if bit v 0 then startRecal s else s, [])

/-- SEC_TAMPER (R516). -/
def writeTamper (_ v : Nat) (s : State) : Written :=
  if v % 8 = 0 then (stOk, s, [])
  else if s.keeper.tamper.asserted then (stLifecycle, s, [])
  else (stOk, modSec (fun x => { x with tamperBits := clearBits x.tamperBits (v % 8) }) s, [])

/-- The warning temperatures' ranges, by group (Table 16-5). -/
def warnRange : List (Nat × Nat) := [(70, 100), (60, 90), (50, 75), (50, 75), (50, 75), (50, 75), (80, 105), (30, 50)]

/-- THM_WARN_A and THM_WARN_B. -/
def writeThmWarn (off v : Nat) (s : State) : Written :=
  let base := if off = 0x4048 then 0 else 4
  let new := [bits v 7 0, bits v 15 8, bits v 23 16, bits v 31 24]
  let ok := (new.zipIdx).all fun w => let r := warnRange.getD (base + w.2) (0, 0); inside w.1 r.1 r.2
  inRange ok (modPower fun p => { p with warn := if base = 0 then new ++ p.warn.drop 4 else p.warn.take 4 ++ new }) s

/-- The KPR registers that have writable fields (Tables 18-15, 18-20, 18-21). -/
def writeKpr (off v : Nat) (s : State) : Written :=
  match off with
  | 0x1004 => (stOk, modKeeper (fun k => { k with tripped := k.tripped && !bit v 8 }) s, [])
  | 0x1018 => (stOk, modKeeper (fun k => { k with pecRequired := bit v 1, fastPlus := bit v 0 }) s, [])
  | 0x101C => (stOk, modKeeper (fun k => { k with led := v % 4 }) s, [])
  | _ => if off ≤ 0x1024 then (stInvalid, s, []) else (stOk, s, [])

/-- The offsets of the blocks that are assigned (Table 0-5 and each block's own words). -/
def assigned (off : Nat) : Bool :=
  [(0x0000, 0x0024), (0x1000, 0x1024), (0x2000, 0x2034), (0x3000, 0x302C), (0x4000, 0x4020), (0x4040, 0x4050), (0x5000, 0x5034),
    (0x6000, 0x6034), (0x7000, 0x7024), (0x7040, 0x7064), (0x8000, 0x803C), (0x9000, 0x9020)].any fun b => inside off b.1 b.2

/-- The registers that have rows of their own in the command table. -/
def ownRow (off : Nat) : Bool :=
  [0x2008, 0x2004, 0x5010, 0x5028, 0x5030, 0x5034, 0x501C, 0x6008, 0x602C, 0x7004, 0x300C, 0x3018, 0x4004, 0x9004, 0x8004].contains off ||
    inside off 0x7044 0x7064

/-- A write to any other register: to one without a writable field INVALID_FIELD, to an unassigned offset nothing (R6, R8, R71). -/
def writeOther (off v : Nat) (s : State) : Written :=
  if off / 0x1000 = 1 then writeKpr off v s
  else match off with
  | 0x3004 => inRange (inside (bits v 15 8) 1 255 && inside (bits v 7 0) 4 64) (modLinks fun l => { l with
      laneErrLimit := bits v 15 8, retryLimit := bits v 7 0 }) s
  | 0x4018 => inRange (decide (bits v 15 0 ≤ 3600)) (modPower fun p => { p with deepIdleS := bits v 15 0 }) s
  | 0x4048 => writeThmWarn off v s
  | 0x404C => writeThmWarn off v s
  | 0x7018 => (stOk, writeRoot (modPlots (fun x => { x with extended := bit v 0 }) s), [])
  | _ => if assigned off then (stInvalid, s, []) else (stOk, s, [])

/-- A REG_WRITE whose offset is one of those given; a payload or an offset out of order, and every other offset, is REG_WRITE's own. -/
def writeRow (offs : Nat → Bool) (f : Cmd → Nat → Nat → State → Written) (c : Cmd) (s : State) : State :=
  let p := c.payload
  let off := fieldAt p 0 4
  if decide (p.length = 8) && offs off then
    let w := f c off (fieldAt p 4 4) s
    complete c w.1 false [] 0 w.2.2 w.2.1
  else s

/-- REG_WRITE of a register that has no behaviour of its own (R5, R6, R8, R71). -/
def regWriteCmd (c : Cmd) (s : State) : State :=
  let p := c.payload
  let off := fieldAt p 0 4
  if p.length ≠ 8 ∨ off % 4 ≠ 0 ∨ 0x10000 ≤ off then fail c stInvalid s
  else writeRow (fun o => !ownRow o) (fun _ => writeOther) c s

def execRegWrite (k : CmdKey) (s : State) : Out := .next (withCmd 0x06 k regWriteCmd s)

/-- The row of one register, or of a few. -/
def regRow (k : CmdKey) (offs : List Nat) (f : Nat → Nat → State → Written) (s : State) : Out :=
  .next (withCmd 0x06 k (writeRow offs.contains fun _ => f) s)

def execPrtPortCfgWrite (k : CmdKey) (s : State) : Out :=
  .next (withCmd 0x06 k (writeRow (fun o => decide (o = 0x2008)) fun c _ v => writePortCfg c.port v) s)
def execPrtAlertClear (k : CmdKey) (s : State) : Out := regRow k [0x2004] writeAlert s
def execLndBucketCfgWrite (k : CmdKey) (s : State) : Out := regRow k [0x5010] writeBucketCfg s
def execLndFerryCfgWrite (k : CmdKey) (s : State) : Out := regRow k [0x5028] writeFerryCfg s
def execLndReserveCfgWrite (k : CmdKey) (s : State) : Out := regRow k [0x5030] writeReserveCfg s
def execLndStreamCfgWrite (k : CmdKey) (s : State) : Out := regRow k [0x5034] writeStreamCfg s
def execLndErrStatusClear (k : CmdKey) (s : State) : Out := regRow k [0x501C] writeErrStatus s
def execSveCfgWrite (k : CmdKey) (s : State) : Out := regRow k [0x6008] writeSveCfg s
def execSveDieSelWrite (k : CmdKey) (s : State) : Out := regRow k [0x602C] writeDieSel s
def execPltSelWrite (k : CmdKey) (s : State) : Out := regRow k [0x7004] writePltSel s
def execPltOverflowClear (k : CmdKey) (s : State) : Out :=
  .next (withCmd 0x06 k (writeRow (fun o => inside o 0x7044 0x7064 && decide (o % 4 = 0)) fun _ => writePltOverflow) s)
def execLnkSelWrite (k : CmdKey) (s : State) : Out := regRow k [0x300C, 0x3018] writeLnkSel s
def execPwrCapWrite (k : CmdKey) (s : State) : Out := regRow k [0x4004] writePwrCap s
def execAccCtrlRecal (k : CmdKey) (s : State) : Out := regRow k [0x9004] writeAccCtrl s
def execSecTamperClear (k : CmdKey) (s : State) : Out := regRow k [0x8004] writeTamper s

/- The management port (R536 to R538) -/

/-- A transaction that PEC_REQUIRED lets through: its PEC is there and right, or none is required (R537). -/
def State.pecOk (s : State) (pec : Option Bool) : Bool := !s.keeper.pecRequired || decide (pec = some true)

/-- The bytes that the module answers with on the management port. -/
def answerSmb (bytes : List Byte) (s : State) : State := { s with wire := .smbus bytes :: s.wire }

/-- The status of a SET_OFFSET, a READ or a WRITE is kept. -/
def setSmb (st : Nat) (s : State) : State := modKeeper (fun k => { k with smbStatus := st }) s

/-- A transaction with the port's own conditions: the keeper runs, and the PEC passes. -/
def smbus (pec : Option Bool) (f : State → State) (s : State) : State :=
  if !s.keeper.powered then s else if s.pecOk pec then f s else setSmb 4 s

/-- An offset that status 0x01 describes. -/
def badOffset (off : Nat) : Bool := decide (off % 4 ≠ 0) || decide (0x10000 ≤ off)

/-- SET_OFFSET. -/
def execSmbSetOffset (offset : Nat) (pec : Option Bool) (s : State) : Out :=
  .next (smbus pec (fun s => if badOffset offset then setSmb 1 s else modKeeper (fun k => { k with smbPointer := offset, smbStatus := 0 }) s) s)

/-- READ: the count, the status and the register. -/
def smbReadAt (s : State) : State :=
  let off := s.keeper.smbPointer
  let answer := fun st v => answerSmb (leBytes 1 5 ++ leBytes 1 st ++ leBytes 4 v)
  if badOffset off then answer 1 0 (setSmb 1 s)
  else if 2 ≤ off / 0x1000 ∧ assigned off ∧ !s.serving then answer 5 0 s
  else
    let r := readReg 2 off s
    answer 0 r.1 (modKeeper (fun k => { k with smbPointer := off + 4 }) r.2)

def execSmbRead (pec : Option Bool) (s : State) : Out := .next (smbus pec smbReadAt s)

/-- WRITE: the KPR block only. -/
def smbWriteAt (v : Nat) (s : State) : State :=
  let off := s.keeper.smbPointer
  if badOffset off then setSmb 1 s
  else if off / 0x1000 ≠ 1 then setSmb 2 s
  else
    let w := writeKpr off v s
    setSmb (if w.1 = stOk then 0 else 2) w.2.1

def execSmbWrite (value : Nat) (pec : Option Bool) (s : State) : Out := .next (smbus pec (smbWriteAt value) s)

/-- LAST_STATUS. -/
def execSmbLastStatus (pec : Option Bool) (s : State) : Out :=
  .next (smbus pec (fun s => answerSmb (leBytes 1 s.keeper.smbStatus) s) s)

/-- The Alert Response Address is answered with the module's own address while ALERT_N is asserted; the line stays asserted (R538). -/
def execSmbAlertResponse (s : State) : Out :=
  .next (if s.keeper.powered ∧ s.alert then answerSmb (leBytes 1 (2 * (0x58 + s.slotAddr))) s else s)

/- LEDs (R540) -/

/-- What the STATUS LED shows (Table 18-12). -/
inductive StatusLed where
  | off
  | amber
  | green
  /-- Green, blinking at 1 Hz. -/
  | greenBlink
  /-- Amber, blinking at 2 Hz. -/
  | amberBlink
  /-- Amber and green alternating. -/
  | alternating
  deriving DecidableEq, Repr

/-- The state that the STATUS LED shows, by the stage of the start and the power state. -/
def State.statusLed (s : State) : StatusLed :=
  if !s.keeper.powered then .off
  else match s.keeper.stage with
    | 5 => if s.power.idle = .deepIdle then .greenBlink else .green
    | 6 | 10 => .alternating
    | 8 | 9 => .amberBlink
    | _ => .amber

/-- KPR_LED.TEST lights all three. -/
def State.ledTest (s : State) : Bool := s.keeper.powered && bit s.keeper.led 0

/-- The STATUS, ACTIVITY and LOCATE LEDs are lit: ACTIVITY while flash operations are in progress, LOCATE with KPR_LED.LOCATE. -/
def State.statusLit (s : State) : Bool := s.ledTest || decide (s.statusLed ≠ .off)
def State.activityLit (s : State) : Bool := s.ledTest || s.media.dies.any fun d => decide (d.2.op ≠ .idle)
def State.locateLit (s : State) : Bool := s.ledTest || (s.keeper.powered && bit s.keeper.led 1)

end Sys2Proof.Machine
end

