-- ==== Sys2Proof/Machine/Logs.lean ====
section
/-!
DEFINITION. Machine/Logs.lean: IDENTIFY (R2, Table 3-16) and the pages of GET_LOG (R103, Tables 3-8, 3-19, 6-13, 6-14, 2-6, 16-7).
-/

namespace Sys2Proof.Machine

open Sys2Proof

/- IDENTIFY -/

/-- The rate in force of a filtered scan, in MB/s: with every sieve in service, while a lost sieve's data is read around, and once
re-striping has ended (R277). -/
def State.scanMbps (s : State) : Nat :=
  if s.lostSieves = [] then 420000 else if s.media.restriping = [] then 400000 else 360000

/-- A peak or a reference rate, scaled by the active plots (R2). -/
def State.scaled (s : State) (v : Nat) : Nat := v * s.idnActive / 256

/-- The IDENTIFY reply (Table 3-16). -/
def State.identity (s : State) : List Byte :=
  ((List.range 10).flatMap fun i => leBytes 4 (s.idnReg (4 * i))) ++
    leBytes 8 (65536 * s.media.exported) ++ leBytes 2 s.media.volumes.length ++ leBytes 2 s.contexts.length ++ leBytes 4 s.poolMib ++
    ([2940000, 5870000, 730000, 14000, 250000, 70000].flatMap fun v => leBytes 4 (s.scaled v)) ++
    leBytes 4 s.scanMbps ++ leBytes 4 s.capInForce ++ leBytes 1 s.sec.life.code ++ leBytes 1 s.portsUp ++ zeros 38

def identify (c : Cmd) (s : State) : State := if c.payload ≠ [] then fail c stInvalid s else reply c stOk s.identity s

def execIdentify (k : CmdKey) (s : State) : Out := .next (withCmd 0x02 k identify s)

/- The log pages -/

/-- Dies that have failed. -/
def State.diesFailed (s : State) : Nat := (s.media.dies.filter fun d => decide (d.2.role = .failed)).length

/-- Mean QLC erase count ÷ 1,500, in 0.01% (Table 6-14). -/
def State.wearUsed (s : State) : Nat :=
  min 0xFFFF ((s.media.bands.map fun b => b.2.wear).sum * 10000 / (1500 * s.bandCount))

/-- The health log's one entry (Table 6-14). -/
def State.healthEntry (s : State) : List Byte :=
  let h := s.media.health
  let crit := bitSet [decide (s.margin < s.part.spareFloor), !s.lostSieves.isEmpty, s.writeProtected, decide (10000 ≤ s.wearUsed)]
  leBytes 8 s.now ++ leBytes 4 h.hours ++ leBytes 4 h.unclean ++ leBytes 2 (min 0xFFFF (s.margin * 10000 / s.media.shippedMargin)) ++
    leBytes 2 s.wearUsed ++ leBytes 2 ((s.media.bands.map fun b => b.2.erases).foldl max 0) ++ zeros 1 ++ leBytes 1 crit ++
    leBytes 8 (65536 * s.media.exported) ++ leBytes 8 h.hostWritten ++ leBytes 8 h.mediaWritten ++ leBytes 8 h.hostRead ++
    leBytes 4 s.media.grownBad.length ++ leBytes 4 h.factoryBad ++ leBytes 2 s.diesFailed ++
    leBytes 1 ((List.range 16).map s.sieveSpares).sum ++ leBytes 1 s.lostSieves.length ++ (h.errors.flatMap (leBytes 4)) ++
    leBytes 4 s.margin ++ leBytes 4 s.freePool ++ leBytes 2 (s.media.tilled.length * 10000 / max 1 s.tillPlaces.length) ++
    leBytes 2 s.media.tillDays ++ leBytes 4 h.tillPasses ++ zeros 112 ++ (h.temp.flatten.flatMap (leBytes 4)) ++ zeros 32

/-- A deferred-error entry (Table 3-8). -/
def Deferred.bytes (d : Deferred) : List Byte :=
  leBytes 2 d.vol ++ leBytes 2 d.ctx ++ leBytes 8 d.firstLba ++ leBytes 4 d.blocks ++ leBytes 1 d.cause ++ zeros 7 ++ leBytes 8 d.found

/-- A memory error log entry (Table 2-6). -/
def MemErr.bytes (e : MemErr) : List Byte :=
  let w := match e.line with
    | .landing st p b g l => (st, p, b, g, 0xFFFF, l)
    | .sram p l => (0xFF, 0, 0, 0, p, l)
  leBytes 1 e.kind ++ leBytes 1 w.1 ++ leBytes 1 w.2.1 ++ leBytes 1 w.2.2.1 ++ leBytes 1 w.2.2.2.1 ++ leBytes 1 e.source ++
    leBytes 2 w.2.2.2.2.1 ++ leBytes 4 w.2.2.2.2.2 ++ leBytes 4 e.count ++ leBytes 8 e.first ++ leBytes 8 e.last

/-- The entries of a page that a session reads, each with the identity of its deferred error, and an entry's size (R103). -/
def State.logPage (s : State) (page session : Nat) (only : Option Nat) : List (List Byte × Nat) × Nat :=
  let plain := fun (l : List (List Byte)) => l.map fun b => (b, 0)
  let keep := fun (ctx : Nat) => (only.map fun n => decide (ctx = n)).getD true
  match page with
  | 1 => (plain [s.healthEntry], 1024)
  | 2 => (plain ((s.events.filter fun e => keep e.ctx).map (·.bytes)), 32)
  | 3 => (((s.deferredOf session).filter fun d => keep d.ctx).map fun d => (d.bytes, d.id), 32)
  | 4 => (plain (s.landing.memLog.map (·.bytes)), 32)
  | 5 => (plain ((s.acct.records.filter fun r => keep r.ctx).map (·.bytes)), 160)
  | _ => (plain (s.media.grownBad.map (·.bytes)), 16)

/-- The payload of GET_LOG is in order (R103). -/
def logOk (s : State) (session : Nat) (p : List Byte) : Bool :=
  let page := fieldAt p 0 1
  let opt := fieldAt p 1 1
  decide (p.length = 16) && decide (1 ≤ page) && decide (page ≤ 6) && decide (opt < 4) && decide (fieldAt p 12 4 = 0) &&
    (!bit opt 0 || decide (page = 3)) &&
    (!bit opt 1 || ([2, 3, 5].contains page && (match kvGet (fieldAt p 2 2) s.contexts with
      | none => false
      | some x => decide (x.session = session))))

/-- GET_LOG (R103): the entries from the first one asked for, at most as many as asked for, 16 MiB at most. "Entries on the page" counts
those that the session may read and that FILTER passes (DESIGN CHOICE, log entry 144). -/
def getLog (c : Cmd) (s : State) : State :=
  let p := c.payload
  if !logOk s c.key.session p then fail c stInvalid s
  else
    let opt := fieldAt p 1 1
    let l := s.logPage (fieldAt p 0 1) c.key.session (if bit opt 1 then some (fieldAt p 2 2) else none)
    let most := fieldAt p 8 4
    let got := (l.1.drop (fieldAt p 4 4)).take (min most ((16777216 - 16) / l.2))
    let body := leBytes 4 l.1.length ++ leBytes 4 got.length ++ leBytes 8 s.now ++ got.flatMap (·.1)
    let short := decide (got.length < most)
    complete c (if short then stOkShort else stOk) short body 0
      (if bit opt 0 then [.releaseDeferred (got.map (·.2))] else []) s

def execGetLog (k : CmdKey) (s : State) : Out := .next (withCmd 0x03 k getLog s)

end Sys2Proof.Machine
end

