-- ==== Sys2Proof/Machine/Settling.lean ====
section
/-!
DEFINITION. Machine/Settling.lean: inserts, deletes and settling passes, and the end of an index (R302 to R310): the meanings of INSERT, DELETE,
SETTLE, INDEX_DROP, INSERT_HOLD_RELEASE, SETTLING_PASS_START and SETTLING_PUBLISH.
-/

namespace Sys2Proof.Machine

open Sys2Proof

/- INSERT and DELETE (R302 to R304) -/

/-- Bytes of one INSERT entry (Table 9-11). -/
def Index.insertBytes (x : Index) : Nat := x.vecBytes + 16 + 8 * x.numeric

/-- The entries of an INSERT. -/
def Index.entries (x : Index) (p : List Byte) (n : Nat) : List (List FVal × Nat × Nat × List Nat) :=
  (List.range n).map fun i =>
    let e := slice p (16 + i * x.insertBytes) x.insertBytes
    (readVector x.vecType x.dim e, fieldAt e x.vecBytes 8, fieldAt e (x.vecBytes + 8 + 8 * x.numeric) 8,
      (List.range x.numeric).map fun j => fieldAt e (x.vecBytes + 8 + 8 * j) 8)

/-- The slots that an INSERT may take, lowest first: never used, or removed with every search received before the publish
replied (R302, R307). -/
def State.freeSlots (s : State) (i : Nat) (x : Index) (n : Nat) : List Nat :=
  let usable := fun (j : Nat) => match kvGet j x.nodes with
    | none => true
    | some d => d.removed && !(x.quarantine.any fun q => decide (q.1 = j) && s.indexBusy i q.2)
  ((List.range (min x.capacity (x.nodes.length + n))).filter usable).take n

/-- The entries become live together, in the silt list; their units and the silt directory are written, and the reply waits until all of it is durable
(R302). -/
def placeEntries (c : Cmd) (i : Nat) (x : Index) (slots : List Nat) (s : State) : State :=
  let es := x.entries c.payload slots.length
  let y := { x with
    nodes := (slots.zip es).foldl (fun t e => kvSet e.1 (x.node e.2.1 e.2.2.1 e.2.2.2.1 e.2.2.2.2 true) t) x.nodes
    quarantine := x.quarantine.filter fun q => !slots.contains q.1
    siltList := x.siltList ++ slots }
  let us := y.unitsOf slots ++ [y.siltAt]
  let first := s.media.nextSlot
  let s := writeIndex c.key i y us false { s with indexes := kvSet i y s.indexes }
  settleMedia (modCmd c.key (fun c => { c with phase := .waiting (.durable ((List.range us.length).map (first + ·))), ids := slots }) s)

/-- Slots of INSERTs that have not been committed yet (R302). -/
def State.uncommitted (s : State) (i : Nat) : List Nat :=
  s.cmds.flatMap fun c => match c.phase with
    | .waiting (.durable _) => if c.opcode = 0x42 ∧ c.objects.contains (.index i) then c.ids else []
    | _ => []

/-- A pass starts: it takes the tombstones and silt entries present now (R306). -/
def startPass (i : Nat) (s : State) : State :=
  modIndex i (fun x =>
    let open_ := s.uncommitted i
    let linked := x.siltList.filter fun j => !open_.contains j && match kvGet j x.nodes with
      | none => false
      | some d => d.alive
    let tombs := (x.nodes.filter fun d => d.2.tomb && !d.2.removed).map (·.1)
    { x with pass := some ⟨linked, tombs, s.nextOrder, none⟩ }) s

/-- A pass that has started takes a plot on which nothing runs, where there is one (R135). -/
def seatPass (s : State) : State :=
  match s.workPlots.find? fun p => (s.plot p).running.isNone with
  | none => s
  | some p => settleIdle p s

/-- INSERT (R302, R303). One that would take the silt list past SILT_MAX is held, and a pass starts at once. -/
def insertVectors (c : Cmd) (_ : Ctx) (s : State) : State :=
  let p := c.payload
  let i := fieldAt p 0 1
  let n := fieldAt p 4 4
  match s.ownedIndex c with
  | none => fail c stInvalid s
  | some x =>
    let ok := decide (x.state = .ready) && decide (fieldAt p 1 3 = 0) && decide (fieldAt p 8 8 = 0) &&
      decide (p.length = 16 + n * x.insertBytes) && ((x.entries p n).all fun e => x.vectorOk e.1)
    stored c ok (writable c fun s =>
      let slots := s.freeSlots i x n
      if slots.length < n then fail c stQuota s
      else if x.siltMax < x.siltList.length + n then
        let s := modCmd c.key (fun c => { c with phase := .waiting (.silt i) }) s
        if x.pass.isNone then seatPass (startPass i s) else s
      else placeEntries c i x slots s) s

def execInsert (k : CmdKey) (s : State) : Out := .next (withCtx 0x42 k (indexed insertVectors) s)

/-- A held INSERT goes on once settling has made room (R303). -/
def execInsertHoldRelease (k : CmdKey) (s : State) : Out :=
  .next (match findCmd k s with
    | none => s
    | some c =>
      let i := fieldAt c.payload 0 1
      let n := fieldAt c.payload 4 4
      match kvGet i s.indexes with
      | none => s
      | some x =>
        let slots := s.freeSlots i x n
        if c.phase = .waiting (.silt i) ∧ (s.writeProtected ∨ s.media.spareOut) then writable c id s
        else if c.phase = .waiting (.silt i) ∧ x.siltList.length + n ≤ x.siltMax ∧ slots.length = n then placeEntries c i x slots s else s)

/-- DELETE (R304): the tombstones are set and journaled, and the reply waits until their entries are durable; an ID that is not live, or already
tombstoned, changes nothing. -/
def deleteVectors (c : Cmd) (_ : Ctx) (s : State) : State :=
  let p := c.payload
  let i := fieldAt p 0 1
  let n := fieldAt p 4 4
  match s.ownedIndex c with
  | none => fail c stInvalid s
  | some x =>
    let ok := decide (x.state = .ready) && decide (fieldAt p 1 3 = 0) && decide (fieldAt p 8 8 = 0) &&
      decide (p.length = 16 + 8 * n)
    stored c ok (writable c fun s =>
      let ids := (((List.range n).map fun j => fieldAt p (16 + 8 * j) 8).filter fun id => (kvGet id x.nodes).any Node.alive).eraseDups
      if ids = [] then reply c stOk (leBytes 8 0 ++ leBytes 8 n) s
      else
        let y := { x with nodes := ids.foldl (fun t id => kvMod id (fun d => { d with tomb := true }) t) x.nodes }
        let s := ids.foldl (fun s id => journal (.tomb i id) s) { s with indexes := kvSet i y s.indexes }
        settleMedia (modCmd c.key (fun c => { c with phase := .waiting (.journaled s.journalNext), tally := ids.length }) s)) s

def execDelete (k : CmdKey) (s : State) : Out := .next (withCtx 0x43 k (indexed deleteVectors) s)

/- Settling (R305 to R307) -/

/-- SETTLE waits for a pass that starts after its receipt to publish (R305). -/
def settleIndex (c : Cmd) (_ : Ctx) (s : State) : State :=
  let p := c.payload
  match s.ownedIndex c with
  | none => fail c stInvalid s
  | some x =>
    stored c (decide (x.state = .ready) && decide (p.length = 8) && decide (fieldAt p 1 7 = 0)) (fun s =>
      if s.media.spareOut then fail c stSpareExhausted s
      else modCmd c.key (fun d => { d with phase := .waiting (.settled (fieldAt p 0 1)) }) s) s

def execSettle (k : CmdKey) (s : State) : Out := .next (withCtx 0x45 k (indexed settleIndex) s)

/-- A settling pass goes on: writes are not refused (Table 9-14), and no interactive pressure pauses housekeeping, but for an index on which
an INSERT is held (R135, R303). -/
def State.settles (s : State) (i : Nat) : Bool :=
  !s.writeProtected && !s.media.spareOut && (!s.pressure || s.insertHeld i)

/-- A pass is due (R305). -/
def State.settleDue (s : State) (i : Nat) (x : Index) : Bool :=
  let live := (x.nodes.filter fun d => d.2.alive).length
  let tombs := (x.nodes.filter fun d => d.2.tomb && !d.2.removed).length
  let pct := if x.settlePct = 0 then 50 else x.settlePct
  decide (x.state = .ready) && x.pass.isNone && s.settles i &&
    (decide (x.siltMax * pct ≤ 100 * x.siltList.length) || decide (live < 10 * tombs) ||
      s.cmds.any fun c => decide (c.phase = .waiting (.settled i)) || decide (c.phase = .waiting (.silt i)))

def execSettlingPassStart (index : Nat) (s : State) : Out :=
  .next (match kvGet index s.indexes with
    | none => s
    | some x => if s.settleDue index x then seatPass (startPass index s) else s)

/-- The nodes as a pass links them: its silt entries have neighbours, with edges back to them, edges to the tombstoned nodes that it took lead to those
nodes' neighbours, and records are pruned to DEGREE (R306). -/
def Index.settled (x : Index) (free : Nat) (p : Pass) : KV Node :=
  let alive := (x.nodes.filter fun d => d.2.alive).map (·.1)
  let linked := p.linked.filter fun j => alive.contains j
  let out := linked.map fun j => (j, linkTo x.degree free j alive)
  x.nodes.map fun d =>
    let own := match out.find? fun o => decide (o.1 = d.1) with
      | none => d.2.nbrs
      | some o => entriesFor x.nodes o.2
    let through := own.flatMap fun e =>
      if p.tombs.contains e.1 then ((kvGet e.1 x.nodes).map (·.nbrs) |>.getD []).filter fun f => !p.tombs.contains f.1 && decide (f.1 ≠ d.1) else [e]
    let back := entriesFor x.nodes ((out.filter fun o => o.2.contains d.1).map (·.1))
    (d.1, { d.2 with silt := d.2.silt && !linked.contains d.1, nbrs := ((through ++ back).eraseDups).take x.degree })

/-- The writer of the units that a pass rewrites: no command has this tag. -/
def passKey (owner : Nat) : CmdKey := ⟨0, owner, .work, 32⟩

/-- A pass at work on its plot: it links its entries and writes each changed node record as part of a whole-unit rewrite (R306, steps 1 to 3). What it
reads and writes counts for the index's owner (R305). -/
def linkPass (i : Nat) (s : State) : State :=
  match kvGet i s.indexes, (kvGet i s.indexes).bind (·.pass) with
  | some x, some p =>
    if p.links.isSome then s
    else
      let (free, s) := takeFree s
      let nodes := x.settled free p
      let changed := ((x.nodes.zip nodes).filter fun d => decide (d.1.2 ≠ d.2.2)).map (·.1.1)
      let us := (changed.map (· / 16)).eraseDups
      let linked := (p.linked.filter fun j => (kvGet j x.nodes).any Node.alive).length
      let y := { x with nodes := nodes, pass := some { p with links := some (linked, changed.length) } }
      let read := (s.placesOf (indexOwner i) us).length
      let s := account (some x.owner) (fun a => { a with
        reads := a.reads + 4 * read, landing := a.landing + p.linked.length * (x.codeBytes + 24 + 8 * x.numeric) }) { s with indexes := kvSet i y s.indexes }
      settleMedia (writeIndex (passKey x.owner) i y us true s)
  | _, _ => s

/-- A pass publishes: it is journaled, its entries leave the silt list, the tombstoned slots that it took are removed, the hot region is refreshed, and
every SETTLE received before it started completes (R305 to R307). The attribute sample is what the live vectors hold. -/
def publish (i : Nat) (x : Index) (p : Pass) (s : State) : State :=
  let (linked, rewritten) := p.links.getD (0, 0)
  let gone := fun (j : Nat) => p.linked.contains j || p.tombs.contains j
  let y := { x with
    nodes := x.nodes.map fun (d : Nat × Node) => (d.1, { d.2 with removed := d.2.removed || p.tombs.contains d.1, live := d.2.live && !p.tombs.contains d.1 })
    pass := none, siltList := x.siltList.filter fun j => !gone j, quarantine := x.quarantine ++ p.tombs.map fun j => (j, s.nextOrder) }
  let s := journal (.pass i p.linked p.tombs) { s with indexes := kvSet i { y with hot := y.hotSet } s.indexes }
  s.cmds.foldl (fun s c =>
    if c.phase = .waiting (.settled i) ∧ c.order < p.started then
      reply c stOk (leBytes 8 linked ++ leBytes 8 p.tombs.length ++ leBytes 8 rewritten ++ zeros 8) s
    else s) s

/-- SETTLING_PUBLISH: a pass that stands on a plot and has rewritten its units publishes. Sent early it changes nothing (R135, R306, log entry 3). -/
def execSettlingPublish (index : Nat) (s : State) : Out :=
  .next (match kvGet index s.indexes with
    | none => s
    | some x => match x.pass with
      | none => s
      | some p => if s.settles index ∧ p.links.isSome ∧ 0 < s.plotsHeld (1024 + index) then publish index x p s else s)

/- INDEX_DROP (R310) -/

/-- A live command that names the index was received before an order. -/
def State.indexNamed (s : State) (i order : Nat) : Bool :=
  s.cmds.any fun c => c.live && decide (c.order < order) && c.objects.contains (.index i)

/-- INDEX_DROP, at its turn after every earlier command that names the index (R310). -/
def indexDrop (c : Cmd) (_ : Ctx) (s : State) : State :=
  let p := c.payload
  let i := fieldAt p 0 1
  match kvGet i s.indexes with
  | none => fail c stInvalid s
  | some x =>
    let mine := decide (x.owner = c.key.ctx) && decide (x.ending = none)
    let dormant := decide (x.state = .dormant) || decide (x.state = .emptyDormant)
    let ok := decide (p.length = 8) && decide (fieldAt p 1 7 = 0) && (if dormant then x.lets c.key.session else mine)
    if ok ∧ s.keysPresent ∧ s.indexNamed i c.order then s
    else
      let segs := (s.media.directory.map (·.1)).filter fun n => decide (n / 2 ^ 21 = indexOwner i)
      stored c ok (withLookups c segs fun s =>
        let s := dropKey x.key (dropUnits (indexOwner i) s)
        settleMedia (reply c stOk (leBytes 8 x.units) (renewRoots { s with indexes := kvDel i s.indexes }))) s

def execIndexDrop (k : CmdKey) (s : State) : Out := .next (withCtx 0x46 k (indexed indexDrop) s)

end Sys2Proof.Machine
end

