-- ==== Sys2Proof/Machine/TileRows.lean ====
section
/-!
DEFINITION. Machine/TileRows.lean: the tile instructions, one meaning each, of the sequence of a run that has come to it (R375 to
R389).
-/

namespace Sys2Proof.Machine

open Sys2Proof

/- Matrix class -/

/-- The instruction's problems are computed and their multiply-accumulates charged. -/
def matTile (kind : TKind) (f : Exec → Nat → Exec) (qs : Exec → Nat → List QProblem) (k : CmdKey) (seq : Nat) (s : State) : State :=
  withTile kind k seq (fun e w s => runWord f e w (useShadow e w (countProblems e (qs e w) s))) s

/-- MM (R322, R376). -/
def execMm (k : CmdKey) (seq : Nat) (s : State) : Out := .next (matTile .mm Exec.mm (fun _ w => [mmProblem w]) k seq s)

/-- MMQ (R317, R378). -/
def execMmq (k : CmdKey) (seq : Nat) (s : State) : Out := .next (matTile .mmq Exec.mmq (fun e w => e.prog.problems w) k seq s)

/-- ADD: A + B (R379). -/
def execAdd (k : CmdKey) (seq : Nat) (s : State) : Out := .next (dataTile (.lane .add) (Exec.laneOp · .add ·) k seq s)

/-- SUB: A − B (R379). -/
def execSub (k : CmdKey) (seq : Nat) (s : State) : Out := .next (dataTile (.lane .sub) (Exec.laneOp · .sub ·) k seq s)

/-- MUL: A × B (R379). -/
def execMul (k : CmdKey) (seq : Nat) (s : State) : Out := .next (dataTile (.lane .mul) (Exec.laneOp · .mul ·) k seq s)

/-- FMA: A × B + C with one rounding (R379). -/
def execFma (k : CmdKey) (seq : Nat) (s : State) : Out := .next (dataTile (.lane .fma) (Exec.laneOp · .fma ·) k seq s)

/-- MIN (R379). -/
def execMin (k : CmdKey) (seq : Nat) (s : State) : Out := .next (dataTile (.lane .min) (Exec.laneOp · .min ·) k seq s)

/-- MAX (R379). -/
def execMax (k : CmdKey) (seq : Nat) (s : State) : Out := .next (dataTile (.lane .max) (Exec.laneOp · .max ·) k seq s)

/-- LT: 1 where A < B, else 0 (R379). -/
def execLt (k : CmdKey) (seq : Nat) (s : State) : Out := .next (dataTile (.lane .lt) (Exec.laneOp · .lt ·) k seq s)

/-- SELECT: A where C is not 0, else B (R379). -/
def execSelect (k : CmdKey) (seq : Nat) (s : State) : Out := .next (dataTile (.lane .select) (Exec.laneOp · .select ·) k seq s)

/-- EXP of A (R379, Table 10-5). -/
def execExp (k : CmdKey) (seq : Nat) (s : State) : Out := .next (dataTile (.fn .exp) (Exec.laneFn · .exp ·) k seq s)

/-- RECIP of A (R379, Table 10-5). -/
def execRecip (k : CmdKey) (seq : Nat) (s : State) : Out := .next (dataTile (.fn .recip) (Exec.laneFn · .recip ·) k seq s)

/-- RSQRT of A (R379, Table 10-5). -/
def execRsqrt (k : CmdKey) (seq : Nat) (s : State) : Out := .next (dataTile (.fn .rsqrt) (Exec.laneFn · .rsqrt ·) k seq s)

/-- TANH of A (R379, Table 10-5). -/
def execTanh (k : CmdKey) (seq : Nat) (s : State) : Out := .next (dataTile (.fn .tanh) (Exec.laneFn · .tanh ·) k seq s)

/-- SIGMOID of A (R379, Table 10-5). -/
def execSigmoid (k : CmdKey) (seq : Nat) (s : State) : Out := .next (dataTile (.fn .sigmoid) (Exec.laneFn · .sigmoid ·) k seq s)

/-- GELU of A (R379, Table 10-5). -/
def execGelu (k : CmdKey) (seq : Nat) (s : State) : Out := .next (dataTile (.fn .gelu) (Exec.laneFn · .gelu ·) k seq s)

/-- SOFTPLUS of A (R379, Table 10-5). -/
def execSoftplus (k : CmdKey) (seq : Nat) (s : State) : Out := .next (dataTile (.fn .softplus) (Exec.laneFn · .softplus ·) k seq s)

/-- D_TANH: B times the derivative of TANH at A (R379). -/
def execDTanh (k : CmdKey) (seq : Nat) (s : State) : Out := .next (dataTile (.dfn .tanh) (Exec.laneDfn · .tanh ·) k seq s)

/-- D_SIGMOID: B times the derivative of SIGMOID at A (R379). -/
def execDSigmoid (k : CmdKey) (seq : Nat) (s : State) : Out := .next (dataTile (.dfn .sigmoid) (Exec.laneDfn · .sigmoid ·) k seq s)

/-- D_GELU: B times the derivative of GELU at A (R379). -/
def execDGelu (k : CmdKey) (seq : Nat) (s : State) : Out := .next (dataTile (.dfn .gelu) (Exec.laneDfn · .gelu ·) k seq s)

/-- D_SOFTPLUS: B times the derivative of SOFTPLUS at A (R379). -/
def execDSoftplus (k : CmdKey) (seq : Nat) (s : State) : Out := .next (dataTile (.dfn .softplus) (Exec.laneDfn · .softplus ·) k seq s)

/-- ROW_SUM (R379). -/
def execRowSum (k : CmdKey) (seq : Nat) (s : State) : Out := .next (dataTile .rowSum Exec.rowSum k seq s)

/-- ROW_MAX (R379). -/
def execRowMax (k : CmdKey) (seq : Nat) (s : State) : Out := .next (dataTile .rowMax Exec.rowMax k seq s)

/-- COL_SUM (R379). -/
def execColSum (k : CmdKey) (seq : Nat) (s : State) : Out := .next (dataTile .colSum Exec.colSum k seq s)

/-- COL_MAX (R379). -/
def execColMax (k : CmdKey) (seq : Nat) (s : State) : Out := .next (dataTile .colMax Exec.colMax k seq s)

/-- MASK_UPPER (R379). -/
def execMaskUpper (k : CmdKey) (seq : Nat) (s : State) : Out := .next (dataTile .maskUpper Exec.maskUpper k seq s)

/-- CONVERT (R380). -/
def execConvert (k : CmdKey) (seq : Nat) (s : State) : Out := .next (dataTile .convert Exec.convert k seq s)

/-- COPY (R381). -/
def execCopy (k : CmdKey) (seq : Nat) (s : State) : Out := .next (dataTile .copy Exec.copy k seq s)

/-- FILL (R381). -/
def execFill (k : CmdKey) (seq : Nat) (s : State) : Out := .next (dataTile .fill Exec.fill k seq s)

/-- TABLE (R383, R288). -/
def execTable (k : CmdKey) (seq : Nat) (s : State) : Out := .next (dataTile .table Exec.table k seq s)

/-- SCORE (R383, R288). -/
def execScore (k : CmdKey) (seq : Nat) (s : State) : Out := .next (dataTile .score Exec.score k seq s)

/-- TOPK (R383). -/
def execTopk (k : CmdKey) (seq : Nat) (s : State) : Out := .next (dataTile .topk Exec.topk k seq s)

/-- CHECK_WRITE (R384). -/
def execCheckWrite (k : CmdKey) (seq : Nat) (s : State) : Out := .next (dataTile .checkWrite Exec.checkWrite k seq s)

/-- CLOSE (R322, R376). -/
def execClose (k : CmdKey) (seq : Nat) (s : State) : Out := .next (dataTile .close Exec.close k seq s)

/-- STEP: one block update pass over W (R385, R428). -/
def execStepRule (k : CmdKey) (seq : Nat) (s : State) : Out := .next (dataTile (.update .step) (Exec.updateWord · .step ·) k seq s)

/-- SIGN: one block update pass over W (R385, R428). -/
def execSignRule (k : CmdKey) (seq : Nat) (s : State) : Out := .next (dataTile (.update .sign) (Exec.updateWord · .sign ·) k seq s)

/-- SIGN_DECAY: one block update pass over W (R385, R428). -/
def execSignDecay (k : CmdKey) (seq : Nat) (s : State) : Out := .next (dataTile (.update .signDecay) (Exec.updateWord · .signDecay ·) k seq s)

/-- ADAM_BC: one block update pass over W (R385, R428). -/
def execAdamBc (k : CmdKey) (seq : Nat) (s : State) : Out := .next (dataTile (.update .adam) (Exec.updateWord · .adam ·) k seq s)

/-- COMPARE: a mismatch sets BIT of the check word and is counted in CHK_MISMATCH (R333, R384). -/
def execCompare (k : CmdKey) (seq : Nat) (s : State) : Out :=
  .next (withTile .compare k seq (fun e w s =>
    let s := if e.mismatch w then modPlots (fun p => { p with chkMismatch := satAdd 16 p.chkMismatch 1 }) s else s
    runWord Exec.compare e w s) s)

/- Chains -/

/-- CHAIN_SEND (R326, R382). -/
def execChainSend (k : CmdKey) (seq : Nat) (s : State) : Out := .next (withTile .chainSend k seq chainSend s)

/-- CHAIN_RECV (R326, R382). -/
def execChainRecv (k : CmdKey) (seq : Nat) (s : State) : Out := .next (withTile .chainRecv k seq chainRecv s)

/- Synchronise class (R386 to R389) -/

/-- A sequence is past the SIGNAL or WAIT that ended a segment: its schedule takes new limits, and the next layers are ferried (R45, R72,
R386). -/
def nextSegment (e : Exec) (s : State) : State :=
  let e := e.next true
  ferryAhead e.run e.prog e.seq (layerBoundary (.program e.run.ctx e.run.handle) (commit e s))

/-- SIGNAL: the token goes up by one, to 65,535 at most, and a sequence that waits for it can look again. -/
def signal (e : Exec) (w : Nat) (s : State) : State :=
  let t := wf w 1 7 0
  let n := (kvGet t e.run.tokens).getD 0
  let e := { e with run := { e.run with tokens := kvSet t (satAdd 16 n 1) e.run.tokens } }
  let e := { e with run := { e.run with seqs := e.run.seqs.map fun (q : Seq) => if q.block = SeqBlock.token then { q with block := .none } else q } }
  wakeCtx e.run.ctx (nextSegment e s)

def execSignal (k : CmdKey) (seq : Nat) (s : State) : Out := .next (withTile .signal k seq signal s)

/-- WAIT: the sequence goes on once the token is at least VALUE. -/
def waitToken (e : Exec) (w : Nat) (s : State) : State :=
  if (kvGet (wf w 1 7 0) e.run.tokens).getD 0 < wf w 1 23 8 then pause e.me.plot (commit (e.wait .token s.now) s) else nextSegment e s

def execWait (k : CmdKey) (seq : Nat) (s : State) : Out := .next (withTile .wait k seq waitToken s)

/-- SECTION_OPEN: an atomic section of BOUND µs begins (R145, R388). -/
def execSectionOpen (k : CmdKey) (seq : Nat) (s : State) : Out :=
  .next (withTile .sectionOpen k seq (fun e w s =>
    commit ((e.modSeq fun q => { q with section_ := some ⟨wf w 1 10 0, none, none⟩ }).next false) s) s)

/-- SECTION_CLOSE: the section ends, once its instructions have ended; the context is preemptible once none of its sequences on the plot has
one open (R140, R144). -/
def execSectionClose (k : CmdKey) (seq : Nat) (s : State) : Out :=
  .next (withTile .sectionClose k seq (fun e _ s =>
    pause e.me.plot (commit ((e.modSeq fun q => { q with section_ := none }).next false) s)) s)

/-- HALT_IF: the whole run ends when a bit of MASK is set in the check word (R387). -/
def execHaltIf (k : CmdKey) (seq : Nat) (s : State) : Out :=
  .next (withTile .haltIf k seq (fun e w s =>
    let s := commit (e.next false) s
    if Nat.land e.run.check (wf w 1 31 0) ≠ 0 then pause e.me.plot (finishRun k stOk 1 (0, 0) s) else s) s)

/-- END: the sequence has ended, and the run with the last of them (R387). -/
def execEndSeq (k : CmdKey) (seq : Nat) (s : State) : Out :=
  .next (withTile .endSeq k seq (fun e _ s =>
    let e := (e.next false).modSeq fun q => { q with ended := true }
    let s := commit e s
    pause e.me.plot (if e.run.seqs.all (·.ended) then finishRun k stOk 0 (0, 0) s else s)) s)

end Sys2Proof.Machine
end

