-- ==== Sys2Proof/Machine/PlotRows.lean ====
section
/-!
DEFINITION. Machine/PlotRows.lean: the boundaries of a plot: the meanings of TILE_BOUNDARY, SLICE_END, SWAP_OUT_END and SWAP_IN_END
(R123, R132, R139, R146, R331).
-/

namespace Sys2Proof.Machine

open Sys2Proof

/-- The running context's command whose atomic section has exceeded its bound on the plot (R146). -/
def State.overrunOn (s : State) (p : Nat) : Option (Nat × CmdKey) :=
  (s.plot p).running.bind fun n =>
    ((s.seqsOn p n).find? fun x => (x.1.seq x.2).section_.any fun q => q.overrun s.now).map fun x => (n, x.1.key)

/-- After a boundary the search engine goes on for the context that runs now (R331). -/
def withEngine (p : Nat) (f : State → State) (s : State) : State := if p < 272 then engineStep p (f s) else s

/-- A tile instruction or engine step has ended after some µs: the section bound is tested first, and its excess tears the context down
(R146); then the boundary; and a run none of whose instructions is left in flight may be deadlocked (R389). -/
def tileBoundary (p ranUs : Nat) (s : State) : State :=
  match s.overrunOn p with
  | some (n, k) => boundary p 0 (tearDown n stBoundOverrun (some k) (account (some n) (fun c => { c with plotUs := c.plotUs + ranUs }) s))
  | none =>
    let ended := (s.plot p).flights.head?
    let s := boundary p ranUs s
    match ended with
    | none => s
    | some f => settleRun f.key s

/-- What a settling pass that ran on the plot until its boundary has done (R306). -/
def passWork (p : Nat) (f : State → State) (s : State) : State :=
  match (s.plot p).running with
  | none => f s
  | some n => if n < 1024 then f s else linkPass (n - 1024) (f s)

def execTileBoundary (plot ranUs : Nat) (s : State) : Out := .next (withEngine plot (passWork plot (tileBoundary plot ranUs)) s)

def execSliceEnd (plot : Nat) (s : State) : Out := .next (withEngine plot (sliceEnd plot) s)

/-- The tiles of a context's runs are ferried to a plot that it has come to (R45). -/
def ferryHere (p : Nat) (s : State) : State :=
  ((s.plot p).residents.flatMap fun r => s.seqsOn p r.ctx).foldl (fun s x => match s.program x.1.ctx x.1.handle with
    | none => s
    | some g => ferryAhead x.1 g x.2 s) s

def execSwapOutEnd (plot : Nat) (s : State) : Out := .next (withEngine plot (fun s => ferryHere plot (swapOutEnd plot s)) s)

def execSwapInEnd (plot : Nat) (s : State) : Out := .next (withEngine plot (fun s => ferryHere plot (swapInEnd plot s)) s)

end Sys2Proof.Machine
end

