-- ==== Sys2Proof/Machine/Training.lean ====
section
/-!
DEFINITION. Machine/Training.lean: SET_STEP, TRAIN_STEP, UPDATE, FREEZE and CHECKPOINT (chapter 14).
-/

namespace Sys2Proof.Machine

open Sys2Proof

/-- SET_STEP (R432). -/
def setStep (c : Cmd) (_ : Ctx) (s : State) : State :=
  let p := c.payload
  let eta := fieldAt p 4 4
  if p.length ≠ 8 ∨ !(decide (eta < 0x7F800000) || decide (eta = 0x80000000)) then fail c stInvalid s
  else reply c stOk [] (modCtx c.key.ctx (fun x => { x with stepNo := some (fieldAt p 0 4), stepSize := eta }) s)

def execSetStep (k : CmdKey) (s : State) : Out := .next (withCtx 0x61 k setStep s)

/-- A frozen block stands in some of these entries (R437). -/
def Program.frozenIn (p : Program) (first n : Nat) : Bool := (List.range n).any fun j => decide ((kvGet (first + j) p.frozen).getD [] ≠ [])

/-- The form of a TRAIN_STEP's program (R438): input tiles of FP16, BF16 or FP32 with one ROWS and inside RECORD, FP32 outputs. -/
def Program.trainable (p : Program) (record : Nat) : Bool :=
  let ins := p.tiles.filter fun d => decide (d.source = 2)
  let rows := (ins.head?.map (·.rows)).getD 0
  ins.all (fun d => decide (6 ≤ d.format) && decide (d.rows = rows) && decide (d.io + d.cols * (fmtBits d.format / 8) ≤ record)) &&
    p.tiles.all (fun d => decide (d.source ≠ 3) || decide (d.format = 8)) && decide (ins ≠ [])

/-- Rows of a micro-batch. -/
def Program.rows (p : Program) : Nat := ((p.tiles.find? fun d => decide (d.source = 2)).map (·.rows)).getD 1

/-- The records that a TRAIN_STEP may use, taken unit by unit until MAX_MICRO is filled or an unreadable unit stops it (R254, R438,
R442). -/
structure TrainScan where
  recs  : List TrainRec
  stop  : Option (Nat × Nat)
  after : Option (Nat × Nat)
  bad   : List (Nat × Nat)
  units : List (Nat × Nat)
  deriving DecidableEq, Repr

/-- Records of a unit with the ones kept marked. -/
def trainUnit (q : Pred) (s : State) (extent vol unit from_ : Nat) : Option (List TrainRec) :=
  (s.unitData vol unit).map fun d =>
    ((q.layout.records d).1.filter fun r => decide (from_ ≤ r.ord)).map fun r =>
      ⟨extent, unit, r.ord, q.passes fun t => r.fieldOf q.layout t.field t.len, r.body⟩

/-- Units in order, while records are still wanted; `want` none is no limit. -/
def trainScan (q : Pred) (s : State) (es : List Extent) (skip : Bool) (first start : Nat) :
    List (Nat × Nat × Nat) → Option Nat → TrainScan
  | [], _ => ⟨[], none, none, [], []⟩
  | u :: us, want =>
    if want = some 0 then ⟨[], none, some (u.1, u.2.2), [], []⟩
    else match trainUnit q s u.1 u.2.1 u.2.2 (if u.1 = 0 ∧ u.2.2 = first then start else 0) with
      | none =>
        if skip then
          let r := trainScan q s es skip first start us want
          { r with bad := (u.2.2, 2) :: r.bad, units := (u.2.1, u.2.2) :: r.units }
        else ⟨[], some (u.2.2, 2), unitAfter es u.1 u.2.2, [], [(u.2.1, u.2.2)]⟩
      | some rs =>
        let kept := (rs.filter (·.kept)).length
        let r := trainScan q s es skip first start us (want.map (· - kept))
        { r with recs := rs ++ r.recs, units := (u.2.1, u.2.2) :: r.units }

/-- TRAIN_STEP (R434, R437 to R442). -/
def trainStep (c : Cmd) (x : Ctx) (s : State) : State :=
  let p := c.payload
  let opts := fieldAt p 1 1
  let pr := fieldAt p 2 1
  let n := fieldAt p 3 1
  let step := fieldAt p 4 4
  let record := fieldAt p 8 4
  let max_ := fieldAt p 12 4
  let handle := fieldAt p 0 1
  let es := extentsAt p 32 n
  let ex := es.map (·.1)
  let layout : Layout := ⟨1, 0, 0, 0, record, List.replicate 16 0⟩
  let q := if pr = 0xFF then some (⟨1, layout, [], 0, []⟩ : Pred) else (s.scanOf c.key).map (·.pred)
  match s.program c.key.ctx handle, q with
  | some g, some q =>
    let ok := decide (32 ≤ p.length) && decide (p.length = 32 + 16 * n) && decide (handle ≤ 15) && decide (opts < 4) &&
      (decide (pr < 32) || decide (pr = 0xFF)) && decide (1 ≤ n) && decide (n ≤ 16) && decide (8 ≤ record) && decide (record ≤ 65536) &&
      allZero (slice p 18 14) && s.extentsOk c.key.session es && decide (q.target = 1) && decide (q.layout.kind = 1) &&
      decide (q.layout.record = record) && g.trainable record
    if g.model.any fun m => s.unloadAhead (m % 64) c.order then s
    else stored c ok (fun s =>
      let after := bit opts 0
      match s.runBad x c.key.ctx handle step g with
      | some st => fail c st s
      | none =>
        if after ∧ !x.stepOk step then fail c stStepStale s
        else if after ∧ x.strict ∧ g.frozenIn 0 g.params.length then fail c stFrozen s
        else
          let kib := kib4 (4 * inputBytes g.tiles + g.outBytes)
          if !(modCmd c.key (fun c => { c with stagedKib := 0 }) s).fits c.key.ctx kib then fail c stQuota s
          else
            let first := (ex.head?.map (·.first)).getD 0
            let r := fun (s : State) => trainScan q s ex (bit opts 1) first (fieldAt p 16 2) (s.scanUnits ex)
              (if max_ = 0 then none else some (max_ * g.rows))
            withUnits c ((r s).units.map fun u => (u.1, u.2, 0xFFFF)) (fun s =>
              let r := r s
              let why := fun (b : Nat × Nat) => (b.1, if c.lost.any fun u => decide (u % 2 ^ 40 = b.1) then 1 else b.2)
              let t : Train :=
                { key := c.key, handle := handle, update := after, maxMicro := max_, rows := g.rows, recs := r.recs, stop := r.stop.map why,
                  after := r.after, bad := r.bad.map why, eta := x.stepSize, frozen := g.frozen, micro := 0, used := 0, filtered := 0,
                  check := 0, skips := 0, nonfinite := 0, sums := [], kib := kib }
              let s := modCmd c.key (fun c => { c with stagedKib := 0 }) s
              let s := modHealth (fun h => { h with hostRead := satAdd 64 h.hostRead r.units.length }) s
              nextMicro c t (startSchedule (.program c.key.ctx handle) { s with trains := s.trains ++ [t] })) s) s
  | _, _ => fail c stInvalid s

def execTrainStep (k : CmdKey) (s : State) : Out := .next (withCtx 0x60 k trainStep s)

/-- UPDATE (R434, R437, R443). -/
def updateParams (c : Cmd) (x : Ctx) (s : State) : State :=
  let p := c.payload
  let handle := fieldAt p 0 1
  let first := fieldAt p 2 2
  match s.program c.key.ctx handle with
  | none => fail c stInvalid s
  | some g =>
    let n := if fieldAt p 4 2 = 0 then g.params.length - first else fieldAt p 4 2
    if p.length ≠ 16 ∨ 15 < handle ∨ fieldAt p 1 1 ≠ 0 ∨ fieldAt p 6 2 ≠ 0 ∨ fieldAt p 12 4 ≠ 0 ∨ g.params.length ≤ first ∨
        g.params.length < first + n then fail c stInvalid s
    else if !x.stepOk (fieldAt p 8 4) then fail c stStepStale s
    else if x.strict ∧ g.frozenIn first n then fail c stFrozen s
    else
      let u := (s.programExec c.key handle x.stepSize g.frozen g).updateEntries first n
      reply { c with fs := c.fs || decide (u.2.2.1 ≠ 0) } stOk (leBytes 4 u.2.1 ++ leBytes 4 u.2.2.1 ++ leBytes 4 u.2.2.2 ++ zeros 4)
        (commitProgram u.1 (seat c.key.ctx 1 s))

def execUpdate (k : CmdKey) (s : State) : Out := .next (withCtx 0x62 k updateParams s)

/- FREEZE -/

/-- The blocks that a FREEZE payload names, when it is in order (Table 14-3, R435). -/
def freezeRange (g : Program) (p : List Byte) : Option (Nat × List Nat) :=
  let i := fieldAt p 2 2
  let first := fieldAt p 4 4
  match g.params[i]? with
  | none => none
  | some e =>
    let blocks := e.blocks g.tiles
    let n := if fieldAt p 8 4 = 0 then blocks - first else fieldAt p 8 4
    if p.length = 16 ∧ fieldAt p 0 1 ≤ 15 ∧ fieldAt p 12 4 = 0 ∧ first < blocks ∧ first + n ≤ blocks then some (i, (List.range n).map (first + ·))
    else none

/-- FREEZE in one of its actions; a payload with another action is refused by the first. -/
def freezeBlocks (thaw : Bool) (c : Cmd) (_ : Ctx) (s : State) : State :=
  let p := c.payload
  let action := fieldAt p 1 1
  if thaw ∧ action ≠ 2 then s
  else if !thaw ∧ action = 2 then s
  else match (if action = 1 ∨ action = 2 then s.program c.key.ctx (fieldAt p 0 1) else none) with
    | none => fail c stInvalid s
    | some g => match freezeRange g p with
      | none => fail c stInvalid s
      | some (i, bs) =>
        let old := (kvGet i g.frozen).getD []
        let new := if thaw then old.filter fun b => !bs.contains b
          else (List.range ((g.params.getD i (paramOf [])).blocks g.tiles)).filter fun b => old.contains b || bs.contains b
        let changed := if thaw then old.length - new.length else new.length - old.length
        reply c stOk (leBytes 4 new.length ++ leBytes 4 changed)
          { s with programs := kvSet (progKey c.key.ctx (fieldAt p 0 1)) { g with frozen := kvSet i new g.frozen } s.programs }

def execFreezeBlocks (k : CmdKey) (s : State) : Out := .next (withCtx 0x63 k (freezeBlocks false) s)
def execThawBlocks (k : CmdKey) (s : State) : Out := .next (withCtx 0x63 k (freezeBlocks true) s)

/- CHECKPOINT -/

/-- A checkpoint payload is in order (Table 14-7). -/
def checkpointOk (p : List Byte) : Bool :=
  let mode := fieldAt p 0 1
  decide (p.length = 32) && decide (1 ≤ mode) && decide (mode ≤ 3) && decide (fieldAt p 1 1 ≤ 15) && allZero (slice p 3 13) &&
    (if mode = 3 then decide (fieldAt p 2 1 < 64) && allZero (slice p 16 16) else true)

/-- Sizes of an entry's section: W's data, the STATE tile and the freeze bitmap, each padded to 8 bytes (R444). -/
def sectionParts (g : Program) (e : Param) : Nat × Nat × Nat :=
  (((g.tiles.getD e.w (tileDecl [])).bytes), (if e.ruleOf = .adam then (g.tiles.getD e.state (tileDecl [])).bytes else 0),
    ceilDiv (e.blocks g.tiles) 8)

/-- Bytes of a section. -/
def sectionBytes (g : Program) (e : Param) : Nat :=
  let x := sectionParts g e
  roundUp x.1 8 + roundUp x.2.1 8 + roundUp x.2.2 8

/-- The freeze bitmap of an entry. -/
def freezeMap (blocks : Nat) (frozen : List Nat) : List Byte :=
  (List.range (ceilDiv blocks 8)).map fun i => BitVec.ofNat 8 ((List.range 8).map fun b => if frozen.contains (8 * i + b) then 2 ^ b else 0).sum

/-- The checkpoint image of a program (Table 14-8, R444). -/
def checkpointImage (g : Program) (x : Ctx) : List Byte :=
  let home := fun (n : Nat) => (kvGet n g.homes).getD ((g.tiles.getD n (tileDecl [])).zero)
  let parts := g.params.zipIdx.flatMap fun e =>
    let w := home e.1.w
    padTo (w.elems ++ w.scales) 8 ++ (if e.1.ruleOf = .adam then padTo ((home e.1.state).elems ++ (home e.1.state).scales) 8 else []) ++
      padTo (freezeMap (e.1.blocks g.tiles) ((kvGet e.2 g.frozen).getD [])) 8
  let head := leBytes 4 0x4B5A434B ++ leBytes 1 1 ++ zeros 1 ++ leBytes 2 g.params.length ++ leBytes 8 (64 + parts.length) ++
    leBytes 4 (x.stepNo.getD 0) ++ leBytes 4 x.stepSize
  let img := head ++ zeros 40 ++ parts
  patch img 24 (leBytes 4 (crc32c img))

/-- CHECKPOINT save (R444): the image goes to the first units of the extent, and the reply waits until it is durable. -/
def checkpointSave (c : Cmd) (x : Ctx) (s : State) : State :=
  let p := c.payload
  if checkpointOk p ∧ fieldAt p 0 1 ≠ 1 then s
  else
    let e := extentAt p 16
    match s.program c.key.ctx (fieldAt p 1 1) with
    | none => fail c stInvalid s
    | some g =>
      let img := checkpointImage g x
      let n := ceilDiv img.length 65536
      stored c (checkpointOk p && s.extentsOk c.key.session [e] && decide (n ≤ e.1.units)) (protectedBy c fun s =>
        if s.media.spareOut then fail c stSpareExhausted s
        else withLookups c (segmentRange e.1.vol e.1.first (e.1.first + n)) (fun s =>
          let first := s.media.nextSlot
          let s := (List.range n).foldl (fun s i => placeUnit c.key e.1.vol (e.1.first + i) (fit (slice img (65536 * i) 65536) 65536) false s) s
          settleMedia (modCmd c.key (fun c => { c with
            phase := .waiting (.durable ((List.range n).map (first + ·))), tally := img.length, stagedKib := 0 }) s)) s) s

def execCheckpointSave (k : CmdKey) (s : State) : Out := .next (withCtx 0x64 k checkpointSave s)

/-- Where each entry's section begins in an image. -/
def sectionAt (g : Program) (i : Nat) : Nat := 64 + ((g.params.take i).map (sectionBytes g)).sum

/-- A checkpoint image fits a program (R445). -/
def checkpointFits (g : Program) (img : List Byte) : Bool :=
  decide (64 ≤ img.length) && decide (fieldAt img 0 4 = 0x4B5A434B) && decide (fieldAt img 4 1 = 1) && decide (fieldAt img 6 2 = g.params.length) &&
    decide (fieldAt img 8 8 = img.length) && decide (sectionAt g g.params.length = img.length) &&
    decide (crc32c (patch img 24 (zeros 4)) = fieldAt img 24 4)

/-- Every W, STATE and freeze bitmap replaced from an image (R445). -/
def restored (g : Program) (img : List Byte) : Program :=
  g.params.zipIdx.foldl (fun (g : Program) e =>
    let at_ := sectionAt g e.2
    let x := sectionParts g e.1
    let w := loadTile (g.tiles.getD e.1.w (tileDecl [])) (slice img at_ x.1)
    let st := at_ + roundUp x.1 8
    let homes := kvSet e.1.w w g.homes
    let homes := if e.1.ruleOf = .adam then kvSet e.1.state (loadTile (g.tiles.getD e.1.state (tileDecl [])) (slice img st x.2.1)) homes else homes
    let map := slice img (st + roundUp x.2.1 8) x.2.2
    let frozen := (List.range (e.1.blocks g.tiles)).filter fun b => bit (fieldAt map (b / 8) 1) (b % 8)
    { g with homes := homes, frozen := kvSet e.2 frozen g.frozen }) g

/-- CHECKPOINT restore (R445). -/
def checkpointRestore (c : Cmd) (x : Ctx) (s : State) : State :=
  let p := c.payload
  if !checkpointOk p ∨ fieldAt p 0 1 ≠ 2 then s
  else
    let e := extentAt p 16
    match s.program c.key.ctx (fieldAt p 1 1) with
    | none => fail c stInvalid s
    | some g =>
      stored c (s.extentsOk c.key.session [e]) (fun s =>
        let len := fun (s : State) => fieldAt ((s.unitData e.1.vol e.1.first).getD []) 8 8
        let n := fun (s : State) => min e.1.units (max 1 (ceilDiv (len s) 65536))
        let us := fun (s : State) => (List.range (n s)).map (e.1.first + ·)
        withUnits c (wholeUnits e.1.vol (us s)) (fun s =>
          if s.badUnits c e.1.vol (us s) ≠ [] then fail c stMediaUncorrectable s
          else
            let img := (s.extentData { e.1 with units := n s }).take (len s)
            if !checkpointFits g img then fail c stInvalid s
            else
              let e := (s.programExec c.key (fieldAt p 1 1) x.stepSize [] (restored g img)).clearAcc
              reply c stOk (leBytes 8 img.length ++ zeros 8) (commitProgram e s)) s) s

def execCheckpointRestore (k : CmdKey) (s : State) : Out := .next (withCtx 0x64 k checkpointRestore s)

/-- A model image with the data of each entry's MODEL_TILE replaced by W's data (R446). -/
def exportedImage (g : Program) (m : List Byte) : List Byte :=
  let img := g.params.foldl (fun img e =>
    if e.modelTile = 0xFFFF then img
    else
      let w := (kvGet e.w g.homes).getD ((g.tiles.getD e.w (tileDecl [])).zero)
      patch img (fieldAt m 48 8 + fieldAt m (fieldAt m 36 4 + 32 * e.modelTile + 8) 8) (w.elems ++ w.scales)) m
  patch img 64 (leBytes 4 (crc32c (patch img 64 (zeros 4))))

/-- CHECKPOINT export: the stored copy is checked as an imported one is (R402, R446). -/
def checkpointExport (c : Cmd) (_ : Ctx) (s : State) : State :=
  let p := c.payload
  let slot := fieldAt p 2 1
  if !checkpointOk p ∨ fieldAt p 0 1 ≠ 3 then s
  else if s.unloadAhead slot c.order then s
  else match (s.program c.key.ctx (fieldAt p 1 1)).map fun g => (g, s.modelNow g) with
    | some (g, .good m) =>
      let img := exportedImage g m
      stored c ((s.modelIn slot).isNone && imgOk img && decide (ceilDiv img.length 65536 ≤ s.unassigned)) (protectedBy c fun s =>
        if s.media.spareOut then fail c stSpareExhausted s
        else
          let x : Model :=
            { state := .stored, image := img, units := ceilDiv img.length 65536, count := ((kvGet slot s.models).map (·.count)).getD 0,
              loader := 1024, sessions := 0, early := false, homeKib := 0, windowKib := 0, windowLayers := 0, group := 0, members := 1,
              placement := 0, firstLayer := 0, lastLayer := 0, shards := 0, key := 0, wrapped := [], ending := none, lost := [] }
          readBack c (fun s => reply c stOk (leBytes 8 img.length ++ zeros 8) (storeModel slot x s).2) s) s
    | _ => fail c stInvalid s

def execCheckpointExport (k : CmdKey) (s : State) : Out := .next (withCtx 0x64 k checkpointExport s)

end Sys2Proof.Machine
end

