-- ==== Sys2Proof/Machine/Dispatch.lean ====
section
/-! DEFINITION. Machine/Dispatch.lean: one arm for each command, each a direct call of its meaning. -/

namespace Sys2Proof.Machine

open Sys2Proof

def exec (i : Instr) (s : State) : Host.Outcome State Fault Refusal :=
  match i with
  | .packetArrival port header payload => Sys2Proof.Machine.execPacketArrival port header payload s
  | .openSession k => Sys2Proof.Machine.execOpenSession k s
  | .heartbeat port => Sys2Proof.Machine.execHeartbeat port s
  | .identify k => Sys2Proof.Machine.execIdentify k s
  | .getLog k => Sys2Proof.Machine.execGetLog k s
  | .setEventMask k => Sys2Proof.Machine.execSetEventMask k s
  | .setTillingDays k => Sys2Proof.Machine.execSetTillingDays k s
  | .setAccountInterval k => Sys2Proof.Machine.execSetAccountInterval k s
  | .setSympatheticThrottle k => Sys2Proof.Machine.execSetSympatheticThrottle k s
  | .regRead k => Sys2Proof.Machine.execRegRead k s
  | .loReadLatch requester offset => Sys2Proof.Machine.execLoReadLatch requester offset s
  | .regWrite k => Sys2Proof.Machine.execRegWrite k s
  | .prtPortCfgWrite k => Sys2Proof.Machine.execPrtPortCfgWrite k s
  | .prtAlertClear k => Sys2Proof.Machine.execPrtAlertClear k s
  | .lndBucketCfgWrite k => Sys2Proof.Machine.execLndBucketCfgWrite k s
  | .lndFerryCfgWrite k => Sys2Proof.Machine.execLndFerryCfgWrite k s
  | .lndReserveCfgWrite k => Sys2Proof.Machine.execLndReserveCfgWrite k s
  | .lndStreamCfgWrite k => Sys2Proof.Machine.execLndStreamCfgWrite k s
  | .lndErrStatusClear k => Sys2Proof.Machine.execLndErrStatusClear k s
  | .sveCfgWrite k => Sys2Proof.Machine.execSveCfgWrite k s
  | .sveDieSelWrite k => Sys2Proof.Machine.execSveDieSelWrite k s
  | .pltSelWrite k => Sys2Proof.Machine.execPltSelWrite k s
  | .pltOverflowClear k => Sys2Proof.Machine.execPltOverflowClear k s
  | .lnkSelWrite k => Sys2Proof.Machine.execLnkSelWrite k s
  | .pwrCapWrite k => Sys2Proof.Machine.execPwrCapWrite k s
  | .accCtrlRecal k => Sys2Proof.Machine.execAccCtrlRecal k s
  | .secTamperClear k => Sys2Proof.Machine.execSecTamperClear k s
  | .fwStage k => Sys2Proof.Machine.execFwStage k s
  | .fwCommitTrial k => Sys2Proof.Machine.execFwCommitTrial k s
  | .fwCommitConfirm k => Sys2Proof.Machine.execFwCommitConfirm k s
  | .fwCommitRevert k => Sys2Proof.Machine.execFwCommitRevert k s
  | .attestReport k => Sys2Proof.Machine.execAttestReport k s
  | .attestCertificate k => Sys2Proof.Machine.execAttestCertificate k s
  | .attestChallenge k => Sys2Proof.Machine.execAttestChallenge k s
  | .attestUnlock k => Sys2Proof.Machine.execAttestUnlock k s
  | .attestTransition k => Sys2Proof.Machine.execAttestTransition k s
  | .closeSession k => Sys2Proof.Machine.execCloseSession k s
  | .createContext k => Sys2Proof.Machine.execCreateContext k s
  | .setQuota k => Sys2Proof.Machine.execSetQuota k s
  | .setClass k => Sys2Proof.Machine.execSetClass k s
  | .closeContext k => Sys2Proof.Machine.execCloseContext k s
  | .queueReset k => Sys2Proof.Machine.execQueueReset k s
  | .read k => Sys2Proof.Machine.execRead k s
  | .write k => Sys2Proof.Machine.execWrite k s
  | .flush k => Sys2Proof.Machine.execFlush k s
  | .discard k => Sys2Proof.Machine.execDiscard k s
  | .secureDiscard k => Sys2Proof.Machine.execSecureDiscard k s
  | .verify k => Sys2Proof.Machine.execVerify k s
  | .reduceCapacity k => Sys2Proof.Machine.execReduceCapacity k s
  | .volumeCreate k => Sys2Proof.Machine.execVolumeCreate k s
  | .volumeDelete k => Sys2Proof.Machine.execVolumeDelete k s
  | .loadPredicate k => Sys2Proof.Machine.execLoadPredicate k s
  | .scan k => Sys2Proof.Machine.execScan k s
  | .scanEmbed k => Sys2Proof.Machine.execScanEmbed k s
  | .scanAggregate k => Sys2Proof.Machine.execScanAggregate k s
  | .scanReadResume k drainedKib => Sys2Proof.Machine.execScanReadResume k drainedKib s
  | .indexCreateNew k => Sys2Proof.Machine.execIndexCreateNew k s
  | .indexCreateOpen k => Sys2Proof.Machine.execIndexCreateOpen k s
  | .indexBuild k => Sys2Proof.Machine.execIndexBuild k s
  | .insert k => Sys2Proof.Machine.execInsert k s
  | .insertHoldRelease k => Sys2Proof.Machine.execInsertHoldRelease k s
  | .delete k => Sys2Proof.Machine.execDelete k s
  | .search k => Sys2Proof.Machine.execSearch k s
  | .searchDeadline k => Sys2Proof.Machine.execSearchDeadline k s
  | .settle k => Sys2Proof.Machine.execSettle k s
  | .settlingPassStart index => Sys2Proof.Machine.execSettlingPassStart index s
  | .settlingPublish index => Sys2Proof.Machine.execSettlingPublish index s
  | .indexDrop k => Sys2Proof.Machine.execIndexDrop k s
  | .modelLoadImport k => Sys2Proof.Machine.execModelLoadImport k s
  | .modelLoadPlace k => Sys2Proof.Machine.execModelLoadPlace k s
  | .modelLoadQuery k => Sys2Proof.Machine.execModelLoadQuery k s
  | .modelPlacementEnd slot => Sys2Proof.Machine.execModelPlacementEnd slot s
  | .modelUnload k => Sys2Proof.Machine.execModelUnload k s
  | .embed k => Sys2Proof.Machine.execEmbed k s
  | .genOpen k => Sys2Proof.Machine.execGenOpen k s
  | .genStep k => Sys2Proof.Machine.execGenStep k s
  | .generationStep slot batch => Sys2Proof.Machine.execGenerationStep slot batch s
  | .genClose k => Sys2Proof.Machine.execGenClose k s
  | .trainStep k => Sys2Proof.Machine.execTrainStep k s
  | .setStep k => Sys2Proof.Machine.execSetStep k s
  | .update k => Sys2Proof.Machine.execUpdate k s
  | .freezeBlocks k => Sys2Proof.Machine.execFreezeBlocks k s
  | .thawBlocks k => Sys2Proof.Machine.execThawBlocks k s
  | .checkpointSave k => Sys2Proof.Machine.execCheckpointSave k s
  | .checkpointRestore k => Sys2Proof.Machine.execCheckpointRestore k s
  | .checkpointExport k => Sys2Proof.Machine.execCheckpointExport k s
  | .programLoad k => Sys2Proof.Machine.execProgramLoad k s
  | .programRun k => Sys2Proof.Machine.execProgramRun k s
  | .phaseHint k => Sys2Proof.Machine.execPhaseHint k s
  | .phaseHintExpiry ctx => Sys2Proof.Machine.execPhaseHintExpiry ctx s
  | .crossingEnable k => Sys2Proof.Machine.execCrossingEnable k s
  | .crossingDisable k => Sys2Proof.Machine.execCrossingDisable k s
  | .crossingQuery k => Sys2Proof.Machine.execCrossingQuery k s
  | .chainSetup k => Sys2Proof.Machine.execChainSetup k s
  | .peerCopy k => Sys2Proof.Machine.execPeerCopy k s
  | .setDomain k => Sys2Proof.Machine.execSetDomain k s
  | .retireRange k => Sys2Proof.Machine.execRetireRange k s
  | .restoreSparePlot k => Sys2Proof.Machine.execRestoreSparePlot k s
  | .restoreSpareLane k loopback retrained => Sys2Proof.Machine.execRestoreSpareLane k loopback retrained s
  | .mm k seq => Sys2Proof.Machine.execMm k seq s
  | .mmq k seq => Sys2Proof.Machine.execMmq k seq s
  | .close k seq => Sys2Proof.Machine.execClose k seq s
  | .add k seq => Sys2Proof.Machine.execAdd k seq s
  | .sub k seq => Sys2Proof.Machine.execSub k seq s
  | .mul k seq => Sys2Proof.Machine.execMul k seq s
  | .fma k seq => Sys2Proof.Machine.execFma k seq s
  | .min k seq => Sys2Proof.Machine.execMin k seq s
  | .max k seq => Sys2Proof.Machine.execMax k seq s
  | .lt k seq => Sys2Proof.Machine.execLt k seq s
  | .select k seq => Sys2Proof.Machine.execSelect k seq s
  | .exp k seq => Sys2Proof.Machine.execExp k seq s
  | .recip k seq => Sys2Proof.Machine.execRecip k seq s
  | .rsqrt k seq => Sys2Proof.Machine.execRsqrt k seq s
  | .tanh k seq => Sys2Proof.Machine.execTanh k seq s
  | .sigmoid k seq => Sys2Proof.Machine.execSigmoid k seq s
  | .gelu k seq => Sys2Proof.Machine.execGelu k seq s
  | .softplus k seq => Sys2Proof.Machine.execSoftplus k seq s
  | .dTanh k seq => Sys2Proof.Machine.execDTanh k seq s
  | .dSigmoid k seq => Sys2Proof.Machine.execDSigmoid k seq s
  | .dGelu k seq => Sys2Proof.Machine.execDGelu k seq s
  | .dSoftplus k seq => Sys2Proof.Machine.execDSoftplus k seq s
  | .rowSum k seq => Sys2Proof.Machine.execRowSum k seq s
  | .rowMax k seq => Sys2Proof.Machine.execRowMax k seq s
  | .colSum k seq => Sys2Proof.Machine.execColSum k seq s
  | .colMax k seq => Sys2Proof.Machine.execColMax k seq s
  | .maskUpper k seq => Sys2Proof.Machine.execMaskUpper k seq s
  | .convert k seq => Sys2Proof.Machine.execConvert k seq s
  | .copy k seq => Sys2Proof.Machine.execCopy k seq s
  | .fill k seq => Sys2Proof.Machine.execFill k seq s
  | .chainSend k seq => Sys2Proof.Machine.execChainSend k seq s
  | .chainRecv k seq => Sys2Proof.Machine.execChainRecv k seq s
  | .table k seq => Sys2Proof.Machine.execTable k seq s
  | .score k seq => Sys2Proof.Machine.execScore k seq s
  | .topk k seq => Sys2Proof.Machine.execTopk k seq s
  | .checkWrite k seq => Sys2Proof.Machine.execCheckWrite k seq s
  | .compare k seq => Sys2Proof.Machine.execCompare k seq s
  | .stepRule k seq => Sys2Proof.Machine.execStepRule k seq s
  | .signRule k seq => Sys2Proof.Machine.execSignRule k seq s
  | .signDecay k seq => Sys2Proof.Machine.execSignDecay k seq s
  | .adamBc k seq => Sys2Proof.Machine.execAdamBc k seq s
  | .signal k seq => Sys2Proof.Machine.execSignal k seq s
  | .wait k seq => Sys2Proof.Machine.execWait k seq s
  | .sectionOpen k seq => Sys2Proof.Machine.execSectionOpen k seq s
  | .sectionClose k seq => Sys2Proof.Machine.execSectionClose k seq s
  | .haltIf k seq => Sys2Proof.Machine.execHaltIf k seq s
  | .endSeq k seq => Sys2Proof.Machine.execEndSeq k seq s
  | .tileBoundary plot ranUs => Sys2Proof.Machine.execTileBoundary plot ranUs s
  | .sliceEnd plot => Sys2Proof.Machine.execSliceEnd plot s
  | .swapOutEnd plot => Sys2Proof.Machine.execSwapOutEnd plot s
  | .swapInEnd plot => Sys2Proof.Machine.execSwapInEnd plot s
  | .tileReady owner tile ctx => Sys2Proof.Machine.execTileReady owner tile ctx s
  | .ferryLeadShallow owner => Sys2Proof.Machine.execFerryLeadShallow owner s
  | .handOnBlockArrival k chain member crcOk => Sys2Proof.Machine.execHandOnBlockArrival k chain member crcOk s
  | .searchDataReturn k id ok around => Sys2Proof.Machine.execSearchDataReturn k id ok around s
  | .plotHang plot => Sys2Proof.Machine.execPlotHang plot s
  | .moverTimeout plot => Sys2Proof.Machine.execMoverTimeout plot s
  | .sparePlotTakeover plot => Sys2Proof.Machine.execSparePlotTakeover plot s
  | .lineCheckFail line data owner readers => Sys2Proof.Machine.execLineCheckFail line data owner readers s
  | .refetchComplete line res => Sys2Proof.Machine.execRefetchComplete line res s
  | .vaultLineFail kind index => Sys2Proof.Machine.execVaultLineFail kind index s
  | .bucketLeak => Sys2Proof.Machine.execBucketLeak s
  | .pageReadComplete a cls res => Sys2Proof.Machine.execPageReadComplete a cls res s
  | .readAroundComplete a ok => Sys2Proof.Machine.execReadAroundComplete a ok s
  | .programComplete band wl sieve kind failed => Sys2Proof.Machine.execProgramComplete band wl sieve kind failed s
  | .eraseComplete band sieve failed => Sys2Proof.Machine.execEraseComplete band sieve failed s
  | .suspendResume die => Sys2Proof.Machine.execSuspendResume die s
  | .journalStripeTimeout => Sys2Proof.Machine.execJournalStripeTimeout s
  | .mapCheckpoint => Sys2Proof.Machine.execMapCheckpoint s
  | .garbageCollection => Sys2Proof.Machine.execGarbageCollection s
  | .writeHoldRelease k => Sys2Proof.Machine.execWriteHoldRelease k s
  | .tillingRead a res => Sys2Proof.Machine.execTillingRead a res s
  | .spareDieCheck die ok => Sys2Proof.Machine.execSpareDieCheck die ok s
  | .dieUnresponsive die => Sys2Proof.Machine.execDieUnresponsive die s
  | .dieFailed die => Sys2Proof.Machine.execDieFailed die s
  | .dieRebuildEnd die => Sys2Proof.Machine.execDieRebuildEnd die s
  | .sieveLaneFail sieve lane => Sys2Proof.Machine.execSieveLaneFail sieve lane s
  | .sieveLost sieve => Sys2Proof.Machine.execSieveLost sieve s
  | .restripeEnd sieve => Sys2Proof.Machine.execRestripeEnd sieve s
  | .heartbeatSend => Sys2Proof.Machine.execHeartbeatSend s
  | .portHeartbeatTimeout port => Sys2Proof.Machine.execPortHeartbeatTimeout port s
  | .portLockTimeout port => Sys2Proof.Machine.execPortLockTimeout port s
  | .graceExpiry session => Sys2Proof.Machine.execGraceExpiry session s
  | .laneTrainingEnd position peer => Sys2Proof.Machine.execLaneTrainingEnd position peer s
  | .laneRetrainTimer => Sys2Proof.Machine.execLaneRetrainTimer s
  | .laneFail lane loopback => Sys2Proof.Machine.execLaneFail lane loopback s
  | .controlFlitSend crossing => Sys2Proof.Machine.execControlFlitSend crossing s
  | .crossingLossTimeout crossing => Sys2Proof.Machine.execCrossingLossTimeout crossing s
  | .flitResendTimeout crossing => Sys2Proof.Machine.execFlitResendTimeout crossing s
  | .dataFlitReceive crossing lane flit => Sys2Proof.Machine.execDataFlitReceive crossing lane flit s
  | .chainFlitReceive crossing lane flit => Sys2Proof.Machine.execChainFlitReceive crossing lane flit s
  | .credit crossing cls freed => Sys2Proof.Machine.execCredit crossing cls freed s
  | .ack crossing fseq => Sys2Proof.Machine.execAck crossing fseq s
  | .nak crossing fseq => Sys2Proof.Machine.execNak crossing fseq s
  | .throttle crossing step cause => Sys2Proof.Machine.execThrottle crossing step cause s
  | .slotFree crossing chain returned => Sys2Proof.Machine.execSlotFree crossing chain returned s
  | .chainAbort crossing chain => Sys2Proof.Machine.execChainAbort crossing chain s
  | .domain crossing domain => Sys2Proof.Machine.execDomain crossing domain s
  | .down crossing => Sys2Proof.Machine.execDown crossing s
  | .throttleRepeat => Sys2Proof.Machine.execThrottleRepeat s
  | .powerLoopTick inputW vinCv parts => Sys2Proof.Machine.execPowerLoopTick inputW vinCv parts s
  | .thermalSample temps => Sys2Proof.Machine.execThermalSample temps s
  | .thermalLimitStep => Sys2Proof.Machine.execThermalLimitStep s
  | .deepIdleEntry => Sys2Proof.Machine.execDeepIdleEntry s
  | .accountingWindow measuredUj => Sys2Proof.Machine.execAccountingWindow measuredUj s
  | .recalibrationStart => Sys2Proof.Machine.execRecalibrationStart s
  | .recalibrationEnd ok prices => Sys2Proof.Machine.execRecalibrationEnd ok prices s
  | .accountingIntervalEnd => Sys2Proof.Machine.execAccountingIntervalEnd s
  | .accountingJournal => Sys2Proof.Machine.execAccountingJournal s
  | .powerOn env => Sys2Proof.Machine.execPowerOn env s
  | .holdupTestEnd energyDj => Sys2Proof.Machine.execHoldupTestEnd energyDj s
  | .trialTimeout env => Sys2Proof.Machine.execTrialTimeout env s
  | .supervisorTimeout => Sys2Proof.Machine.execSupervisorTimeout s
  | .modResetNAssert => Sys2Proof.Machine.execModResetNAssert s
  | .modResetNRelease env => Sys2Proof.Machine.execModResetNRelease env s
  | .pwrFailWarnNAssert => Sys2Proof.Machine.execPwrFailWarnNAssert s
  | .pwrFailWarnNRelease => Sys2Proof.Machine.execPwrFailWarnNRelease s
  | .writeProtectEnd => Sys2Proof.Machine.execWriteProtectEnd s
  | .throttleNAssert => Sys2Proof.Machine.execThrottleNAssert s
  | .throttleNRelease => Sys2Proof.Machine.execThrottleNRelease s
  | .tamperNAssert => Sys2Proof.Machine.execTamperNAssert s
  | .tamperNRelease => Sys2Proof.Machine.execTamperNRelease s
  | .glitchTamper clock => Sys2Proof.Machine.execGlitchTamper clock s
  | .inputChatterStart input edges => Sys2Proof.Machine.execInputChatterStart input edges s
  | .inputChatterEnd input edges low => Sys2Proof.Machine.execInputChatterEnd input edges low s
  | .inputLoss vinCv lost => Sys2Proof.Machine.execInputLoss vinCv lost s
  | .inputRestored env => Sys2Proof.Machine.execInputRestored env s
  | .smbSetOffset offset pec => Sys2Proof.Machine.execSmbSetOffset offset pec s
  | .smbRead pec => Sys2Proof.Machine.execSmbRead pec s
  | .smbWrite value pec => Sys2Proof.Machine.execSmbWrite value pec s
  | .smbLastStatus pec => Sys2Proof.Machine.execSmbLastStatus pec s
  | .smbAlertResponse => Sys2Proof.Machine.execSmbAlertResponse s
  | .replyDeparture id => Sys2Proof.Machine.execReplyDeparture id s
  | .portLockGained port => Sys2Proof.Machine.execPortLockGained port s
  | .frameDiscarded port uncorrected corrected => Sys2Proof.Machine.execFrameDiscarded port uncorrected corrected s
  | .diePollAnswered die => Sys2Proof.Machine.execDiePollAnswered die s
  | .keeperPowerLoss => Sys2Proof.Machine.execKeeperPowerLoss s
  | .hostPeek plot line => Sys2Proof.Machine.execHostPeek plot line s

end Sys2Proof.Machine
end

