-- ==== Sys2Proof/Safety.lean ====
section
/-!
DEFINITION. Safety.lean: the invariant of the module's state, and the terms statements are made in: a command that may run, and
a state that differs from another by one reply.
-/

namespace Sys2Proof.Machine

/-- The stored bytes of the flash are in canonical form, and there are four sessions and two ports. -/
structure State.Inv (s : State) : Prop where
  flash    : memWf s.media.flash = true
  sessions : s.sessions.length = 4
  ports    : s.ports.length = 2

/-- The command c stands received under the key k with this opcode, its turn has come, and the module serves it (R97, R501,
R534, Table 17-4). -/
structure Ready (s : State) (k : CmdKey) (op : Nat) (c : Cmd) : Prop where
  found    : findCmd k s = some c
  opcode   : c.opcode = op
  received : c.phase = .received
  turn     : isTurn c s = true
  serving  : s.serving = true
  serves   : s.serves op = true
  running  : s.stalled k = false

/-- A command of the admin queue that may run. -/
structure ReadyAdmin (s : State) (k : CmdKey) (op : Nat) (c : Cmd) : Prop extends Ready s k op c where
  admin : k.queue = .admin

/-- An admin command that names the context x of its own session, which is open (R84). -/
structure ReadyTarget (s : State) (k : CmdKey) (op : Nat) (c : Cmd) (x : Ctx) : Prop extends ReadyAdmin s k op c where
  target : kvGet c.hdrCtx s.contexts = some x
  owner  : x.session = k.session
  open_  : x.closing = false
  whole  : x.torn = none

/-- A command of the context x that may run: its session is open, and no earlier VOLUME_DELETE of a volume it names is still to
take effect (R249). -/
structure ReadyCtx (s : State) (k : CmdKey) (op : Nat) (c : Cmd) (x : Ctx) : Prop extends Ready s k op c where
  work    : k.queue ≠ .admin
  context : kvGet k.ctx s.contexts = some x
  opened  : (s.session k.session).phase = .opened
  volumes : s.deleteAhead c = false

/-- t is u with the reply to one command added, which waits to depart: the command has its reply, its payload has left staging, and
no memory line is read for it any more. Everything else is as in u. -/
def Answered (u t : State) (c : Cmd) (status : Nat) (payload : List Byte) (acts : List Act) : Prop :=
  ∃ r : Reply, r.key = c.key ∧ r.opcode = c.opcode ∧ r.seq = c.seq ∧ r.port = c.port ∧ r.status = status ∧ r.payload = payload ∧
    r.acts = acts ∧ r.reject = false ∧ r.id = u.nextReply ∧
    t = { u with
      cmds := u.cmds.map fun d => if d.key = c.key then { d with phase := .replied, parts := [], stagedKib := 0 } else d
      replies := u.replies ++ [r]
      nextReply := u.nextReply + 1
      landing := { u.landing with faults := u.landing.faults.map fun f =>
        { f with readers := f.readers.filter fun k => decide (k ≠ c.key) } }
      scans := u.scans.filter fun q => decide (q.key ≠ c.key)
      trains := u.trains.filter fun q => decide (q.key ≠ c.key) }

/-- t is u after events only: the log and what it counts, the alert, sessions and ports that events went to, and the wire. -/
def EventsOnly (u t : State) : Prop :=
  t = { u with events := t.events, newEvents := t.newEvents, alert := t.alert, sessions := t.sessions, ports := t.ports, wire := t.wire }

/-- One record went to the event log, which keeps the latest 1,024, and the alert is pending (R105, R106). -/
def Logged (s t : State) (e : EventRec) : Prop :=
  t.events = (s.events ++ [e]).drop (s.events.length + 1 - 1024) ∧ t.alert = true

/-- t is u after work on the media: what the media hold, the replies this made, and events. -/
def MediaWork (u t : State) : Prop :=
  t = { u with
    media := t.media, cmds := t.cmds, replies := t.replies, nextReply := t.nextReply
    landing := { u.landing with faults := t.landing.faults }
    scans := t.scans, trains := t.trains, events := t.events, newEvents := t.newEvents, alert := t.alert, sessions := t.sessions
    ports := t.ports, wire := t.wire, acct := t.acct }

/-- The counts of a context but for what goes to and from the Landing. -/
def AccCounts.noLanding (a : AccCounts) : AccCounts := { a with landing := 0, winModel := 0, winLanding := 0 }

/-- t is u after boundaries on some plots: residencies, the images in the Landing and the plots on which work stands changed, the bytes that
tiles moved were accounted, and of contexts only when they last ran and how many plots they want. -/
def Settled (u t : State) : Prop :=
  t = { u with plots := t.plots, contexts := t.contexts, runs := t.runs, searches := t.searches, acct := t.acct } ∧
  (∀ n, (kvGet n t.contexts).map (fun x => { x with lastRun := 0, want := 0 }) =
    (kvGet n u.contexts).map fun x => { x with lastRun := 0, want := 0 }) ∧
  (∀ n, (t.countsOf n).noLanding = (u.countsOf n).noLanding) ∧
  t.searches.map (fun q : Search => { q with plot := 0 }) = u.searches.map (fun q : Search => { q with plot := 0 }) ∧
  t.runs.map (fun r : Run => { r with seqs := r.seqs.map fun q : Seq => { q with plot := 0 } }) =
    u.runs.map fun r : Run => { r with seqs := r.seqs.map fun q : Seq => { q with plot := 0 } }

/-- t is u after the placement engine looked for plots for the context. -/
def Seated (u t : State) (ctx : Nat) : Prop := Settled u t ∧ ∀ x, kvGet ctx t.contexts = some x → x.lastRun = u.now

/-- t is u after the CAUSE bits were settled: the bits, what commands carry for them, the words to peers and the event (R468, R481). -/
def PowerSettled (u t : State) : Prop :=
  t = { u with
    power := { u.power with cause := u.causeBits }, cmds := t.cmds, links := t.links, events := t.events, newEvents := t.newEvents
    alert := t.alert, sessions := t.sessions, ports := t.ports, replies := t.replies, wire := t.wire } ∧
  (t.cmds.map (fun d => (d.key, d.phase)) = u.cmds.map fun d => (d.key, d.phase)) ∧
  (t.replies.map (fun r => { r with cflags := 0 }) = u.replies.map fun r => { r with cflags := 0 })

/-- Nothing is due to end: no index is being built or leaves its owner, no model is being unloaded, no window of one that streams opens or
closes, and no Landing range is being retired. -/
structure State.Still (s : State) : Prop where
  indexes  : ∀ x ∈ s.indexes, x.2.ending = none ∧ x.2.state ≠ .building
  models   : ∀ x ∈ s.models, x.2.ending = none ∧ (x.2.state = .placed → x.2.windowKib = 0 ∧ s.streams_ x.1 = false)
  sorted   : kvSorted s.models = true
  retiring : s.landing.retiring = []

/-- The working state of a sequence that goes on on a plot. -/
def Exec.onPlot (e : Exec) (plot : Nat) : Exec := e.modSeq fun q => { q with plot := plot }

/-- The sequence of the run of a command has come to an instruction of this kind, which may issue on the plot (R46, R375, R392); e is
its working state. -/
structure Issues (s : State) (kind : TKind) (k : CmdKey) (seq : Nat) (e : Exec) (plot : Nat) : Prop where
  found   : ∃ r, s.runOf k = some r ∧ s.execOf r seq = some e ∧ seq < r.seqs.length
  running : e.me.ended = false
  kind    : kindOf e.word = some kind
  steady  : s.stalled k = false
  stands  : s.issuePlot e.run.ctx e.me.plot = some plot
  keeps   : s.yields plot e.run.ctx = false
  clear   : s.hazard plot (e.onPlot plot) e.word = false
  arrived : s.notReady plot (e.onPlot plot) e.word = none

/-- The working state as the instruction issues, and the state with the time its sequence waited for a peer counted (R145, R469). -/
def Exec.issued (e : Exec) (plot : Nat) (s : State) : Exec := (resumeSeq (e.onPlot plot) plot s).1
def Exec.waited (e : Exec) (plot : Nat) (s : State) : State := (resumeSeq (e.onPlot plot) plot s).2

/-- The instruction after this one of the sequence neither waits for a token nor takes part in a hand-on. -/
def Exec.freeNext (e : Exec) : Prop :=
  ∀ kind, kindOf (e.prog.word e.seq (e.me.pc + 1)) = some kind → kind ≠ .wait ∧ kind ≠ .chainSend ∧ kind ≠ .chainRecv

/-- The commands of u with one of them in another phase. -/
def withPhase (u : State) (k : CmdKey) (p : Phase) : List Cmd := u.cmds.map fun d => if d.key = k then { d with phase := p } else d

end Sys2Proof.Machine
end

