-- ==== Sys2Proof/Certificates/Slice0/Obligations.lean ====
section
/-!
DEFINITION. Certificates/Slice0/Obligations.lean: the statements for the provers, and the few terms only they use.
-/

open Sys2Proof Sys2Proof.Machine

/-- For every command c, queue rest and state s, one step of s with c at the front of its queue is exec of c on s with the rest
of the queue as its queue. -/
def Obligations.StepRunsFront : Prop :=
  ∀ (c : Instr) (rest : List Instr) (s : State), step { s with pending := c :: rest } = exec c { s with pending := rest }

/-- On an empty queue a step answers the state with the keeper count one higher, modulo 2^64, and everything else unchanged.
That an empty queue stands for one 40 ns count is the model's choice (log entry 2). -/
def Obligations.IdleStepCounts : Prop :=
  ∀ s : State, s.pending = [] → step s = .next { s with keeper := { s.keeper with count := (s.keeper.count + 1) % 2 ^ 64 } }

/-- At reset the stored flash bytes are in canonical form, and there are four sessions and two ports. -/
def Obligations.ResetHoldsInvariant : Prop :=
  State.reset.Inv

/-- From every state in which the stored flash bytes are in canonical form and there are four sessions and two ports, a step
that answers a next state answers one in which the same holds, whichever of the 237 commands it ran. -/
def Obligations.EveryStepKeepsInvariant : Prop :=
  ∀ s t : State, s.Inv → step s = .next t → t.Inv

/-- Right after reset KPR_STATUS reads START_STAGE 0x1 with HOLDUP_WEAK and COLD set, KPR_RESET_CAUSE reads cause 0x01 with 0
starts (the number of starts and TRIPPED are the values the model names, log entry 4), PWR_CAP 1,250 W in both fields,
PWR_DEEP_IDLE 30 s, LND_BUCKET_CFG leak 10 s and capacity 64, LND_FERRY_CFG 0x003C0431, LND_RESERVE_CFG 40, LND_STREAM_CFG
8, SVE_CFG 75% with RETRY_MAX 7 and CORR_HIGH 160, LNK_CFG limits of 16, and IDN_PLOTS 0. -/
def Obligations.ResetRegisters : Prop :=
  State.reset.reg 0x1000 = 0x10C ∧ State.reset.reg 0x1004 = 1 ∧ State.reset.reg 0x4004 = 1250 * 2 ^ 16 + 1250 ∧
    State.reset.reg 0x4018 = 30 ∧ State.reset.reg 0x5010 = 10 * 2 ^ 8 + 64 ∧ State.reset.reg 0x5028 = 0x003C0431 ∧
    State.reset.reg 0x5030 = 40 ∧ State.reset.reg 0x5034 = 8 ∧ State.reset.reg 0x6008 = 75 * 2 ^ 16 + 7 * 2 ^ 8 + 160 ∧
    State.reset.reg 0x3004 = 16 * 2 ^ 8 + 16 ∧ State.reset.reg 0x0018 = 0

/-- A SET_FEATURE command that may run, with a 16-byte payload whose reserved bytes are 0, sets the feature that its payload
names to VALUE and completes OK with the value, and changes nothing else but that a feature of the module writes a root set:
EVENT_MASK of the session, TILLING_DAYS from 2 to 30, ACCOUNT_INTERVAL_S from 1 to 3,600 for the next interval,
SYMPATHETIC_THROTTLE 0 or 1 (Tables 3-17 and 3-18). -/
def Obligations.FeatureSet : Prop :=
  ∀ (s : State) (k : CmdKey) (c : Cmd), ReadyAdmin s k 0x04 c → c.payload.length = 16 → fieldAt c.payload 2 6 = 0 →
    (fieldAt c.payload 0 2 = 1 → ∃ t, exec (.setEventMask k) s = .next t ∧
      Answered { s with sessions := setAt s.sessions k.session fun x => { x with mask := fieldAt c.payload 8 8 } } t c stOk
        (leBytes 8 (fieldAt c.payload 8 8)) []) ∧
    (fieldAt c.payload 0 2 = 2 → 2 ≤ fieldAt c.payload 8 8 → fieldAt c.payload 8 8 ≤ 30 →
      ∃ t, exec (.setTillingDays k) s = .next t ∧
        Answered { s with media := Media.writeRoot false { s.media with tillDays := fieldAt c.payload 8 8 } } t c stOk (leBytes 8 (fieldAt c.payload 8 8)) []) ∧
    (fieldAt c.payload 0 2 = 3 → 1 ≤ fieldAt c.payload 8 8 → fieldAt c.payload 8 8 ≤ 3600 →
      ∃ t, exec (.setAccountInterval k) s = .next t ∧
        Answered { s with acct := { s.acct with nextIntervalS := fieldAt c.payload 8 8 }, media := Media.writeRoot false s.media } t c stOk
          (leBytes 8 (fieldAt c.payload 8 8)) []) ∧
    (fieldAt c.payload 0 2 = 4 → fieldAt c.payload 8 8 ≤ 1 →
      ∃ t, exec (.setSympatheticThrottle k) s = .next t ∧
        Answered { s with sympathetic := decide (fieldAt c.payload 8 8 = 1), media := Media.writeRoot false s.media } t c stOk (leBytes 8 (fieldAt c.payload 8 8)) [])

/-- A SET_FEATURE command that may run completes INVALID_FIELD with nothing changed when its payload is out of order, when
TILLING_DAYS lies outside 2 to 30, ACCOUNT_INTERVAL_S outside 1 to 3,600, or SYMPATHETIC_THROTTLE above 1 (Tables 3-17 and
3-18). -/
def Obligations.FeatureRefused : Prop :=
  ∀ (s : State) (k : CmdKey) (c : Cmd), ReadyAdmin s k 0x04 c →
    (featureOk c.payload = false → ∃ t, exec (.setEventMask k) s = .next t ∧ Answered s t c stInvalid [] []) ∧
    (featureOk c.payload = true → fieldAt c.payload 0 2 = 2 → fieldAt c.payload 8 8 < 2 ∨ 30 < fieldAt c.payload 8 8 →
      ∃ t, exec (.setTillingDays k) s = .next t ∧ Answered s t c stInvalid [] []) ∧
    (featureOk c.payload = true → fieldAt c.payload 0 2 = 3 → fieldAt c.payload 8 8 < 1 ∨ 3600 < fieldAt c.payload 8 8 →
      ∃ t, exec (.setAccountInterval k) s = .next t ∧ Answered s t c stInvalid [] []) ∧
    (featureOk c.payload = true → fieldAt c.payload 0 2 = 4 → 1 < fieldAt c.payload 8 8 →
      ∃ t, exec (.setSympatheticThrottle k) s = .next t ∧ Answered s t c stInvalid [] [])

/-- An IDENTIFY command that may run, without payload, completes OK with 128 bytes whose first 40 are the ten IDN registers, and
changes nothing else. A GET_LOG of the event log without options completes with the number of records, the number returned,
the keeper count and the records from the first one asked for, at most as many as asked for (COUNT up to 524,287); it
completes OK, or OK_SHORT when fewer are returned than were asked for. -/
def Obligations.IdentifyAndLog : Prop :=
  ∀ (s : State) (k : CmdKey) (c : Cmd),
    (ReadyAdmin s k 0x02 c → c.payload = [] → ∃ t body, exec (.identify k) s = .next t ∧ Answered s t c stOk body [] ∧
      body.length = 128 ∧ ∀ i < 10, slice body (4 * i) 4 = leBytes 4 (s.reg (4 * i))) ∧
    (ReadyAdmin s k 0x03 c → c.payload.length = 16 → fieldAt c.payload 0 1 = 2 → fieldAt c.payload 1 1 = 0 →
      fieldAt c.payload 12 4 = 0 → fieldAt c.payload 8 4 ≤ 524287 →
      let got := (s.events.drop (fieldAt c.payload 4 4)).take (fieldAt c.payload 8 4)
      ∃ t, exec (.getLog k) s = .next t ∧
        Answered s t c (if got.length < fieldAt c.payload 8 4 then stOkShort else stOk)
          (leBytes 4 s.events.length ++ leBytes 4 got.length ++ leBytes 8 s.keeper.count ++ got.flatMap (·.bytes)) [])

/-- A packet of one packet's length that passes the checks of Table 3-3, for an admin command that names no context, in an open
session that is not closing, with its tag free and the module not in deep idle, becomes an outstanding received command with
the packet's opcode, payload and SEQUENCE, with the next receipt order. Besides the list of commands and the receipt order,
only what the session expects as its next SEQUENCE and its count of gaps may change. -/
def Obligations.PacketAccepted : Prop :=
  ∀ (s : State) (port : Nat) (raw payload : List Byte) (info : OpInfo),
    s.serving = true → (s.port port).enabled = true → (s.port port).lock = true → s.power.idle = .running →
    raw.length = 32 → (decodeHeader raw).magic = 0xD2E1 → crc32c (raw.take 28) = (decodeHeader raw).hdrCrc →
    (decodeHeader raw).version = 1 → (decodeHeader raw).isReply = false → (decodeHeader raw).isAdmin = true →
    opInfo (decodeHeader raw).opcode = some info → info.admin = true → (s.session (decodeHeader raw).session).closing = false → (decodeHeader raw).opcode ≠ 1 →
    opsTarget.contains (decodeHeader raw).opcode = false → (s.session (decodeHeader raw).session).phase = .opened →
    findCmd (decodeHeader raw).key s = none → s.cmds.length < 16384 → (decodeHeader raw).total ≤ 65536 →
    (decodeHeader raw).lenOk payload = true → (if payload = [] then 0 else crc32c payload) = (decodeHeader raw).payCrc →
    ∃ t c, exec (.packetArrival port raw payload) s = .next t ∧ findCmd (decodeHeader raw).key t = some c ∧
      c.opcode = (decodeHeader raw).opcode ∧ c.phase = .received ∧ c.payload = payload ∧ c.seq = (decodeHeader raw).seq ∧
      c.port = port ∧ c.order = s.nextOrder ∧
      t = { s with cmds := s.cmds ++ [c], nextOrder := s.nextOrder + 1, sessions := t.sessions } ∧
      ∀ n, t.session n = { s.session n with nextSeq := (t.session n).nextSeq, seqGaps := (t.session n).seqGaps }

/-- A packet with the right magic whose HEADER_CRC does not match adds one to the port's count of header errors (saturating at
16 bits) and sends one reply whose STATUS is BAD_HEADER_CHECK; everything but that count and the wire is unchanged. A valid
header in an open session with an unassigned opcode puts one reply UNKNOWN_OPCODE, which frees no tag, among those to
depart, and leaves every command as it was. -/
def Obligations.PacketRefused : Prop :=
  ∀ (s : State) (port : Nat) (raw payload : List Byte),
    s.serving = true → (s.port port).enabled = true → (s.port port).lock = true → raw.length = 32 →
    (decodeHeader raw).magic = 0xD2E1 →
    (crc32c (raw.take 28) ≠ (decodeHeader raw).hdrCrc → ∃ t h, exec (.packetArrival port raw payload) s = .next t ∧
      t.wire = .packet port h [] :: s.wire ∧ fieldAt h 20 2 = stBadHeader ∧ h.length = 32 ∧
      t = { s with wire := t.wire, ports := setAt s.ports port fun p => { p with hdrErr := satAdd 16 p.hdrErr 1 } }) ∧
    (crc32c (raw.take 28) = (decodeHeader raw).hdrCrc → (decodeHeader raw).version = 1 → (decodeHeader raw).isReply = false →
      s.power.idle = .running → (s.session (decodeHeader raw).session).phase = .opened → opInfo (decodeHeader raw).opcode = none →
      ∃ t r, exec (.packetArrival port raw payload) s = .next t ∧ t.replies = s.replies ++ [r] ∧ r.status = stUnknownOpcode ∧
        r.reject = true ∧ r.seq = (decodeHeader raw).seq ∧
        t = { s with replies := t.replies, nextReply := s.nextReply + 1, sessions := t.sessions })

/-- An OPEN_SESSION command that may run, with a 16-byte payload whose reserved bytes are 0, on one of the four sessions: MODE
new with key 0 on a free session opens it with EVENT_MASK 0 and no SEQUENCE expected, its unread count of gaps kept; MODE
resume on a held session with the key last issued opens it again, with EVENT_MASK 0, and goes on with the SEQUENCE it
expected. Both issue the next resume key (a free value of the model, log entry 6) in place of the old one and reply with it.
In any other case the command completes INVALID_FIELD and every session stays as it was, a held one held. -/
def Obligations.SessionOpened : Prop :=
  ∀ (s : State) (k : CmdKey) (c : Cmd), ReadyAdmin s k 0x00 c → c.payload.length = 16 → fieldAt c.payload 1 7 = 0 →
    let key := (Config.resumeKey s.free).toNat
    let held := (s.replies.filter fun r => decide (r.key.session = k.session) && r.held).length
    let body := leBytes 8 key ++ leBytes 2 held ++ leBytes 2 (s.contextsOf k.session).length ++ zeros 4
    (fieldAt c.payload 0 1 = 1 → fieldAt c.payload 8 8 = 0 → (s.session k.session).phase = .free →
      ∃ t, exec (.openSession k) s = .next t ∧
        Answered { s with free := s.free + 1, sessions := setAt s.sessions k.session fun x =>
          { Session.free with phase := .opened, key := key, seqGaps := x.seqGaps } } t c stOk body [.afterOpen k.session false]) ∧
    (fieldAt c.payload 0 1 = 2 → (s.session k.session).phase = .held → fieldAt c.payload 8 8 = (s.session k.session).key →
      ∃ t, exec (.openSession k) s = .next t ∧
        Answered { s with free := s.free + 1, sessions := setAt s.sessions k.session fun x =>
          { x with phase := .opened, key := key, mask := 0, eventNo := 0 } } t c stOk body [.afterOpen k.session true]) ∧
    ((fieldAt c.payload 0 1 = 1 ∧ fieldAt c.payload 8 8 = 0 → (s.session k.session).phase ≠ .free) →
      (fieldAt c.payload 0 1 = 2 ∧ (s.session k.session).phase = .held → fieldAt c.payload 8 8 ≠ (s.session k.session).key) →
      ∃ t, exec (.openSession k) s = .next t ∧ Answered s t c stInvalid [] [])

/-- A CLOSE_SESSION command that may run, without payload, completes OK with a reply whose departure frees the session number.
Every context of the session is then closing, one torn down apart, and the runs and searches of those that this closes have
stopped. Every command of the session has its reply, or, in a held session, waits for its quota (R44); one of a context that
closes already or is torn down is left. Contexts of other sessions, and what the module holds of power, programs, streams
and models, are unchanged, and of security and indexes but for a vault key of a volume that is made and for the entries of
an INSERT that is cut. -/
def Obligations.SessionClosed : Prop :=
  ∀ (s : State) (k : CmdKey) (c : Cmd), ReadyAdmin s k 0x0B c → c.payload = [] → kvSorted s.contexts = true →
    (∀ d ∈ s.cmds, d.key.session = k.session → d.key.queue ≠ .admin → ∃ x, kvGet d.key.ctx s.contexts = some x ∧ x.session = k.session) →
    ∃ t r, exec (.closeSession k) s = .next t ∧ r ∈ t.replies ∧ r.key = k ∧ r.status = stOk ∧ r.acts = [.freeSession k.session] ∧
      let ended := fun x : Ctx => x.closing || x.torn.isSome
      (∀ d ∈ t.cmds, d.key.session = k.session → d.phase = .replied ∨
        ((s.session k.session).phase = .held ∧ d.phase = .waiting (.quota stContextClosed false [] 0 [])) ∨
        (d.key.queue ≠ .admin ∧ ∃ x, kvGet d.key.ctx s.contexts = some x ∧ ended x = true)) ∧
      (∀ n x, kvGet n s.contexts = some x → kvGet n t.contexts =
        some (if x.session = k.session ∧ ended x = false then { x with closing := true } else x)) ∧
      (∀ q ∈ t.runs, q ∈ s.runs ∧ ∀ x, kvGet q.ctx s.contexts = some x → x.session = k.session → ended x = true) ∧
      (∀ q ∈ t.searches, q ∈ s.searches ∧ ∀ n x, q.key.context = some n → kvGet n s.contexts = some x → x.session = k.session → ended x = true) ∧
      t = { s with
        sessions := t.sessions, contexts := t.contexts, cmds := t.cmds, replies := t.replies, nextReply := t.nextReply, free := t.free
        landing := { s.landing with faults := t.landing.faults }, scans := t.scans, trains := t.trains, media := t.media, runs := t.runs
        steps := t.steps, searches := t.searches, indexes := t.indexes, plots := t.plots, links := t.links, wire := t.wire
        sec := { s.sec with vault := t.sec.vault } } ∧
      (∀ i x, kvGet i s.indexes = some x → ∃ y, kvGet i t.indexes = some y ∧ y = { x with nodes := y.nodes, siltList := y.siltList } ∧
        (∀ d ∈ y.nodes, d ∈ x.nodes) ∧ ∀ j ∈ y.siltList, j ∈ x.siltList)

/-- When the grace of a held session has ended, GRACE_EXPIRY frees its number, discards its replies and its commands, those to
an OPEN_SESSION apart, which is none of the held ones (log entry 141), tears down its contexts, and adds one record
SESSION_EXPIRED with the session as its source to the event log; units of volumes that were acknowledged before stay in the
write buffer. Sessions other than this one, ports, power, security and the keeper are unchanged. -/
def Obligations.GraceEnds : Prop :=
  ∀ (s : State) (n : Nat), n < s.sessions.length → kvSorted s.contexts = true → kvSorted s.media.slots = true → (s.session n).phase = .held →
    (s.session n).graceEnd ≤ s.keeper.count →
    ∃ t e, exec (.graceExpiry n) s = .next t ∧ t.session n = { Session.free with seqGaps := (s.session n).seqGaps } ∧ (∀ m, m ≠ n → t.session m = s.session m) ∧
      (∀ r ∈ t.replies, r.key.session = n → r.opcode = 0) ∧ (∀ d ∈ t.cmds, d.key.session = n → d.opcode = 0) ∧ (∀ x ∈ t.contexts, x.2.session ≠ n) ∧
      e.code = 0x0003 ∧ e.source = n ∧ t.events = (s.events ++ [e]).drop (s.events.length + 1 - 1024) ∧
      (∀ x ∈ s.media.slots, x.2.acked = true → x.2.vol < 256 → ∃ y ∈ t.media.slots, y.1 = x.1 ∧ y.2 = { x.2 with ctx := y.2.ctx, old := y.2.old }) ∧
      t.keeper = s.keeper ∧ t.ports = s.ports ∧ t.sec = { s.sec with slot0 := t.sec.slot0, slot1 := t.sec.slot1, vault := t.sec.vault } ∧
      t.power = { s.power with hints := t.power.hints }

/-- PORT_LOCK_GAINED sets the port's lock, and a heartbeat is due at once where it had none. FRAME_DISCARDED adds the
uncorrectable and the corrected codewords to the port's counts, saturating at 16 and 32 bits. A valid HEARTBEAT on an
enabled port with lock that was not lost makes the port up and notes the keeper count. Loss of lock on a port that is not up
clears its lock and notes the count; trains that were arriving on it end, and without one nothing else changes while the
other port is up or can take packets; where it is neither, every open session is held with grace of 60 s (R112, log entry
140). -/
def Obligations.PortCounts : Prop :=
  ∀ (s : State) (port : Nat),
    exec (.portLockGained port) s = .next { s with ports := setAt s.ports port fun p =>
      { p with lock := true, beatSent := if p.lock then p.beatSent else none } } ∧
    (∀ bad good : Nat, exec (.frameDiscarded port bad good) s = .next { s with ports := setAt s.ports port fun p =>
      { p with fecUncorr := min 65535 (p.fecUncorr + bad), fecCorr := min 4294967295 (p.fecCorr + good) } }) ∧
    (s.serving = true → (s.port port).enabled = true → (s.port port).lock = true → (s.port port).lost = false →
      exec (.heartbeat port) s = .next { s with ports := setAt s.ports port fun p =>
        { p with lastBeat := s.keeper.count, up := true, lost := false } }) ∧
    (port < 2 → s.ports.length = 2 → (s.port port).up = false → ∃ t, exec (.portLockTimeout port) s = .next t ∧
      t = { s with
        ports := setAt s.ports port fun p => { p with lock := false, lockLost := s.keeper.count }
        cmds := t.cmds, replies := t.replies, nextReply := t.nextReply, landing := { s.landing with faults := t.landing.faults }
        scans := t.scans, trains := t.trains, sessions := t.sessions } ∧
      (∀ c ∈ t.cmds, c.port = port → c.phase ≠ .arriving) ∧
      let other := s.port (1 - port)
      ((other.up || (other.lock && other.enabled)) = true → t.sessions = s.sessions ∧
        ((∀ c ∈ s.cmds, c.port = port → c.phase ≠ .arriving) →
          t = { s with ports := setAt s.ports port fun p => { p with lock := false, lockLost := s.keeper.count } })) ∧
      ((other.up || (other.lock && other.enabled)) = false → (∀ c ∈ t.cmds, c.port < 2 → c.phase ≠ .arriving) ∧
        t.sessions = s.sessions.map fun x => if x.phase = .opened then { x with phase := .held, graceEnd := s.keeper.count + 60 * countsS } else x))

/-- An up port with no valid HEARTBEAT for 30 ms is lost at PORT_HEARTBEAT_TIMEOUT, and an up port whose receiver has been
without lock for 1 ms at PORT_LOCK_TIMEOUT: it is no longer up, and PORT_LOST with the port as its source is logged. Every
open session is then held with grace of 60 s, and its waiting replies are held (one to an OPEN_SESSION train cut by the loss
apart), when the other port is not up; a session already held keeps its grace. The other port stays as it was. A valid
HEARTBEAT on a lost port with lock makes it up again and logs PORT_RESTORED. -/
def Obligations.PortLost : Prop :=
  ∀ (s : State) (port : Nat), port < 2 → s.ports.length = 2 → s.sessions.length = 4 →
    ((s.port port).up = true → ∀ cmd ∈ [Instr.portHeartbeatTimeout port, Instr.portLockTimeout port],
      (cmd = .portHeartbeatTimeout port → (s.port port).lastBeat + 30 * countsMs ≤ s.keeper.count) →
      ∃ t e, exec cmd s = .next t ∧ (t.port port).up = false ∧ (t.port port).lost = true ∧ e.code = 0x0001 ∧ e.source = port ∧
        Logged s t e ∧
        (∀ n < 4, (t.session n).phase =
          if (s.session n).phase = .opened ∧ (s.port (1 - port)).up = false then .held else (s.session n).phase) ∧
        (∀ n < 4, (s.session n).phase = .opened → (s.port (1 - port)).up = false →
          (t.session n).graceEnd = s.keeper.count + 60 * countsS ∧ ∀ r ∈ t.replies, r.opcode ≠ 0 → r.key.session = n → r.held = true) ∧
        (∀ n < 4, (s.session n).phase = .held → (t.session n).graceEnd = (s.session n).graceEnd) ∧
        t.port (1 - port) = s.port (1 - port) ∧
        t.contexts = s.contexts ∧ t.media = s.media ∧ t.keeper = s.keeper) ∧
    (s.serving = true → (s.port port).enabled = true → (s.port port).lock = true → (s.port port).lost = true →
      ∃ t e, exec (.heartbeat port) s = .next t ∧ (t.port port).up = true ∧ (t.port port).lost = false ∧ e.code = 0x0002 ∧
        e.source = port ∧ Logged s t e ∧ EventsOnly s t)

/-- HEARTBEAT_SEND, while the module serves packets, sends on each enabled port with lock on which none has been sent since lock
or for 10 ms, and on no other, one packet with 16 bytes of payload: the keeper count, the life-cycle state, the ports up,
the sessions open or held, the sessions held and the events since the last heartbeat. That count is then 0, each such port
notes the time, and nothing else changes. Where none is due nothing changes. -/
def Obligations.HeartbeatsSent : Prop :=
  ∀ s : State, s.serving = true →
    let due := fun n : Nat => (s.port n).lock && (s.port n).enabled && ((s.port n).beatSent.all fun b => decide (b + 10 * countsMs ≤ s.keeper.count))
    ((due 0 || due 1) = true → ∃ t h, exec .heartbeatSend s = .next t ∧ t.newEvents = 0 ∧
      t.wire = (if due 1 then [.packet 1 h (heartbeatPayload s)] else []) ++ (if due 0 then [.packet 0 h (heartbeatPayload s)] else []) ++ s.wire ∧
      (heartbeatPayload s).length = 16 ∧ slice (heartbeatPayload s) 0 8 = leBytes 8 s.keeper.count ∧
      t = { s with newEvents := 0, wire := t.wire, ports := t.ports } ∧
      ∀ n < 2, t.port n = if due n then { s.port n with beatSent := some s.keeper.count } else s.port n) ∧
    ((due 0 || due 1) = false → exec .heartbeatSend s = .next s)

/-- REPLY_DEPARTURE of a waiting reply that no other must precede, whose port is up, sends its next packet on that port. While
more are to come, only that is noted and the time of the last activity. A reply of one packet leaves with OPCODE, STATUS and
payload as it has them: it then no longer waits and, unless it answers a rejected packet, its command is gone, so that its
tag is free. With no act of its own, while nothing is due to end (no index, model, window or retirement), no session has
queued events and no command waits for its quota, this changes only the replies, the commands, the wire, the accounts, the
time of the last activity and what its own session has queued. -/
def Obligations.ReplyDeparts : Prop :=
  ∀ (s : State) (r : Reply), s.replies.find? (fun q => decide (q.id = r.id)) = some r → s.serving = true →
    (s.port r.port).up = true → s.departs r = true → r.on = none → r.sent = 0 →
    (65536 < r.payload.length → ∃ t h, exec (.replyDeparture r.id) s = .next t ∧ fieldAt h 3 1 = r.opcode % 256 ∧
      t = { s with
        wire := .packet r.port h (slice r.payload 0 65536) :: s.wire, power := { s.power with idleSince := s.keeper.count }
        replies := s.replies.map fun q => if q.id = r.id then { q with sent := q.sent + 1, on := some r.port } else q }) ∧
    (r.payload.length ≤ 65536 → r.acts = [] → (∀ x ∈ s.contexts, x.2.torn = none) → s.Still → (∀ c ∈ s.cmds, ∀ a b d e f, c.phase ≠ .waiting (.quota a b d e f)) →
      (∀ n < 4, (s.session n).queued = [] ∧ (s.session n).dropped = none) → s.sessions.length = 4 → r.key.session < 4 →
      ∃ t h, exec (.replyDeparture r.id) s = .next t ∧ t.wire = .packet r.port h r.payload :: s.wire ∧ fieldAt h 3 1 = r.opcode % 256 ∧
        fieldAt h 20 2 = r.status % 65536 ∧ (∀ q ∈ t.replies, q.id ≠ r.id) ∧
        (r.reject = false → ∀ c ∈ t.cmds, c.key = r.key → c.phase ≠ .replied) ∧
        t = { s with wire := t.wire, replies := s.replies.filter fun q => decide (q.id ≠ r.id), cmds := t.cmds
                     acct := t.acct, power := { s.power with idleSince := s.keeper.count }, sessions := t.sessions } ∧
        ∀ c ∈ s.cmds, c.key ≠ r.key → c ∈ t.cmds)

/-- A CREATE_CONTEXT command that may run, with a payload in order (Table 4-2), of a number that no reply still has to act on,
creates the context of the lowest free number, owned by the session that sent it, with the class and quotas that the payload
gives, and for a batch context its slice, when the granted quotas with the new one do not exceed the pool; it answers with
the number and what is left of the pool, and changes nothing else. When all 1,024 numbers are in use it completes
QUOTA_EXCEEDED and changes nothing. -/
def Obligations.ContextCreated : Prop :=
  ∀ (s : State) (k : CmdKey) (c : Cmd), ReadyAdmin s k 0x10 c → createOk s.poolMib c.payload = true →
    (∀ n, n < 1024 → kvGet n s.contexts = none → (∀ m < n, (kvGet m s.contexts).isSome) → s.quotasDue n = [] →
      s.grantedMib + fieldAt c.payload 4 4 ≤ s.poolMib →
      ∃ x t, exec (.createContext k) s = .next t ∧ x.session = k.session ∧
        x.cls = (if fieldAt c.payload 0 1 = 0 then .interactive else .batch) ∧ x.sramKib = fieldAt c.payload 2 2 ∧
        x.landingMib = fieldAt c.payload 4 4 ∧ x.maxPlots = fieldAt c.payload 8 2 ∧ x.strict = bit (fieldAt c.payload 1 1) 0 ∧ x.closing = false ∧ x.torn = none ∧
        x.sliceUs = (if fieldAt c.payload 0 1 = 0 ∨ fieldAt c.payload 10 2 = 0 then 2000 else fieldAt c.payload 10 2) ∧
        Answered { s with contexts := kvSet n x s.contexts } t c stOk
          (leBytes 2 n ++ zeros 2 ++ leBytes 4 (s.poolMib - (s.grantedMib + fieldAt c.payload 4 4))) []) ∧
    ((∀ m < 1024, (kvGet m s.contexts).isSome) → ∃ t, exec (.createContext k) s = .next t ∧ Answered s t c stQuota [] [])

/-- A SET_QUOTA in range whose new Landing quota fits the pool, beside what is granted and due, and the present charges sets the
SRAM quota, MAX_PLOTS and slice that WHICH names, and its reply carries the new Landing quota to apply at the departure; a
Landing quota beyond the pool completes QUOTA_EXCEEDED and changes nothing. A SET_CLASS to interactive of a batch context
without streams, or to batch of an interactive one whose headroom covers its plots, changes the class at the departure; in
the second case its streams, searches and commands leave the interactive promise at once; one that names the class the
context has completes OK and changes nothing. -/
def Obligations.QuotaAndClass : Prop :=
  ∀ (s : State) (k : CmdKey) (c : Cmd) (x : Ctx),
    (ReadyTarget s k 0x11 c x → quotaOk s.poolMib c.payload = true →
      let which := fieldAt c.payload 10 1
      let lnd := if bit which 0 then fieldAt c.payload 0 4 else x.landingMib
      let y : Ctx := { x with
        sramKib := if bit which 1 then fieldAt c.payload 4 2 else x.sramKib
        maxPlots := if bit which 2 then fieldAt c.payload 6 2 else x.maxPlots
        sliceUs := if bit which 3 then sliceOf (fieldAt c.payload 8 2) else x.sliceUs }
      (s.grantedMib - s.grantOf c.hdrCtx x + max lnd (s.grantOf c.hdrCtx x) ≤ s.poolMib → (bit which 0 = true → s.wholeChargeKib c.hdrCtx ≤ 1024 * lnd) →
        (bit which 1 = true → s.sramChargeKib c.hdrCtx ≤ fieldAt c.payload 4 2) →
        ∃ t, exec (.setQuota k) s = .next t ∧ Answered { s with contexts := kvSet c.hdrCtx y s.contexts } t c stOk
          (leBytes 4 lnd ++ leBytes 2 y.sramKib ++ leBytes 2 y.maxPlots) (if bit which 0 then [.landingQuota c.hdrCtx lnd] else [])) ∧
      (s.poolMib < s.grantedMib - s.grantOf c.hdrCtx x + max lnd (s.grantOf c.hdrCtx x) → ∃ t, exec (.setQuota k) s = .next t ∧ Answered s t c stQuota [] [])) ∧
    (ReadyTarget s k 0x12 c x → c.payload.length = 4 → fieldAt c.payload 1 3 = 0 →
      (fieldAt c.payload 0 1 = 0 → x.cls ≠ .interactive → (∀ t ∈ s.streams, t.2.ctx ≠ c.hdrCtx) →
        ∃ t, exec (.setClass k) s = .next t ∧ Answered s t c stOk [] [.setClass c.hdrCtx .interactive]) ∧
      (fieldAt c.payload 0 1 = 1 → x.cls = .interactive → 256 * max 1 (s.plotsHeld c.hdrCtx) ≤ s.headroomKib c.hdrCtx →
        ∃ t, exec (.setClass k) s = .next t ∧ Answered { s with
          streams := s.streams.map fun q => (q.1, if q.2.ctx = c.hdrCtx then { q.2 with admitted := false, cls := .batch } else q.2)
          searches := s.searches.map fun q => if q.key.context = some c.hdrCtx then { q with interactive := false } else q
          cmds := s.cmds.map fun d => if d.key.context = some c.hdrCtx then { d with covered := false, admitted := false } else d }
          t c stOk [] [.setClass c.hdrCtx .batch]) ∧
      (fieldAt c.payload 0 1 = 0 → x.cls = .interactive →
        ∃ t, exec (.setClass k) s = .next t ∧ Answered s t c stOk [] []))

/-- A CLOSE_CONTEXT that may run, without payload, gives every command of both queues of the context its reply (in a held
session one that its quota does not hold waits with it, R44), turns their replies that have not begun to leave to
CONTEXT_CLOSED, stops its runs and searches, marks the context closing and replies OK, with the number of those commands, in
a reply at whose departure the number becomes free. A QUEUE_RESET of the data queue, the first of its target, ends the
commands of that queue in this way, turns their replies that have not begun to leave to ABORTED_BY_RESET, and marks the
context as being reset until its departure; a second one aborts nothing and answers 0; one of the work queue completes
INVALID_FIELD and aborts nothing. Commands of other contexts stay as they were. -/
def Obligations.ContextEnds : Prop :=
  ∀ (s : State) (k : CmdKey) (c : Cmd) (x : Ctx),
    (ReadyTarget s k 0x13 c x → c.payload = [] →
      ∃ t r, exec (.closeContext k) s = .next t ∧ r ∈ t.replies ∧ r.key = k ∧ r.status = stOk ∧ r.acts = [.freeContext c.hdrCtx] ∧
        r.payload = leBytes 4 (c.tally + s.openCmds c.hdrCtx) ++ leBytes 4 x.landingMib ∧
        kvGet c.hdrCtx t.contexts = some { x with closing := true } ∧
        (∀ d ∈ t.cmds, d.key.context = some c.hdrCtx → d.phase = .replied ∨
          ((s.session k.session).phase = .held ∧ d.phase = .waiting (.quota stContextClosed false [] 0 []))) ∧
        (∀ q ∈ t.replies, q.key.context = some c.hdrCtx → q.reject = false → q.sent = 0 → q.status = stContextClosed) ∧
        (∀ d ∈ s.cmds, d.key.context ≠ some c.hdrCtx → d.key ≠ k → d ∈ t.cmds) ∧
        (∀ q, q ∈ t.runs ↔ q ∈ s.runs ∧ q.ctx ≠ c.hdrCtx) ∧ (∀ q, q ∈ t.searches ↔ q ∈ s.searches ∧ q.key.context ≠ some c.hdrCtx) ∧
        t = { s with
          contexts := t.contexts, cmds := t.cmds, replies := t.replies, nextReply := t.nextReply, free := t.free
          landing := { s.landing with faults := t.landing.faults }, scans := t.scans, trains := t.trains, media := t.media, runs := t.runs
          steps := t.steps, searches := t.searches, indexes := t.indexes, plots := t.plots, links := t.links, wire := t.wire
          sec := { s.sec with vault := t.sec.vault } }) ∧
    (ReadyTarget s k 0x14 c x → c.payload = [] → c.hdrQueue = 0 → c.tally ≠ 1 →
      ∃ t r, exec (.queueReset k) s = .next t ∧ r ∈ t.replies ∧ r.key = k ∧ r.status = stOk ∧ r.acts = [.queueReset c.hdrCtx] ∧
        r.payload = leBytes 4 (s.openOf c.hdrCtx fun q => decide (q.queue = .data)) ∧
        kvGet c.hdrCtx t.contexts = some { x with resetting := true } ∧
        (∀ d ∈ t.cmds, d.key.context = some c.hdrCtx → d.key.queue = .data → d.phase = .replied ∨
          ((s.session k.session).phase = .held ∧ d.phase = .waiting (.quota stAborted false [] 0 []))) ∧
        (∀ d ∈ s.cmds, d.key.context = some c.hdrCtx → d.key.queue = .work → d ∈ t.cmds) ∧
        (∀ q ∈ t.replies, q ∉ s.replies → q.key.queue = .data → q.status = stAborted) ∧
        (∀ q ∈ t.replies, q.key.context = some c.hdrCtx → q.key.queue = .data → q.reject = false → q.sent = 0 → q.status = stAborted) ∧
        t = { s with
          contexts := t.contexts, cmds := t.cmds, replies := t.replies, nextReply := t.nextReply, free := t.free
          landing := { s.landing with faults := t.landing.faults }, scans := t.scans, trains := t.trains, media := t.media
          indexes := t.indexes, sec := { s.sec with vault := t.sec.vault } }) ∧
    (ReadyTarget s k 0x14 c x → c.payload = [] → c.hdrQueue = 0 → c.tally = 1 → ∃ t, exec (.queueReset k) s = .next t ∧
      Answered s t c stOk (leBytes 4 0) []) ∧
    (ReadyTarget s k 0x14 c x → c.hdrQueue = 1 → ∃ t, exec (.queueReset k) s = .next t ∧ Answered s t c stInvalid [] [])

/-- A REG_WRITE that may run, of a value whose fields lie in their stated ranges, completes OK with the fields set and
everything else unchanged: LND_RESERVE_CFG 40 to 70, LND_STREAM_CFG 4 to 32, LND_FERRY_CFG, whose limits each schedule takes
at its next layer boundary, LND_BUCKET_CFG with every level lowered to the new capacity and the leak timer restarted,
SVE_CFG, SVE_DIE_SEL, PLT_SEL, LNK_LANE_SEL and LNK_XSEL. -/
def Obligations.RegisterFields : Prop :=
  ∀ (s : State) (k : CmdKey) (c : Cmd), ReadyAdmin s k 0x06 c → c.payload.length = 8 →
    let off := fieldAt c.payload 0 4
    let v := fieldAt c.payload 4 4
    (off = 0x5030 → 40 ≤ bits v 7 0 → bits v 7 0 ≤ 70 → ∃ t, exec (.lndReserveCfgWrite k) s = .next t ∧
      Answered { s with landing := { s.landing with reservePct := bits v 7 0 } } t c stOk [] []) ∧
    (off = 0x5034 → 4 ≤ bits v 7 0 → bits v 7 0 ≤ 32 → ∃ t, exec (.lndStreamCfgWrite k) s = .next t ∧
      Answered { s with landing := { s.landing with windowLayers := bits v 7 0 } } t c stOk [] []) ∧
    (off = 0x5028 → 10 ≤ bits v 23 16 → bits v 23 16 ≤ 255 → 1 ≤ bits v 15 8 → bits v 15 8 ≤ 16 → bits v 7 4 ≤ 3 →
      1 ≤ bits v 3 0 → bits v 3 0 ≤ bits v 7 4 → ∃ t, exec (.lndFerryCfgWrite k) s = .next t ∧
      Answered { s with landing := { s.landing with
        shallowS := bits v 23 16, lateLimit := bits v 15 8, leadMax := bits v 7 4, leadMin := bits v 3 0 } } t c stOk [] []) ∧
    (off = 0x5010 → 1 ≤ bits v 7 0 → 1 ≤ bits v 23 8 → bits v 23 8 ≤ 3600 → ∃ t, exec (.lndBucketCfgWrite k) s = .next t ∧
      Answered { s with
        landing := { s.landing with
          capacity := bits v 7 0, leakS := bits v 23 8, lastLeak := s.keeper.count
          buckets := s.landing.buckets.map fun b => { b with level := min b.level (bits v 7 0) } }
        plots := { s.plots with list := s.plots.list.map fun p =>
          (p.1, { p.2 with bucket := { p.2.bucket with level := min p.2.bucket.level (bits v 7 0) } }) } } t c stOk [] []) ∧
    (off = 0x6008 → 50 ≤ bits v 23 16 → bits v 23 16 ≤ 95 → 1 ≤ bits v 11 8 → bits v 11 8 ≤ 7 → 16 ≤ bits v 7 0 →
      ∃ t, exec (.sveCfgWrite k) s = .next t ∧ Answered { s with media := { s.media with
        wbHighPct := bits v 23 16, retryMax := bits v 11 8, corrHigh := bits v 7 0 } } t c stOk [] []) ∧
    (off = 0x602C → bits v 4 0 < s.part.diesPerChannel → ∃ t, exec (.sveDieSelWrite k) s = .next t ∧
      Answered { s with media := { s.media with dieSel := bits v 11 0 } } t c stOk [] []) ∧
    (off = 0x7004 → bits v 8 0 < 272 → ∃ t, exec (.pltSelWrite k) s = .next t ∧
      Answered { s with plots := { s.plots with sel := bits v 8 0 } } t c stOk [] []) ∧
    (off = 0x300C → bits v 5 0 < 52 → ∃ t, exec (.lnkSelWrite k) s = .next t ∧
      Answered { s with links := { s.links with laneSel := bits v 5 0 } } t c stOk [] []) ∧
    (off = 0x3018 → bits v 5 0 < 48 → ∃ t, exec (.lnkSelWrite k) s = .next t ∧
      Answered { s with links := { s.links with xSel := bits v 5 0 } } t c stOk [] [])

/-- A REG_WRITE that may run of a value outside a stated range completes INVALID_FIELD and changes nothing but for its reply:
LND_RESERVE_CFG below 40 or above 70, PWR_CAP below 400 W or above 1,250 W, PLT_SEL of 272 or more, SVE_DIE_SEL of a
position at or beyond the dies per channel, LNK_LANE_SEL of 52 or more, and a write to the read-only register IDN_VENDOR. -/
def Obligations.RegisterRangesRefused : Prop :=
  ∀ (s : State) (k : CmdKey) (c : Cmd), ReadyAdmin s k 0x06 c → c.payload.length = 8 →
    let off := fieldAt c.payload 0 4
    let v := fieldAt c.payload 4 4
    (off = 0x5030 → bits v 7 0 < 40 ∨ 70 < bits v 7 0 → ∃ t, exec (.lndReserveCfgWrite k) s = .next t ∧ Answered s t c stInvalid [] []) ∧
    (off = 0x4004 → bits v 15 0 < 400 ∨ 1250 < bits v 15 0 → ∃ t, exec (.pwrCapWrite k) s = .next t ∧ Answered s t c stInvalid [] []) ∧
    (off = 0x7004 → 272 ≤ bits v 8 0 → ∃ t, exec (.pltSelWrite k) s = .next t ∧ Answered s t c stInvalid [] []) ∧
    (off = 0x602C → s.part.diesPerChannel ≤ bits v 4 0 → ∃ t, exec (.sveDieSelWrite k) s = .next t ∧ Answered s t c stInvalid [] []) ∧
    (off = 0x300C → 52 ≤ bits v 5 0 → ∃ t, exec (.lnkSelWrite k) s = .next t ∧ Answered s t c stInvalid [] []) ∧
    (off = 0 → ∃ t, exec (.regWrite k) s = .next t ∧ Answered s t c stInvalid [] [])

/-- A REG_WRITE that may run clears, where the value has a 1: PRT_ALERT.PENDING; the overflow bits of the stacks and the
uncorrectable bits in LND_ERR_STATUS; the overflow bits of the plots of one PLT_OVERFLOW register, here of the first; the
SEC_TAMPER bits while TAMPER_N is released. A write of 1 to a SEC_TAMPER bit while TAMPER_N is asserted completes
LIFECYCLE_DENIED and clears nothing. Nothing else changes. -/
def Obligations.RegisterClears : Prop :=
  ∀ (s : State) (k : CmdKey) (c : Cmd), ReadyAdmin s k 0x06 c → c.payload.length = 8 →
    let off := fieldAt c.payload 0 4
    let v := fieldAt c.payload 4 4
    (off = 0x2004 → bit v 0 = true → ∃ t, exec (.prtAlertClear k) s = .next t ∧ Answered { s with alert := false } t c stOk [] []) ∧
    (off = 0x501C → ∃ t, exec (.lndErrStatusClear k) s = .next t ∧
      Answered { s with landing := { s.landing with
        uncorr := s.landing.uncorr - Nat.land s.landing.uncorr (bits v 13 8)
        buckets := s.landing.buckets.zipIdx.map fun b => if bit v b.2 then { b.1 with overflow := false } else b.1 } } t c stOk [] []) ∧
    (off = 0x7044 → ∃ t, exec (.pltOverflowClear k) s = .next t ∧
      Answered { s with plots := { s.plots with list := s.plots.list.map fun p =>
        if (decide (p.1 < 32) && bit v p.1) then (p.1, { p.2 with bucket := { p.2.bucket with overflow := false } }) else p } } t c stOk [] []) ∧
    (off = 0x8004 → v % 8 ≠ 0 → s.keeper.tamper.asserted = false → ∃ t, exec (.secTamperClear k) s = .next t ∧
      Answered { s with sec := { s.sec with tamperBits := s.sec.tamperBits - Nat.land s.sec.tamperBits (v % 8) } } t c stOk [] []) ∧
    (off = 0x8004 → v % 8 ≠ 0 → s.keeper.tamper.asserted = true → ∃ t, exec (.secTamperClear k) s = .next t ∧
      Answered s t c stLifecycle [] [])

/-- A REG_WRITE that may run: PWR_CAP from 400 W to 1,250 W sets the cap, writes a root set with it, and the CAUSE bits are
settled; ACC_CTRL.RECAL starts a recalibration; PRT_PORT_CFG with both ports left enabled enables both; one that disables
the enabled port it came in on enables the other and leaves the disabling to the departure of its reply; one that disables
another port that is not up and that no train arrives on does so at once, while the port it came in on is up or has lock; a
write that would clear both ENABLE bits completes INVALID_FIELD and leaves them; LNK_CFG sets its two limits. The reply
carries OK but for that refusal. -/
def Obligations.RegisterActs : Prop :=
  ∀ (s : State) (k : CmdKey) (c : Cmd), ReadyAdmin s k 0x06 c → c.payload.length = 8 →
    let off := fieldAt c.payload 0 4
    let v := fieldAt c.payload 4 4
    (off = 0x4004 → 400 ≤ bits v 15 0 → bits v 15 0 ≤ 1250 → ∃ u t, exec (.pwrCapWrite k) s = .next t ∧ Answered u t c stOk [] [] ∧
      PowerSettled { s with power := { s.power with capW := bits v 15 0 }, media := Media.writeRoot false s.media } u) ∧
    (off = 0x9004 → bit v 0 = true → ∃ t, exec (.accCtrlRecal k) s = .next t ∧
      Answered { s with acct := { s.acct with calibrating := true, calibratedAt := s.keeper.count } } t c stOk [] []) ∧
    (off = 0x2008 → v % 4 = 3 → c.port < 2 → ∃ t, exec (.prtPortCfgWrite k) s = .next t ∧
      Answered { s with ports := setAt (setAt s.ports 0 fun p => { p with enabled := true }) 1 fun p => { p with enabled := true } } t c
        stOk [] []) ∧
    (off = 0x2008 → v % 4 ≠ 0 → c.port < 2 → bit v c.port = false → (s.port c.port).enabled = true → ∃ t, exec (.prtPortCfgWrite k) s = .next t ∧
      Answered { s with ports := setAt (setAt s.ports 0 fun p => { p with enabled := true }) 1 fun p => { p with enabled := true } } t c
        stOk [] [.disablePort (v % 4)]) ∧
    (off = 0x2008 → v % 4 ≠ 3 → c.port < 2 → bit v c.port = true → (s.port (1 - c.port)).up = false →
      (s.port c.port).up = true ∨ (s.port c.port).lock = true →
      (∀ d ∈ s.cmds, d.port = 1 - c.port → d.phase ≠ .arriving) → s.ports.length = 2 → ∃ u t, exec (.prtPortCfgWrite k) s = .next t ∧
      u = { s with ports := u.ports } ∧ u.port c.port = { s.port c.port with enabled := true } ∧
      u.port (1 - c.port) = { s.port (1 - c.port) with enabled := false, lost := true } ∧ Answered u t c stOk [] []) ∧
    (off = 0x2008 → v % 4 = 0 → ∃ t, exec (.prtPortCfgWrite k) s = .next t ∧ Answered s t c stInvalid [] []) ∧
    (off = 0x3004 → 1 ≤ bits v 15 8 → 4 ≤ bits v 7 0 → bits v 7 0 ≤ 64 → ∃ t, exec (.regWrite k) s = .next t ∧
      Answered { s with links := { s.links with laneErrLimit := bits v 15 8, retryLimit := bits v 7 0 } } t c stOk [] [])

/-- A REG_READ that may run of 1 to 64 consecutive registers of the window completes OK with four bytes for each, the first as
its requester reads it, and changes nothing but what reading them clears and latches; one out of order completes
INVALID_FIELD. A read of the low half of the keeper count latches its high half for the requesting port: a read of the high
half by that requester gives the latched value whatever the keeper count has become, and by one that has latched nothing the
present one. LO_READ_LATCH is the latching alone, of any of the pairs. -/
def Obligations.RegisterReads : Prop :=
  ∀ (s : State),
    (∀ (k : CmdKey) (c : Cmd), ReadyAdmin s k 0x05 c →
      let off := fieldAt c.payload 0 4
      let n := fieldAt c.payload 4 4
      let fine := c.payload.length = 8 ∧ off % 4 = 0 ∧ 1 ≤ n ∧ n ≤ 64 ∧ off + 4 * n ≤ 0x10000
      (fine → ∃ u t body, exec (.regRead k) s = .next t ∧ Answered u t c stOk body [] ∧ body.length = 4 * n ∧
        body.take 4 = leBytes 4 (s.regFor c.port off) ∧
        u = { s with
          keeper := u.keeper, ports := u.ports, sessions := u.sessions, links := u.links, power := u.power, landing := u.landing
          media := u.media, plots := u.plots, sec := u.sec, acct := u.acct }) ∧
      (¬ fine → ∃ t, exec (.regRead k) s = .next t ∧ Answered s t c stInvalid [] [])) ∧
    (∀ (k : CmdKey) (c : Cmd), ReadyAdmin s k 0x05 c → c.payload.length = 8 → fieldAt c.payload 4 4 = 1 →
      (fieldAt c.payload 0 4 = 0x4018 → ∃ t, exec (.regRead k) s = .next t ∧ Answered s t c stOk (leBytes 4 s.power.deepIdleS) []) ∧
      (fieldAt c.payload 0 4 = 0x1020 → ∃ u t, exec (.regRead k) s = .next t ∧
        Answered u t c stOk (leBytes 4 (s.keeper.count % 2 ^ 32)) [] ∧
        u = { s with keeper := { s.keeper with hiLatch := u.keeper.hiLatch } } ∧
        ∀ n, { u with keeper := { u.keeper with count := n } }.regFor c.port 0x1024 = s.keeper.count / 2 ^ 32 % 2 ^ 32)) ∧
    (∀ who, ∀ p ∈ loHi, ∃ t, exec (.loReadLatch who p.1) s = .next t ∧ t = { s with keeper := { s.keeper with hiLatch := t.keeper.hiLatch } } ∧
      (∀ u : State, u.keeper.hiLatch = t.keeper.hiLatch → u.regFor who p.2 = s.reg p.2)) ∧
    (∀ who, ∃ t, exec (.loReadLatch who 0x1020) s = .next t ∧ t = { s with keeper := { s.keeper with hiLatch := t.keeper.hiLatch } } ∧
      (∀ n, { t with keeper := { t.keeper with count := n } }.regFor who 0x1024 = s.keeper.count / 2 ^ 32 % 2 ^ 32) ∧
      ∀ other, other ≠ who → t.regFor other 0x1024 = s.regFor other 0x1024)

/-- An FW_STAGE with OFFSET 0 that may run outside RETIRED, with its reserved bytes 0, IMAGE_BYTES at most 50,339,760 and no
other session staging, puts the bytes it carries into the slot that was not booted: fewer bytes than IMAGE_BYTES leave that
slot staging for this session, and the reply gives the bytes staged. An image whole in one command makes the slot valid with
the image's version and SVN when it passes the checks of R499; when it fails them, the command completes with the status of
the failure and the slot is empty. A later FW_STAGE whose OFFSET is not the bytes staged so far completes INVALID_FIELD, and
staging stands as it was. The other slot and everything else are unchanged. -/
def Obligations.FirmwareStaged : Prop :=
  ∀ (s : State) (k : CmdKey) (c : Cmd), ReadyAdmin s k 0x07 c → s.sec.life ≠ .retired → 16 ≤ c.payload.length →
    fieldAt c.payload 8 8 = 0 → fieldAt c.payload 4 4 ≤ 50339760 →
    let body := c.payload.drop 16
    let total := fieldAt c.payload 4 4
    let old := if s.sec.booted = 0 then s.sec.slot1 else s.sec.slot0
    let put := fun w : FwSlot => { s with sec := if s.sec.booted = 0 then { s.sec with slot1 := w } else { s.sec with slot0 := w } }
    (fieldAt c.payload 0 4 = 0 → body.length < total → (old.state = .staging → old.session = k.session) →
      ∃ t, exec (.fwStage k) s = .next t ∧
        Answered (put { FwSlot.empty with state := .staging, staged := body, length := total, session := k.session }) t c stOk
          (leBytes 4 body.length ++ leBytes 1 (1 - s.sec.booted) ++ leBytes 1 3 ++ zeros 2) []) ∧
    (fieldAt c.payload 0 4 = 0 → body.length = total → 0 < total → (old.state = .staging → old.session = k.session) →
      (s.imageStatus body = stOk → ∃ t, exec (.fwStage k) s = .next t ∧
        Answered (put (FwSlot.of body)) t c stOk (leBytes 4 body.length ++ leBytes 1 (1 - s.sec.booted) ++ leBytes 1 1 ++ zeros 2) []) ∧
      (s.imageStatus body ≠ stOk → ∃ t, exec (.fwStage k) s = .next t ∧
        Answered (put FwSlot.empty) t c (s.imageStatus body) [] [])) ∧
    (fieldAt c.payload 0 4 ≠ 0 → fieldAt c.payload 0 4 ≠ old.staged.length → ∃ t, exec (.fwStage k) s = .next t ∧
      Answered s t c stInvalid [] [])

/-- An FW_COMMIT in order that may run outside RETIRED, without RESET: TRIAL with a valid image in the slot that was not booted
makes that slot trial-pending; CONFIRM outside recovery mode prefers the booted slot and raises the rollback counter to the
image's SVN; REVERT with a valid image in the other slot whose SVN is at least the rollback counter prefers that slot. The
reply gives the preferred slot and the rollback counter; the slots' images and everything else stay. TRIAL without a valid
image completes INVALID_FIELD and changes nothing. -/
def Obligations.FirmwareCommitted : Prop :=
  ∀ (s : State) (k : CmdKey) (c : Cmd), ReadyAdmin s k 0x08 c → s.sec.life ≠ .retired → s.sec.booted ≤ 1 → c.payload.length = 8 →
    fieldAt c.payload 1 1 = 0 → fieldAt c.payload 2 6 = 0 →
    let other := if s.sec.booted = 0 then s.sec.slot1 else s.sec.slot0
    let own := if s.sec.booted = 0 then s.sec.slot0 else s.sec.slot1
    (fieldAt c.payload 0 1 = 1 → other.state = .valid → ∃ u t, exec (.fwCommitTrial k) s = .next t ∧
      Answered u t c stOk (leBytes 1 s.sec.preferred ++ leBytes 1 s.sec.rollback ++ zeros 6) [] ∧
      u = { s with sec := if s.sec.booted = 0 then { s.sec with slot1 := { other with state := .trialPending } }
        else { s.sec with slot0 := { other with state := .trialPending } } }) ∧
    (fieldAt c.payload 0 1 = 1 → other.state = .empty ∨ other.state = .staging → ∃ t, exec (.fwCommitTrial k) s = .next t ∧
      Answered s t c stInvalid [] []) ∧
    (fieldAt c.payload 0 1 = 2 → s.sec.recovery = false → ∃ u t, exec (.fwCommitConfirm k) s = .next t ∧
      Answered u t c stOk (leBytes 1 s.sec.booted ++ leBytes 1 (max s.sec.rollback own.svn) ++ zeros 6) [] ∧
      u.sec.preferred = s.sec.booted ∧ u.sec.rollback = max s.sec.rollback own.svn ∧ u.sec.trial = false ∧
      u = { s with sec := { s.sec with
        preferred := u.sec.preferred, rollback := u.sec.rollback, trial := false, revoked := u.sec.revoked
        slot0 := { s.sec.slot0 with state := u.sec.slot0.state }, slot1 := { s.sec.slot1 with state := u.sec.slot1.state } } }) ∧
    (fieldAt c.payload 0 1 = 3 → other.state = .valid → s.sec.rollback ≤ other.svn → ∃ t, exec (.fwCommitRevert k) s = .next t ∧
      Answered { s with sec := { s.sec with preferred := 1 - s.sec.booted } } t c stOk
        (leBytes 1 (1 - s.sec.booted) ++ leBytes 1 s.sec.rollback ++ zeros 6) [])

/-- An ATTEST that may run, in order: REPORT in a state other than BLANK answers the report, whose nonce field is the payload's,
followed by a signature of it under the identity key; CERTIFICATE outside BLANK answers the certificate held; CHALLENGE
outside RETIRED answers a fresh challenge (a free value of the model, log entry 6) and keeps it in place of the former one.
Nothing else changes. REPORT in BLANK completes LIFECYCLE_DENIED. -/
def Obligations.Attested : Prop :=
  ∀ (s : State) (k : CmdKey) (c : Cmd), ReadyAdmin s k 0x09 c → attestOk c.payload = true →
    (fieldAt c.payload 0 1 = 1 → c.payload.length = 48 → s.sec.life ≠ .blank → ∃ t, exec (.attestReport k) s = .next t ∧
      Answered s t c stOk (s.report (c.payload.drop 16) ++ signature128f identitySeed (s.report (c.payload.drop 16))) [] ∧
      slice (s.report (c.payload.drop 16)) 52 32 = c.payload.drop 16) ∧
    (fieldAt c.payload 0 1 = 1 → c.payload.length = 48 → s.sec.life = .blank → ∃ t, exec (.attestReport k) s = .next t ∧
      Answered s t c stLifecycle [] []) ∧
    (fieldAt c.payload 0 1 = 2 → c.payload.length = 16 → s.sec.life ≠ .blank → ∃ t, exec (.attestCertificate k) s = .next t ∧
      Answered s t c stOk s.sec.certificate []) ∧
    (fieldAt c.payload 0 1 = 3 → c.payload.length = 16 → s.sec.life ≠ .retired → ∃ t, exec (.attestChallenge k) s = .next t ∧
      Answered { s with free := s.free + 1, sec := { s.sec with challenge := some (bytes256 (Config.challenge s.free)) } } t c stOk
        (bytes256 (Config.challenge s.free)) [])

/-- An UNLOCK in OWNED that may run. With TAMPER_N released, no hold-off and a secret whose verifier is the media set's, it
completes OK with the module unlocked, K derived from the secret in the vault, no failure counted, the key of every volume,
index and model image held in the vault and in every sieve, and the base bound to this module's serial. A wrong secret
completes LIFECYCLE_DENIED with REASON 0x02, counts a failure and, from the fifth running, holds off for 60 s doubling up to
3,600 s. During a hold-off it completes with REASON 0x03, and while TAMPER_N is asserted with REASON 0x04, with nothing
changed. -/
def Obligations.OwnerSecret : Prop :=
  ∀ (s : State) (k : CmdKey) (c : Cmd), ReadyAdmin s k 0x09 c → attestOk c.payload = true → fieldAt c.payload 0 1 = 4 →
    c.payload.length = 48 → s.sec.life = .owned →
    let secret := c.payload.drop 16
    (s.keeper.tamper.asserted = false → s.sec.holdoffEnd ≤ s.keeper.count → verifierOf secret s.sec.kekSalt = s.sec.verifier →
      ∃ t r, exec (.attestUnlock k) s = .next t ∧ r ∈ t.replies ∧ r.key = k ∧ r.status = stOk ∧
        t.sec = { s.sec with
          unlocked := true, kek := wrapKey secret s.sec.kekSalt, baseSerial := s.serial, fails := 0, holdoffEnd := 0, vault := t.sec.vault } ∧
        (∀ n ∈ s.keyNumbers, n ∈ t.sec.vault ∧ ∀ v ∈ t.media.sieves, n ∈ v.keys) ∧ t.contexts = s.contexts ∧ t.links = s.links ∧ t.power = s.power) ∧
    (s.keeper.tamper.asserted = false → s.sec.holdoffEnd ≤ s.keeper.count → verifierOf secret s.sec.kekSalt ≠ s.sec.verifier →
      ∃ t, exec (.attestUnlock k) s = .next t ∧ Answered { s with sec := { s.sec with
          fails := min 255 (s.sec.fails + 1)
          holdoffEnd := if s.sec.fails + 1 < 5 then s.sec.holdoffEnd
            else s.keeper.count + min 3600 (60 * 2 ^ (min 255 (s.sec.fails + 1) - 5)) * countsS } } t c stLifecycle
        (leBytes 1 2 ++ leBytes 1 2 ++ zeros 6) []) ∧
    (s.keeper.tamper.asserted = false → s.keeper.count < s.sec.holdoffEnd → ∃ t, exec (.attestUnlock k) s = .next t ∧
      Answered s t c stLifecycle (leBytes 1 2 ++ leBytes 1 3 ++ zeros 6) []) ∧
    (s.keeper.tamper.asserted = true → ∃ t, exec (.attestUnlock k) s = .next t ∧
      Answered s t c stLifecycle (leBytes 1 2 ++ leBytes 1 4 ++ zeros 6) [])

/-- A TRANSITION that may run, in order: from PROVISIONED to OWNED with no media set and no hold-off, the module is OWNED and
unlocked under a fresh media set that is not 0 and a fresh salt (free values of the model, log entry 6) and the verifier of
the secret, bound to this serial; from OWNED to SERVICE with the owner's secret, the module is in SERVICE and locked, with
no context left. Each raises the count of transitions, voids the challenge and completes OK. From BLANK a target that Table
17-5 does not give, OWNED or SERVICE or RETIRED, completes LIFECYCLE_DENIED with REASON 0x01 and changes nothing. -/
def Obligations.LifeCycleMoves : Prop :=
  ∀ (s : State) (k : CmdKey) (c : Cmd), ReadyAdmin s k 0x09 c → attestOk c.payload = true → fieldAt c.payload 0 1 = 5 →
    (s.sec.life = .provisioned → fieldAt c.payload 1 1 = 2 → c.payload.length = 48 → s.sec.mediaSetId = 0 →
      s.sec.holdoffEnd ≤ s.keeper.count → ∃ t r, exec (.attestTransition k) s = .next t ∧ r ∈ t.replies ∧ r.key = k ∧ r.status = stOk ∧
        t.sec.life = .owned ∧ t.sec.unlocked = true ∧ t.sec.mediaSetId ≠ 0 ∧ t.sec.kekSalt = bytes256 (Config.kekSalt s.free) ∧
        t.sec.verifier = verifierOf (c.payload.drop 16) (bytes256 (Config.kekSalt s.free)) ∧ t.sec.baseSerial = s.serial ∧
        t.sec.transitions = s.sec.transitions + 1 ∧ t.sec.challenge = none ∧ t.free = s.free + 1 ∧ t.contexts = s.contexts) ∧
    (s.sec.life = .owned → fieldAt c.payload 1 1 = 3 → c.payload.length = 48 → s.sec.holdoffEnd ≤ s.keeper.count →
      verifierOf (c.payload.drop 16) s.sec.kekSalt = s.sec.verifier → kvSorted s.contexts = true →
      ∃ t r, exec (.attestTransition k) s = .next t ∧ r ∈ t.replies ∧ r.key = k ∧ r.status = stOk ∧ t.sec.life = .service ∧
        t.sec.unlocked = false ∧ t.sec.kek = [] ∧ t.sec.challenge = none ∧ t.sec.transitions = s.sec.transitions + 1 ∧
        t.contexts = [] ∧ t.keeper = s.keeper ∧ t.ports = s.ports) ∧
    (s.sec.life = .blank → (fieldAt c.payload 1 1 = 2 ∨ fieldAt c.payload 1 1 = 3 ∨ fieldAt c.payload 1 1 = 4) →
      ∃ t, exec (.attestTransition k) s = .next t ∧ Answered s t c stLifecycle (leBytes 1 0 ++ leBytes 1 1 ++ zeros 6) [])

/-- A glitch on a clock or a rail wipes the vault: K is gone and the module is locked, no media key stands in the vault or in a
sieve, the tamper bit of the cause (bit 2 clock, bit 1 rail) is set, the counts of tampers and of wipes go up and TAMPER is
logged. A failed vault line that held K, with K present, likewise clears it and leaves the module locked, and raises
VAULT_FAULT with the entry kind and no TAMPER. Contexts, the map and the write buffer stay as they were. -/
def Obligations.KeysCleared : Prop :=
  ∀ s : State,
    (∀ clock : Bool, ∃ t e, exec (.glitchTamper clock) s = .next t ∧
      t.sec.unlocked = false ∧ t.sec.kek = [] ∧ t.sec.vault = [] ∧ (∀ v ∈ t.media.sieves, v.keys = []) ∧
      t.sec.tamperBits = Nat.lor s.sec.tamperBits (if clock then 4 else 2) ∧ t.sec.tampers = min 65535 (s.sec.tampers + 1) ∧
      t.sec.wipes = min 65535 (s.sec.wipes + 1) ∧ e.code = 0x0602 ∧ Logged s t e ∧ t.contexts = s.contexts ∧
      t.media = { s.media with sieves := t.media.sieves }) ∧
    (s.sec.unlocked = true → ∀ index, ∃ t e, exec (.vaultLineFail 2 index) s = .next t ∧ t.sec.unlocked = false ∧ t.sec.kek = [] ∧
      t.sec.tamperBits = s.sec.tamperBits ∧ t.sec.tampers = s.sec.tampers ∧ t.sec.vaultFaults = min 65535 (s.sec.vaultFaults + 1) ∧
      e.code = 0x0102 ∧ slice e.args 0 1 = [2#8] ∧ Logged s t e ∧ t.contexts = s.contexts ∧
      t.media = { s.media with sieves := t.media.sieves })

/-- The lookups of a command in these segments of the map are answered: each is in the cache, unwritten, or has been read for it (R193). -/
def Known (s : State) (c : Cmd) (segs : List Nat) : Prop := ∀ n ∈ s.missing segs, n ∈ c.segsIn

/-- t is s after lookups that hit: the order of the map cache alone (R193). -/
def LookedUp (s t : State) : Prop := t = { s with media := { s.media with segments := t.media.segments } }

/-- t is s with root sets written: their number, the banks and what stands in the root areas (R203). -/
def RootsWritten (s : State) (n : Nat) (t : State) : Prop :=
  t = { s with media := { s.media with
    rootSeq := s.media.rootSeq + n, bankA := t.media.bankA, bankB := t.media.bankB, rootsLeft := t.media.rootsLeft } }

/-- A READ that may run with the media keys in place, of a range inside a volume that the session's mask lets it in, and whose
results fit: while a lookup that the delta table does not answer misses it waits for the segments of the map; while it lacks
a page of its units it waits for their pages, which are queued on the dies; once it lacks none and every unit has its 65,536
bytes (zeros for an unmapped unit, the write buffer's for a buffered one), it completes OK with the blocks of the range in
order, and in a protected volume their protection fields after them, adds the units to the count of units read and changes
nothing else but the order of the map cache; when it lacks none and some unit is poisoned, it completes MEDIA_UNCORRECTABLE
with the ranges of the poisoned units. -/
def Obligations.ReadReturnsUnits : Prop :=
  ∀ (s : State) (k : CmdKey) (c : Cmd) (x : Ctx) (v : Volume), ReadyCtx s k 0x20 c x → s.keysPresent = true → c.payload.length = 32 →
    let r := rangeDesc c.payload
    let n := r.blocks * (if v.protect then 4104 else 4096)
    let segs := ((r.touched.map fun u => unitKey r.vol u).filter fun n => !s.media.delta.contains n).map segmentOf
    fieldAt c.payload 2 2 = 0 → fieldAt c.payload 16 16 = 0 → r.opts = 0 → 1 ≤ r.blocks → r.blocks ≤ 4080 →
    kvGet r.vol s.media.volumes = some v → bit v.sessions k.session = true → r.first + r.blocks ≤ 16 * v.units →
    s.resultsFit c (kib4 (n + 32 * trainLen n)) = true →
    (¬ Known s c segs → ∃ t miss, exec (.read k) s = .next t ∧ miss ≠ [] ∧ t = { s with
      cmds := withPhase s k (.waiting (.segments miss)), media := { s.media with reads := t.media.reads } }) ∧
    (Known s c segs → (∃ a ∈ s.placesOf r.vol r.touched, a ∉ c.pagesIn) → ∃ t, exec (.read k) s = .next t ∧
      t = { s with
        cmds := withPhase s k (.waiting (.pages (s.placesOf r.vol r.touched)))
        media := { s.media with segments := t.media.segments, reads := t.media.reads } } ∧
      ∀ a ∈ s.placesOf r.vol r.touched, a ∉ c.pagesIn → ∃ q ∈ t.media.reads, q.place = a ∧ q.for_ = .cmd k) ∧
    (Known s c segs → (∀ a ∈ s.placesOf r.vol r.touched, a ∈ c.pagesIn) → (∀ u ∈ r.touched, ∃ d, s.unitData r.vol u = some d ∧ d.length = 65536) →
      ∃ u t data, exec (.read k) s = .next t ∧ LookedUp s u ∧ data.length = 4096 * r.blocks ∧
        (∀ b < r.blocks, ∀ d, s.unitData r.vol ((r.first + b) / 16) = some d →
          slice data (4096 * b) 4096 = slice d (4096 * ((r.first + b) % 16)) 4096) ∧
        Answered { u with media := { u.media with health := { s.media.health with
          hostRead := satAdd 64 s.media.health.hostRead r.units } } } t c stOk (if v.protect then data ++ guards v r data else data) []) ∧
    (Known s c segs → (∀ a ∈ s.placesOf r.vol r.touched, a ∈ c.pagesIn) → (∃ u ∈ r.touched, s.entry r.vol u = some .poisoned) →
      ∃ u t, exec (.read k) s = .next t ∧ LookedUp s u ∧
        Answered u t c stMediaUncorrectable (badReply 0 (r.first + r.blocks) ((s.badUnits c r.vol r.touched).map fun b => r.clip b.1 b.2)) [])

/-- A WRITE that may run with the media keys in place, of a range inside an unprotected volume that lets the session in, with
writes accepted, its lookups answered, no page of a partly covered unit lacking and no such unit poisoned. Without FUA and
with the hold-up store charged: when no hold of R243 applies, it completes OK, each unit it touches then reads as the old
unit with its blocks merged in, every other unit reads as before, and the units written are counted; when a hold applies, it
waits unacknowledged, with no other change but the order of the map cache. WRITE_HOLD_RELEASE of a held WRITE places its
units in the same way and acknowledges it once no hold applies, or completes it MEDIA_UNCORRECTABLE when a unit that it
covers in part has been poisoned; it changes nothing before that. With FUA, or with a weak hold-up store, a WRITE that
nothing holds waits until its units are durable. -/
def Obligations.WriteEntersBuffer : Prop :=
  ∀ (s : State) (k : CmdKey) (c : Cmd) (x : Ctx) (v : Volume),
    let r := rangeDesc c.payload
    let data := slice c.payload 32 (4096 * r.blocks)
    let Merged := fun t : State => ∀ u ∈ r.touched, t.unitData r.vol u = some (mergeUnit r data ((s.unitData r.vol u).getD (zeros 65536)) u)
    let Placed := fun t : State => Answered { s with media := { s.media with
        map := t.media.map, segments := t.media.segments, slots := t.media.slots, journal := t.media.journal, journalAt := t.media.journalAt
        nextSlot := s.media.nextSlot + r.units
        health := { s.media.health with hostWritten := satAdd 64 s.media.health.hostWritten r.units } } } t c stOk [] [.acknowledged k] ∧
      Merged t ∧ ∀ w u, u < 2 ^ 40 → (w = r.vol → u ∉ r.touched) → t.unitData w u = s.unitData w u
    let sync := bit r.opts 0 || s.keeper.holdupWeak
    1 ≤ r.blocks → r.blocks ≤ 4080 → r.first + r.blocks ≤ 16 * v.units → v.units ≤ 2 ^ 40 → r.opts ≤ 1 →
    (∀ e ∈ s.media.map, ∀ n, e.2 = .buffer n → n < s.media.nextSlot) →
    (ReadyCtx s k 0x21 c x → s.keysPresent = true → c.payload.length = 32 + 4096 * r.blocks → fieldAt c.payload 2 2 = 0 →
      fieldAt c.payload 16 16 = 0 → kvGet r.vol s.media.volumes = some v → bit v.sessions k.session = true → v.protect = false →
      s.keeper.writeProtect = false → s.deferredFull = false → s.media.spareOut = false →
      Known s c (segmentRange r.vol r.firstUnit (r.firstUnit + r.units)) →
      (∀ a ∈ s.placesOf r.vol r.partly, a ∈ c.pagesIn) → (∀ u ∈ r.partly, s.entry r.vol u ≠ some .poisoned) →
      (s.holdsWrite r.units = false → sync = false → ∃ t, exec (.write k) s = .next t ∧ Placed t) ∧
      (s.holdsWrite r.units = false → sync = true → ∃ t, exec (.write k) s = .next t ∧ MediaWork s t ∧ Merged t ∧
        ∃ d ∈ t.cmds, d.key = k ∧ d.phase = .waiting (.durable ((List.range r.units).map (s.media.nextSlot + ·)))) ∧
      (s.holdsWrite r.units = true → ∃ u, LookedUp s u ∧ exec (.write k) s = .next { u with cmds := withPhase s k (.waiting .hold) })) ∧
    (findCmd k s = some c → c.phase = .waiting .hold → k.queue ≠ .admin → (s.session k.session).phase = .opened →
      (s.holdsWrite r.units = false → sync = false → (∀ u ∈ r.partly, s.entry r.vol u ≠ some .poisoned) →
        ∃ t, exec (.writeHoldRelease k) s = .next t ∧ Placed t) ∧
      (s.holdsWrite r.units = false → (∃ u ∈ r.partly, s.entry r.vol u = some .poisoned) → ∃ t, exec (.writeHoldRelease k) s = .next t ∧
        Answered s t c stMediaUncorrectable (badReply 0 (r.first + r.blocks) ((s.badUnits c r.vol r.partly).map fun b => r.clip b.1 b.2)) []) ∧
      (s.holdsWrite r.units = true → exec (.writeHoldRelease k) s = .next s))

/-- With the media keys in place, WRITE_PROTECTED not in force, the map in order and lookups answered: a DISCARD that may run
unmaps every unit that its range covers whole and completes OK with their number, and no other map entry changes; a
SECURE_DISCARD of whole units does so and drops their copies in the write buffer: it completes OK at once with no band
erased when no band has held the volume, and waits for the erase of a closed band that has. A VOLUME_DELETE that no earlier
command naming the volume still precedes unmaps every unit of the volume, drops the volume with its write-buffer copies, its
deferred errors and its key in the vault and in the sieves, and completes OK with the number of units, two more root sets
having been written (while no checkpoint is under way, which would write one more). Contexts, other volumes and everything
outside the media, replies and events stay. -/
def Obligations.UnitsUnmapped : Prop :=
  ∀ (s : State) (k : CmdKey) (c : Cmd) (x : Ctx) (v : Volume), s.keysPresent = true → s.keeper.writeProtect = false →
    kvSorted s.media.map = true → kvSorted s.media.volumes = true →
    let r := rangeDesc c.payload
    kvGet r.vol s.media.volumes = some v → bit v.sessions k.session = true → v.units ≤ 2 ^ 40 →
    let inRange := fun u => ceilDiv r.first 16 ≤ u ∧ u < (r.first + r.blocks) / 16
    let segs := segmentRange r.vol r.whole.1 r.whole.2
    (ReadyCtx s k 0x23 c x → c.payload.length = 32 → fieldAt c.payload 2 2 = 0 → fieldAt c.payload 16 16 = 0 → r.opts = 0 →
      1 ≤ r.blocks → r.first + r.blocks ≤ 16 * v.units → Known s c segs →
      ∃ u t, exec (.discard k) s = .next t ∧ Answered u t c stOk (leBytes 8 (s.mappedIn r.vol r.whole.1 r.whole.2).length) [] ∧
        u = { s with media := { s.media with
          map := u.media.map, segments := u.media.segments, journal := u.media.journal, journalAt := u.media.journalAt } } ∧
        (∀ i, inRange i → u.entry r.vol i = none) ∧ (∀ w i, i < 2 ^ 40 → ¬ (w = r.vol ∧ inRange i) → u.entry w i = s.entry w i)) ∧
    (ReadyCtx s k 0x24 c x → c.payload.length = 32 → fieldAt c.payload 2 2 = 0 → fieldAt c.payload 16 16 = 0 → r.opts = 0 →
      1 ≤ r.blocks → r.first + r.blocks ≤ 16 * v.units → r.first % 16 = 0 → r.blocks % 16 = 0 → Known s c segs →
      (∀ d ∈ s.cmds, d.key = k → d = c) →
      ∃ t, exec (.secureDiscard k) s = .next t ∧ MediaWork s t ∧
        (∀ i, inRange i → t.entry r.vol i = none) ∧ (∀ y ∈ t.media.slots, ¬ (y.2.vol = r.vol ∧ inRange y.2.unit)) ∧
        t.media.volumes = s.media.volumes ∧
        ((∀ b ∈ s.media.bands, r.vol ∉ b.2.held) → c.lost = [] → ∃ q ∈ t.replies, q.key = k ∧ q.status = stOk ∧
          q.payload = leBytes 4 (s.mappedIn r.vol r.whole.1 r.whole.2).length ++ leBytes 4 0) ∧
        (∀ b ∈ s.media.bands, kvGet b.1 s.media.bands = some b.2 → r.vol ∈ b.2.held → b.2.state = .closed →
          ∃ d ∈ t.cmds, ∃ left all, d.key = k ∧ d.phase = .waiting (.erased left all) ∧ b.1 ∈ left)) ∧
    (ReadyCtx s k 0x28 c x → c.payload.length = 16 → fieldAt c.payload 1 15 = 0 → s.volumeBusy r.vol c.order = false →
      s.media.check = none → Known s c ((s.media.directory.map (·.1)).filter fun n => decide (n / 2 ^ 21 = r.vol)) →
      ∃ t q, exec (.volumeDelete k) s = .next t ∧ q ∈ t.replies ∧ q.key = k ∧ q.status = stOk ∧
        q.payload = leBytes 8 (s.mappedIn r.vol 0 (2 ^ 40)).length ∧
        (∀ i, i < 2 ^ 40 → t.entry r.vol i = none) ∧ kvGet r.vol t.media.volumes = none ∧
        (∀ w, w ≠ r.vol → kvGet w t.media.volumes = kvGet w s.media.volumes) ∧ (∀ y ∈ t.media.slots, y.2.vol ≠ r.vol) ∧
        (∀ d ∈ t.media.deferred, d.vol ≠ r.vol) ∧ t.media.rootSeq = s.media.rootSeq + 2 ∧
        v.key ∉ t.sec.vault ∧ (∀ y ∈ t.media.sieves, v.key ∉ y.keys) ∧ t.sec = { s.sec with vault := t.sec.vault } ∧ MediaWork { s with sec := t.sec } t)

/-- With the media keys in place and WRITE_PROTECTED not in force: a VOLUME_CREATE in order that may run, of an unused number
and a size that fits the unassigned space, creates the volume with its mask, flags and tag, with a fresh key (a free number
of the model, log entry 6), held in the vault and the sieves and kept wrapped, with two more root sets, answers with the
space left and changes nothing else; a REDUCE_CAPACITY of unassigned units, without SHRINK_VOLUME, lowers the exported
capacity by them, with one more root set, and completes OK; a VERIFY whose lookups are answered, that lacks no page and
finds no poisoned unit completes OK with the number of units of the range, changing nothing but the order of the map cache;
a FLUSH completes OK when none of the units that it covers is in the write buffer, and else waits for them; it leaves the
map and the volumes. -/
def Obligations.VolumesAndCapacity : Prop :=
  ∀ (s : State) (k : CmdKey) (c : Cmd) (x : Ctx), s.keysPresent = true → s.keeper.writeProtect = false →
    (ReadyCtx s k 0x27 c x → c.payload.length = 32 → fieldAt c.payload 1 1 ≤ 3 → fieldAt c.payload 1 1 ≠ 2 → 1 ≤ fieldAt c.payload 2 1 →
      fieldAt c.payload 2 1 < 16 → fieldAt c.payload 3 1 = 0 → fieldAt c.payload 16 16 = 0 →
      kvGet (fieldAt c.payload 0 1) s.media.volumes = none → 1 ≤ fieldAt c.payload 8 8 → fieldAt c.payload 8 8 ≤ s.unassigned →
      ∃ u t, exec (.volumeCreate k) s = .next t ∧
        RootsWritten { s with free := s.free + 1, sec := (holdKey s.free s).sec, media := { (holdKey s.free s).media with
          volumes := kvSet (fieldAt c.payload 0 1) ⟨fieldAt c.payload 8 8, bit (fieldAt c.payload 1 1) 0, bit (fieldAt c.payload 1 1) 1,
            fieldAt c.payload 4 4, fieldAt c.payload 2 1, s.free, s.wrap s.free⟩ s.media.volumes } } 2 u ∧
        s.free ∈ u.sec.vault ∧ (∀ y ∈ u.media.sieves, s.free ∈ y.keys) ∧
        Answered u t c stOk (leBytes 8 (s.unassigned - fieldAt c.payload 8 8)) []) ∧
    (ReadyCtx s k 0x26 c x → c.payload.length = 16 → fieldAt c.payload 1 1 = 0 → fieldAt c.payload 2 6 = 0 → 1 ≤ fieldAt c.payload 8 8 →
      fieldAt c.payload 8 8 ≤ s.unassigned → ∃ u t q, exec (.reduceCapacity k) s = .next t ∧ q ∈ t.replies ∧ q.key = k ∧ q.status = stOk ∧
        slice q.payload 0 8 = leBytes 8 (65536 * (s.media.exported - fieldAt c.payload 8 8)) ∧
        RootsWritten { s with media := { s.media with exported := s.media.exported - fieldAt c.payload 8 8 } } 1 u ∧
        t.media = { u.media with spareOut := t.media.spareOut } ∧ MediaWork s t) ∧
    (ReadyCtx s k 0x25 c x → c.payload.length = 32 →
      let r := rangeDesc c.payload
      let segs := segmentRange r.vol r.firstUnit (r.firstUnit + r.units)
      fieldAt c.payload 2 2 = 0 → fieldAt c.payload 16 16 = 0 → r.opts = 0 → 1 ≤ r.blocks →
      (∃ v, kvGet r.vol s.media.volumes = some v ∧ bit v.sessions k.session = true ∧ r.first + r.blocks ≤ 16 * v.units ∧ v.units ≤ 2 ^ 40) →
      (∀ n ∈ segs, n ∈ c.segsIn) ∨ (Known s c segs ∧ r.units ≤ 2 ^ 32) →
      (∀ i ∈ s.mappedIn r.vol r.firstUnit (r.firstUnit + r.units), s.entry r.vol i ≠ some .poisoned ∧
        ∀ a, s.entry r.vol i = some (.media a) → a ∈ c.pagesIn) →
      ∃ u t, exec (.verify k) s = .next t ∧ LookedUp s u ∧ Answered u t c stOk (leBytes 8 r.units ++ leBytes 8 c.tally) []) ∧
    (ReadyCtx s k 0x22 c x → c.payload.length = 16 → fieldAt c.payload 1 1 ≤ 1 → fieldAt c.payload 2 14 = 0 →
      (∀ d ∈ s.cmds, d.key = k → d = c) →
      (fieldAt c.payload 1 1 = 0 → ∃ v, kvGet (fieldAt c.payload 0 1) s.media.volumes = some v ∧ bit v.sessions k.session = true) →
      let mine := fun y : Nat × Slot => y.1 ∈ c.covers ∧ (fieldAt c.payload 1 1 = 1 ∨ y.2.vol = fieldAt c.payload 0 1)
      ∃ t, exec (.flush k) s = .next t ∧ t.media.map = s.media.map ∧ t.media.volumes = s.media.volumes ∧ MediaWork s t ∧
        ((∀ y ∈ s.media.slots, ¬ mine y) → ∃ q ∈ t.replies, q.key = k ∧ q.status = stOk) ∧
        (∀ y ∈ s.media.slots, mine y → ∃ d ∈ t.cmds, ∃ l, d.key = k ∧ d.phase = .waiting (.durable l) ∧ y.1 ∈ l))

/-- A LOAD_PREDICATE that may run, of at least 80 payload bytes: when handle, target, layout, projection and program obey their
tables, the predicate replaces what the context had under the handle and the reply is OK with the program's length and
RATE_PCT (the record rate that full channel rate stands for is the model's reading: log entry 65); otherwise it completes
INVALID_FIELD and nothing else changes. -/
def Obligations.PredicateLoaded : Prop :=
  ∀ (s : State) (k : CmdKey) (c : Cmd) (x : Ctx), ReadyCtx s k 0x30 c x →
    let p := c.payload
    let n := fieldAt p 2 1
    let l := layoutAt p 16
    let g := p.drop (48 + 4 * n)
    let proj := (List.range n).map fun i => (fieldAt p (48 + 4 * i) 2, fieldAt p (50 + 4 * i) 2)
    let good := 80 ≤ p.length ∧ fieldAt p 0 1 < 32 ∧ fieldAt p 3 13 = 0 ∧ n ≤ 16 ∧ programOk g l = true ∧
      ((fieldAt p 1 1 = 1 ∧ l.ok (fieldAt p 24 8) = true ∧ projOk l proj = true) ∨ (fieldAt p 1 1 = 2 ∧ n = 0 ∧ allZero (slice p 16 32) = true))
    (good → ∃ t, exec (.loadPredicate k) s = .next t ∧
      Answered { s with preds := kvSet (32 * k.ctx + fieldAt p 0 1) ⟨fieldAt p 1 1, l, proj, fieldAt g 2 1, programTerms g⟩ s.preds } t c stOk
        (leBytes 4 g.length ++ leBytes 1 (ratePct l (programTerms g)) ++ zeros 3) []) ∧
    (¬ good → ∃ t, exec (.loadPredicate k) s = .next t ∧ Answered s t c stInvalid [] [])

/-- The lookups that reading these units needs are answered, by the delta table or the map cache, and the pages of those on the media are in. -/
def UnitsIn (s : State) (c : Cmd) (us : List (Nat × Nat)) : Prop :=
  Known s c (((us.map fun u => unitKey u.1 u.2).filter fun n => !s.media.delta.contains n).map segmentOf) ∧
    ∀ u ∈ us, ∀ a ∈ s.placesOf u.1 [u.2], a ∈ c.pagesIn

/-- t is s after a scan has paused: its reads wait until its survivors are drained (R270). -/
def Paused (s t : State) (k : CmdKey) (sieves : List Nat) (staged : Nat) : Prop :=
  t = { s with
    cmds := withPhase s k (.waiting .staging)
    scans := s.scans.map fun r => if r.key = k then { r with sieves := sieves, paused := true, staged := staged } else r }

/-- The head of a scan reply whose units were all taken (Table 8-9): no next place, the entries, results, records examined, malformed
units and result bytes. -/
def scanReplyHead (units : List UnitScan) (ranges results bytes : Nat) : List Byte :=
  leBytes 8 (2 ^ 64 - 1) ++ leBytes 1 0xFF ++ zeros 1 ++ leBytes 2 ranges ++ leBytes 4 results ++
    leBytes 8 (units.map (·.examined)).sum ++ leBytes 4 (units.filter (·.malformed)).length ++ leBytes 4 bytes

/-- A SCAN that may run with the media keys in place, in order, whose predicate was loaded with target 1: received without room
for its amount it completes QUOTA_EXCEEDED. With its amount charged, a place in each predicate engine it needs, its lookups
answered, its pages all in and survivors that fit OUTPUT_MAX: while no unreadable unit stops it and what is staged and not
drained reaches its amount, its reads pause; below that, when every unit is readable it completes OK with the head of Table
8-9 and the survivors in scan order, and the units read are counted; with an unreadable unit and SKIP it completes OK_SHORT
with the survivors of the others; with one and without SKIP it completes MEDIA_UNCORRECTABLE, whatever is staged.
SCAN_READ_RESUME of a paused scan takes what was drained from what is staged, and the scan is received again once that is
below its amount. -/
def Obligations.ScanReturnsSurvivors : Prop :=
  ∀ (s : State) (k : CmdKey) (c : Cmd) (q : Scan), s.scanOf k = some q →
    (∀ x : Ctx, ReadyCtx s k 0x31 c x → s.keysPresent = true → q.pred.target = 1 →
      let p := c.payload
      let n := fieldAt p 1 1
      let most := fieldAt p 4 4
      let es := (extentsAt p 16 n).map (·.1)
      let units := (s.scanUnits es).map fun u => scanUnit q.pred c s u.2.1 u.1 u.2.2
      let seen := units.filter (·.bad.isNone)
      let vs := seen.flatMap (unitSurvivors q.pred)
      let body := vs.flatMap fun v => v.bytes (b2n v.cut)
      let staged := s.stagedKib c q
      scanHeadOk p = true → p.length = 16 + 16 * n → fieldAt p 3 1 = 0 → outputMaxOk most = true → fieldAt p 8 4 = 0 →
      s.extentsOk k.session (extentsAt p 16 n) = true →
      (q.kib = 0 → ∃ t, exec (.scan k) s = .next t ∧ Answered s t c stQuota [] []) ∧
      (q.kib ≠ 0 → (q.sieves ≠ [] ∨ s.enginePlace k (s.scanSieves (s.scanUnits es)) = true) →
      UnitsIn s c ((s.scanUnits es).map (·.2)) → (units.map (survivorBytes q.pred)).sum ≤ most →
      ∃ u t, LookedUp s u ∧ exec (.scan k) s = .next t ∧
      let v := hostReads units.length u
      (((∀ v ∈ units, v.bad = none) ∨ bit (fieldAt p 2 1) 0 = true) → q.kib ≤ staged →
        Paused s t k (s.scanSieves (s.scanUnits es)) staged) ∧
      ((∃ v ∈ units, v.bad ≠ none) → bit (fieldAt p 2 1) 0 = false → ∃ payload, Answered v t c stMediaUncorrectable payload []) ∧
      (staged < q.kib →
        ((∀ v ∈ units, v.bad = none) → Answered v t c stOk (scanReplyHead units 0 vs.length body.length ++ body) []) ∧
        ((∃ v ∈ units, v.bad ≠ none) → bit (fieldAt p 2 1) 0 = true → ∃ ranges payload,
          payload.take (32 + body.length) = scanReplyHead seen ranges vs.length body.length ++ body ∧ Answered v t c stOkShort payload [])))) ∧
    (∀ kib, findCmd k s = some c → c.phase = .waiting .staging → exec (.scanReadResume k kib) s = .next { s with
      scans := s.scans.map fun r =>
        if r.key = k then { r with staged := r.staged - kib, drained := r.drained + kib, paused := decide (r.kib ≤ r.staged - kib) } else r
      cmds := if q.staged - kib < q.kib then withPhase s k .received else s.cmds })

/-- A SCAN_AGGREGATE that may run with the media keys in place, in order, whose predicate was loaded with target 1, whose amount
is charged, with a place in each predicate engine it needs, its lookups answered and its pages all in, its context having
been given a plot where one has room: while no unreadable unit stops it and what is staged for its plots reaches its amount
its reads pause; below that, when every unit is readable it completes OK with the head of Table 8-9 and one result for each
specification over all survivors, the units read are counted and one number of free values is taken for each specification;
with an unreadable unit and without SKIP it completes MEDIA_UNCORRECTABLE. -/
def Obligations.ScanAggregates : Prop :=
  ∀ (s : State) (k : CmdKey) (c : Cmd) (x : Ctx) (q : Scan), ReadyCtx s k 0x33 c x → s.keysPresent = true → s.scanOf k = some q →
    q.pred.target = 1 →
    let p := c.payload
    let n := fieldAt p 1 1
    let m := fieldAt p 3 1
    let es := (extentsAt p 16 n).map (·.1)
    let specs := (List.range m).map fun i => aggAt p (16 + 16 * n + 32 * i)
    let units := (s.scanUnits es).map fun u => scanUnit q.pred c s u.2.1 u.1 u.2.2
    let recs := units.flatMap (·.survivors)
    let body := specs.zipIdx.flatMap fun a => a.1.1.result q.pred.layout (s.free + a.2) recs
    let staged := s.stagedKib c q
    scanHeadOk p = true → 1 ≤ m → m ≤ 8 → p.length = 16 + 16 * n + 32 * m → fieldAt p 4 8 = 0 → (∀ a ∈ specs, a.2 = true) →
    (specs.map fun a => a.1.bins).sum ≤ 16384 → s.extentsOk k.session (extentsAt p 16 n) = true →
    q.kib ≠ 0 → (q.sieves ≠ [] ∨ s.enginePlace k (s.scanSieves (s.scanUnits es)) = true) →
    UnitsIn s c ((s.scanUnits es).map (·.2)) →
    ∃ w u t, Seated s w k.ctx ∧ LookedUp w u ∧ exec (.scanAggregate k) s = .next t ∧
    let v := hostReads units.length u
    (((∀ v ∈ units, v.bad = none) ∨ bit (fieldAt p 2 1) 0 = true) → q.kib ≤ staged → Paused w t k (s.scanSieves (s.scanUnits es)) staged) ∧
    (staged < q.kib → (∀ v ∈ units, v.bad = none) →
      Answered { v with free := s.free + m } t c stOk (scanReplyHead units 0 m body.length ++ body) []) ∧
    ((∃ v ∈ units, v.bad ≠ none) → bit (fieldAt p 2 1) 0 = false → ∃ payload, Answered v t c stMediaUncorrectable payload [])

/-- Units of an index wait in the write buffer as the index has them, each under its number, and no other entry of the map changed (R279, R302; which
unit holds what is log entry 198). -/
def IndexUnits (s t : State) (i : Nat) (x : Index) (us : List Nat) : Prop :=
  (∀ u ∈ us, ∃ n b, t.entry (indexOwner i) u = some (.buffer n) ∧ kvGet n t.media.slots = some b ∧ b.data = x.unitBytes u) ∧
  ∀ n, n ∉ us.map (unitKey (indexOwner i)) → kvGet n t.media.map = kvGet n s.media.map

/-- A reply to the command waits to depart. -/
def Replies (t : State) (c : Cmd) (status : Nat) (payload : List Byte) (acts : List Act) : Prop :=
  ∃ r ∈ t.replies, r.key = c.key ∧ r.status = status ∧ r.payload = payload ∧ r.acts = acts

/-- With the media keys in place and WRITE_PROTECTED not in force: an INDEX_CREATE of a new index in order that may run and fits
the unassigned space and its context's quota makes the index with its units, its Landing charge and a fresh key (a free
number of the model, log entry 6) that the vault and the sieves hold and that is kept wrapped, empty, and writes two root
sets; one that opens an index EMPTY and DORMANT gives it to the context, EMPTY, under the new mask and hot size; one that
opens a DORMANT index charges it to the context at once, waits while lookups or pages of what it loads (which units those
are is log entry 208) are missing, and makes it READY with its hot region once they are in; an INDEX_DROP, with its lookups
answered, by the owner of an index, or by a session that a dormant one lets in, that no earlier live command names, removes
it with its units and its key and answers with its units, two root sets having been written. Nothing else changes but the
command's reply and work on the media that this allows. -/
def Obligations.IndexCreatedAndDropped : Prop :=
  ∀ (s : State) (k : CmdKey) (c : Cmd) (x : Ctx), s.keysPresent = true → s.keeper.writeProtect = false →
    let p := c.payload
    let i := fieldAt p 0 1
    let new := indexOf p k.ctx
    let room := fun mib => (modCmd k (fun d => { d with stagedKib := 0 }) s).fits k.ctx (1024 * mib) = true
    (ReadyCtx s k 0x40 c x → p.length = 64 → fieldAt p 1 1 = 1 → i < 64 → new.fieldsOk p = true → kvGet i s.indexes = none →
      (s.indexes.map fun y => y.2.capacity).sum + new.capacity ≤ 16000000000 → new.unitsFor ≤ s.unassigned →
      room (new.listMib + new.hotCharge) →
      let made := { new with units := new.unitsFor, landMib := new.listMib + new.hotCharge, key := s.free, wrapped := s.wrap s.free }
      ∃ u t, exec (.indexCreateNew k) s = .next t ∧
        RootsWritten { holdKey s.free s with free := s.free + 1, indexes := kvSet i made s.indexes } 2 u ∧
        s.free ∈ u.sec.vault ∧ (∀ y ∈ u.media.sieves, s.free ∈ y.keys) ∧
        Answered u t c stOk (leBytes 8 made.units ++ leBytes 4 made.landMib ++ [IndexState.code .empty] ++ zeros 3) []) ∧
    (∀ old, ReadyCtx s k 0x40 c x → p.length = 64 → fieldAt p 1 1 = 2 → kvGet i s.indexes = some old →
      (old.owner = 1024 ∨ (c.tally = 1 ∧ old.owner = k.ctx)) → fieldAt p 10 1 < 16 →
      let y := { old with sessions := fieldAt p 10 1, hotMib := if fieldAt p 24 4 = 0 then old.hotMib else fieldAt p 24 4 }
      let mib := if old.state = .emptyDormant then y.listMib else y.listMib + y.hotCharge
      let mine := { y with owner := k.ctx, landMib := mib }
      let ready := { mine with state := .ready, hot := mine.hotSet }
      let us := (mine.loads i).map fun u => (u.1, u.2.1)
      let begun := s.cmds.map fun d => if d.key = k then { d with tally := 1 } else d
      room mib →
      (old.state = .emptyDormant → ∃ t, exec (.indexCreateOpen k) s = .next t ∧
        Answered { s with indexes := kvSet i { mine with state := .empty } s.indexes } t c stOk { mine with state := .empty }.created []) ∧
      (old.state = .dormant → UnitsIn s c us → ∃ u t, LookedUp s u ∧ exec (.indexCreateOpen k) s = .next t ∧
        Answered { u with cmds := begun, indexes := kvSet i ready s.indexes } t c stOk ready.created []) ∧
      (old.state = .dormant → ¬ UnitsIn s c us → ∃ t, exec (.indexCreateOpen k) s = .next t ∧
        t = { s with
          cmds := t.cmds, indexes := kvSet i mine s.indexes
          media := { s.media with segments := t.media.segments, reads := t.media.reads } } ∧
        ∃ d, findCmd k t = some d ∧ d.tally = 1 ∧ ((∃ a, d.phase = .waiting (.segments a)) ∨ ∃ a, d.phase = .waiting (.pages a)))) ∧
    (∀ old, ReadyCtx s k 0x46 c x → p.length = 8 → fieldAt p 1 7 = 0 → kvGet i s.indexes = some old → s.indexNamed i c.order = false →
      (if old.state = .dormant ∨ old.state = .emptyDormant then bit old.sessions k.session = true else old.owner = k.ctx ∧ old.ending = none) →
      Known s c ((s.media.directory.map (·.1)).filter fun n => decide (n / 2 ^ 21 = indexOwner i)) →
      ∃ t, exec (.indexDrop k) s = .next t ∧ MediaWork { s with sec := t.sec, indexes := kvDel i s.indexes } t ∧
        t.sec = { s.sec with vault := t.sec.vault } ∧ old.key ∉ t.sec.vault ∧ (∀ y ∈ t.media.sieves, old.key ∉ y.keys) ∧
        s.media.rootSeq + 2 ≤ t.media.rootSeq ∧ (kvSorted s.media.map = true → ∀ u < 2 ^ 40, t.entry (indexOwner i) u = none) ∧
        (∀ o u, o ≠ indexOwner i → u < 2 ^ 40 → t.entry o u = s.entry o u) ∧ Replies t c stOk (leBytes 8 old.units) [])

/-- By the owner of an index, with the media keys in place, WRITE_PROTECTED not in force and spares left: an INDEX_BUILD in
order whose hot region fits, whose lookups are answered and whose pages are in: with its units readable it builds the index
from the records whose vector it can take, writes its units, adds its hot region to the charge and replies with the vectors
built, skipped and read, the index BUILDING until that reply departs; with an unreadable unit and without SKIP it leaves the
index EMPTY and completes MEDIA_UNCORRECTABLE; an INSERT in order with room in CAPACITY and in the silt list gives each
entry a slot that held no vector, makes all entries live in the silt list in one step, changes no other slot, writes their
units and the silt list's, and waits until those are durable; one that would pass SILT_MAX is held and starts a pass when
none runs, and INSERT_HOLD_RELEASE places it once there is room; a DELETE sets the tombstone of each named vector that is
live and not tombstoned, changes no other vector, and waits until what it journaled is durable, or answers at once when
there is none. -/
def Obligations.IndexFilled : Prop :=
  ∀ (s : State) (k : CmdKey) (c : Cmd) (x : Index), s.writeProtected = false → s.media.spareOut = false →
    let p := c.payload
    let i := fieldAt p 0 1
    let n := fieldAt p 4 4
    let slots := s.freeSlots i x n
    let Placed := fun t : State => ∃ (y : Index) (d : Cmd), MediaWork { s with indexes := kvSet i y s.indexes } t ∧
      IndexUnits s t i y (y.unitsOf slots ++ [y.siltAt]) ∧ findCmd k t = some d ∧ d.ids = slots ∧
      d.phase = .waiting (.durable ((List.range ((y.unitsOf slots).length + 1)).map (s.media.nextSlot + ·))) ∧
      y = { x with nodes := y.nodes, quarantine := y.quarantine, siltList := x.siltList ++ slots } ∧
      (∀ j < n, ∀ e, (x.entries p n)[j]? = some e → kvGet (slots.getD j 0) y.nodes = some (x.node e.1 e.2.1 e.2.2.1 e.2.2.2 true)) ∧
      (∀ j, j ∉ slots → kvGet j y.nodes = kvGet j x.nodes) ∧
      ∀ j ∈ slots, ∀ d, kvGet j x.nodes = some d → d.removed = true
    (∀ z : Ctx, ReadyCtx s k 0x41 c z → s.keysPresent = true → s.ownedIndex c = some x → (x.state = .empty ∨ (x.state = .building ∧ c.tally = 1)) →
      State.Still { s with indexes := kvDel i s.indexes } →
      let m := fieldAt p 1 1
      let es := (extentsAt p 64 m).map (·.1)
      let record := fieldAt p 4 4
      let q : Pred := ⟨1, ⟨1, 0, 0, 0, record, List.replicate 16 0⟩, [], 0, []⟩
      let units := (s.scanUnits es).map fun u => scanUnit q c s u.2.1 u.1 u.2.2
      let all := units.flatMap fun u => u.survivors.map fun r => x.buildRecord p u.unit r.ord r.body
      let vs := all.filterMap id
      let hot := x.listMib + x.hotCharge - x.landMib
      p.length = 64 + 16 * m → 1 ≤ m → m ≤ 16 → fieldAt p 2 1 ≤ 1 → fieldAt p 3 1 = 0 → 8 ≤ record → record ≤ 65536 →
      fieldAt p 52 4 ≤ 16777216 → fieldAt p 56 8 = 0 → s.extentsOk k.session (extentsAt p 64 m) = true →
      (s.scanUnits es).length * (65536 / record) ≤ x.capacity →
      (modCmd k (fun d => { d with stagedKib := 0 }) s).fits k.ctx (1024 * hot) = true →
      UnitsIn s c ((s.scanUnits es).map (·.2)) →
      let built := { x.built s.free (fieldAt p 52 4) vs with state := .building, landMib := x.landMib + hot }
      ∃ w t, Seated s w k.ctx ∧ exec (.indexBuild k) s = .next t ∧
        ((∀ v ∈ units, v.bad = none) → MediaWork { w with free := s.free + 1, indexes := kvSet i built s.indexes } t ∧
          IndexUnits s t i built (built.unitsOf (List.range vs.length) ++
            (List.range (built.siltAt + 1 - built.codebookAt)).map (built.codebookAt + ·)) ∧
          Replies t c stOk (leBytes 8 vs.length ++ leBytes 8 (all.length - vs.length) ++ leBytes 8 all.length ++ leBytes 2 0 ++ zeros 6)
            [.indexReady i]) ∧
        ((∃ v ∈ units, v.bad ≠ none) → bit (fieldAt p 2 1) 0 = false → (∀ d ∈ s.cmds, d.opcode = 0x41 → d.tally = 1 → d.key = k) →
          (∀ r ∈ s.replies, Act.indexReady i ∉ r.acts) → MediaWork { w with free := s.free + 1, indexes := kvSet i x.unbuilt s.indexes } t ∧
          ∃ payload, Replies t c stMediaUncorrectable payload [])) ∧
    (∀ z : Ctx, ReadyCtx s k 0x42 c z → s.keysPresent = true → s.ownedIndex c = some x → x.state = .ready → fieldAt p 1 3 = 0 →
      fieldAt p 8 8 = 0 → p.length = 16 + n * x.insertBytes → (∀ e ∈ x.entries p n, x.vectorOk e.1 = true) → slots.length = n →
      (x.siltList.length + n ≤ x.siltMax → ∃ t, exec (.insert k) s = .next t ∧ Placed t) ∧
      (x.siltMax < x.siltList.length + n → ∃ t, exec (.insert k) s = .next t ∧
        Settled { s with cmds := withPhase s k (.waiting (.silt i)), indexes := t.indexes } t ∧
        ∀ y, kvGet i t.indexes = some y → y.pass.isSome = true ∧ y = { x with pass := y.pass })) ∧
    (findCmd k s = some c → c.phase = .waiting (.silt i) → k.queue ≠ .admin → (s.session k.session).phase = .opened →
      kvGet i s.indexes = some x → slots.length = n → x.siltList.length + n ≤ x.siltMax →
      ∃ t, exec (.insertHoldRelease k) s = .next t ∧ Placed t) ∧
    (∀ z : Ctx, ReadyCtx s k 0x43 c z → s.keysPresent = true → s.ownedIndex c = some x → x.state = .ready → fieldAt p 1 3 = 0 →
      fieldAt p 8 8 = 0 → p.length = 16 + 8 * n →
      let ids := (List.range n).map fun j => fieldAt p (16 + 8 * j) 8
      let hit := (ids.dedup.filter fun j => (kvGet j x.nodes).any (·.alive)).length
      (hit = 0 → ∃ t, exec (.delete k) s = .next t ∧ Answered s t c stOk (leBytes 8 0 ++ leBytes 8 n) []) ∧
      (0 < hit → ∃ t nodes d, exec (.delete k) s = .next t ∧ MediaWork { s with indexes := kvSet i { x with nodes := nodes } s.indexes } t ∧
        findCmd k t = some d ∧ d.tally = hit ∧ d.phase = .waiting (.journaled (s.journalNext + hit)) ∧
        ∀ j, kvGet j nodes = (kvGet j x.nodes).map fun d => if d.alive ∧ j ∈ ids then { d with tomb := true } else d))

/-- A SETTLE in order by the owner of a READY index waits for a pass. A pass that is due takes the live silt entries that are
committed and the tombstoned slots present at its start. At a tile boundary of a plot on which it runs it links its entries:
no node has more than DEGREE neighbours, none leads to a tombstoned node that the pass took, and its entries are silt no
more. Publishing it, once that is done, while it stands on a plot, writes are allowed and no interactive pressure pauses it,
journals it, removes the tombstoned slots it took, takes its entries out of the silt list, ends the pass, and answers every
SETTLE received before it started whose session is open; the index's other fields, the other indexes and everything outside
the commands, the replies and the journal stay. -/
def Obligations.IndexSettles : Prop :=
  ∀ (s : State) (i : Nat) (x : Index), kvGet i s.indexes = some x →
    (∀ (k : CmdKey) (c : Cmd) (z : Ctx), ReadyCtx s k 0x45 c z → s.keysPresent = true → s.ownedIndex c = some x → x.state = .ready →
      c.payload.length = 8 → fieldAt c.payload 0 1 = i → fieldAt c.payload 1 7 = 0 → s.media.spareOut = false →
      exec (.settle k) s = .next { s with cmds := withPhase s k (.waiting (.settled i)) }) ∧
    (s.settleDue i x = true → ∃ (pass : Pass) (t : State), exec (.settlingPassStart i) s = .next t ∧
      Settled { s with indexes := kvMod i (fun y => { y with pass := some pass }) s.indexes } t ∧ pass.started = s.nextOrder ∧
      pass.links = none ∧ (∀ j, j ∈ pass.linked ↔ j ∈ x.siltList ∧ j ∉ s.uncommitted i ∧ ∃ d, kvGet j x.nodes = some d ∧ d.alive = true) ∧
      ∀ j, j ∈ pass.tombs ↔ ∃ d, (j, d) ∈ x.nodes ∧ d.tomb = true ∧ d.removed = false) ∧
    (∀ (p : Pass) (plot ran : Nat), x.pass = some p → p.links = none → x.ending = none → x.state = .ready →
      (s.plot plot).running = some (1024 + i) →
      ∃ t y, exec (.tileBoundary plot ran) s = .next t ∧ kvGet i t.indexes = some y ∧ y = { x with nodes := y.nodes, pass := y.pass } ∧
        (∃ n, y.pass = some { p with links := some n }) ∧ y.nodes.map (·.1) = x.nodes.map (·.1) ∧
        (∀ e ∈ y.nodes, e.2.nbrs.length ≤ x.degree ∧ ((∀ j ∈ p.linked, j ∉ p.tombs) → ∀ f ∈ e.2.nbrs, f.1 ∉ p.tombs) ∧
          (e.1 ∈ p.linked → (∃ d, (e.1, d) ∈ x.nodes ∧ d.alive = true) → e.2.silt = false))) ∧
    (∀ p : Pass, x.pass = some p → p.links.isSome = true → 0 < s.plotsHeld (1024 + i) → s.settles i = true →
      ∃ t y, exec (.settlingPublish i) s = .next t ∧
        t = { s with
          indexes := kvSet i y s.indexes, cmds := t.cmds, replies := t.replies, nextReply := t.nextReply
          media := { s.media with journal := .pass i p.linked p.tombs :: s.media.journal, journalAt := t.media.journalAt }
          landing := { s.landing with faults := t.landing.faults }, scans := t.scans, trains := t.trains } ∧
        y = { x with
          nodes := y.nodes, hot := y.hot, pass := none, siltList := y.siltList
          quarantine := x.quarantine ++ p.tombs.map fun j => (j, s.nextOrder) } ∧
        (∀ j, j ∈ y.siltList ↔ j ∈ x.siltList ∧ j ∉ p.linked ∧ j ∉ p.tombs) ∧ y.nodes.map (·.1) = x.nodes.map (·.1) ∧
        (∀ e ∈ y.nodes, e.1 ∈ p.tombs → e.2.removed = true ∧ e.2.live = false) ∧
        (∀ j, j ∉ p.tombs → kvGet j y.nodes = kvGet j x.nodes) ∧
        ∀ c ∈ s.cmds, c.phase = .waiting (.settled i) → c.order < p.started → (s.session c.key.session).phase = .opened →
          ∃ r ∈ t.replies, r.key = c.key ∧ r.status = stOk ∧ slice r.payload 8 8 = leBytes 8 p.tombs.length)

/-- A SEARCH in order, of a READY index that lets its session in, with the media keys in place, whose entry node exists under no
bad line of tombstones, and whose context has a plot that can take it or an image outside the plots, waits for the record of
the entry node as its first round, which it has read unless it stands in the hot region, with the fields it asked for and
every segment of the silt list to sweep. Data that a search awaits and that has been read returns to it: while the engine of
its plot works on something else it is kept; a free engine of a plot that runs the context takes it at once, and a walk that
still awaits more goes on with the match and the neighbours that a readable record gives, and with none from an unreadable
one. At the deadline an interactive walk ends: with its silt sweep done it reads the vectors of its RERANK × K nearest
matches, or is answered OK or OK_SHORT when there are none to read and its results fit; else it waits for the sweep. -/
def Obligations.SearchWalks : Prop :=
  ∀ (s : State) (k : CmdKey) (c : Cmd) (x : Index),
    (∀ z : Ctx, ReadyCtx s k 0x44 c z → s.keysPresent = true →
      let p := c.payload
      let b := fun i => fieldAt p i 1
      let n := fieldAt p 4 2
      let vlen := x.dim * typeWidth (b 3)
      let g := p.drop (64 + vlen)
      let none_ : Layout := ⟨0, 0, 0, 0, 0, []⟩
      let placed := seat k.ctx 1 s
      kvGet (b 0) s.indexes = some x → x.state = .ready → x.ending = none → bit x.sessions k.session = true → (∀ r ∈ s.searches, r.key ≠ k) →
      64 ≤ p.length → b 3 ∈ [9, 10, 11] → p.length = 64 + vlen + fieldAt p 20 4 → (b 1 = 2 ∨ fieldAt p 20 4 = 0) → 1 ≤ n → n ≤ 1024 →
      (fieldAt p 6 2 = 0 ∨ (n ≤ fieldAt p 6 2 ∧ fieldAt p 6 2 ≤ 1024)) → b 8 ≤ 64 → (b 10 ≤ 4 ∨ b 10 = 0xFF) → b 11 ≤ 1 → fieldAt p 24 40 = 0 →
      (b 1 = 0 ∨ (b 1 = 1 ∧ ∃ q, s.scanOf k = some q ∧ q.pred.target = 2) ∨ (b 1 = 2 ∧ programOk g none_ = true)) →
      (c.admitted = false ∨ x.siltMax ≤ 1048576) → 1 ≤ x.width → 1 ≤ x.hopMax → (∃ e, kvGet x.entry x.nodes = some e) → x.badSlot x.entry = false →
      ((placed.searchPlot k.ctx z.sramKib (b 0)).isSome = true ∨ ∃ i ∈ placed.plots.images, i.ctx = k.ctx) →
      ∃ t q, exec (.search k) s = .next t ∧
        Seated { s with
          free := s.free + 1, searches := s.searches ++ [q], scans := s.scans.filter fun r => decide (r.key ≠ k)
          media := { s.media with reads := t.media.reads }, cmds := withPhase s k (.waiting (.search (b 0))) } t k.ctx ∧
        (x.entry ∉ x.hot → ∀ a, s.entry (indexOwner (b 0)) (x.entry / 16) = some (.media a) →
          ∃ r ∈ t.media.reads, r.place = a ∧ r.for_ = .search k x.entry) ∧
        q.key = k ∧ q.index = b 0 ∧ q.k = n ∧ q.query = slice p 64 vlen ∧ q.qType = b 3 ∧ q.interactive = c.admitted ∧
        q.arrived = c.arrived ∧ q.phase = .walk ∧ q.awaiting = [x.entry] ∧ q.rounds = 1 ∧ q.cut = false ∧ q.free = s.free ∧
        q.sweep = x.segments ∧ q.matches_ = [] ∧ q.read = [] ∧ q.returned = []) ∧
    (∀ (q : Search) (id : Nat) (ok around : Bool), s.searches.find? (fun r => decide (r.key = k)) = some q → kvGet q.index s.indexes = some x →
      k.queue ≠ .admin → q.awaits id = true → s.hasRead q id ok around = true →
      (2 ^ 40 ≤ id → siltId (s.sweepAt q.plot q.index) = id) → q.plot < 272 → (s.plot q.plot).running = some k.ctx →
      ∃ t, exec (.searchDataReturn k id ok around) s = .next t ∧
        ((∃ f ∈ (s.plot q.plot).flights, f.unit = 4) → t = { s with
          searches := s.searches.map fun r =>
            if r.key = k then { q with read := q.read.filter fun d => decide (d.1 ≠ id), returned := q.returned ++ [(id, ok, around)] } else r
          plots := t.plots, acct := t.acct }) ∧
        ((∀ f ∈ (s.plot q.plot).flights, f.unit ≠ 4) → (∀ r ∈ s.searches, r.returned = []) → s.stalled k = false → q.phase = .walk →
          id < 2 ^ 40 → x.badSlot id = false → (∃ j ∈ q.awaiting, j ≠ id) →
          let w := { q with read := q.read.filter fun d => decide (d.1 ≠ id), awaiting := q.awaiting.filter fun j => decide (j ≠ id) }
          t = { s with
            searches := s.searches.map fun r => if r.key = k then (if ok then visit w x id else w) else r
            cmds := s.cmds.map fun d => if d.key = k then { d with ra := d.ra || around } else d
            media := if ok then s.media else (bumpErr 4 1 s).media
            plots := t.plots, acct := t.acct })) ∧
    (∀ q : Search, s.searches.find? (fun r => decide (r.key = k)) = some q → kvGet q.index s.indexes = some x → q.interactive = true →
      q.phase = .walk → q.arrived + 95000 ≤ s.now →
      let ids := (q.matches_.take (q.rerank * q.k)).map (·.id)
      let left := q.returned.filter fun d => decide (2 ^ 40 ≤ d.1)
      (q.sweep ≠ [] → exec (.searchDeadline k) s = .next { s with
        searches := s.searches.map fun r => if r.key = k then { q with cut := true, phase := .sweep, awaiting := [], read := [], returned := left } else r }) ∧
      (q.sweep = [] → ids ≠ [] → ∃ t, exec (.searchDeadline k) s = .next t ∧ t = { s with
        searches := s.searches.map fun r =>
          if r.key = k then { q with cut := true, phase := .rerank, awaiting := ids, read := [], returned := left } else r
        media := { s.media with reads := t.media.reads } }) ∧
      (q.sweep = [] → ids = [] → findCmd k s = some c → k.queue ≠ .admin → (s.session k.session).phase = .opened → q.k ≤ 1024 →
        s.resultsFit c (kib4 (24 * q.k + 56)) = true →
        ∃ t, ∃ r ∈ t.replies, exec (.searchDeadline k) s = .next t ∧ r.key = k ∧ (r.status = stOk ∨ r.status = stOkShort)))

/-- A stream from flash has gone through the stream check units (R182, R402): it matched, or matched after a rebuild, or did not, which is counted. Which
of these is a free value of the model (log entries 165 and 201). u is s after it. -/
def Checked (s : State) (good : Bool) (u : State) : Prop :=
  let t := { s with free := s.free + 1 }
  (Config.storeGood s.free = true ∧ good = true ∧ u = t) ∨
  (Config.storeGood s.free = false ∧ Config.storeRepaired s.free = true ∧ good = true ∧
    u = { t with media := { s.media with chkRepaired := satAdd 16 s.media.chkRepaired 1 } }) ∨
  (Config.storeGood s.free = false ∧ Config.storeRepaired s.free = false ∧ good = false ∧
    u = bumpErr 7 1 { t with media := { s.media with chkMismatch := satAdd 16 s.media.chkMismatch 1 } })

/-- The tiles of a model on a slot stand ready, layer by layer, for a step of these commands on a plot that runs it, or one is missing (R45, R46). -/
def StepReady (s : State) (slot : Nat) (m : Model) (batch : Bool) (keys : List CmdKey) (missing : Option Nat) : Prop :=
  ∃ x p, s.stepOf slot m batch keys = some x ∧ s.runsOn x.ctx = some p ∧ s.firstMissing x m p = missing

/-- u is s after a step of these commands has read all layers: their ferries, the schedule's place and the step itself. -/
def LayersRead (s u : State) (keys : List CmdKey) : Prop :=
  u = { s with
    acct := u.acct, plots := { s.plots with list := u.plots.list }, landing := { s.landing with schedules := u.landing.schedules }
    steps := s.steps.filter fun y => decide (y.keys ≠ keys) }

/-- With the media keys in place: a MODEL_LOAD in order that may run places a checked image (imported from its extent, whose
lookups and pages are in and whose copy reads back, or stored in the slot) when its members can be reached and its charges
fit: the slot holds the model, PLACING, with the image, the loader, its count of placements and the shard that the policy
gives, two root sets are written for an image that the media did not hold, a ferry schedule starts, and the command waits,
or with EARLY completes at once. An image whose copy from flash does not pass the stream checks completes
MEDIA_UNCORRECTABLE (whether it does is a free value of the model, log entry 165), and one that is stored anew takes a fresh
key, kept wrapped. A query answers with the slot's state and changes nothing. The end of placement, when no line of the
model is being refetched, makes the model PLACED, releases its window and answers every command that waits for it. A
MODEL_UNLOAD by the loader, after every earlier command that names the model, closes the model's streams, leaves it STORED,
or EMPTY when it is dropped, and answers with the streams closed and the MiB released; a stored image is dropped in the same
way, two root sets having been written. -/
def Obligations.ModelPlaced : Prop :=
  ∀ (s : State) (k : CmdKey) (c : Cmd) (x : Ctx), s.keysPresent = true →
    let p := c.payload
    let slot := fieldAt p 1 1
    let group := fieldAt p 4 4
    let s0 : State := modCmd k (fun d => { d with stagedKib := 0 })
      { s with models := kvMod slot (fun m => { m with homeKib := 0, windowKib := 0 }) s.models }
    let held := fun image : List Byte => (kvGet slot s.models).any fun o => decide (o.image = image)
    let batch := if x.cls = .batch then 256 else 0
    let Fits := fun (image : List Byte) (pl : Placing) =>
      ((group = 0 ∧ pl = ⟨0, 0, imgLayers image - 1, 1⟩) ∨
        (group ≠ 0 ∧ fieldAt p 8 1 ≤ s.upCrossings.length + 1 ∧ s0.placing image (s0.headroomKib k.ctx - batch) (fieldAt p 8 1) = some pl)) ∧
      s0.fits k.ctx (pl.kib image s.landing.windowLayers) = true
    let Placing_ := fun (base : State) (image : List Byte) (pl : Placing) (t : State) => ∃ m u,
      m.state = .placing ∧ m.image = image ∧ m.units = ceilDiv image.length 65536 ∧ m.loader = k.ctx ∧ m.sessions = fieldAt p 3 1 ∧
      m.placement = pl.placement ∧ m.firstLayer = pl.first ∧ m.lastLayer = pl.last ∧ m.shards = pl.shards ∧ m.ending = none ∧
      m.count = (((kvGet slot s.models).map (·.count)).getD 0 + if (kvGet slot s.models).any fun o => decide (o.state = .unavailable) then 0 else 1) % 2 ^ 26 ∧
      m.homeKib + m.windowKib = pl.kib image s.landing.windowLayers ∧
      let keyed := if held image then base
        else { holdKey base.free ((kvGet slot s.models).elim base fun o => dropKey o.key base) with free := base.free + 1 }
      (held image = false → m.key = base.free ∧ m.wrapped = s.wrap base.free) ∧
      RootsWritten { keyed with models := kvSet slot m s.models, landing := { s.landing with schedules := u.landing.schedules } }
        (if held image then 0 else 2) u ∧
      (bit (fieldAt p 2 1) 0 = true → Answered u t c stOk (modelReply slot (some m)) []) ∧
      (bit (fieldAt p 2 1) 0 = false →
        t = { u with cmds := s.cmds.map fun d => if d.key = k then { d with phase := .waiting (.placed slot), stagedKib := 0 } else d })
    (ReadyCtx s k 0x50 c x → modelLoadOk p = true → s.unloadAhead slot c.order = false →
      (∀ pl, let e := extentAt p 16
        let us := (List.range e.1.units).map (e.1.first + ·)
        let image := (s.extentData e.1).take (fieldAt (s.extentData e.1) 56 8)
        fieldAt p 0 1 = 1 → s.extentsOk k.session [e] = true → s.keeper.writeProtect = false → s.media.spareOut = false →
        UnitsIn s c (us.map fun u => (e.1.vol, u)) →
        s.badUnits c e.1.vol us = [] → imgOk image = true →
        (∀ m, s.modelIn slot = some m → m.state = .unavailable ∧ imgSame m.image image = true ∧ m.loader = k.ctx) →
        ceilDiv image.length 65536 ≤ s.unassigned + ((s.modelIn slot).map (·.units)).getD 0 → Fits image pl →
        ∃ good l u t, LookedUp s l ∧ Checked l good u ∧ exec (.modelLoadImport k) s = .next t ∧
          (good = true → Placing_ u image pl t) ∧ (good = false → Answered u t c stMediaUncorrectable [] [])) ∧
      (∀ m pl, fieldAt p 0 1 = 2 → s.modelIn slot = some m → (m.state = .stored ∨ (m.state = .unavailable ∧ m.loader = k.ctx)) → Fits m.image pl →
        ∃ good u t, Checked s good u ∧ exec (.modelLoadPlace k) s = .next t ∧
          (good = true → Placing_ u m.image pl t) ∧ (good = false → Answered u t c stMediaUncorrectable [] [])) ∧
      (fieldAt p 0 1 = 3 → ∃ t, exec (.modelLoadQuery k) s = .next t ∧ Answered s t c stOk (modelReply slot (kvGet slot s.models)) [])) ∧
    (∀ n m, kvGet n s.models = some m → m.state = .placing → s.refetchingModel n = false → ∃ t, exec (.modelPlacementEnd n) s = .next t ∧
      let m' := { m with state := .placed, windowKib := 0 }
      t = { s with
        models := kvSet n m' s.models, power := { s.power with idleSince := s.now }, cmds := t.cmds, replies := t.replies
        nextReply := t.nextReply, landing := { s.landing with faults := t.landing.faults }, scans := t.scans, trains := t.trains } ∧
      ∀ d ∈ s.cmds, d.phase = .waiting (.placed n) → (s.session d.key.session).phase = .opened →
        ∃ r ∈ t.replies, r.key = d.key ∧ r.status = stOk ∧ r.payload = modelReply n (some m')) ∧
    (∀ n m, ReadyCtx s k 0x51 c x → p.length = 8 → fieldAt p 5 1 ≤ 1 → fieldAt p 6 2 = 0 → n < 64 → s.modelBusy n c.order = false →
      s.modelIn n = some m → kvSorted s.streams = true →
      let h := fieldAt p 0 4
      let drop := fieldAt p 5 1 = 1
      n = (if h = 0xFFFFFFFF then fieldAt p 4 1 else h % 64) →
      let gone := fun y : Model => if drop then { y with state := .empty, image := [], units := 0, wrapped := [] } else y
      (m.state ≠ .stored → m.loader = k.ctx → (h = 0xFFFFFFFF ∨ m.handle n = h) → ¬ (drop ∧ h = 0xFFFFFFFF) → ∃ u t, exec (.modelUnload k) s = .next t ∧
        RootsWritten { (if drop then dropKey m.key s else s) with
          streams := u.streams, steps := s.steps.filter fun y => decide (y.slot ≠ n)
          plots := { s.plots with list := s.plots.list.map fun y => (y.1, { y.2 with tiles := y.2.tiles.filter fun z => decide (z.handle ≠ modelHandle n) }) }
          models := kvSet n (gone { m with state := .stored, homeKib := 0, windowKib := 0, ending := none, lost := [] }) s.models
          landing := { s.landing with schedules := s.landing.schedules.filter fun y => decide (y.owner ≠ .model n) } } (if drop then 2 else 0) u ∧
        (∀ e, e ∈ u.streams ↔ e ∈ s.streams ∧ e.2.slot ≠ n) ∧
        Answered u t c stOk (leBytes 4 (s.streamsOn n).length ++ leBytes 4 ((m.homeKib + m.windowKib) / 1024)) []) ∧
      (m.state = .stored → h = 0xFFFFFFFF → drop → ∃ u t, exec (.modelUnload k) s = .next t ∧
        RootsWritten { dropKey m.key s with models := kvSet n (gone m) s.models } 2 u ∧ Answered u t c stOk (leBytes 4 (s.streamsOn n).length ++ leBytes 4 0) []))

/-- On a placed model that the handle names and the session may use, with the media keys in place: an EMBED in order whose
results fit, once its context has a plot and every tile of the layers stands ready there, completes OK with an embedding for
every input, or MEDIA_UNCORRECTABLE when the model streams and the stream checks fail; while a tile is missing it stalls on
it; a SCAN_EMBED by the loader, its tiles ready likewise, with its amount charged and above what is staged, a place in each
predicate engine it needs, its lookups answered, its pages in, its units readable and its results within OUTPUT_MAX,
completes OK with one result for each survivor. A GEN_OPEN in order, its lookups answered and its pages in, opens a stream
under a free number with its prompt and waits for the first token. A GEN_STEP of the next position of a running stream waits
for its token; one of a position among the last four is answered from the record. A generation step whose tiles stand ready
answers every waiting GEN_STEP that it serves and leaves the streams of other models. A GEN_CLOSE closes its stream, or
every stream of its context. The tokens and embeddings themselves are free values of the model (log entry 6). -/
def Obligations.ModelWork : Prop :=
  ∀ (s : State) (k : CmdKey) (c : Cmd) (x : Ctx) (m : Model), s.keysPresent = true →
    let p := c.payload
    let Named := fun h : Nat => kvGet (h % 64) s.models = some m ∧ s.unloadAhead (h % 64) c.order = false ∧ m.count = h / 64 ∧
      bit m.sessions k.session = true ∧ (m.state = .placed ∨ m.state = .placing)
    let img := m.image
    (ReadyCtx s k 0x52 c x → Named (fieldAt p 0 4) →
      let n := fieldAt p 4 4
      let bytes := n * imgOutBytes img
      fieldAt p 8 8 = 0 → imgKind img = 2 → 1 ≤ n → p.length = 16 + 4 * n * imgInput img → bytes ≤ 16777216 → m.heads = true →
      (∀ i < n * imgInput img, fieldAt p (16 + 4 * i) 4 < imgVocab img) → 6 ≤ imgOutFormat img → imgOutFormat img ≤ 8 →
      s.resultsFit c (kib4 (bytes + 32 * trainLen bytes)) = true →
      let slot := fieldAt p 0 4 % 64
      let batch := decide (c.cls ≠ 0)
      let placed := seat k.ctx 1 s
      (StepReady placed slot m batch [k] none → ∃ t v w, exec (.embed k) s = .next t ∧ Seated s v k.ctx ∧ LayersRead v w [k] ∧
        ((∃ b u body, (if s.streams_ slot then Checked w true b else b = w) ∧ u = { b with acct := u.acct, free := b.free + 2 } ∧
            body.length = bytes ∧ Answered u t c stOk body []) ∨
          (s.streams_ slot = true ∧ ∃ b, Checked w false b ∧ Replies t c stMediaUncorrectable [] []))) ∧
      (∀ tile, StepReady placed slot m batch [k] (some tile) → ∃ t, exec (.embed k) s = .next t ∧ (∃ y ∈ t.steps, y.keys = [k] ∧ y.next = tile) ∧
        t.replies = s.replies ∧ t.cmds.map (fun d => { d with lt := false }) = s.cmds.map fun d => { d with lt := false })) ∧
    (∀ q, ReadyCtx s k 0x32 c x → Named (fieldAt p 8 4) → s.scanOf k = some q → q.pred.target = 1 → m.loader = k.ctx → imgKind img = 2 →
      let n := fieldAt p 1 1
      let most := fieldAt p 4 4
      let es := (extentsAt p 16 n).map (·.1)
      let units := (s.scanUnits es).map fun u => scanUnit q.pred c s u.2.1 u.1 u.2.2
      let vs := units.flatMap (unitSurvivors q.pred)
      scanHeadOk p = true → p.length = 16 + 16 * n → fieldAt p 3 1 = 0 → outputMaxOk most = true →
      s.extentsOk k.session (extentsAt p 16 n) = true →
      (q.sieves ≠ [] ∨ s.enginePlace k (s.scanSieves (s.scanUnits es)) = true) →
      UnitsIn s c ((s.scanUnits es).map (·.2)) → (∀ v ∈ units, v.bad = none) →
      vs.length * (16 + roundUp (imgOutBytes img) 8) ≤ most → s.stagedKib c q < q.kib →
      let slot := fieldAt p 8 4 % 64
      (vs = [] ∨ StepReady (seat k.ctx 1 s) slot m (decide (c.cls ≠ 0)) [k] none) → s.streams_ slot = false →
      ∃ t u v w body, LookedUp s w ∧ exec (.scanEmbed k) s = .next t ∧
        (if vs = [] then v = w else ∃ y, Seated w y k.ctx ∧ LayersRead y v [k]) ∧
        u = { hostReads units.length v with acct := u.acct, free := s.free + 2 } ∧
        Answered u t c stOk (scanReplyHead units 0 vs.length body.length ++ body) []) ∧
    (∀ n, ReadyCtx s k 0x53 c x → Named (fieldAt p 0 4) →
      let r := fieldAt p 8 2
      let refs := (List.range (fieldAt p 10 1)).map fun i => slice p (64 + 4 * r + 16 * i) 16
      let unitOf := fun y : List Byte => fieldAt y 4 8 / 16
      let inline := (List.range r).map fun i => fieldAt p (64 + 4 * i) 4
      let named := refs.flatMap fun y =>
        let d := (s.unitData (fieldAt y 0 1) (unitOf y)).getD (zeros 65536)
        (List.range (fieldAt y 14 2)).map fun i => fieldAt d (4096 * (fieldAt y 4 8 % 16) + 4 * (fieldAt y 12 2 + i)) 4
      let prompt := if bit (fieldAt p 11 1) 0 then inline ++ named else named ++ inline
      let total := r + (refs.map fun y => fieldAt y 14 2).sum
      64 ≤ p.length → genFieldsOk p img = true → m.heads = true → (∀ y ∈ refs, s.refOk k.session y = true) → 1 ≤ total →
      total < fieldAt p 4 4 → UnitsIn s c (refs.map fun y => (fieldAt y 0 1, unitOf y)) →
      (∀ y ∈ refs, s.badUnits c (fieldAt y 0 1) [unitOf y] = []) →
      (∀ i ∈ prompt, i < imgVocab img) → kvFree s.streams 1024 = some n →
      (modCmd k (fun d => { d with stagedKib := 0 }) s).fits k.ctx (kvPagesKib m (fieldAt p 4 4)) = true →
      ∃ t st w, LookedUp s w ∧ exec (.genOpen k) s = .next t ∧ st.ctx = k.ctx ∧ st.cls = x.cls ∧ st.slot = fieldAt p 0 4 % 64 ∧ st.maxContext = fieldAt p 4 4 ∧
        st.prompt = prompt ∧ st.pos = none ∧ st.tokens = [] ∧ st.ended = 0 ∧ st.kvKib = kvPagesKib m (fieldAt p 4 4) ∧
        Seated { w with
          streams := kvSet n st s.streams
          cmds := s.cmds.map fun d => if d.key = k then { d with phase := .waiting (.token n), stagedKib := 0, tally := 0 } else d } t k.ctx) ∧
    (∀ st last, ReadyCtx s k 0x54 c x → p.length = 16 → fieldAt p 2 2 = 0 → fieldAt p 8 8 = 0 → s.streamOf (fieldAt p 0 2) k.ctx = some st →
      s.unloadAhead st.slot c.order = false → st.pos = some last →
      (fieldAt p 4 4 = last + 1 → st.ended = 0 → exec (.genStep k) s = .next { s with cmds := withPhase s k (.waiting (.token (fieldAt p 0 2))) }) ∧
      (∀ r, fieldAt p 4 4 ≠ last + 1 → st.replies.find? (fun r => decide (r.1 = fieldAt p 4 4)) = some r → ∃ t, exec (.genStep k) s = .next t ∧
        Answered s t c stOk (leBytes 4 r.2.1 ++ leBytes 2 (fieldAt p 0 2) ++ leBytes 1 r.2.2 ++ zeros 1) [.tokenOut (fieldAt p 0 2)])) ∧
    (∀ slot batch g, kvGet slot s.models = some g → s.streams_ slot = false → ∃ t, exec (.generationStep slot batch) s = .next t ∧
      t = { s with
        streams := t.streams, cmds := t.cmds, replies := t.replies, nextReply := t.nextReply, acct := t.acct, free := t.free, steps := t.steps
        plots := t.plots, scans := t.scans, trains := t.trains
        landing := { s.landing with
          faults := t.landing.faults, schedules := t.landing.schedules, lateArrivals := t.landing.lateArrivals, leadCapped := t.landing.leadCapped } } ∧
      (∀ n, n ∉ s.streamsOn slot → kvGet n t.streams = kvGet n s.streams) ∧
      (StepReady s slot g batch (s.servedKeys slot g batch) none → ∀ d n st, (d, n) ∈ s.tokenWaits 0x54 slot →
        d.key ∈ s.servedKeys slot g batch → kvGet n s.streams = some st → st.cls = (if batch then .batch else .interactive) →
        (s.session d.key.session).phase = .opened → ∃ r ∈ t.replies, r.key = d.key ∧ r.status = stOk ∧ .tokenOut n ∈ r.acts)) ∧
    (ReadyCtx s k 0x55 c x → kvSorted s.streams = true →
      (p = [] → (∀ d ∈ s.cmds, d.live = true → d.order < c.order → d.key.ctx = k.ctx → d.key.queue = .work → d.opcode ≠ 0x53 ∧ d.opcode ≠ 0x54) →
        ∃ u t, exec (.genClose k) s = .next t ∧ u = { s with streams := u.streams } ∧ Answered u t c stOk [] [] ∧
          ∀ e, e ∈ u.streams ↔ e ∈ s.streams ∧ e.2.ctx ≠ k.ctx) ∧
      (∀ st, p.length = 8 → allZero (slice p 2 6) = true → s.streamOf (fieldAt p 0 2) k.ctx = some st → ∃ t, exec (.genClose k) s = .next t ∧
        Answered { s with streams := kvDel (fieldAt p 0 2) s.streams } t c stOk [] []))

/-- A SET_STEP in order sets its context's step number and step size and changes nothing else. An UPDATE of a stated range, of
the step in force and not refused for frozen blocks of a strict context, makes the updates of its entries, answers with the
blocks updated, skipped as frozen and not finite, seats its context and changes only the program, the counter of free
values, and the copies of its persistent tiles on plots, which go. A FREEZE in order leaves frozen exactly the blocks frozen
before and those named, a thaw exactly those frozen before and not named; each answers with the blocks now frozen and those
it changed. -/
def Obligations.StepAndFreeze : Prop :=
  ∀ (s : State) (k : CmdKey) (c : Cmd) (x : Ctx),
    let p := c.payload
    (ReadyCtx s k 0x61 c x → p.length = 8 → (fieldAt p 4 4 < 0x7F800000 ∨ fieldAt p 4 4 = 0x80000000) → ∃ t, exec (.setStep k) s = .next t ∧
      Answered { s with contexts := kvSet k.ctx { x with stepNo := some (fieldAt p 0 4), stepSize := fieldAt p 4 4 } s.contexts } t c stOk [] []) ∧
    (∀ g, s.program k.ctx (fieldAt p 0 1) = some g →
      let first := fieldAt p 2 2
      let n := if fieldAt p 4 2 = 0 then g.params.length - first else fieldAt p 4 2
      let e := s.programExec k (fieldAt p 0 1) x.stepSize g.frozen g
      let r := e.updateEntries first n
      (ReadyCtx s k 0x62 c x → p.length = 16 → fieldAt p 0 1 ≤ 15 → fieldAt p 1 1 = 0 → fieldAt p 6 2 = 0 → fieldAt p 12 4 = 0 →
        first < g.params.length → first + n ≤ g.params.length → x.stepNo = some (fieldAt p 8 4) →
        (x.strict = false ∨ g.frozenIn first n = false) → ∃ v t, exec (.update k) s = .next t ∧ Seated s v k.ctx ∧
          Answered { dropHeld k.ctx (fieldAt p 0 1) (fun i => decide ((r.1.prog.ref i).decl.source = 4)) v with programs := kvSet (progKey k.ctx (fieldAt p 0 1)) r.1.prog s.programs, free := r.1.free } t c stOk
            (leBytes 4 r.2.1 ++ leBytes 4 r.2.2.1 ++ leBytes 4 r.2.2.2 ++ zeros 4) []) ∧
      (∀ i bs, freezeRange g p = some (i, bs) →
        let old := (kvGet i g.frozen).getD []
        let Set_ := fun new => { s with programs := kvSet (progKey k.ctx (fieldAt p 0 1)) { g with frozen := kvSet i new g.frozen } s.programs }
        (ReadyCtx s k 0x63 c x → fieldAt p 1 1 = 1 → ∃ t new, exec (.freezeBlocks k) s = .next t ∧
          (∀ b, b ∈ new ↔ b < (g.params.getD i (paramOf [])).blocks g.tiles ∧ (b ∈ old ∨ b ∈ bs)) ∧
          Answered (Set_ new) t c stOk (leBytes 4 new.length ++ leBytes 4 (new.length - old.length)) []) ∧
        (ReadyCtx s k 0x63 c x → fieldAt p 1 1 = 2 → ∃ t new, exec (.thawBlocks k) s = .next t ∧ (∀ b, b ∈ new ↔ b ∈ old ∧ b ∉ bs) ∧
          Answered (Set_ new) t c stOk (leBytes 4 new.length ++ leBytes 4 (old.length - new.length)) [])))

/-- A TRAIN_STEP in order that may run with the media keys in place, of the step in force where that is checked, not refused for
frozen blocks, whose staging fits, whose lookups are answered and whose pages are in: with records for a micro-batch, the
step is held with its update option and limits, as many records as the program has rows are used, one run of the program
starts with the context's step size, and the command waits for it; with too few, and no unit unreadable, it completes OK
with END_KIND 0 and no micro-batch. Nothing else changes but early blocks of bound chains, ferry schedules, the units read,
the order of the map cache and what seating the context and ferrying its first tiles change. -/
def Obligations.TrainStepBegins : Prop :=
  ∀ (s : State) (k : CmdKey) (c : Cmd) (x : Ctx) (g : Program) (q : Pred), ReadyCtx s k 0x60 c x → s.keysPresent = true →
    let p := c.payload
    let handle := fieldAt p 0 1
    let record := fieldAt p 8 4
    let n := fieldAt p 3 1
    let most := fieldAt p 12 4
    let es := (extentsAt p 32 n).map (·.1)
    let after := bit (fieldAt p 1 1) 0
    let recs := trainScan q s es (bit (fieldAt p 1 1) 1) ((es.head?.map (·.first)).getD 0) (fieldAt p 16 2) (s.scanUnits es)
      (if most = 0 then none else some (most * g.rows))
    s.program k.ctx handle = some g → (∀ m, g.model = some m → s.unloadAhead (m % 64) c.order = false) → p.length = 32 + 16 * n → handle ≤ 15 →
    fieldAt p 1 1 < 4 → 1 ≤ n → n ≤ 16 → 8 ≤ record → record ≤ 65536 → allZero (slice p 18 14) = true →
    s.extentsOk k.session (extentsAt p 32 n) = true →
    ((fieldAt p 2 1 = 0xFF ∧ q = ⟨1, ⟨1, 0, 0, 0, record, List.replicate 16 0⟩, [], 0, []⟩) ∨
      (fieldAt p 2 1 < 32 ∧ (s.scanOf k).map (·.pred) = some q)) →
    q.target = 1 → q.layout.kind = 1 → q.layout.record = record → g.trainable record = true → s.runBad x k.ctx handle (fieldAt p 4 4) g = none →
    (after = true → x.stepNo = some (fieldAt p 4 4) ∧ (x.strict = false ∨ g.frozenIn 0 g.params.length = false)) →
    (modCmd k (fun d => { d with stagedKib := 0 }) s).fits k.ctx (kib4 (4 * inputBytes g.tiles + g.outBytes)) = true →
    UnitsIn s c recs.units →
    ((takeMicro g.rows recs.recs).isSome = true → ∃ t run v, exec (.trainStep k) s = .next t ∧ LookedUp s v ∧
      (∃ tr ∈ t.trains, tr.key = k ∧ tr.handle = handle ∧ tr.update = after ∧ tr.maxMicro = most ∧ tr.used = g.rows ∧ tr.micro = 0 ∧
        tr.eta = x.stepSize) ∧
      run.key = k ∧ run.ctx = k.ctx ∧ run.handle = handle ∧ run.eta = x.stepSize ∧ run.issued = 0 ∧ run.seqs.length = g.seqs.length ∧
      (∀ d ∈ t.cmds, d.key = k → d.phase = .waiting (.run handle)) ∧
      Seated { v with
        trains := t.trains, runs := s.runs ++ [run], cmds := t.cmds, links := { s.links with bindings := t.links.bindings }
        landing := { s.landing with schedules := t.landing.schedules }
        media := (hostReads recs.units.length v).media } t k.ctx) ∧
    (takeMicro g.rows recs.recs = none → recs.stop = none → recs.bad = [] → ∃ t, ∃ r ∈ t.replies, exec (.trainStep k) s = .next t ∧ r.key = k ∧
      r.status = stOk ∧ slice r.payload 9 1 = [0#8] ∧ slice r.payload 12 4 = leBytes 4 0 ∧ t.runs = s.runs)

/-- With the media keys in place, a CHECKPOINT in order of a loaded program: a save into an extent large enough, with writes
accepted and its lookups answered, places the image unit by unit in the write buffer, so that each unit reads as its part of
the image, and waits until they are durable; a restore whose lookups are answered, whose pages are in, whose units can be
read and whose image fits the program replaces every W, STATE and freeze bitmap from the image, clears every G_ACC, answers
with the image's length and changes nothing else but the order of the map cache and the copies of persistent tiles on plots,
which go; an export of a program whose model stands, into an empty slot with room, stores the model image with the trained
data there under a fresh key, two root sets having been written, and answers with its length when the copy passes the stream
checks, and else completes MEDIA_UNCORRECTABLE with nothing stored (whether it does is a free value of the model, log entry
165). -/
def Obligations.Checkpoints : Prop :=
  ∀ (s : State) (k : CmdKey) (c : Cmd) (x : Ctx) (g : Program), ReadyCtx s k 0x64 c x → s.keysPresent = true →
    let p := c.payload
    let handle := fieldAt p 1 1
    let e := extentAt p 16
    checkpointOk p = true → s.program k.ctx handle = some g →
    (fieldAt p 0 1 = 1 → s.extentsOk k.session [e] = true → s.keeper.writeProtect = false → s.media.spareOut = false →
      let img := checkpointImage g x
      let n := ceilDiv img.length 65536
      n ≤ e.1.units → Known s c (segmentRange e.1.vol e.1.first (e.1.first + n)) → ∃ t, exec (.checkpointSave k) s = .next t ∧ MediaWork s t ∧
        (∀ i < n, t.unitData e.1.vol (e.1.first + i) = some (fit (slice img (65536 * i) 65536) 65536)) ∧
        ∃ d ∈ t.cmds, d.key = k ∧ d.phase = .waiting (.durable ((List.range n).map (s.media.nextSlot + ·)))) ∧
    (fieldAt p 0 1 = 2 → s.extentsOk k.session [e] = true →
      let len := fieldAt ((s.unitData e.1.vol e.1.first).getD []) 8 8
      let n := min e.1.units (max 1 (ceilDiv len 65536))
      let us := (List.range n).map (e.1.first + ·)
      let img := (s.extentData { e.1 with units := n }).take len
      UnitsIn s c (us.map fun u => (e.1.vol, u)) → s.badUnits c e.1.vol us = [] → checkpointFits g img = true →
      let made := (s.programExec k handle x.stepSize [] (restored g img)).clearAcc.prog
      ∃ v t, exec (.checkpointRestore k) s = .next t ∧ LookedUp s v ∧
        Answered { dropHeld k.ctx handle (fun i => decide ((made.ref i).decl.source = 4)) v with programs := kvSet (progKey k.ctx handle) made s.programs } t c stOk (leBytes 8 img.length ++ zeros 8) []) ∧
    (∀ m, fieldAt p 0 1 = 3 → s.modelNow g = .good m →
      let slot := fieldAt p 2 1
      let img := exportedImage g m
      s.unloadAhead slot c.order = false → s.modelIn slot = none → imgOk img = true → ceilDiv img.length 65536 ≤ s.unassigned →
      s.keeper.writeProtect = false → s.media.spareOut = false → ∃ good v t, Checked s good v ∧ exec (.checkpointExport k) s = .next t ∧
        (good = true → ∃ y u, y.state = .stored ∧ y.image = img ∧ y.units = ceilDiv img.length 65536 ∧ y.key = v.free ∧ y.wrapped = s.wrap v.free ∧
          RootsWritten { holdKey v.free v with free := v.free + 1, models := kvSet slot y s.models } 2 u ∧
          Answered u t c stOk (leBytes 8 img.length ++ zeros 8) []) ∧
        (good = false → Answered v t c stMediaUncorrectable [] []))

/-- A PROGRAM_LOAD in order whose image passes the checks, whose chain numbers and homes fit and whose writes are accepted puts
the program under its handle with its model, chain base, tiles at their initial contents and charge, and answers with its
length, MiB and chain base, and the program before it there ends, when the stored image passes the stream checks; else it
completes MEDIA_UNCORRECTABLE and nothing is loaded (whether it does is a free value of the model, log entry 165). A
PROGRAM_RUN that no check refuses and whose results fit starts one run at the first instruction of every sequence, with the
input tiles of the payload, seats its context, ferries the first tiles and waits for the run. A PHASE_HINT in order adds its
hint after the latest three of its context, or with KIND 4 ends them all, and completes OK. A hint ends when its duration
has passed or its context has run no work for 10 ms after its start. -/
def Obligations.ProgramsAndHints : Prop :=
  ∀ (s : State) (k : CmdKey) (c : Cmd) (x : Ctx),
    let p := c.payload
    let handle := fieldAt p 0 1
    (ReadyCtx s k 0x70 c x →
      let h := fieldAt p 4 4
      let image := p.drop 16
      let model := if h = 0xFFFFFFFF then none else s.modelNamed h k.session
      let old := endProgram k.ctx handle s
      let g := parseProgram image
      let kib := homesKib g.tiles
      16 ≤ p.length → handle ≤ 15 → fieldAt p 1 3 = 0 → fieldAt p 8 8 = 0 → (h = 0xFFFFFFFF ∨ (model.isSome = true ∧ s.unloadAhead (h % 64) c.order = false)) →
      imageBad image (model.map (·.image)) = none → ∀ base, old.chainBase g.chains.length = some base → g.fitsSram x.sramKib = true →
      adamOk (g :: (old.programs.filter fun y => decide (y.1 / 16 = k.ctx)).map (·.2)) = true →
      (modCmd k (fun d => { d with stagedKib := 0 }) old).fits k.ctx kib = true → s.keeper.writeProtect = false → s.media.spareOut = false →
      let made : Program := { g with
        model := if h = 0xFFFFFFFF then none else some h
        chainBase := base
        homes := initialHomes g ((model.map (·.image)).getD [])
        kib := kib }
      ∃ good v t, Checked s good v ∧ exec (.programLoad k) s = .next t ∧
        (good = true → Answered { old with programs := kvSet (16 * k.ctx + handle) made old.programs, free := v.free, media := v.media } t c stOk
          (leBytes 4 image.length ++ leBytes 4 (ceilDiv kib 1024) ++ leBytes 2 base ++ zeros 6) []) ∧
        (good = false → Answered v t c stMediaUncorrectable [] [])) ∧
    (∀ g, ReadyCtx s k 0x71 c x → s.program k.ctx handle = some g → (∀ m, g.model = some m → s.unloadAhead (m % 64) c.order = false) →
      32 ≤ p.length → handle ≤ 15 → fieldAt p 1 3 = 0 → allZero (slice p 12 20) = true → fieldAt p 8 4 = inputBytes g.tiles →
      p.length = 32 + inputBytes g.tiles → s.runBad x k.ctx handle (fieldAt p 4 4) g = none →
      s.fits k.ctx (kib4 (32 + g.outBytes + 32 * trainLen (32 + g.outBytes))) = true → ∃ t run, exec (.programRun k) s = .next t ∧
        Seated { s with
          runs := s.runs ++ [run], cmds := withPhase s k (.waiting (.run handle))
          links := { s.links with bindings := t.links.bindings }, landing := { s.landing with schedules := t.landing.schedules } } t k.ctx ∧
        run.key = k ∧ run.ctx = k.ctx ∧ run.handle = handle ∧ run.issued = 0 ∧ run.tokens = [] ∧ run.eta = x.stepSize ∧ run.frozen = g.frozen ∧
        run.tiles = inputTiles g (p.drop 32) ∧ run.seqs.length = g.seqs.length ∧ ∀ q ∈ run.seqs, q.pc = 0 ∧ q.ended = false) ∧
    (ReadyCtx s k 0x72 c x →
      let kind := fieldAt p 0 1
      p.length = 16 → 1 ≤ kind → kind ≤ 4 → fieldAt p 1 1 = 0 → fieldAt p 8 8 = 0 →
      (kind = 4 ∨ (fieldAt p 2 2 ≤ 50 ∧ 1 ≤ fieldAt p 4 2 ∧ fieldAt p 4 2 ≤ 60000)) → (kind ≠ 1 ∨ (1 ≤ fieldAt p 6 2 ∧ fieldAt p 6 2 ≤ 256)) →
      let mine := s.power.hints.filter fun h => decide (h.ctx = k.ctx)
      let others := s.power.hints.filter fun h => decide (h.ctx ≠ k.ctx)
      ∃ t u hints, exec (.phaseHint k) s = .next t ∧ PowerSettled u t ∧
        Answered { s with power := { s.power with hints := others ++ hints } } u c stOk [] [] ∧
        (kind = 4 → hints = []) ∧
        (kind ≠ 4 → ∃ h, hints = mine.drop (mine.length - 3) ++ [h] ∧ h.ctx = k.ctx ∧ h.kind = kind ∧ h.starts = s.now + 25000 * fieldAt p 2 2 ∧
          h.ends = h.starts + 25000 * fieldAt p 4 2)) ∧
    (∀ ctx, ∃ t, exec (.phaseHintExpiry ctx) s = .next t ∧ ∀ h, h ∈ t.power.hints ↔ h ∈ s.power.hints ∧
      ¬ (h.ctx = ctx ∧ (h.ends ≤ s.now ∨ max h.starts (((kvGet ctx s.contexts).map (·.lastRun)).getD 0) + 250000 ≤ s.now)))

/-- The models of t are those of s but for the windows that streaming mode opens and closes (R52). -/
def SameModels (s t : State) : Prop :=
  ∀ n, (kvGet n t.models).map (fun m => { m with windowKib := 0, windowLayers := 0 }) =
    (kvGet n s.models).map fun m => { m with windowKib := 0, windowLayers := 0 }

/-- While the complex runs, a line read whose bytes lack its check stands in the list of lines being refetched with its readers
stalled, and other lines stay; one whose bytes have it changes nothing. A refetch of a Landing line that ends with a good
line of one of its sources, with no retirement waiting, ends the stall, counts a corrected event and adds it to its stack's
bucket; one that fails, of a line nobody reads and that belongs to no context, leaves the line poisoned and counts it;
overwriting a poisoned line ends the poison. Every leak period each bucket loses one. Windows of streaming mode open and
close with it. A RETIRE_RANGE in order whose range left the pool at its receipt retires it, moves its poison to the lines'
new places (which the model does not fix, log entry 150), writes a root set and answers with the pages newly retired and the
pool, when no refetch runs in it; with one in its range it waits; and one refused at its receipt completes QUOTA_EXCEEDED. A
RESTORE_SPARE in order marks a retired plot for sounding, or gives a failed lane the outcome of its test, counts the
attempt, writes a root set and answers with the role and the attempts left. Consecutive 64 KiB pieces of a tile's home lie
in different pseudo-channels. -/
def Obligations.LinesAndRetirement : Prop :=
  ∀ (s : State),
    (∀ l (r : LineRead) owner readers, s.keeper.stage = 5 →
      (l.passes r.bytes r.crc = true → exec (.lineCheckFail l r owner readers) s = .next s) ∧
      (l.passes r.bytes r.crc = false → (∀ f ∈ s.landing.faults, f.line = l → f.poisoned = false) →
        ∃ t, exec (.lineCheckFail l r owner readers) s = .next t ∧
        t = { s with
          landing := { s.landing with faults := t.landing.faults }, cmds := t.cmds, models := t.models
          media := { s.media with reads := t.media.reads } } ∧ SameModels s t ∧
        t.cmds.map (fun c => { c with covered := false }) = s.cmds.map (fun c => { c with covered := false }) ∧
        (∃ f ∈ t.landing.faults, f.line = l ∧ f.poisoned = false ∧ ∀ k ∈ readers, k ∈ f.readers) ∧
        ∀ f, f.line ≠ l → (f ∈ t.landing.faults ↔ f ∈ s.landing.faults))) ∧
    (∀ st pch bank page line f, let l := Line.landing st pch bank page line
      s.landing.faults.find? (fun f => decide (f.line = l)) = some f →
      (f.poisoned = false → s.landing.retiring = [] → ∀ n ∈ f.sources, ∀ bytes crc, l.passes bytes crc = true →
        ∃ t, exec (.refetchComplete l (.good n bytes crc)) s = .next t ∧
        t = { s with
          landing := t.landing, cmds := t.cmds, events := t.events, newEvents := t.newEvents, alert := t.alert, sessions := t.sessions
          ports := t.ports, wire := t.wire, plots := t.plots, contexts := t.contexts, runs := t.runs, searches := t.searches, acct := t.acct
          models := t.models } ∧ SameModels s t ∧
        (∀ g, g ∈ t.landing.faults ↔ g ∈ s.landing.faults ∧ g.line ≠ l) ∧ t.landing.corrected = satAdd 32 s.landing.corrected 1 ∧
        t.landing.buckets = setAt s.landing.buckets st fun _ => ((s.landing.buckets.getD st Bucket.reset).add s.landing.capacity).1) ∧
      (f.poisoned = false → s.landing.retiring = [] → f.data = .only → f.owner = none → f.readers = [] →
        ∃ t, exec (.refetchComplete l .failed) s = .next t ∧
        t = { s with landing := t.landing, models := t.models, cmds := t.cmds } ∧ SameModels s t ∧
        t.cmds.map (fun c => { c with covered := false }) = s.cmds.map (fun c => { c with covered := false }) ∧
        (∃ g ∈ t.landing.faults, g.line = l ∧ g.poisoned = true) ∧
        t.landing.uncorrected = satAdd 32 s.landing.uncorrected 1 ∧ t.landing.uncorr = Nat.lor s.landing.uncorr (2 ^ st)) ∧
      (f.poisoned = true → exec (.refetchComplete l .overwritten) s = .next { s with
        landing := { s.landing with faults := s.landing.faults.filter fun g => decide (g.line ≠ l) } })) ∧
    (s.keeper.stage = 5 → s.landing.lastLeak + 25000000 * s.landing.leakS ≤ s.now → exec .bucketLeak s = .next { s with
      landing := { s.landing with
        lastLeak := s.landing.lastLeak + 25000000 * s.landing.leakS
        buckets := s.landing.buckets.map fun b => { b with level := b.level - 1, armed := b.armed || decide (b.level - 1 ≤ s.landing.capacity / 2) } }
      plots := { s.plots with list := s.plots.list.map fun p =>
        (p.1, { p.2 with bucket := { p.2.bucket with
          level := p.2.bucket.level - 1, armed := p.2.bucket.armed || decide (p.2.bucket.level - 1 ≤ s.landing.capacity / 2) } }) } }) ∧
    (∀ (k : CmdKey) (c : Cmd) (x : Ctx), ReadyCtx s k 0x90 c x → retireOk c.payload = true →
      let pages := retirePages c.payload
      let inside := fun f : LineFault => f.line.page.any pages.contains = true
      ((∀ r ∈ s.landing.retiring, r.order ≠ c.order) → ∃ t, exec (.retireRange k) s = .next t ∧ Answered s t c stQuota [] []) ∧
      (∀ n, s.landing.retiring = [⟨c.order, pages, n⟩] → (∀ d ∈ s.cmds, d.order = c.order → d = c) →
        ((∀ f ∈ s.landing.faults, inside f → f.poisoned = true) → ∃ t u, exec (.retireRange k) s = .next (settleWindows t) ∧
          RootsWritten { s with landing := { s.landing with
            retiring := [], retired := u.landing.retired
            faults := s.landing.faults.map fun f => if f.line.page.any pages.contains then { f with line := f.line.moved } else f } } 1 u ∧
          (∀ i, i ∈ u.landing.retired ↔ i ∈ s.landing.retired ∨ i ∈ pages) ∧
          Answered u t c stOk (leBytes 4 n ++ leBytes 4 u.poolMib) []) ∧
        ((∃ f ∈ s.landing.faults, f.poisoned = false ∧ inside f) →
          exec (.retireRange k) s = .next (settleWindows { s with cmds := withPhase s k (.waiting .lines) })))) ∧
    (∀ (k : CmdKey) (c : Cmd) (x : Ctx), ReadyCtx s k 0x91 c x → c.payload.length = 8 → fieldAt c.payload 1 1 = 0 →
      fieldAt c.payload 4 4 = 0 →
      let n := fieldAt c.payload 2 2
      (fieldAt c.payload 0 1 = 1 → n < 272 → (s.plot n).role = .retired → (s.plot n).restores < 2 → ∃ u t, exec (.restoreSparePlot k) s = .next t ∧
        RootsWritten { s with plots := { s.plots with
          list := kvSet n { s.plot n with marked := true, restores := (s.plot n).restores + 1 } s.plots.list } } 1 u ∧ Answered u t c stOk
          (leBytes 1 2 ++ leBytes 1 (1 - (s.plot n).restores) ++ zeros 6) []) ∧
      (∀ loopback retrained, fieldAt c.payload 0 1 = 2 → n < 52 → ((s.lane n).role = .failed ∨ (s.lane n).role = .channelFault) →
        (s.lane n).restores < 2 → ∃ u t y, exec (.restoreSpareLane k loopback retrained) s = .next t ∧ y.restores = (s.lane n).restores + 1 ∧
          (¬ (loopback = true ∧ ((s.lane n).role = .failed ∨ retrained = true)) → y = { s.lane n with restores := y.restores }) ∧
          ((loopback = true ∧ ((s.lane n).role = .failed ∨ retrained = true)) → y.fails = 0 ∧
            (y.role = .spareUnused ∨ ((y.role = .spareInUse ∨ y.role = .untrained) ∧ y.state = .training ∧ y.tried = s.now))) ∧
          RootsWritten { s with links := { s.links with lanes := kvSet n y s.links.lanes } } 1 u ∧ Answered u t c stOk
            (leBytes 1 y.role.code ++ leBytes 1 (2 - y.restores) ++ zeros 6) [])) ∧
    (∀ owner tile bytes n a b, (s.pieces owner tile bytes)[n]? = some a → (s.pieces owner tile bytes)[n + 1]? = some b → a.2 ≠ b.2)

/-- An enable of a peer with trained lanes and no crossing makes a crossing that awaits the peer, with the width of its lanes
and the option it names; of an enabled peer it sets that option. A disable of a crossing whose peer shares no chain, copy or
model takes the crossing away and completes OK. A query changes nothing. An enable and a SET_DOMAIN write a root set. Each
answers with the state of the crossing. A SET_DOMAIN sets the domain, sends it on every up crossing and answers with the one
before. A CHAIN_SETUP in order with every neighbouring peer reached binds the chain under its number. A PEER_COPY in order
with its crossing up, its lookups answered, its pages in and its first unit readable sends the first unit in a transfer and
waits for the peer. -/
def Obligations.CrossingCommands : Prop :=
  ∀ (s : State) (k : CmdKey) (c : Cmd) (x : Ctx),
    let p := c.payload
    let serial := fieldAt p 0 8
    (ReadyCtx s k 0x80 c x → crossingOk p = true →
      (fieldAt p 8 1 = 1 →
        (∀ n cr, s.crossingTo serial = some n → s.crossing n = some cr → ∃ t u, exec (.crossingEnable k) s = .next t ∧
          RootsWritten { s with links := { s.links with crossings := kvSet n { cr with acceptCopy := bit (fieldAt p 9 1) 0 } s.links.crossings } } 1 u ∧
          Answered u t c stOk (crossingReply u serial) []) ∧
        (∀ n, s.crossingTo serial = none → s.lanesTo serial ≠ [] → kvFree s.links.crossings 48 = some n → ∃ t u cr,
          exec (.crossingEnable k) s = .next t ∧
          RootsWritten { s with links := { s.links with crossings := kvSet n cr s.links.crossings, lanes := u.links.lanes } } 1 u ∧
          cr.state = .awaiting ∧ cr.serial = serial ∧ cr.enabled = true ∧ cr.acceptCopy = bit (fieldAt p 9 1) 0 ∧
          cr.width = widthOf (s.lanesTo serial).length ∧ cr.standby = (s.lanesTo serial).length - cr.width ∧
          Answered u t c stOk (crossingReply u serial) [])) ∧
      (∀ n cr, fieldAt p 8 1 = 2 → s.crossingTo serial = some n → s.crossing n = some cr → kvSorted s.links.crossings = true →
        (∀ b ∈ s.links.bindings, serial ∉ b.2.members) → (∀ q ∈ s.links.copies, q.crossing ≠ n) →
        (∀ m ∈ s.models, s.shardAt m.2 cr.peerDomain = none) →
        ∃ t, ∃ r ∈ t.replies, exec (.crossingDisable k) s = .next t ∧ r.key = k ∧ r.status = stOk ∧ t.crossing n = none) ∧
      (fieldAt p 8 1 = 3 → ∃ t, exec (.crossingQuery k) s = .next t ∧ Answered s t c stOk (crossingReply s serial) [])) ∧
    (ReadyCtx s k 0x83 c x → p.length = 4 → fieldAt p 1 3 = 0 → ∃ t u, exec (.setDomain k) s = .next t ∧
      RootsWritten { s with
        links := { s.links with domain := fieldAt p 0 1, crossings := u.links.crossings }
        wire := (s.upCrossings.map fun y => WireOut.control y [7, fieldAt p 0 1, 0, 0, 0, 0, 0, 0]).reverse ++ s.wire } 1 u ∧
      Answered u t c stOk (leBytes 4 s.links.domain) []) ∧
    (∀ g ch, ReadyCtx s k 0x81 c x → s.program k.ctx (fieldAt p 0 1) = some g → g.chains[fieldAt p 1 1]? = some ch →
      let n := ch.members.length
      let list := (List.range n).map fun j => fieldAt p (16 + 8 * j) 8
      let fid := fieldAt p 4 4
      let b : Binding := ⟨k.ctx, fieldAt p 0 1, fieldAt p 1 1, list, [], 2, []⟩
      p.length = 16 + 8 * n → fieldAt p 0 1 ≤ 15 → fieldAt p 2 2 = 0 → fieldAt p 8 8 = 0 → ch.external = true →
      (∀ m ∈ ch.members.zip list, m.1 ≠ 0xFF ↔ m.2 = s.serial) → (∀ r ∈ s.chainRanges, ¬ (r.1 ≤ fid ∧ fid < r.1 + r.2)) →
      (∀ m ∈ b.peers s.serial, (s.upTo m).isSome = true) → ∃ t u, exec (.chainSetup k) s = .next t ∧
        u = { s with links := { s.links with bindings := u.links.bindings, crossings := u.links.crossings }, wire := u.wire } ∧
        kvGet fid u.links.bindings = some b ∧ Answered u t c stOk [] []) ∧
    (∀ n, ReadyCtx s k 0x82 c x → s.keysPresent = true →
      let e := extentAt p 8
      let us := (List.range e.1.units).map (e.1.first + ·)
      p.length = 48 → s.extentsOk k.session [e] = true → allZero (slice p 25 3) = true → allZero (slice p 33 15) = true → s.upTo serial = some n →
      UnitsIn s c (us.map fun u => (e.1.vol, u)) → s.badUnits c e.1.vol [e.1.first] = [] → (∀ q ∈ s.links.copies, q.key ≠ k) →
      ∃ t v, exec (.peerCopy k) s = .next t ∧ LookedUp s v ∧
        t = { v with
          links := { s.links with
            copies := s.links.copies ++ [⟨k, n, s.links.nextStream, 0⟩], nextStream := (s.links.nextStream + 1) % 65536
            crossings := t.links.crossings }
          cmds := s.cmds.map fun d => if d.key = k then { d with phase := .waiting (.peer n), stagedKib := 0 } else d
          media := (hostReads (s.placesOf e.1.vol us).length v).media
          wire := t.wire, acct := t.acct })

/-- On a crossing that is up: CONTROL_FLIT_SEND sends the acknowledgement; an in-order data or chain flit that is not the last
of its transfer is taken, and the sequence number expected goes up; CREDIT adds the buffers newly freed to the credits; ACK
drops the flits it acknowledges; NAK does so and sends the others from its number again; THROTTLE takes over the peer's step
and cause; SLOT_FREE adds the slots newly returned; CHAIN_ABORT ends the binding of a chain that has no run; DOMAIN takes
over the peer's domain. A flit unacknowledged for 2 µs is sent again with those after it, and THROTTLE is repeated on every
up crossing while a CAUSE bit is set. Nothing changes but the links, what is sent, activity counts, and what settling the
CAUSE bits or waking a context changes. -/
def Obligations.LinkWords : Prop :=
  ∀ (s : State) (x : Nat) (c : Crossing), s.crossing x = some c → c.state = .up →
    let Kept := fun t : State => t = { s with links := t.links, wire := t.wire, acct := t.acct }
    let On := fun (t : State) (f : Crossing → Prop) => ∃ d, t.crossing x = some d ∧ f d
    (∃ t new, exec (.controlFlitSend x) s = .next t ∧ Kept t ∧ t.wire = new ++ s.wire ∧
      .control x (2 :: wordBytes 2 c.ackNo ++ List.replicate 5 0) ∈ new) ∧
    (∀ lane flit, flit.length = 256 → fieldAt flit 252 4 = crc32c (flit.take 252) → bits (fieldAt flit 0 2) 15 4 = c.rxSeq →
      bit (fieldAt flit 2 2) 14 = false →
      (bits (fieldAt flit 0 2) 3 0 = 1 → ∃ t, exec (.dataFlitReceive x lane flit) s = .next t ∧ Kept t ∧
        On t fun d => d.rxSeq = (c.rxSeq + 1) % 4096) ∧
      (bits (fieldAt flit 0 2) 3 0 = 3 → ∃ t, exec (.chainFlitReceive x lane flit) s = .next t ∧ Kept t ∧
        On t fun d => d.rxSeq = (c.rxSeq + 1) % 4096)) ∧
    (∀ cls freed, cls ≤ 2 →
      let new := (freed % 2 ^ 32 + 2 ^ 32 - c.freedSeen.getD cls 0) % 2 ^ 32
      new < 2 ^ 31 → ∃ t, exec (.credit x cls freed) s = .next t ∧ Kept t ∧
        (On t fun d => d.freedSeen = setAt c.freedSeen cls fun _ => freed % 2 ^ 32) ∧
        (c.queue = [] → On t fun d => d.credits = setAt c.credits cls (· + new))) ∧
    (∀ fseq, ∃ t, exec (.ack x fseq) s = .next t ∧ Kept t ∧
      (c.queue = [] → On t fun d => d.unacked = c.unacked.filter fun u => decide (2048 ≤ (fseq % 4096 + 4096 - u.fseq) % 4096))) ∧
    (∀ fseq, c.queue = [] → (∀ u ∈ c.unacked, u.resent + 1 < s.links.retryLimit) → ∃ t, exec (.nak x fseq) s = .next t ∧ Kept t ∧
      let kept := c.unacked.filter fun u => decide (2048 ≤ ((fseq % 4096 + 4095) % 4096 + 4096 - u.fseq) % 4096)
      let again := kept.filter fun u => decide ((u.fseq + 4096 - fseq % 4096) % 4096 < 2048)
      t.links.resent = satAdd 32 s.links.resent again.length ∧
      t.wire = (again.zipIdx.map fun u => WireOut.flit x (s.turnOf c u.2) u.1.cls u.1.fseq u.1.body).reverse ++ s.wire) ∧
    (∀ step cause, ¬ (c.peerStep = step % 4 ∧ c.peerCause = cause % 16) → ∃ u t, exec (.throttle x step cause) s = .next t ∧ PowerSettled u t ∧
      u = { s with
        links := u.links, events := u.events, newEvents := u.newEvents, alert := u.alert, sessions := u.sessions, ports := u.ports
        wire := u.wire } ∧
      On t fun d => d.peerStep = step % 4 ∧ d.peerCause = cause % 16) ∧
    (∀ chain returned,
      let new := (returned % 256 + 256 - (kvGet chain c.slotsSeen).getD 0) % 256
      new < 128 → new ≠ 0 → ∃ t, exec (.slotFree x chain returned) s = .next t ∧
        t = { s with links := t.links, runs := t.runs, plots := t.plots, contexts := t.contexts, searches := t.searches, acct := t.acct } ∧
        On t fun d => kvGet chain d.slotsFree = some ((kvGet chain c.slotsFree).getD 0 + new) ∧ kvGet chain d.slotsSeen = some (returned % 256)) ∧
    (∀ chain b, kvGet chain s.links.bindings = some b → kvSorted s.links.bindings = true → (∀ r ∈ s.runs, ¬ (r.ctx = b.ctx ∧ r.handle = b.handle)) →
      ∃ t, exec (.chainAbort x chain) s = .next t ∧ Kept t ∧ kvGet chain t.links.bindings = none) ∧
    (∀ d, exec (.domain x d) s = .next { s with links := { s.links with
      crossings := kvSet x { c with lastValid := s.now, peerDomain := d % 256 } s.links.crossings } }) ∧
    (∀ u rest, c.unacked = u :: rest → u.sentAt + 50 ≤ s.now → (∀ v ∈ c.unacked, v.resent + 1 < s.links.retryLimit) →
      let again := c.unacked.filter fun v => decide ((v.fseq + 4096 - u.fseq) % 4096 < 2048)
      ∃ t, exec (.flitResendTimeout x) s = .next t ∧ Kept t ∧ t.links.resent = satAdd 32 s.links.resent again.length ∧
        t.wire = (again.zipIdx.map fun v => WireOut.flit x (s.turnOf c v.2) v.1.cls v.1.fseq v.1.body).reverse ++ s.wire) ∧
    (s.power.cause ≠ 0 → s.links.lastThrottle + 25000 ≤ s.now → ∃ t, exec .throttleRepeat s = .next t ∧ Kept t ∧ t.links.lastThrottle = s.now ∧
      t.wire = (s.upCrossings.map fun y => WireOut.control y [4, s.stepMin, s.power.cause, 0, 0, 0, 0, 0]).reverse ++ s.wire)

/-- The end of the training of a position without a peer leaves its lane down, one more attempt failed; with a peer that no
crossing is enabled to, the lane is up with what the peer reports. Every untrained position not tried for 10 s goes into
training again. A lane in training after two failed attempts, or whose peer has no crossing, that fails is counted and takes
its role by its loopback test, and after a failed one the group's unused spare takes its position, in training. An up
crossing that heard nothing valid for 4 µs, or whose peer says DOWN, goes down when it shares no chain, copy or model with
work here: it is counted, its lanes are down, and the CAUSE bits are settled. -/
def Obligations.LanesAndLoss : Prop :=
  ∀ (s : State),
    (∀ pos l, s.laneAt pos = some l → (s.lane l).state ≠ .up → (s.lane l).role ≠ .channelFault →
      exec (.laneTrainingEnd pos none) s = .next { s with
        links := { s.links with lanes := kvSet l { s.lane l with state := .down, tried := s.now, fails := (s.lane l).fails + 1 } s.links.lanes } } ∧
      ∀ serial domain peerPos, s.crossingTo serial = none → ∃ t, exec (.laneTrainingEnd pos (some (serial, domain, peerPos))) s = .next t ∧
        t = { s with links := { s.links with lanes := t.links.lanes } } ∧ (t.lane l).state = .up ∧ (t.lane l).peerSerial = serial ∧
        (t.lane l).peerDomain = domain ∧ (t.lane l).peerPos = some peerPos ∧ (t.lane l).fails = 0 ∧ (t.lane l).tried = s.now ∧
        ∀ m, s.laneAt pos ≠ some m → (t.lane m).state = (s.lane m).state) ∧
    (∃ t, exec .laneRetrainTimer s = .next t ∧ t = { s with links := { s.links with lanes := t.links.lanes } } ∧ ∀ l < 52,
      let q := s.lane l
      t.lane l = if q.position.isSome = true ∧ q.state = .down ∧ (q.role = .untrained ∨ q.role = .spareInUse) ∧ q.tried + 250000000 ≤ s.now then
        { q with state := .training, tried := s.now } else q) ∧
    (∀ l loopback, l < 52 →
      let q := s.lane l
      q.position.isSome = true → ((q.state = .training ∧ 2 ≤ q.fails) ∨ (q.state = .up ∧ s.crossingTo q.peerSerial = none)) → ∃ t, exec (.laneFail l loopback) s = .next t ∧
        t = { s with
          links := { s.links with lanes := t.links.lanes, lanesFailed := satAdd 16 s.links.lanesFailed 1 }
          events := t.events, newEvents := t.newEvents, alert := t.alert, sessions := t.sessions, ports := t.ports, wire := t.wire } ∧
        (t.lane l).state = .down ∧ (t.lane l).role = (if loopback then .channelFault else .failed) ∧
        ∀ spare, loopback = false → s.groupSpare (l / 13) = some spare → (∀ m, s.groupSpare (l / 13) = some m → m ≠ l) →
          (t.lane spare).role = .spareInUse ∧ (t.lane spare).position = q.position ∧ (t.lane spare).state = .training) ∧
    (∀ x c, s.crossing x = some c → c.state = .up → (∀ b ∈ s.links.bindings, c.serial ∉ b.2.members) →
      (∀ q ∈ s.links.copies, q.crossing ≠ x) → (∀ m ∈ s.models, s.shardAt m.2 c.peerDomain = none) →
      let Fell := fun t : State => ∃ u, PowerSettled u t ∧
        u = { s with
          links := u.links, power := { s.power with idleSince := s.now }, events := u.events, newEvents := u.newEvents, alert := u.alert
          sessions := u.sessions, ports := u.ports, wire := u.wire } ∧
        u.links.downs = satAdd 16 s.links.downs 1 ∧ (∃ d, u.crossing x = some d ∧ d.state = .down ∧ d.serial = c.serial ∧ d.unacked = []) ∧
        ∀ l ∈ s.lanesTo c.serial, (u.lane l).state = .down
      (∃ t, exec (.down x) s = .next t ∧ Fell t) ∧
      (c.lastValid + 100 ≤ s.now → ∃ t, exec (.crossingLossTimeout x) s = .next t ∧ Fell t))

/-- An instruction that only computes has run: it is in flight on its plot with the tiles that it names, the working state x is in
place with the sequence at its next instruction, and its run goes on. Tiles it does not write keep their contents. -/
def Computed (s : State) (k : CmdKey) (seq : Nat) (e : Exec) (plot : Nat) (kind : TKind) (out : Out) (x : Exec) : Prop :=
  (∃ t unit, out = .next t ∧
    t = { s with plots := t.plots, acct := t.acct, runs := s.runs.map (fun r => if r.key = k then (x.next false).run else r), programs := t.programs, free := x.free } ∧
    t.runOf k = some (x.next false).run ∧ t.program e.run.ctx e.run.handle = some x.prog ∧ unitOf e.word = some unit ∧
    (t.plot plot).flights = (s.plot plot).flights ++ [⟨k, seq, e.run.handle, unit, e.prog.reads e.word, e.prog.writes e.word, s.now⟩]) ∧
  (∀ n, (∀ m ∈ tilesWritten kind e.word (e.prog.problems e.word), (e.ref m).home ≠ n) → x.tile n = e.tile n) ∧
  x.me.pc = e.me.pc ∧ x.run.tokens = e.run.tokens ∧ x.run.eta = e.run.eta ∧ x.run.sent = e.run.sent

/-- An instruction of the matrix, vector, quantise, search, check or update class, or a COPY or FILL, that its sequence has come
to and that may issue, is run: it is in flight on its unit with the tiles it reads and writes, its result is in place, the
sequence stands at the next instruction, the run goes on, and every tile that it does not write, the tokens, the step size
and the hand-ons stay. Nothing changes but that, what stands in the plots' scratchpads, and activity counts. Element (r, c)
of an element-wise result written to a whole FP32 tile of the run is the operation on the elements of its operands, rounded
to nearest. -/
def Obligations.TileComputes : Prop :=
  (∀ (s : State) (k : CmdKey) (seq : Nat) (e : Exec) (plot : Nat), plot < 272 →
    let x := e.issued plot s
    let w := e.word
    let Row := fun (kind : TKind) (i : CmdKey → Nat → Instr) (y : Exec) =>
      Issues s kind k seq e plot → Computed s k seq e plot kind (exec (i k seq) s) y
    Row .mm .mm (x.mm w) ∧ Row .mmq .mmq (x.mmq w) ∧ Row .close .close (x.close w) ∧
    Row (.lane .add) .add (x.laneOp .add w) ∧ Row (.lane .sub) .sub (x.laneOp .sub w) ∧ Row (.lane .mul) .mul (x.laneOp .mul w) ∧
    Row (.lane .fma) .fma (x.laneOp .fma w) ∧ Row (.lane .min) .min (x.laneOp .min w) ∧ Row (.lane .max) .max (x.laneOp .max w) ∧
    Row (.lane .lt) .lt (x.laneOp .lt w) ∧ Row (.lane .select) .select (x.laneOp .select w) ∧
    Row (.fn .exp) .exp (x.laneFn .exp w) ∧ Row (.fn .recip) .recip (x.laneFn .recip w) ∧ Row (.fn .rsqrt) .rsqrt (x.laneFn .rsqrt w) ∧
    Row (.fn .tanh) .tanh (x.laneFn .tanh w) ∧ Row (.fn .sigmoid) .sigmoid (x.laneFn .sigmoid w) ∧ Row (.fn .gelu) .gelu (x.laneFn .gelu w) ∧
    Row (.fn .softplus) .softplus (x.laneFn .softplus w) ∧ Row (.dfn .tanh) .dTanh (x.laneDfn .tanh w) ∧
    Row (.dfn .sigmoid) .dSigmoid (x.laneDfn .sigmoid w) ∧ Row (.dfn .gelu) .dGelu (x.laneDfn .gelu w) ∧
    Row (.dfn .softplus) .dSoftplus (x.laneDfn .softplus w) ∧ Row .rowSum .rowSum (x.rowSum w) ∧ Row .rowMax .rowMax (x.rowMax w) ∧
    Row .colSum .colSum (x.colSum w) ∧ Row .colMax .colMax (x.colMax w) ∧ Row .maskUpper .maskUpper (x.maskUpper w) ∧
    Row .convert .convert (x.convert w) ∧ Row .copy .copy (x.copy w) ∧ Row .fill .fill (x.fill w) ∧ Row .table .table (x.table w) ∧
    Row .score .score (x.score w) ∧ Row .topk .topk (x.topk w) ∧ Row .checkWrite .checkWrite (x.checkWrite w) ∧
    Row .compare .compare (x.compare w) ∧ Row (.update .step) .stepRule (x.updateWord .step w) ∧
    Row (.update .sign) .signRule (x.updateWord .sign w) ∧ Row (.update .signDecay) .signDecay (x.updateWord .signDecay w) ∧
    Row (.update .adam) .adamBc (x.updateWord .adam w)) ∧
  (∀ (e : Exec) (o : LaneOp) (w : Nat), let out := e.ref (wf w 2 23 12)
    let c := e.ref (wf w 2 11 0)
    e.prog.tiles[out.home]? = some out.decl → (out.decl.source = 0 ∨ out.decl.source = 3) → out.decl.format = 8 → out.decl.shapeOk = true →
    out.r0 = 0 → out.c0 = 0 → out.rows = out.decl.rows → out.cols = out.decl.cols → ∀ i < out.rows, ∀ j < out.cols,
      (e.laneOp o w).code out i j = wideCode 8 nearest (Config.nan (e.free + out.decl.index i j)).toNat
        (o.value (e.lane (e.ref (wf w 1 11 0)) i j) (e.operandB w i j) (if usesC (.lane o) then e.lane c i j else .num false 0)) % 2 ^ 32)

/-- An instruction of the synchronise or chain kind that may issue: SIGNAL raises its token by one; WAIT goes on when the token
is at least VALUE and else holds the sequence; SECTION_OPEN opens a section with its bound, which keeps its context from
being preempted on the plot; SECTION_CLOSE ends the section; HALT_IF goes on when no bit of MASK is set in the check word
and else ends the run OK with END_KIND 1; END ends the sequence, and with the last one the run, OK with END_KIND 0;
CHAIN_SEND to a member here puts its next block into a free slot of the member's plot, or is held for want of one;
CHAIN_RECV merges a block that has arrived. A run that ends in this way answers its PROGRAM_RUN when the session is open. A
block sent here that passes its check has landed; one that fails is counted, and asked for again when it is the first time. -/
def Obligations.TileSequencing : Prop :=
  ∀ (s : State) (k : CmdKey) (seq : Nat) (e : Exec) (plot : Nat),
    let w := e.word
    let Held := fun (out : Out) (f : State → Run → Prop) => ∃ t r, out = .next (settleRun k t) ∧ t.runOf k = some r ∧ f t r ∧ r.issued ≤ e.run.issued + 1 ∧
      t = { s with
        plots := t.plots, acct := t.acct, contexts := t.contexts, runs := t.runs, searches := t.searches, programs := t.programs, free := t.free
        landing := { s.landing with schedules := t.landing.schedules }, links := t.links, wire := t.wire }
    let Ends := fun (out : Out) (kind : Byte) => ∀ c, findCmd k s = some c → c.opcode = 0x71 → k.queue ≠ .admin → (s.session k.session).phase = .opened →
      ∃ t, ∃ r ∈ t.replies, out = .next t ∧ r.key = k ∧ r.status = stOk ∧ slice r.payload 12 1 = [kind] ∧ t.runOf k = none
    let Went := fun r : Run => (r.seq seq).pc = e.me.pc + 1
    let tok := wf w 1 7 0
    let n := (kvGet tok e.run.tokens).getD 0
    (Issues s .signal k seq e plot → Held (exec (.signal k seq) s) fun _ r => Went r ∧ kvGet tok r.tokens = some (satAdd 16 n 1)) ∧
    (Issues s .wait k seq e plot →
      (wf w 1 23 8 ≤ n → Held (exec (.wait k seq) s) fun _ r => Went r ∧ r.tokens = e.run.tokens) ∧
      (n < wf w 1 23 8 → Held (exec (.wait k seq) s) fun _ r => (r.seq seq).pc = e.me.pc ∧ (r.seq seq).block = .token)) ∧
    (Issues s .sectionOpen k seq e plot → Held (exec (.sectionOpen k seq) s) fun t r => Went r ∧
      (r.seq seq).section_ = some ⟨wf w 1 10 0, none, none⟩ ∧ t.sectionOn plot e.run.ctx = true) ∧
    (Issues s .sectionClose k seq e plot → Held (exec (.sectionClose k seq) s) fun _ r => Went r ∧ (r.seq seq).section_ = none) ∧
    (Issues s .haltIf k seq e plot →
      (Nat.land e.run.check (wf w 1 31 0) = 0 → Held (exec (.haltIf k seq) s) fun _ r => Went r) ∧
      (Nat.land e.run.check (wf w 1 31 0) ≠ 0 → Ends (exec (.haltIf k seq) s) 1#8)) ∧
    (Issues s .endSeq k seq e plot →
      ((∃ i, i ≠ seq ∧ i < e.run.seqs.length ∧ (e.run.seq i).ended = false) → Held (exec (.endSeq k seq) s) fun _ r => (r.seq seq).ended = true) ∧
      ((∀ i, i ≠ seq → i < e.run.seqs.length → (e.run.seq i).ended = true) → Ends (exec (.endSeq k seq) s) 0#8)) ∧
    (∀ c place g, chainPlace e.prog e.seq w = some (c, place) → kvGet (movGroup w) e.me.groups = some g →
      let m := c.members.getD (place + 1) 0xFF
      let to_ := ((e.issued plot s).run.seq m).plot
      (Issues s .chainSend k seq e plot → m ≠ 0xFF → to_ < 272 →
        (none ∈ (s.plot to_).window → Held (exec (.chainSend k seq) s) fun t r => ∃ h : HandOn,
          h.pairs = (g.pairs.drop g.moved).take 8184 ∧ h.block = g.moved / 8184 ∧ h.from_ = place ∧ h.last = decide (g.pairs.length ≤ g.moved + 8184) ∧
          some h ∈ (t.plot to_).window ∧ (∃ no, r.sent = e.run.sent ++ [(no, place + 1, h)]) ∧ (h.last = true → Went r)) ∧
        (none ∉ (s.plot to_).window → Held (exec (.chainSend k seq) s) fun _ r => (r.seq seq).pc = e.me.pc ∧ (r.seq seq).block = .slot)) ∧
      (∀ x, Issues s .chainRecv k seq e plot →
        e.run.landed.find? (fun y => decide (y.1 = s.chainNo e (wf w 1 11 0)) && decide (y.2.1 = place) && decide (y.2.2.block = g.moved / 8184)) = some x →
        Held (exec (.chainRecv k seq) s) fun _ r => kvGet (movGroup w) (r.seq seq).groups = some (mergeBlock g e.free x.2.2) ∧
          r.landed = e.run.landed.filter (fun y => decide (y ≠ x)) ∧ (x.2.2.last = true → Went r))) ∧
    (∀ r chain member x, s.runOf k = some r →
      r.sent.find? (fun y => decide (y.1 = chain) && decide (y.2.1 = member) && !(r.landed.contains y)) = some x → x.2.2.peer = false →
      (x.2.2.crc = x.2.2.check → ∃ t q, exec (.handOnBlockArrival k chain member true) s = .next t ∧ t.runOf k = some q ∧
        q = { r with seqs := q.seqs, sent := r.sent.erase x, landed := r.landed ++ [x], again := r.again.erase x } ∧
        t = { s with runs := t.runs, searches := t.searches, plots := t.plots, contexts := t.contexts, acct := t.acct }) ∧
      (x ∉ r.again → exec (.handOnBlockArrival k chain member false) s = .next { s with
        runs := s.runs.map fun q => if q.key = k then { q with again := q.again ++ [x] } else q
        plots := { s.plots with chainResend := satAdd 16 s.plots.chainResend 1 } }))

/-- At a tile boundary the plot-µs are charged to the context that ran, its slice is shorter by them and a section's overrun is
owed; a section beyond its bound tears the context down; no other plot's running context changes. A batch slice that has run
out, outside sections and instructions, starts anew less what is owed, and is marked for swap-out when a context has waited
outside. A swap-out that ends leaves an image with the rest of the slice in the Landing; a swap-in that ends brings the
context back with it. A plot in service with an instruction in flight for 28,000 cycles, or whose mover has not answered for
100 µs, is retired with its cause, no resident and its number vacated; the lowest-numbered unused spare takes the number
with PLOT_REPLACED, and without one PLOTS_REDUCED is raised, a root set having been written. A ferried tile that arrives is
ready on its plot unless a line that its ferry read is being refetched; a generation step that stalls at the start of a
layer counts a late arrival once for that layer and marks its commands. A schedule that had no late arrival for SHALLOW_S
leads by one layer less. -/
def Obligations.PlotsAndFerries : Prop :=
  ∀ (s : State) (p : Nat), p < 272 →
    let q := s.plot p
    let ran := fun (n us : Nat) => account (some n) (fun c => { c with plotUs := c.plotUs + us }) s
    let Alone := fun n : Nat => n < 1024 ∧ n ∉ q.claims ∧ ∀ i ∈ s.plots.images, i.ctx = n → i.saved = true
    let ends := fun u : State => match q.flights.head? with
      | none => u
      | some f => settleRun f.key u
    let Put := fun y : Plot => { s with plots := { s.plots with list := kvSet p y s.plots.list } }
    let Retires := fun (o : Out) (cause : Nat) => q.role = .active →
      (∃ t, o = .next t ∧ (t.plot p).role = .retired ∧ (t.plot p).logical = none ∧ (t.plot p).vacating = q.logical ∧ (t.plot p).cause = cause ∧
        (t.plot p).residents = [] ∧ (t.plot p).running = none ∧ (t.plot p).swap = none ∧ (t.plot p).claims = [] ∧ (t.plot p).tiles = [] ∧
        (t.plot p).flights = []) ∧
      (q.residents = [] → o = .next (Put { q with
        role := .retired, logical := none, vacating := q.logical, cause := cause, residents := [], running := none, claims := [], swap := none
        tiles := [], flights := [], shadow := [none, none], parked := false }))
    (q.running = none → ∀ us, ∃ u, exec (.tileBoundary p us) s = .next (engineStep p (ends u)) ∧ Settled s u) ∧
    (∀ n us, q.running = some n → n < 1024 → s.overrunOn p = none → ∃ u, exec (.tileBoundary p us) s = .next (engineStep p (ends u)) ∧ Settled (ran n us) u ∧
      (∀ i, i ≠ p → (u.plot i).running = (s.plot i).running) ∧
      (Alone n → ∀ r ∈ (u.plot p).residents, r.ctx = n → ∃ y ∈ q.residents, y.ctx = n ∧ r.leftUs = y.leftUs - us ∧
        r.owedUs = if s.sectionOn p n = true ∧ y.cls = .batch then y.owedUs + (us - y.leftUs) else y.owedUs)) ∧
    (∀ n k us, s.overrunOn p = some (n, k) → n < 1024 → ∃ u, exec (.tileBoundary p us) s = .next (engineStep p u) ∧
      Settled (tearDown n stBoundOverrun (some k) (ran n us)) u) ∧
    (∀ n r, q.running = some n → q.residents.find? (fun y => decide (y.ctx = n)) = some r → r.cls = .batch → r.leftUs = 0 →
      s.sectionOn p n = false → q.flights = [] → ∃ u, exec (.sliceEnd p) s = .next (engineStep p u) ∧ Settled s u ∧
      (Alone n → ∀ y ∈ (u.plot p).residents, y.ctx = n → y.leftUs = r.sliceUs - min r.owedUs r.sliceUs ∧
        y.owedUs = r.owedUs - min r.owedUs r.sliceUs ∧ y.remainder = false ∧
        ((s.waiting p (q.staying.filter fun x => decide (x.ctx ≠ n))).isSome = true → y.out.isSome = true))) ∧
    (∀ w, q.swap = some w →
      let spent := ran (w.cause.getD w.ctx) ((s.now - w.began) / 25)
      (∀ r, w.out = true → q.residents.find? (fun y => decide (y.ctx = w.ctx)) = some r → ∃ u, exec (.swapOutEnd p) s = .next (engineStep p u) ∧
        Settled spent u ∧ (s.hasWork w.ctx = true → ∃ i ∈ u.plots.images, i.ctx = w.ctx ∧ i.plot = p ∧ i.since = s.now ∧ i.cause = w.cause ∧
          i.saved = true ∧ i.leftUs = r.leftUs ∧ i.remainder = r.remainder ∧ i.owedUs = r.owedUs) ∧
        (Alone w.ctx → ∀ y ∈ (u.plot p).residents, y.ctx ≠ w.ctx)) ∧
      (∀ x i, w.out = false → kvGet w.ctx s.contexts = some x → s.plots.images.find? (fun i => decide (i.ctx = w.ctx) && decide (i.plot = w.img) && i.saved) = some i →
        ∃ u, exec (.swapInEnd p) s = .next (engineStep p u) ∧ Settled spent u ∧
        (q.room x.sramKib = true → q.parked = false → s.hasWork w.ctx = true → s.plotsHeld w.ctx = 0 →
          ∃ y ∈ (u.plot p).residents, y.ctx = w.ctx ∧ y.cls = x.cls ∧ y.leftUs = i.leftUs ∧ y.remainder = i.remainder ∧ y.owedUs = i.owedUs))) ∧
    (∀ f ∈ q.flights, f.at_ + hangCounts (s.clockOf p) ≤ s.now → Retires (exec (.plotHang p) s) 2) ∧
    (q.moverAt + 2500 ≤ s.now → Retires (exec (.moverTimeout p) s) 5) ∧
    (∀ l, q.vacating = some l → q.role = .retired →
      (∀ sp, s.sparePlot = some sp → ∃ t u v w, exec (.sparePlotTakeover p) s = .next t ∧ RootsWritten (Put { q with vacating := none }) 1 u ∧
        (let list := kvSet sp { s.plot sp with role := .active, logical := some l, moverAt := s.now } u.plots.list
         w = { u with plots := { u.plots with list := list } }) ∧
        EventsOnly w v ∧ Logged w v ⟨0x0201, 1, 3, p, s.now, 0xFFFF, plotArgs w l sp q.cause⟩ ∧ Settled v t) ∧
      (s.sparePlot = none → ∃ t u, exec (.sparePlotTakeover p) s = .next t ∧ RootsWritten (Put { q with vacating := none }) 1 u ∧ EventsOnly u t ∧
        Logged u t ⟨0x0202, 2, 3, p, s.now, 0xFFFF, plotArgs u l 0xFFFF q.cause⟩)) ∧
    (∀ (o : SchedOwner) n tile, (o.of n = false ∨ s.refetchFor o n ⟨p, tile⟩ = true → exec (.tileReady o ⟨p, tile⟩ n) s = .next s) ∧
      (o.of n = true → s.refetchFor o n ⟨p, tile⟩ = false → ∃ t, exec (.tileReady o ⟨p, tile⟩ n) s = .next t ∧
        Settled { s with runs := s.runs.map fun r => if r.ctx = n ∧ r.handle = o.handle then
          { r with seqs := r.seqs.map fun y => if y.block = .tile tile ∧ y.plot = p then { y with block := .none } else y } else r } t ∧
        ∀ y ∈ (t.plot p).tiles, y.ctx = n → y.handle = o.handle → y.tile = tile → y.ready = true)) ∧
    (∀ slot batch m tile i d n st, kvGet slot s.models = some m → StepReady s slot m batch (s.servedKeys slot m batch) (some tile) →
      (d, n) ∈ s.tokenWaits 0x54 slot → d.key ∈ s.servedKeys slot m batch → kvGet n s.streams = some st →
      st.cls = (if batch then .batch else .interactive) → imgLayerOf m.image tile = some i → (imgLayer m.image i).1 = tile →
      ∃ t, exec (.generationStep slot batch) s = .next t ∧ t = { s with
        steps := t.steps, plots := t.plots, acct := t.acct
        landing := { s.landing with
          schedules := t.landing.schedules, lateArrivals := t.landing.lateArrivals, leadCapped := t.landing.leadCapped }
        cmds := s.cmds.map fun c => if (s.servedKeys slot m batch).contains c.key = true then { c with lt := true } else c } ∧
      (∀ x ∈ t.landing.schedules, x.owner = .model slot → x.layer = some i) ∧
      t.landing.lateArrivals = (if ∃ x ∈ s.landing.schedules, x.owner = .model slot ∧ x.layer = some i then s.landing.lateArrivals
        else satAdd 16 s.landing.lateArrivals 1)) ∧
    (∀ o, exec (.ferryLeadShallow o) s = .next { s with landing := { s.landing with schedules := s.landing.schedules.map fun x =>
      if x.owner = o ∧ x.leadMin < x.lead ∧ x.lastLate + 25000000 * x.shallowS ≤ s.now then
        { x with lead := x.lead - 1, lastLate := s.now } else x } })

/-- The read whose turn it is on its die reports the state words of its pages, counts and charges them, and delivers a member
that decodes to the command or search waiting for it, one CORRECTED_HIGH being copied elsewhere; one that does not decode
waits for its read-around, one whose stream check mismatches for its re-check. A read-around delivers the member with STATE
5, or, when another member cannot be read or the rebuilt data fail their check, STATE 6, and poisons its unit. A member's
program that is not the last of its word line frees its die; the last closes the line and journals its units, and the
entries of a journal stripe are durable; a failed one leaves its block grown-bad and gives the line up. An erase frees its
die, and the last that is waited for clears the band, counts and is journaled FREE. A suspended operation resumes when no
read is queued that could suspend it. Garbage collection takes its victim with every live unit to be copied. A tilling read
of a place due counts it in the pass, copies it when CORRECTED_HIGH and has it rebuilt when it does not decode; around an
unreadable die it reports DIE_FAILED. After 1 ms the oldest journal entries go into a stripe being programmed. A checkpoint
begins after 60 s or 1 GiB with every dirty segment, and ends, its directory written, with a root set. The shared settling
of the media follows. -/
def Obligations.MediaEngine : Prop :=
  ∀ (s : State),
    let m := s.media
    let Work := fun u : State => MediaWork { s with searches := u.searches } u ∧
      u.searches.map (fun q => { q with read := [] }) = s.searches.map fun q => { q with read := [] }
    let Then := fun (o : Out) (P : State → Prop) => ∃ u, o = .next (settleMedia u) ∧ Work u ∧ P u
    let Copied := fun (a : MediaAddr) (u : State) => (∃ j ∈ u.media.copies, j.src = a) ∨ ∃ l ∈ u.media.lines, ∃ j ∈ l.copies, j.2.src = a
    let Got := fun (r : PageReq) (around : Bool) (u : State) =>
      (∀ k, r.for_ = .cmd k → ∀ c ∈ s.cmds, c.key = k → c.needs r.place = true → ∃ d ∈ u.cmds, d.key = k ∧ r.place ∈ d.pagesIn) ∧
      ∀ k id, r.for_ = .search k id → ∀ q ∈ s.searches, q.key = k → ∃ x ∈ u.searches, x.key = k ∧ (id, true, around) ∈ x.read
    let Charged := fun (r : PageReq) (n : Nat) (u : State) => u.acct = (account (s.readContext r) (fun c => { c with reads := c.reads + n }) s).acct
    (∀ d r op res, s.turn d = some r → s.dieAt r.place = some d → s.serve r.place r.cls r.wbHighPct = .direct op → r.reports res = true →
      let got := res.map (PageResult.within r.retryMax)
      let state := PageResult.state r.corrHigh
      Then (exec (.pageReadComplete r.place r.cls res) s) fun u => Charged r res.length u ∧
        u.media.report = some (r.place, pageWords got (suspendedCode op) false state) ∧
        u.media.retried = got.foldl (fun n x => satAdd 16 n (b2n (decide (0 < x.retry)))) m.retried ∧
        u.media.soft = got.foldl (fun n x => satAdd 16 n (b2n x.soft)) m.soft ∧
        u.media.uncorrectable = got.foldl (fun n x => satAdd 16 n (b2n (decide (state x = 4)))) m.uncorrectable ∧
        u.media.progSuspends = (if op = some .programSuspended then satAdd 32 m.progSuspends 1 else m.progSuspends) ∧
        ((∀ x ∈ got, state x ≤ 1) → ((∃ x ∈ got, x.mismatch = true) → s.armed r = false) → Got r false u ∧
          ((∃ x ∈ got, state x = 1) → (s.unitAt r.place).isSome = true → Copied r.place u)) ∧
        ((∀ x ∈ got, state x ≤ 1) → (∃ x ∈ got, x.mismatch = true) → s.armed r = true →
          { r with step := .recheck, found := got } ∈ u.media.reads) ∧
        ((∃ x ∈ got, 2 ≤ state x) → { r with step := .rebuild, found := got } ∈ u.media.reads)) ∧
    (∀ a ok r, m.reads.find? (fun r => decide (r.place = a) && s.wanted r && (decide (r.step ≠ .queued) || decide (s.serveReq r = .around))) = some r →
      s.partsWait a r.cls r.wbHighPct = false →
      let reach := (s.othersOf a).all fun b => !s.unreadable b
      let good := reach && ok && (decide (r.step = .recheck) || s.rebuildChecks a r.cws)
      Then (exec (.readAroundComplete a ok) s) fun u => Charged r ((planesOf r.cws).length * (s.othersOf a).length) u ∧
        u.media.readsAround = satAdd 32 m.readsAround 1 ∧
        (∃ susp ≤ 2, u.media.report =
          some (a, pageWords (if r.found = [] then unread r.cws else r.found) susp true fun _ => if good = true then 5 else 6)) ∧
        (good = true → Got r true u ∧ u.media.rebuildFailed = m.rebuildFailed ∧
          (r.step = .recheck → u.media.chkRepaired = satAdd 16 m.chkRepaired 1)) ∧
        (good = false → r.step = .recheck → reach = true → u.media.chkMismatch = satAdd 16 m.chkMismatch 1) ∧
        (good = false → (r.step = .recheck → reach = false) → u.media.rebuildFailed = satAdd 16 m.rebuildFailed 1 ∧
          ∀ k w, r.for_ = .cmd k → s.unitAt a = some w → u.entry (w / 2 ^ 40) (w % 2 ^ 40) = some .poisoned)) ∧
    (∀ k wl v kind l d, kind ≠ .reserve → kind ≠ .rebuild → s.wordLine k wl = some l → l.kind = kind → s.rowDie (k / 2800) v = some d →
      d < s.part.dies → (s.die d).op = .program → (s.die d).line = some (k, wl) →
      let dies := kvSet d { s.die d with op := .idle, line := none } m.dies
      let lines := m.lines.map fun x => if x.band = k ∧ x.wl = wl then { l with done := v :: l.done } else x
      ((∃ w ∈ (s.band k).sieves, w ≠ v ∧ w ∉ l.done) → exec (.programComplete k wl v kind none) s =
        .next (settleMedia { s with media := { m with dies := dies, lines := lines } })) ∧
      ((∀ w ∈ (s.band k).sieves, w = v ∨ w ∈ l.done) → Then (exec (.programComplete k wl v kind none) s) fun u =>
        (∀ x ∈ u.media.lines, ¬ (x.band = k ∧ x.wl = wl)) ∧ (kind ≠ .journal → (u.band k).filled = wl + 1) ∧
        (∀ p ∈ l.slots, ∀ x, kvGet p.2 m.slots = some x →
          .map x.vol x.unit (some (.media p.1)) (some (.buffer p.2)) (some p.2) ∈ u.media.journal) ∧
        (kind = .journal → u.media.journalSeq = m.journalSeq + l.entries.length ∧ u.media.journaled = m.journaled + l.entries.length ∧
          ∀ o i new old n, l.entries = [.map o i (some new) old (some n)] → s.entry o i = old → kvSorted m.slots = true →
            u.entry o i = some new ∧ kvGet n u.media.slots = none)) ∧
      (∀ plane block, s.blockOf d plane (k % 2800) = some block → ∃ u, exec (.programComplete k wl v kind (some plane)) s = .next (settleMedia u) ∧
        MediaWork { s with
          free := u.free, indexes := u.indexes, sec := { s.sec with vault := u.sec.vault }
          links := { s.links with incoming := u.links.incoming } } u ∧
        (∀ x ∈ u.media.lines, ¬ (x.band = k ∧ x.wl = wl)) ∧
        ∃ g ∈ u.media.grownBad, g.sieve = s.dieSieve d ∧ g.channel = s.dieChannel d ∧ g.position = s.diePos d ∧ g.plane = plane ∧
          g.block = block)) ∧
    (∀ k v d, (s.band k).state = .erasing → s.rowDie (k / 2800) v = some d → d < s.part.dies → (s.die d).op = .erase →
      (s.die d).erasing = some k →
      let Out_ := fun w => w ≠ v ∧ w ∉ (s.band k).erased ∧ (s.sieve w).lost = false ∧ (s.rowDie (k / 2800) w).isSome = true
      ∃ u, exec (.eraseComplete k v none) s = .next (settleMedia u) ∧
        MediaWork { s with power := { s.power with idleSince := u.power.idleSince } } u ∧ (u.die d).op = .idle ∧
        ((∃ w ∈ (s.band k).sieves, Out_ w) → (u.band k).erased = v :: (s.band k).erased ∧ u.media.flash = m.flash) ∧
        ((∀ w ∈ (s.band k).sieves, ¬ Out_ w) → (u.band k).erases = (s.band k).erases + 1 ∧
          (∀ i < 3072 * 16 * 65536, memGet u.media.flash (k * (3072 * 16) * 65536 + i) = 0#8) ∧
          (∀ x ∈ u.media.members, x.1 / (3072 * 16) ≠ k) ∧
          ((s.band k).doomed = false → .band k .free ((s.band k).erases + 1) ∈ u.media.journal) ∧
          ((s.band k).doomed = true → (u.band k).state = .retired))) ∧
    (∀ d, d < s.part.dies → s.readQueued d = false →
      ((s.die d).op = .programSuspended →
        exec (.suspendResume d) s = .next { s with media := { m with dies := kvSet d { s.die d with op := .program } m.dies } }) ∧
      ((s.die d).op = .eraseSuspended →
        exec (.suspendResume d) s = .next { s with media := { m with dies := kvSet d { s.die d with op := .erase } m.dies } })) ∧
    (∀ j v, m.journal ≠ [] → m.journalAt + 25000 ≤ s.now → s.journalLine = none → journalBand s = some (j, v) →
      Then (exec .journalStripeTimeout s) fun u => ∃ l ∈ u.media.lines, l.band = j ∧ l.wl = (v.band j).filled ∧ l.kind = .journal ∧ l.done = [] ∧
        l.entries = v.media.journal.reverse.take (v.journalRoom j) ∧ u.media.journal.reverse = v.media.journal.reverse.drop (v.journalRoom j)) ∧
    ((m.checkpointAt + 60 * 25000000 ≤ s.now ∨ 67108864 ≤ m.journaled) → s.pressure = false → m.check = none →
      Then (exec .mapCheckpoint s) fun u => u.media.checkpointAt = s.now ∧ ∃ c, u.media.check = some c ∧ c.segs = [] ∧ c.items = [] ∧ c.dir = false ∧
        c.places = m.directory ∧ (∀ g ∈ m.segments, g.dirty = true → g.num ∈ c.rest) ∧ (∀ x ∈ m.delta, segmentOf x ∈ c.rest) ∧
        c.headSeq = m.journalSeq + (match s.journalLine with | some l => l.entries.length | none => 0)) ∧
    (∀ c, m.check = some c → c.rest = [] → c.items = [] → c.dir = true → (∀ l ∈ m.lines, l.kind = .copy → l.items = []) →
      let u := stepCheckpoint s
      u.media.check = none ∧ u.media.checkpointSeq = m.checkpointSeq + 1 ∧ u.media.rootSeq = m.rootSeq + 1 ∧ u.media.headSeq = c.headSeq ∧
      u.media.directory = c.places ∧ u.media.journaled = m.journalSeq - c.headSeq ∧
      ((m.bankSieve (if (m.rootSeq + 1) % 2 = 0 then 0 else 8)).isSome = true →
        ∃ b, (u.media.bankA = some b ∨ u.media.bankB = some b) ∧ b.seq = m.rootSeq + 1 ∧ b.checkpoint = m.checkpointSeq + 1 ∧ b.dir = c.dirAt ∧
          b.head = c.head ∧ b.headSeq = c.headSeq)) ∧
    (∀ k, s.mediaPaused = false → s.victim = some k → Then (exec .garbageCollection s) fun u =>
      (u.band k).state = .relocating ∧ ∀ y ∈ s.liveIn k, Copied y.2 u) ∧
    (∀ a res, s.pressure = false → s.tillDue a = true →
      (∀ d op, s.dieAt a = some d → s.serve a .housekeeping m.wbHighPct = .direct op → s.turn d = none → res.map (·.plane) = [0, 1, 2, 3] →
        let got := res.map (PageResult.within m.retryMax)
        let state := PageResult.state m.corrHigh
        Then (exec (.tillingRead a res) s) fun u => u.media.tillLast = s.now ∧
          (((∃ x ∈ got, x.soft = true) → s.young a = false) →
            ((∀ b ∈ s.tillPlaces, b.num = a.num ∨ b.num ∈ m.tilled) →
              u.media.tilled = [] ∧ u.media.health.tillPasses = satAdd 32 m.health.tillPasses 1) ∧
            ((∃ b ∈ s.tillPlaces, b.num ≠ a.num ∧ b.num ∉ m.tilled) →
              u.media.tilled = a.num :: m.tilled ∧ u.media.health.tillPasses = m.health.tillPasses)) ∧
          ((∀ x ∈ got, state x ≤ 1) → (∃ x ∈ got, state x = 1) → (s.unitAt a).isSome = true → Copied a u) ∧
          ((∃ x ∈ got, state x = 4) → ∃ r ∈ u.media.reads, r.place = a ∧ r.for_ = .tilling ∧ r.step = .rebuild ∧ r.found = got)) ∧
      (s.serve a .housekeeping m.wbHighPct = .around → ∃ u, exec (.tillingRead a res) s = .next u ∧ Work u ∧ u.media.tillLast = s.now ∧
        u.media.report = some (a, pageWords (unread 0xFFFF) 0 false fun _ => 7)))

/-- A die that has not answered a status poll for 1 ms becomes unresponsive, and serves in its old role again when it answers.
One unresponsive for 50 ms, or with a plane below 2,700 good blocks, is failed: its row goes to the spare that R178 names,
which is to rebuild every block set with data from its first word line, and DIE_REMAPPED is raised; without a spare the row
stays short. Each word line rebuilt lets the next one follow. An unused spare is checked once a tilling cycle; one that
fails, by its check or otherwise, is failed with its own DIE_REMAPPED. The last block set rebuilt makes the spare a member.
A sieve runs on when one lane fails. One that is lost has no lane, waits for re-striping, and is reported, and no band is
open and no word line begun then; the end of re-striping is reported in its turn. Everything outside the media, replies,
events and activity counts stays. -/
def Obligations.MediaRepair : Prop :=
  ∀ (s : State),
    let m := s.media
    let x := s.die
    let WithDie := fun (d : Nat) (y : Die) => { s with media := { m with dies := kvSet d y m.dies } }
    let SpareFailed := fun (d : Nat) (o : Out) => ∃ t u, o = .next t ∧ u = WithDie d (Die.fail 255 (x d)) ∧ EventsOnly u t ∧
      Logged u t ⟨0x0301, 1, 4, s.dieSieve d, s.now, 0xFFFF,
        remapArgs 255 (s.dieChannel d) (s.diePos d) 255 255 (u.sieveSpares (s.dieSieve d))⟩
    let Lost := fun (v : Nat) (o : Out) => ∃ u, o = .next (settleMedia u) ∧ MediaWork s u ∧ (u.sieve v).lost = true ∧
      (u.sieve v).lane0 = false ∧ (u.sieve v).lane1 = false ∧ v ∈ u.media.restriping ∧ u.media.lines = [] ∧
      (∀ b ∈ u.media.bands, b.2.state ≠ .opened) ∧ ∃ e ∈ u.events, e.code = 0x0302 ∧ e.kind = 4 ∧ e.source = v ∧ e.args = evArgs [(20, 1, 1)]
    (∀ d, d < s.part.dies →
      ((x d).role = .spare → (x d).began + m.tillDays * 86400 * 25000000 ≤ s.now →
        exec (.spareDieCheck d true) s = .next (WithDie d { x d with answered := s.now, began := s.now }) ∧
        SpareFailed d (exec (.spareDieCheck d false) s)) ∧
      ((x d).answered + 25000 ≤ s.now → ((x d).role = .member ∨ (x d).role = .rebuilding ∨ (x d).role = .spare) →
        exec (.dieUnresponsive d) s = .next (WithDie d { x d with role := .unresponsive, was := (x d).role })) ∧
      ((x d).role ≠ .failed → exec (.diePollAnswered d) s = .next (settleMedia (WithDie d { x d with
        answered := s.now, role := if (x d).role = .unresponsive then (x d).was else (x d).role }))) ∧
      (∀ k v wl, s.rowDie (k / 2800) v = some d → kvGet (k % 2800) (x d).todo = some wl → s.mediaPaused = false → s.takesOp d true = true →
        (let n := (s.band k).kind.lineStripes
         ∀ i < n, s.partsWait ⟨k / 2800, k % 2800, n * wl + i, v⟩ .housekeeping m.wbHighPct = false) →
        ∃ u, exec (.programComplete k wl v .rebuild none) s = .next (settleMedia u) ∧ MediaWork s u ∧
          (u.die d).todo = if (s.band k).filled ≤ wl + 1 then kvDel (k % 2800) (x d).todo else kvSet (k % 2800) (wl + 1) (x d).todo) ∧
      ((x d).role = .rebuilding → s.toRebuild d = [] →
        exec (.dieRebuildEnd d) s = .next (WithDie d { x d with role := .member, was := .member, todo := [] })) ∧
      ((x d).role ≠ .failed → (((x d).role = .unresponsive ∧ (x d).answered + 50 * 25000 ≤ s.now) ∨ (x d).goodMin < 2700) →
        let role := if (x d).role = .unresponsive then (x d).was else (x d).role
        (role = .spare → SpareFailed d (exec (.dieFailed d) s)) ∧
        (role ≠ .spare → ∃ u, exec (.dieFailed d) s = .next (settleMedia u) ∧ MediaWork s u ∧ (u.die d).role = .failed ∧
          (s.spareFor d = none → (u.die d).row = (x d).row) ∧
          ∀ i, s.spareFor d = some i → (u.die i).role = .rebuilding ∧ (u.die i).row = (x d).row ∧
            (kvSorted m.bands = true → ∀ b ∈ s.bandsWith (x d).row (s.dieSieve d), kvGet (b.1 % 2800) (u.die i).todo = some 0) ∧
            ∃ e ∈ u.events, e.code = 0x0301 ∧ e.kind = 4 ∧ e.source = s.dieSieve d))) ∧
    (∀ v lane,
      let lanes := setAt m.sieves v fun y => if lane = 0 then { y with lane0 := false } else { y with lane1 := false }
      ((if lane = 0 then (s.sieve v).lane1 else (s.sieve v).lane0) = true →
        exec (.sieveLaneFail v lane) s = .next { s with media := { m with sieves := lanes } }) ∧
      (v < 16 → m.sieves.length = 16 → kvSorted m.bands = true → (s.sieve v).up = true →
        (if lane = 0 then (s.sieve v).lane1 else (s.sieve v).lane0) = false → Lost v (exec (.sieveLaneFail v lane) s))) ∧
    (∀ v, v < 16 → m.sieves.length = 16 → kvSorted m.bands = true → (s.sieve v).lost = false → Lost v (exec (.sieveLost v) s)) ∧
    (∀ v, v ∈ m.restriping → (∀ b ∈ m.bands, v ∈ b.2.sieves → s.liveIn b.1 = [] ∧ s.mapIn b.1 = false) →
      ∃ t u, exec (.restripeEnd v) s = .next t ∧
      u = { s with media := { m with restriping := m.restriping.filter fun w => decide (w ≠ v) } } ∧ EventsOnly u t ∧
      Logged u t ⟨0x0302, 1, 4, v, s.now, 0xFFFF, evArgs [(20, 1, 2)]⟩)

/-- Each 1 ms step of the power loop takes the measurements and counts, adds the next limit above the cap, the clock steps of
batch plots first, then those of all plots, then parking, and lifts one after 10 ms at 95% of it or less. A thermal sample
keeps the temperatures; the first group at its warning starts a warning from the cap in force, and one at its trip stops the
module with THERMTRIP_N. Each second the thermal limit falls by 50 W to no less than 400 W while a group is hot, and rises
when no warning is in force. Deep idle begins after DEEP_IDLE_S of quiet. A window adds its measurement, restarts the window
counts, gives each context its modelled energy when nothing disagrees, and starts a calibration fault above 40%. A
recalibration starts when due, and one that succeeds ends the fault with an event. An interval's end writes one record for
each context, one for no context and one for the module, and a seal with its 119 parts when the segment is 600 s old; each
second the interval is journaled. -/
def Obligations.PowerAndAccounting : Prop :=
  ∀ (s : State),
    let a := s.acct
    let Events := fun (u : State) (power : Power) => u = { s with
      power := power, media := { s.media with health := u.media.health }, events := u.events, newEvents := u.newEvents, alert := u.alert
      sessions := u.sessions, ports := u.ports, wire := u.wire }
    (∀ inputW vinCv full parts,
      let v := { s with
        keeper := { s.keeper with vinCv := vinCv, vinMin := min s.keeper.vinMin vinCv }
        landing := { s.landing with reserveFull := full % 64 }
        power := { s.power with inputW := inputW, parts := (List.range 6).map fun i => parts.getD i 0 } }
      let w := if a.drift ∨ a.calFault then max inputW (a.modelled / 100000) else inputW
      let cap := s.capInForce
      let limits := s.power.limits
      (¬ (s.keeper.stage = 5 ∧ s.power.idle = .running) → exec (.powerLoopTick inputW vinCv ⟨full, parts⟩) s = .next v) ∧
      (s.keeper.stage = 5 → s.power.idle = .running → ∃ t u, exec (.powerLoopTick inputW vinCv ⟨full, parts⟩) s = .next t ∧ PowerSettled u t ∧
        Settled { v with power := u.power } u ∧
        u.power = { v.power with
          overCap := if cap < inputW then satAdd 32 s.power.overCap 1 else s.power.overCap
          throttleMs := if s.power.cause ≠ 0 then satAdd 32 s.power.throttleMs 1 else s.power.throttleMs
          belowMs := u.power.belowMs, limits := u.power.limits } ∧
        (cap < w → s.limitsOf .batchStep < 3 → u.power.limits = .batchStep :: limits ∧ u.plots = s.plots) ∧
        (cap < w → 3 ≤ s.limitsOf .batchStep → s.limitsOf .interactiveStep < 3 → u.power.limits = .interactiveStep :: limits ∧ u.plots = s.plots) ∧
        (∀ p, cap < w → 3 ≤ s.limitsOf .batchStep → 3 ≤ s.limitsOf .interactiveStep → (List.range 272).find? s.parkable = some p →
          u.power.limits = .park :: limits ∧ (u.plot p).parked = true) ∧
        (100 * w ≤ 95 * cap → s.power.belowMs + 1 < 10 → u.power.belowMs = s.power.belowMs + 1 ∧ u.power.limits = limits ∧ u.plots = s.plots) ∧
        (∀ l, 100 * w ≤ 95 * cap → 9 ≤ s.power.belowMs → limits = .batchStep :: l → s.limitsOf .landing = 0 → s.limitsOf .flash = 0 →
          u.power.belowMs = 0 ∧ u.power.limits = l ∧ u.plots = s.plots))) ∧
    (∀ temps,
      let now_ := (List.range 8).map fun i => temps.getD i 0
      let hot := (List.range 8).any fun i => decide (s.power.warn.getD i 0 ≤ now_.getD i 0)
      let trips := (now_.zip tripTemps).any fun y => decide (y.2 ≤ y.1)
      let base := fun v : State => { s.power with temps := now_, peak := v.power.peak, coolSince := v.power.coolSince, warnGroup := v.power.warnGroup }
      (trips = false → ¬ (s.keeper.stage = 5 ∧ hot = true ∧ s.power.warning = false) → ∃ t, exec (.thermalSample temps) s = .next t ∧
        t = { s with power := base t, media := { s.media with health := t.media.health } }) ∧
      (trips = false → s.keeper.stage = 5 → hot = true → s.power.warning = false → ∃ t u, exec (.thermalSample temps) s = .next t ∧ PowerSettled u t ∧
        Events u { base u with warning := true, limitW := max 400 s.capInForce, limitAt := s.now } ∧ ∃ e ∈ u.events, e.code = 0x0504 ∧ e.severity = 2) ∧
      (trips = true → s.keeper.stage ≠ 0 → s.keeper.stage ≠ 9 → ∃ t, exec (.thermalSample temps) s = .next t ∧
        t.keeper = { s.keeper with
          stage := 9, thermtrip := true, moduleGood := false, nextCause := 2
          hiLatch := s.keeper.hiLatch.filter fun h => decide (h.1 = 2) } ∧ t.cmds = [] ∧ t.replies = [] ∧ t.contexts = [])) ∧
    (s.keeper.stage = 5 → s.power.limitAt + 25000000 ≤ s.now → ∃ t u, exec .thermalLimitStep s = .next t ∧ PowerSettled u t ∧
      Events u { s.power with warning := u.power.warning, limitW := u.power.limitW, limitAt := u.power.limitAt } ∧
      (s.power.warning = true → s.power.coolSince = none → ((s.power.temps.zip s.power.warn).any fun y => decide (y.2 ≤ y.1)) = true →
        u.power.limitW = max 400 (s.power.limitW - 50) ∧ u.power.warning = true ∧ u.power.limitAt = s.now) ∧
      (s.power.warning = false → s.power.limitW < 1250 → u.power.limitW = min 1250 (s.power.limitW + 50) ∧ u.power.limitAt = s.now) ∧
      (∀ c, s.power.warning = true → s.power.coolSince = some c → c + 10 * 25000000 ≤ s.now →
        u.power.warning = false ∧ ∃ e ∈ u.events, e.code = 0x0504 ∧ e.severity = 0)) ∧
    (s.keeper.stage = 5 → s.power.idle = .running → s.power.deepIdleS ≠ 0 → s.quietNow = true →
      s.power.idleSince + s.power.deepIdleS * 25000000 ≤ s.now → exec .deepIdleEntry s =
        .next { s with power := { s.power with idle := .deepIdle }, landing := { s.landing with selfRefresh := true } }) ∧
    (∀ uj, s.keeper.stage = 5 → ∃ t u, exec (.accountingWindow uj) s = .next t ∧ EventsOnly u t ∧ u = { s with acct := u.acct } ∧
      let m := uj * 100000000
      let sum := a.cur.sum (·.winModel)
      let T := sum + a.cur.nobody.winModel + a.standingUj * 100000000
      let off := if m ≤ T then T - m else m - T
      u.acct.lastM = uj ∧ u.acct.cur.measured = a.cur.measured + uj ∧ u.acct.above = (if 15 * m < 100 * off then a.above + 1 else 0) ∧
      (u.acct.calFault = true ↔ a.calFault = true ∨ 40 * m < 100 * off) ∧ (∀ c ∈ u.acct.cur.counts, c.2.winModel = 0 ∧ c.2.winUs = 0) ∧
      (a.drift = false → u.acct.calFault = false → sum ≤ m → ∀ c ∈ a.cur.counts, ∃ d ∈ u.acct.cur.counts, d.1 = c.1 ∧
        d.2.energy = c.2.energy + c.2.winModel) ∧
      (a.drift = false → 9 ≤ a.above → 15 * m < 100 * off → u.acct.drift = true ∧ u.acct.drifts = satAdd 16 a.drifts 1)) ∧
    (s.keeper.stage = 5 → a.calFault = true → a.calibrating = false → s.power.idle = .running → a.faultAt + 10 * 25000000 ≤ s.now →
      (a.calibratedAt < a.faultAt + 10 * 25000000 ∨ a.calibratedAt + 600 * 25000000 ≤ s.now) →
      exec .recalibrationStart s = .next { s with acct := { a with calibrating := true, calibratedAt := s.now } }) ∧
    (∀ ok prices, a.calibrating = true → ∃ t u, exec (.recalibrationEnd ok prices) s = .next t ∧ EventsOnly u t ∧
      (let kept := if ok = true ∧ prices.length = 8 then prices else a.prices
       u = { s with acct := { a with calibrating := false, prices := kept, calFault := a.calFault && !ok } }) ∧
      (a.calFault = true → ok = true → Logged u t ⟨0x0503, 0, 0, 0, s.now, 0xFFFF, driftArgs a.disagree 2 a.modelled a.lastM⟩) ∧
      (¬ (a.calFault = true ∧ ok = true) → t = u)) ∧
    (s.keeper.stage = 5 → a.cur.start + a.intervalS * 25000000 ≤ s.now → ∃ t, exec .accountingIntervalEnd s = .next t ∧ t = { s with acct := t.acct } ∧
      let n := s.contexts.length + a.cur.closed.length + 2 + (if a.segStart + 600 * 25000000 ≤ s.now then 120 else 0)
      t.acct.cur = AccInterval.begin s.now ∧ t.acct.intervalS = a.nextIntervalS ∧ t.acct.journaled = none ∧ t.acct.nextSeq = a.nextSeq + n ∧
      (a.records.length + n ≤ 16777216 → ∃ new, t.acct.records = a.records ++ new ∧ new.map (·.seq) = (List.range n).map (a.nextSeq + ·))) ∧
    (s.keeper.stage = 5 → a.journalAt + 25000000 ≤ s.now →
      exec .accountingJournal s = .next { s with acct := { a with journaled := some s.interval, journalAt := s.now } })

/-- An input that is not in chatter acts once when it is asserted: MOD_RESET_N stops every part with the reset to come,
PWR_FAIL_WARN_N protects writes and ends each WRITE WRITE_PROTECTED, THROTTLE_N changes the CAUSE bits, TAMPER_N wipes the
vault and the keys of the sieves and raises TAMPER; each release is kept, and 1 s after the release of PWR_FAIL_WARN_N
writes are accepted. Chatter asserts its input and its end takes the level held; both raise INPUT_CHATTER. An input loss
stops the module, the end of the hold-up store leaves what R542 names, the supervisor stops it without a flush. A reset
while the other parts are off or in reset already clears the late IDN registers. POWER_ON, INPUT_RESTORED, the end of a
reset and an expired trial start the module, or hold it in reset while MOD_RESET_N is asserted: with a slot the ROM accepts,
a stack up, a plot that passes, a valid root set and a copy of the test model, MODULE_GOOD is released with the cause that
the spec gives; with no such slot it halts in recovery mode, with every stack down with START_FAULT 0x05, and with neither
bank valid with 0x02. -/
def Obligations.InputsAndStarts : Prop :=
  ∀ (s : State),
    let kp := s.keeper
    let Starts := fun (u : State) (env : StartEnv) (cause : Nat) (cold : Bool) (o : Out) =>
      (u.keeper.modReset.asserted = true → ∃ t, o = .next t ∧ t.keeper.stage = 7 ∧ t.keeper.idnAt = 0 ∧ t.keeper.nextCause = cause ∧
        t.media = u.media) ∧
      (u.keeper.modReset.asserted = false → u.keeper.thermtrip = false →
      let set := u.media.factoryRead = false ∨ ∃ r ∈ u.media.rootsLeft, r.seq ∉ env.rootsBad ∧ r.sieve < u.media.sieves.length ∧
        (u.sieve r.sieve).lost = false
      let sieve := fun (ok : Sieve → Prop) => ∃ v < 16, v < u.media.sieves.length ∧ (u.sieve v).lost = false ∧ ok (u.sieve v)
      let ready := (env.diesFail = [] ∧ set ∧ sieve fun x => x.testOk = true) ∨
        (u.sec.life = .blank ∧ u.sec.retiredFuse = false ∧ u.media.factoryRead = false ∧ sieve fun _ => True)
      let Halts := fun (fault : Nat) => ∃ t, o = .next t ∧ t.keeper.stage = 8 ∧ t.keeper.startFault = fault ∧ t.keeper.cause = cause ∧
        t.keeper.moduleGood = u.keeper.moduleGood ∧ t.sec.recovery = decide (fault = 1)
      (∀ n, u.bootSlot env = some n → env.stacksDown % 64 ≠ 63 → ready → env.testBad = [] → env.testFail = false →
        (cold = true → ∃ p < 272, p ∉ env.plotsFail ∧ ((u.plot p).role ≠ .retired ∨ (u.plot p).marked = true)) →
        ∃ t, o = .next t ∧ t.keeper.stage = 5 ∧ t.keeper.moduleGood = true ∧ t.keeper.cause = cause ∧ t.sec.booted = n ∧ t.sec.recovery = false ∧
          t.starts = satAdd 16 u.starts 1 ∧ t.cold = cold) ∧
      (u.bootSlot env = none → Halts 1) ∧ ((u.bootSlot env).isSome = true → env.stacksDown % 64 = 63 → Halts 5) ∧
      ((u.bootSlot env).isSome = true → env.stacksDown % 64 ≠ 63 → env.diesFail = [] → ¬ set → Halts 2))
    let Stopped := fun (t : State) => t.cmds = [] ∧ t.replies = [] ∧ t.contexts = [] ∧ t.media.slots = [] ∧ t.keeper.moduleGood = false
    let down := fun (p : InPin) => { p with asserted := true, raw := true, count := satAdd 8 p.count 1 }
    let up := fun (p : InPin) => { p with asserted := false, raw := false }
    let Chatter := fun (t : State) (i kind sev edges : Nat) => ∃ e ∈ t.events, e.code = 0x0601 ∧ e.severity = sev ∧ e.kind = 6 ∧ e.source = i ∧
      e.args = evArgs [(20, 1, kind), (21, 2, min 65535 edges)]
    (∀ env : StartEnv, 4000 ≤ env.vinCv →
      ((kp.stage = 1 ∨ kp.powered = false) → Starts s env 1 true (exec (.powerOn env) s)) ∧
      (kp.supplyOk = false → Starts s env (if kp.powered then 5 else 1) true (exec (.inputRestored env) s))) ∧
    (∀ env, kp.modReset.chatter = false → kp.stage = 7 →
      Starts { s with keeper := { kp with modReset := up kp.modReset } } env kp.nextCause true (exec (.modResetNRelease env) s)) ∧
    (∀ env, s.sec.trial = true → kp.moduleGood = false → kp.stage ≠ 0 → kp.stage ≠ 7 → kp.stage ≠ 9 → kp.startAt + 120 * 25000000 ≤ s.now →
      Starts (stopModule 7 4 [] s) env 4 false (exec (.trialTimeout env) s)) ∧
    (∀ dj, kp.supplyOk = true → exec (.holdupTestEnd dj) s = .next { s with keeper := { kp with
      holdup := dj % 65536, holdupState := if 720 ≤ dj then 1 else 2, holdupWeak := decide (dj < 720) } }) ∧
    (kp.powered = true → kp.supplyOk = true → ∃ t, exec .supervisorTimeout s = .next t ∧ Stopped t ∧ t.wire = s.wire ∧ t.media.flushDone = false ∧
      t.keeper = { kp with
        powered := false, count := 0, idnAt := 0, pecRequired := false, fastPlus := false, led := 0, hiLatch := [], moduleGood := false, stage := 0 }) ∧
    (kp.supplyOk = false → exec .keeperPowerLoss s = .next { s with keeper := { Keeper.reset with
      stage := 0, thermtrip := kp.thermtrip, tripped := kp.tripped, modReset := { kp.modReset with count := 0 }
      pwrFail := { kp.pwrFail with count := 0 }, throttle := { kp.throttle with count := 0 }, tamper := { kp.tamper with count := 0 }
      writeProtect := kp.writeProtect, supplyOk := false, powered := false } }) ∧
    (kp.modReset.chatter = false → kp.modReset.asserted = false → kp.powered = true → (kp.stage = 0 ∨ kp.stage = 7) →
      exec .modResetNAssert s = .next { s with keeper := { kp with modReset := down kp.modReset, idnAt := 0 } }) ∧
    (∀ cv lost, kp.supplyOk = true → (cv < 3800 ∨ 6200 < cv) → ∃ t, exec (.inputLoss cv lost) s = .next t ∧ t.keeper.supplyOk = false ∧
      t.keeper.stage = 0 ∧ t.keeper.nextCause = 5 ∧ t.keeper.vinCv = cv ∧ t.keeper.count = kp.count ∧ t.keeper.powered = kp.powered ∧
      (kp.stage ≠ 7 → kp.stage ≠ 9 → Stopped t)) ∧
    (kp.modReset.chatter = false → kp.modReset.asserted = false → kp.powered = true → kp.stage ≠ 0 → kp.stage ≠ 7 →
      ∃ t, exec .modResetNAssert s = .next t ∧ Stopped t ∧ t.keeper = { kp with
        modReset := down kp.modReset, moduleGood := false, stage := 7, idnAt := 0, nextCause := 2, hiLatch := kp.hiLatch.filter fun h => decide (h.1 = 2) }) ∧
    (kp.pwrFail.chatter = false → kp.pwrFail.asserted = false → kp.powered = true → ∃ t, exec .pwrFailWarnNAssert s = .next t ∧
      MediaWork { s with keeper := { kp with pwrFail := down kp.pwrFail, writeProtect := true }, indexes := t.indexes } t ∧
      (kp.stage = 5 → ∀ c ∈ s.cmds, c.opcode = 0x21 → c.live = true → ∃ r ∈ t.replies, r.key = c.key ∧ r.status = 0x0303)) ∧
    (kp.pwrFail.chatter = false → kp.pwrFail.asserted = true →
      exec .pwrFailWarnNRelease s = .next { s with keeper := { kp with pwrFail := up kp.pwrFail, releasedAt := s.now } }) ∧
    (kp.pwrFail.asserted = false → kp.releasedAt + 25000000 ≤ s.now →
      exec .writeProtectEnd s = .next { s with keeper := { kp with writeProtect := false } }) ∧
    (kp.throttle.chatter = false →
      (kp.throttle.asserted = false → ∃ t, exec .throttleNAssert s = .next t ∧
        let u := { s with keeper := { kp with throttle := down kp.throttle } }
        (kp.stage = 5 → PowerSettled u t) ∧ (kp.stage ≠ 5 → t = u)) ∧
      (kp.throttle.asserted = true → ∃ t, exec .throttleNRelease s = .next t ∧
        let u := { s with keeper := { kp with throttle := up kp.throttle } }
        (kp.stage = 5 → PowerSettled u t) ∧ (kp.stage ≠ 5 → t = u))) ∧
    (kp.tamper.chatter = false →
      (kp.tamper.asserted = false → kp.powered = true → ∃ t u, exec .tamperNAssert s = .next t ∧
        u = { s with
          keeper := { kp with tamper := down kp.tamper }
          media := { s.media with sieves := s.media.sieves.map fun v => { v with keys := [] } }
          sec := { s.sec with
            unlocked := false, kek := [], vault := [], moduleKeys := decide (kp.stage = 5) || decide (kp.stage = 8)
            tamperBits := Nat.lor s.sec.tamperBits 1, tampers := satAdd 16 s.sec.tampers 1, wipes := satAdd 16 s.sec.wipes 1 } } ∧
        EventsOnly u t ∧ Logged u t ⟨0x0602, 3, 6, 1, s.now, 0xFFFF, evArgs [(20, 1, s.sec.life.code), (21, 1, b2n s.keysPresent)]⟩) ∧
      (kp.tamper.asserted = true → exec .tamperNRelease s = .next { s with keeper := { kp with tamper := up kp.tamper } })) ∧
    (∀ i edges, i ≤ 3 →
      ((kp.pin i).chatter = false → 16 ≤ edges → ∃ t, exec (.inputChatterStart i edges) s = .next t ∧ (t.keeper.pin i).chatter = true ∧
        (t.keeper.pin i).asserted = true ∧ Chatter t i 1 2 edges) ∧
      (∀ low, (kp.pin i).chatter = true → ∃ t, exec (.inputChatterEnd i edges low) s = .next t ∧ (t.keeper.pin i).chatter = false ∧
        (t.keeper.pin i).raw = low ∧ (low = false → (t.keeper.pin i).asserted = false) ∧ Chatter t i 2 0 edges))

/-- While the keeper runs and the PEC passes: SET_OFFSET to a good offset sets the pointer with status 0, to a bad one sets
status 1 and leaves the pointer; READ at a bad pointer answers status 1 with value 0, of an assigned register of another
block than IDN and KPR before service status 5 with value 0, and otherwise status 0 with the register's value, and moves the
pointer by 4; WRITE at a bad pointer sets status 1, outside KPR status 2, and KPR_SMB_CFG and KPR_LED take the written bits;
LAST_STATUS answers the status kept. A transaction whose PEC does not pass only sets status 4. The alert response answers
with the module's address while ALERT_N is asserted, and does not release it. A host peek answers one line of a plot's
exchange window and changes nothing else; one of a line whose check has failed answers nothing; one of a line or plot that
does not exist stops. -/
def Obligations.SmbusAndPeek : Prop :=
  ∀ (s : State) (pec : Option Bool),
    let off := s.keeper.smbPointer
    let Says := fun (bytes : List Byte) (u : State) => { u with wire := .smbus bytes :: u.wire }
    let st := fun (n : Nat) => { s with keeper := { s.keeper with smbStatus := n } }
    (s.keeper.powered = true → s.pecOk pec = true →
      (∀ o, badOffset o = false →
        exec (.smbSetOffset o pec) s = .next { s with keeper := { s.keeper with smbPointer := o, smbStatus := 0 } }) ∧
      (∀ o, badOffset o = true → exec (.smbSetOffset o pec) s = .next (st 1)) ∧
      (badOffset off = true → exec (.smbRead pec) s = .next (Says [5#8, 1#8, 0#8, 0#8, 0#8, 0#8] (st 1)) ∧
        ∀ v, exec (.smbWrite v pec) s = .next (st 1)) ∧
      (badOffset off = false →
        (2 ≤ off / 0x1000 → assigned off = true → s.serving = false → exec (.smbRead pec) s =
          .next (Says [5#8, 5#8, 0#8, 0#8, 0#8, 0#8] s)) ∧
        ((off / 0x1000 < 2 ∨ assigned off = false ∨ s.serving = true) → ∃ t u, exec (.smbRead pec) s = .next t ∧ u = (readReg 2 off s).2 ∧
          t = Says ([5#8, 0#8] ++ leBytes 4 (readReg 2 off s).1) { u with keeper := { u.keeper with smbPointer := off + 4 } }) ∧
        (off / 0x1000 ≠ 1 → ∀ v, exec (.smbWrite v pec) s = .next (st 2))) ∧
      (off = 0x1018 → ∀ v, exec (.smbWrite v pec) s = .next { s with keeper := { s.keeper with
        pecRequired := bit v 1, fastPlus := bit v 0, smbStatus := 0 } }) ∧
      (off = 0x101C → ∀ v, exec (.smbWrite v pec) s = .next { s with keeper := { s.keeper with led := v % 4, smbStatus := 0 } }) ∧
      exec (.smbLastStatus pec) s = .next (Says (leBytes 1 s.keeper.smbStatus) s)) ∧
    (s.keeper.powered = true → s.pecOk pec = false → ∀ o v, exec (.smbSetOffset o pec) s = .next (st 4) ∧ exec (.smbRead pec) s = .next (st 4) ∧
      exec (.smbWrite v pec) s = .next (st 4) ∧ exec (.smbLastStatus pec) s = .next (st 4)) ∧
    (s.keeper.powered = true → s.alert = true → exec .smbAlertResponse s = .next (Says (leBytes 1 (2 * (0x58 + s.slotAddr))) s)) ∧
    (∀ p line, (p < 272 → line < 2048 → (s.landing.faults.all fun f => decide (f.line ≠ windowSram p line)) = true →
        exec (.hostPeek p line) s = .next { s with wire := .peek p line ((s.plot p).windowLine line) :: s.wire }) ∧
      (p < 272 → line < 2048 → (∃ f ∈ s.landing.faults, f.line = windowSram p line) → exec (.hostPeek p line) s = .next s) ∧
      (¬ (p < 272 ∧ line < 2048) → exec (.hostPeek p line) s = .fault .noSuchLine))
end

