-- ==== Sys2Proof/Laws/State.lean ====
section
/-!
SUPPORT. Laws/State.lean: what every change of one part of the state leaves in every field, so that no proof unfolds an update.
-/

namespace Sys2Proof.Machine

@[simp] theorem modSession_pending (n : Nat) (f : Session → Session) (s : State) : (modSession n f s).pending = s.pending := rfl
@[simp] theorem modSession_part (n : Nat) (f : Session → Session) (s : State) : (modSession n f s).part = s.part := rfl
@[simp] theorem modSession_serial (n : Nat) (f : Session → Session) (s : State) : (modSession n f s).serial = s.serial := rfl
@[simp] theorem modSession_slotAddr (n : Nat) (f : Session → Session) (s : State) : (modSession n f s).slotAddr = s.slotAddr := rfl
@[simp] theorem modSession_keeper (n : Nat) (f : Session → Session) (s : State) : (modSession n f s).keeper = s.keeper := rfl
@[simp] theorem modSession_ports (n : Nat) (f : Session → Session) (s : State) : (modSession n f s).ports = s.ports := rfl
@[simp] theorem modSession_alert (n : Nat) (f : Session → Session) (s : State) : (modSession n f s).alert = s.alert := rfl
@[simp] theorem modSession_sessions (n : Nat) (f : Session → Session) (s : State) : (modSession n f s).sessions = setAt s.sessions n f := rfl
@[simp] theorem modSession_cmds (n : Nat) (f : Session → Session) (s : State) : (modSession n f s).cmds = s.cmds := rfl
@[simp] theorem modSession_replies (n : Nat) (f : Session → Session) (s : State) : (modSession n f s).replies = s.replies := rfl
@[simp] theorem modSession_nextOrder (n : Nat) (f : Session → Session) (s : State) : (modSession n f s).nextOrder = s.nextOrder := rfl
@[simp] theorem modSession_nextReply (n : Nat) (f : Session → Session) (s : State) : (modSession n f s).nextReply = s.nextReply := rfl
@[simp] theorem modSession_events (n : Nat) (f : Session → Session) (s : State) : (modSession n f s).events = s.events := rfl
@[simp] theorem modSession_newEvents (n : Nat) (f : Session → Session) (s : State) : (modSession n f s).newEvents = s.newEvents := rfl
@[simp] theorem modSession_wire (n : Nat) (f : Session → Session) (s : State) : (modSession n f s).wire = s.wire := rfl
@[simp] theorem modSession_contexts (n : Nat) (f : Session → Session) (s : State) : (modSession n f s).contexts = s.contexts := rfl
@[simp] theorem modSession_landing (n : Nat) (f : Session → Session) (s : State) : (modSession n f s).landing = s.landing := rfl
@[simp] theorem modSession_media (n : Nat) (f : Session → Session) (s : State) : (modSession n f s).media = s.media := rfl
@[simp] theorem modSession_preds (n : Nat) (f : Session → Session) (s : State) : (modSession n f s).preds = s.preds := rfl
@[simp] theorem modSession_scans (n : Nat) (f : Session → Session) (s : State) : (modSession n f s).scans = s.scans := rfl
@[simp] theorem modSession_indexes (n : Nat) (f : Session → Session) (s : State) : (modSession n f s).indexes = s.indexes := rfl
@[simp] theorem modSession_searches (n : Nat) (f : Session → Session) (s : State) : (modSession n f s).searches = s.searches := rfl
@[simp] theorem modSession_plots (n : Nat) (f : Session → Session) (s : State) : (modSession n f s).plots = s.plots := rfl
@[simp] theorem modSession_programs (n : Nat) (f : Session → Session) (s : State) : (modSession n f s).programs = s.programs := rfl
@[simp] theorem modSession_runs (n : Nat) (f : Session → Session) (s : State) : (modSession n f s).runs = s.runs := rfl
@[simp] theorem modSession_trains (n : Nat) (f : Session → Session) (s : State) : (modSession n f s).trains = s.trains := rfl
@[simp] theorem modSession_models (n : Nat) (f : Session → Session) (s : State) : (modSession n f s).models = s.models := rfl
@[simp] theorem modSession_streams (n : Nat) (f : Session → Session) (s : State) : (modSession n f s).streams = s.streams := rfl
@[simp] theorem modSession_steps (n : Nat) (f : Session → Session) (s : State) : (modSession n f s).steps = s.steps := rfl
@[simp] theorem modSession_links (n : Nat) (f : Session → Session) (s : State) : (modSession n f s).links = s.links := rfl
@[simp] theorem modSession_power (n : Nat) (f : Session → Session) (s : State) : (modSession n f s).power = s.power := rfl
@[simp] theorem modSession_acct (n : Nat) (f : Session → Session) (s : State) : (modSession n f s).acct = s.acct := rfl
@[simp] theorem modSession_sec (n : Nat) (f : Session → Session) (s : State) : (modSession n f s).sec = s.sec := rfl
@[simp] theorem modSession_sympathetic (n : Nat) (f : Session → Session) (s : State) : (modSession n f s).sympathetic = s.sympathetic := rfl
@[simp] theorem modSession_starts (n : Nat) (f : Session → Session) (s : State) : (modSession n f s).starts = s.starts := rfl
@[simp] theorem modSession_cold (n : Nat) (f : Session → Session) (s : State) : (modSession n f s).cold = s.cold := rfl
@[simp] theorem modSession_free (n : Nat) (f : Session → Session) (s : State) : (modSession n f s).free = s.free := rfl

@[simp] theorem modPort_pending (n : Nat) (f : Port → Port) (s : State) : (modPort n f s).pending = s.pending := rfl
@[simp] theorem modPort_part (n : Nat) (f : Port → Port) (s : State) : (modPort n f s).part = s.part := rfl
@[simp] theorem modPort_serial (n : Nat) (f : Port → Port) (s : State) : (modPort n f s).serial = s.serial := rfl
@[simp] theorem modPort_slotAddr (n : Nat) (f : Port → Port) (s : State) : (modPort n f s).slotAddr = s.slotAddr := rfl
@[simp] theorem modPort_keeper (n : Nat) (f : Port → Port) (s : State) : (modPort n f s).keeper = s.keeper := rfl
@[simp] theorem modPort_ports (n : Nat) (f : Port → Port) (s : State) : (modPort n f s).ports = setAt s.ports n f := rfl
@[simp] theorem modPort_alert (n : Nat) (f : Port → Port) (s : State) : (modPort n f s).alert = s.alert := rfl
@[simp] theorem modPort_sessions (n : Nat) (f : Port → Port) (s : State) : (modPort n f s).sessions = s.sessions := rfl
@[simp] theorem modPort_cmds (n : Nat) (f : Port → Port) (s : State) : (modPort n f s).cmds = s.cmds := rfl
@[simp] theorem modPort_replies (n : Nat) (f : Port → Port) (s : State) : (modPort n f s).replies = s.replies := rfl
@[simp] theorem modPort_nextOrder (n : Nat) (f : Port → Port) (s : State) : (modPort n f s).nextOrder = s.nextOrder := rfl
@[simp] theorem modPort_nextReply (n : Nat) (f : Port → Port) (s : State) : (modPort n f s).nextReply = s.nextReply := rfl
@[simp] theorem modPort_events (n : Nat) (f : Port → Port) (s : State) : (modPort n f s).events = s.events := rfl
@[simp] theorem modPort_newEvents (n : Nat) (f : Port → Port) (s : State) : (modPort n f s).newEvents = s.newEvents := rfl
@[simp] theorem modPort_wire (n : Nat) (f : Port → Port) (s : State) : (modPort n f s).wire = s.wire := rfl
@[simp] theorem modPort_contexts (n : Nat) (f : Port → Port) (s : State) : (modPort n f s).contexts = s.contexts := rfl
@[simp] theorem modPort_landing (n : Nat) (f : Port → Port) (s : State) : (modPort n f s).landing = s.landing := rfl
@[simp] theorem modPort_media (n : Nat) (f : Port → Port) (s : State) : (modPort n f s).media = s.media := rfl
@[simp] theorem modPort_preds (n : Nat) (f : Port → Port) (s : State) : (modPort n f s).preds = s.preds := rfl
@[simp] theorem modPort_scans (n : Nat) (f : Port → Port) (s : State) : (modPort n f s).scans = s.scans := rfl
@[simp] theorem modPort_indexes (n : Nat) (f : Port → Port) (s : State) : (modPort n f s).indexes = s.indexes := rfl
@[simp] theorem modPort_searches (n : Nat) (f : Port → Port) (s : State) : (modPort n f s).searches = s.searches := rfl
@[simp] theorem modPort_plots (n : Nat) (f : Port → Port) (s : State) : (modPort n f s).plots = s.plots := rfl
@[simp] theorem modPort_programs (n : Nat) (f : Port → Port) (s : State) : (modPort n f s).programs = s.programs := rfl
@[simp] theorem modPort_runs (n : Nat) (f : Port → Port) (s : State) : (modPort n f s).runs = s.runs := rfl
@[simp] theorem modPort_trains (n : Nat) (f : Port → Port) (s : State) : (modPort n f s).trains = s.trains := rfl
@[simp] theorem modPort_models (n : Nat) (f : Port → Port) (s : State) : (modPort n f s).models = s.models := rfl
@[simp] theorem modPort_streams (n : Nat) (f : Port → Port) (s : State) : (modPort n f s).streams = s.streams := rfl
@[simp] theorem modPort_steps (n : Nat) (f : Port → Port) (s : State) : (modPort n f s).steps = s.steps := rfl
@[simp] theorem modPort_links (n : Nat) (f : Port → Port) (s : State) : (modPort n f s).links = s.links := rfl
@[simp] theorem modPort_power (n : Nat) (f : Port → Port) (s : State) : (modPort n f s).power = s.power := rfl
@[simp] theorem modPort_acct (n : Nat) (f : Port → Port) (s : State) : (modPort n f s).acct = s.acct := rfl
@[simp] theorem modPort_sec (n : Nat) (f : Port → Port) (s : State) : (modPort n f s).sec = s.sec := rfl
@[simp] theorem modPort_sympathetic (n : Nat) (f : Port → Port) (s : State) : (modPort n f s).sympathetic = s.sympathetic := rfl
@[simp] theorem modPort_starts (n : Nat) (f : Port → Port) (s : State) : (modPort n f s).starts = s.starts := rfl
@[simp] theorem modPort_cold (n : Nat) (f : Port → Port) (s : State) : (modPort n f s).cold = s.cold := rfl
@[simp] theorem modPort_free (n : Nat) (f : Port → Port) (s : State) : (modPort n f s).free = s.free := rfl

@[simp] theorem modCtx_pending (n : Nat) (f : Ctx → Ctx) (s : State) : (modCtx n f s).pending = s.pending := rfl
@[simp] theorem modCtx_part (n : Nat) (f : Ctx → Ctx) (s : State) : (modCtx n f s).part = s.part := rfl
@[simp] theorem modCtx_serial (n : Nat) (f : Ctx → Ctx) (s : State) : (modCtx n f s).serial = s.serial := rfl
@[simp] theorem modCtx_slotAddr (n : Nat) (f : Ctx → Ctx) (s : State) : (modCtx n f s).slotAddr = s.slotAddr := rfl
@[simp] theorem modCtx_keeper (n : Nat) (f : Ctx → Ctx) (s : State) : (modCtx n f s).keeper = s.keeper := rfl
@[simp] theorem modCtx_ports (n : Nat) (f : Ctx → Ctx) (s : State) : (modCtx n f s).ports = s.ports := rfl
@[simp] theorem modCtx_alert (n : Nat) (f : Ctx → Ctx) (s : State) : (modCtx n f s).alert = s.alert := rfl
@[simp] theorem modCtx_sessions (n : Nat) (f : Ctx → Ctx) (s : State) : (modCtx n f s).sessions = s.sessions := rfl
@[simp] theorem modCtx_cmds (n : Nat) (f : Ctx → Ctx) (s : State) : (modCtx n f s).cmds = s.cmds := rfl
@[simp] theorem modCtx_replies (n : Nat) (f : Ctx → Ctx) (s : State) : (modCtx n f s).replies = s.replies := rfl
@[simp] theorem modCtx_nextOrder (n : Nat) (f : Ctx → Ctx) (s : State) : (modCtx n f s).nextOrder = s.nextOrder := rfl
@[simp] theorem modCtx_nextReply (n : Nat) (f : Ctx → Ctx) (s : State) : (modCtx n f s).nextReply = s.nextReply := rfl
@[simp] theorem modCtx_events (n : Nat) (f : Ctx → Ctx) (s : State) : (modCtx n f s).events = s.events := rfl
@[simp] theorem modCtx_newEvents (n : Nat) (f : Ctx → Ctx) (s : State) : (modCtx n f s).newEvents = s.newEvents := rfl
@[simp] theorem modCtx_wire (n : Nat) (f : Ctx → Ctx) (s : State) : (modCtx n f s).wire = s.wire := rfl
@[simp] theorem modCtx_contexts (n : Nat) (f : Ctx → Ctx) (s : State) : (modCtx n f s).contexts = kvMod n f s.contexts := rfl
@[simp] theorem modCtx_landing (n : Nat) (f : Ctx → Ctx) (s : State) : (modCtx n f s).landing = s.landing := rfl
@[simp] theorem modCtx_media (n : Nat) (f : Ctx → Ctx) (s : State) : (modCtx n f s).media = s.media := rfl
@[simp] theorem modCtx_preds (n : Nat) (f : Ctx → Ctx) (s : State) : (modCtx n f s).preds = s.preds := rfl
@[simp] theorem modCtx_scans (n : Nat) (f : Ctx → Ctx) (s : State) : (modCtx n f s).scans = s.scans := rfl
@[simp] theorem modCtx_indexes (n : Nat) (f : Ctx → Ctx) (s : State) : (modCtx n f s).indexes = s.indexes := rfl
@[simp] theorem modCtx_searches (n : Nat) (f : Ctx → Ctx) (s : State) : (modCtx n f s).searches = s.searches := rfl
@[simp] theorem modCtx_plots (n : Nat) (f : Ctx → Ctx) (s : State) : (modCtx n f s).plots = s.plots := rfl
@[simp] theorem modCtx_programs (n : Nat) (f : Ctx → Ctx) (s : State) : (modCtx n f s).programs = s.programs := rfl
@[simp] theorem modCtx_runs (n : Nat) (f : Ctx → Ctx) (s : State) : (modCtx n f s).runs = s.runs := rfl
@[simp] theorem modCtx_trains (n : Nat) (f : Ctx → Ctx) (s : State) : (modCtx n f s).trains = s.trains := rfl
@[simp] theorem modCtx_models (n : Nat) (f : Ctx → Ctx) (s : State) : (modCtx n f s).models = s.models := rfl
@[simp] theorem modCtx_streams (n : Nat) (f : Ctx → Ctx) (s : State) : (modCtx n f s).streams = s.streams := rfl
@[simp] theorem modCtx_steps (n : Nat) (f : Ctx → Ctx) (s : State) : (modCtx n f s).steps = s.steps := rfl
@[simp] theorem modCtx_links (n : Nat) (f : Ctx → Ctx) (s : State) : (modCtx n f s).links = s.links := rfl
@[simp] theorem modCtx_power (n : Nat) (f : Ctx → Ctx) (s : State) : (modCtx n f s).power = s.power := rfl
@[simp] theorem modCtx_acct (n : Nat) (f : Ctx → Ctx) (s : State) : (modCtx n f s).acct = s.acct := rfl
@[simp] theorem modCtx_sec (n : Nat) (f : Ctx → Ctx) (s : State) : (modCtx n f s).sec = s.sec := rfl
@[simp] theorem modCtx_sympathetic (n : Nat) (f : Ctx → Ctx) (s : State) : (modCtx n f s).sympathetic = s.sympathetic := rfl
@[simp] theorem modCtx_starts (n : Nat) (f : Ctx → Ctx) (s : State) : (modCtx n f s).starts = s.starts := rfl
@[simp] theorem modCtx_cold (n : Nat) (f : Ctx → Ctx) (s : State) : (modCtx n f s).cold = s.cold := rfl
@[simp] theorem modCtx_free (n : Nat) (f : Ctx → Ctx) (s : State) : (modCtx n f s).free = s.free := rfl

@[simp] theorem modCmd_pending (k : CmdKey) (f : Cmd → Cmd) (s : State) : (modCmd k f s).pending = s.pending := rfl
@[simp] theorem modCmd_part (k : CmdKey) (f : Cmd → Cmd) (s : State) : (modCmd k f s).part = s.part := rfl
@[simp] theorem modCmd_serial (k : CmdKey) (f : Cmd → Cmd) (s : State) : (modCmd k f s).serial = s.serial := rfl
@[simp] theorem modCmd_slotAddr (k : CmdKey) (f : Cmd → Cmd) (s : State) : (modCmd k f s).slotAddr = s.slotAddr := rfl
@[simp] theorem modCmd_keeper (k : CmdKey) (f : Cmd → Cmd) (s : State) : (modCmd k f s).keeper = s.keeper := rfl
@[simp] theorem modCmd_ports (k : CmdKey) (f : Cmd → Cmd) (s : State) : (modCmd k f s).ports = s.ports := rfl
@[simp] theorem modCmd_alert (k : CmdKey) (f : Cmd → Cmd) (s : State) : (modCmd k f s).alert = s.alert := rfl
@[simp] theorem modCmd_sessions (k : CmdKey) (f : Cmd → Cmd) (s : State) : (modCmd k f s).sessions = s.sessions := rfl
@[simp] theorem modCmd_cmds (k : CmdKey) (f : Cmd → Cmd) (s : State) : (modCmd k f s).cmds = s.cmds.map fun c => if c.key = k then f c else c := rfl
@[simp] theorem modCmd_replies (k : CmdKey) (f : Cmd → Cmd) (s : State) : (modCmd k f s).replies = s.replies := rfl
@[simp] theorem modCmd_nextOrder (k : CmdKey) (f : Cmd → Cmd) (s : State) : (modCmd k f s).nextOrder = s.nextOrder := rfl
@[simp] theorem modCmd_nextReply (k : CmdKey) (f : Cmd → Cmd) (s : State) : (modCmd k f s).nextReply = s.nextReply := rfl
@[simp] theorem modCmd_events (k : CmdKey) (f : Cmd → Cmd) (s : State) : (modCmd k f s).events = s.events := rfl
@[simp] theorem modCmd_newEvents (k : CmdKey) (f : Cmd → Cmd) (s : State) : (modCmd k f s).newEvents = s.newEvents := rfl
@[simp] theorem modCmd_wire (k : CmdKey) (f : Cmd → Cmd) (s : State) : (modCmd k f s).wire = s.wire := rfl
@[simp] theorem modCmd_contexts (k : CmdKey) (f : Cmd → Cmd) (s : State) : (modCmd k f s).contexts = s.contexts := rfl
@[simp] theorem modCmd_landing (k : CmdKey) (f : Cmd → Cmd) (s : State) : (modCmd k f s).landing = s.landing := rfl
@[simp] theorem modCmd_media (k : CmdKey) (f : Cmd → Cmd) (s : State) : (modCmd k f s).media = s.media := rfl
@[simp] theorem modCmd_preds (k : CmdKey) (f : Cmd → Cmd) (s : State) : (modCmd k f s).preds = s.preds := rfl
@[simp] theorem modCmd_scans (k : CmdKey) (f : Cmd → Cmd) (s : State) : (modCmd k f s).scans = s.scans := rfl
@[simp] theorem modCmd_indexes (k : CmdKey) (f : Cmd → Cmd) (s : State) : (modCmd k f s).indexes = s.indexes := rfl
@[simp] theorem modCmd_searches (k : CmdKey) (f : Cmd → Cmd) (s : State) : (modCmd k f s).searches = s.searches := rfl
@[simp] theorem modCmd_plots (k : CmdKey) (f : Cmd → Cmd) (s : State) : (modCmd k f s).plots = s.plots := rfl
@[simp] theorem modCmd_programs (k : CmdKey) (f : Cmd → Cmd) (s : State) : (modCmd k f s).programs = s.programs := rfl
@[simp] theorem modCmd_runs (k : CmdKey) (f : Cmd → Cmd) (s : State) : (modCmd k f s).runs = s.runs := rfl
@[simp] theorem modCmd_trains (k : CmdKey) (f : Cmd → Cmd) (s : State) : (modCmd k f s).trains = s.trains := rfl
@[simp] theorem modCmd_models (k : CmdKey) (f : Cmd → Cmd) (s : State) : (modCmd k f s).models = s.models := rfl
@[simp] theorem modCmd_streams (k : CmdKey) (f : Cmd → Cmd) (s : State) : (modCmd k f s).streams = s.streams := rfl
@[simp] theorem modCmd_steps (k : CmdKey) (f : Cmd → Cmd) (s : State) : (modCmd k f s).steps = s.steps := rfl
@[simp] theorem modCmd_links (k : CmdKey) (f : Cmd → Cmd) (s : State) : (modCmd k f s).links = s.links := rfl
@[simp] theorem modCmd_power (k : CmdKey) (f : Cmd → Cmd) (s : State) : (modCmd k f s).power = s.power := rfl
@[simp] theorem modCmd_acct (k : CmdKey) (f : Cmd → Cmd) (s : State) : (modCmd k f s).acct = s.acct := rfl
@[simp] theorem modCmd_sec (k : CmdKey) (f : Cmd → Cmd) (s : State) : (modCmd k f s).sec = s.sec := rfl
@[simp] theorem modCmd_sympathetic (k : CmdKey) (f : Cmd → Cmd) (s : State) : (modCmd k f s).sympathetic = s.sympathetic := rfl
@[simp] theorem modCmd_starts (k : CmdKey) (f : Cmd → Cmd) (s : State) : (modCmd k f s).starts = s.starts := rfl
@[simp] theorem modCmd_cold (k : CmdKey) (f : Cmd → Cmd) (s : State) : (modCmd k f s).cold = s.cold := rfl
@[simp] theorem modCmd_free (k : CmdKey) (f : Cmd → Cmd) (s : State) : (modCmd k f s).free = s.free := rfl

@[simp] theorem modMedia_pending (f : Media → Media) (s : State) : (modMedia f s).pending = s.pending := rfl
@[simp] theorem modMedia_part (f : Media → Media) (s : State) : (modMedia f s).part = s.part := rfl
@[simp] theorem modMedia_serial (f : Media → Media) (s : State) : (modMedia f s).serial = s.serial := rfl
@[simp] theorem modMedia_slotAddr (f : Media → Media) (s : State) : (modMedia f s).slotAddr = s.slotAddr := rfl
@[simp] theorem modMedia_keeper (f : Media → Media) (s : State) : (modMedia f s).keeper = s.keeper := rfl
@[simp] theorem modMedia_ports (f : Media → Media) (s : State) : (modMedia f s).ports = s.ports := rfl
@[simp] theorem modMedia_alert (f : Media → Media) (s : State) : (modMedia f s).alert = s.alert := rfl
@[simp] theorem modMedia_sessions (f : Media → Media) (s : State) : (modMedia f s).sessions = s.sessions := rfl
@[simp] theorem modMedia_cmds (f : Media → Media) (s : State) : (modMedia f s).cmds = s.cmds := rfl
@[simp] theorem modMedia_replies (f : Media → Media) (s : State) : (modMedia f s).replies = s.replies := rfl
@[simp] theorem modMedia_nextOrder (f : Media → Media) (s : State) : (modMedia f s).nextOrder = s.nextOrder := rfl
@[simp] theorem modMedia_nextReply (f : Media → Media) (s : State) : (modMedia f s).nextReply = s.nextReply := rfl
@[simp] theorem modMedia_events (f : Media → Media) (s : State) : (modMedia f s).events = s.events := rfl
@[simp] theorem modMedia_newEvents (f : Media → Media) (s : State) : (modMedia f s).newEvents = s.newEvents := rfl
@[simp] theorem modMedia_wire (f : Media → Media) (s : State) : (modMedia f s).wire = s.wire := rfl
@[simp] theorem modMedia_contexts (f : Media → Media) (s : State) : (modMedia f s).contexts = s.contexts := rfl
@[simp] theorem modMedia_landing (f : Media → Media) (s : State) : (modMedia f s).landing = s.landing := rfl
@[simp] theorem modMedia_media (f : Media → Media) (s : State) : (modMedia f s).media = f s.media := rfl
@[simp] theorem modMedia_preds (f : Media → Media) (s : State) : (modMedia f s).preds = s.preds := rfl
@[simp] theorem modMedia_scans (f : Media → Media) (s : State) : (modMedia f s).scans = s.scans := rfl
@[simp] theorem modMedia_indexes (f : Media → Media) (s : State) : (modMedia f s).indexes = s.indexes := rfl
@[simp] theorem modMedia_searches (f : Media → Media) (s : State) : (modMedia f s).searches = s.searches := rfl
@[simp] theorem modMedia_plots (f : Media → Media) (s : State) : (modMedia f s).plots = s.plots := rfl
@[simp] theorem modMedia_programs (f : Media → Media) (s : State) : (modMedia f s).programs = s.programs := rfl
@[simp] theorem modMedia_runs (f : Media → Media) (s : State) : (modMedia f s).runs = s.runs := rfl
@[simp] theorem modMedia_trains (f : Media → Media) (s : State) : (modMedia f s).trains = s.trains := rfl
@[simp] theorem modMedia_models (f : Media → Media) (s : State) : (modMedia f s).models = s.models := rfl
@[simp] theorem modMedia_streams (f : Media → Media) (s : State) : (modMedia f s).streams = s.streams := rfl
@[simp] theorem modMedia_steps (f : Media → Media) (s : State) : (modMedia f s).steps = s.steps := rfl
@[simp] theorem modMedia_links (f : Media → Media) (s : State) : (modMedia f s).links = s.links := rfl
@[simp] theorem modMedia_power (f : Media → Media) (s : State) : (modMedia f s).power = s.power := rfl
@[simp] theorem modMedia_acct (f : Media → Media) (s : State) : (modMedia f s).acct = s.acct := rfl
@[simp] theorem modMedia_sec (f : Media → Media) (s : State) : (modMedia f s).sec = s.sec := rfl
@[simp] theorem modMedia_sympathetic (f : Media → Media) (s : State) : (modMedia f s).sympathetic = s.sympathetic := rfl
@[simp] theorem modMedia_starts (f : Media → Media) (s : State) : (modMedia f s).starts = s.starts := rfl
@[simp] theorem modMedia_cold (f : Media → Media) (s : State) : (modMedia f s).cold = s.cold := rfl
@[simp] theorem modMedia_free (f : Media → Media) (s : State) : (modMedia f s).free = s.free := rfl

@[simp] theorem modLanding_pending (f : Landing → Landing) (s : State) : (modLanding f s).pending = s.pending := rfl
@[simp] theorem modLanding_part (f : Landing → Landing) (s : State) : (modLanding f s).part = s.part := rfl
@[simp] theorem modLanding_serial (f : Landing → Landing) (s : State) : (modLanding f s).serial = s.serial := rfl
@[simp] theorem modLanding_slotAddr (f : Landing → Landing) (s : State) : (modLanding f s).slotAddr = s.slotAddr := rfl
@[simp] theorem modLanding_keeper (f : Landing → Landing) (s : State) : (modLanding f s).keeper = s.keeper := rfl
@[simp] theorem modLanding_ports (f : Landing → Landing) (s : State) : (modLanding f s).ports = s.ports := rfl
@[simp] theorem modLanding_alert (f : Landing → Landing) (s : State) : (modLanding f s).alert = s.alert := rfl
@[simp] theorem modLanding_sessions (f : Landing → Landing) (s : State) : (modLanding f s).sessions = s.sessions := rfl
@[simp] theorem modLanding_cmds (f : Landing → Landing) (s : State) : (modLanding f s).cmds = s.cmds := rfl
@[simp] theorem modLanding_replies (f : Landing → Landing) (s : State) : (modLanding f s).replies = s.replies := rfl
@[simp] theorem modLanding_nextOrder (f : Landing → Landing) (s : State) : (modLanding f s).nextOrder = s.nextOrder := rfl
@[simp] theorem modLanding_nextReply (f : Landing → Landing) (s : State) : (modLanding f s).nextReply = s.nextReply := rfl
@[simp] theorem modLanding_events (f : Landing → Landing) (s : State) : (modLanding f s).events = s.events := rfl
@[simp] theorem modLanding_newEvents (f : Landing → Landing) (s : State) : (modLanding f s).newEvents = s.newEvents := rfl
@[simp] theorem modLanding_wire (f : Landing → Landing) (s : State) : (modLanding f s).wire = s.wire := rfl
@[simp] theorem modLanding_contexts (f : Landing → Landing) (s : State) : (modLanding f s).contexts = s.contexts := rfl
@[simp] theorem modLanding_landing (f : Landing → Landing) (s : State) : (modLanding f s).landing = f s.landing := rfl
@[simp] theorem modLanding_media (f : Landing → Landing) (s : State) : (modLanding f s).media = s.media := rfl
@[simp] theorem modLanding_preds (f : Landing → Landing) (s : State) : (modLanding f s).preds = s.preds := rfl
@[simp] theorem modLanding_scans (f : Landing → Landing) (s : State) : (modLanding f s).scans = s.scans := rfl
@[simp] theorem modLanding_indexes (f : Landing → Landing) (s : State) : (modLanding f s).indexes = s.indexes := rfl
@[simp] theorem modLanding_searches (f : Landing → Landing) (s : State) : (modLanding f s).searches = s.searches := rfl
@[simp] theorem modLanding_plots (f : Landing → Landing) (s : State) : (modLanding f s).plots = s.plots := rfl
@[simp] theorem modLanding_programs (f : Landing → Landing) (s : State) : (modLanding f s).programs = s.programs := rfl
@[simp] theorem modLanding_runs (f : Landing → Landing) (s : State) : (modLanding f s).runs = s.runs := rfl
@[simp] theorem modLanding_trains (f : Landing → Landing) (s : State) : (modLanding f s).trains = s.trains := rfl
@[simp] theorem modLanding_models (f : Landing → Landing) (s : State) : (modLanding f s).models = s.models := rfl
@[simp] theorem modLanding_streams (f : Landing → Landing) (s : State) : (modLanding f s).streams = s.streams := rfl
@[simp] theorem modLanding_steps (f : Landing → Landing) (s : State) : (modLanding f s).steps = s.steps := rfl
@[simp] theorem modLanding_links (f : Landing → Landing) (s : State) : (modLanding f s).links = s.links := rfl
@[simp] theorem modLanding_power (f : Landing → Landing) (s : State) : (modLanding f s).power = s.power := rfl
@[simp] theorem modLanding_acct (f : Landing → Landing) (s : State) : (modLanding f s).acct = s.acct := rfl
@[simp] theorem modLanding_sec (f : Landing → Landing) (s : State) : (modLanding f s).sec = s.sec := rfl
@[simp] theorem modLanding_sympathetic (f : Landing → Landing) (s : State) : (modLanding f s).sympathetic = s.sympathetic := rfl
@[simp] theorem modLanding_starts (f : Landing → Landing) (s : State) : (modLanding f s).starts = s.starts := rfl
@[simp] theorem modLanding_cold (f : Landing → Landing) (s : State) : (modLanding f s).cold = s.cold := rfl
@[simp] theorem modLanding_free (f : Landing → Landing) (s : State) : (modLanding f s).free = s.free := rfl

@[simp] theorem modPower_pending (f : Power → Power) (s : State) : (modPower f s).pending = s.pending := rfl
@[simp] theorem modPower_part (f : Power → Power) (s : State) : (modPower f s).part = s.part := rfl
@[simp] theorem modPower_serial (f : Power → Power) (s : State) : (modPower f s).serial = s.serial := rfl
@[simp] theorem modPower_slotAddr (f : Power → Power) (s : State) : (modPower f s).slotAddr = s.slotAddr := rfl
@[simp] theorem modPower_keeper (f : Power → Power) (s : State) : (modPower f s).keeper = s.keeper := rfl
@[simp] theorem modPower_ports (f : Power → Power) (s : State) : (modPower f s).ports = s.ports := rfl
@[simp] theorem modPower_alert (f : Power → Power) (s : State) : (modPower f s).alert = s.alert := rfl
@[simp] theorem modPower_sessions (f : Power → Power) (s : State) : (modPower f s).sessions = s.sessions := rfl
@[simp] theorem modPower_cmds (f : Power → Power) (s : State) : (modPower f s).cmds = s.cmds := rfl
@[simp] theorem modPower_replies (f : Power → Power) (s : State) : (modPower f s).replies = s.replies := rfl
@[simp] theorem modPower_nextOrder (f : Power → Power) (s : State) : (modPower f s).nextOrder = s.nextOrder := rfl
@[simp] theorem modPower_nextReply (f : Power → Power) (s : State) : (modPower f s).nextReply = s.nextReply := rfl
@[simp] theorem modPower_events (f : Power → Power) (s : State) : (modPower f s).events = s.events := rfl
@[simp] theorem modPower_newEvents (f : Power → Power) (s : State) : (modPower f s).newEvents = s.newEvents := rfl
@[simp] theorem modPower_wire (f : Power → Power) (s : State) : (modPower f s).wire = s.wire := rfl
@[simp] theorem modPower_contexts (f : Power → Power) (s : State) : (modPower f s).contexts = s.contexts := rfl
@[simp] theorem modPower_landing (f : Power → Power) (s : State) : (modPower f s).landing = s.landing := rfl
@[simp] theorem modPower_media (f : Power → Power) (s : State) : (modPower f s).media = s.media := rfl
@[simp] theorem modPower_preds (f : Power → Power) (s : State) : (modPower f s).preds = s.preds := rfl
@[simp] theorem modPower_scans (f : Power → Power) (s : State) : (modPower f s).scans = s.scans := rfl
@[simp] theorem modPower_indexes (f : Power → Power) (s : State) : (modPower f s).indexes = s.indexes := rfl
@[simp] theorem modPower_searches (f : Power → Power) (s : State) : (modPower f s).searches = s.searches := rfl
@[simp] theorem modPower_plots (f : Power → Power) (s : State) : (modPower f s).plots = s.plots := rfl
@[simp] theorem modPower_programs (f : Power → Power) (s : State) : (modPower f s).programs = s.programs := rfl
@[simp] theorem modPower_runs (f : Power → Power) (s : State) : (modPower f s).runs = s.runs := rfl
@[simp] theorem modPower_trains (f : Power → Power) (s : State) : (modPower f s).trains = s.trains := rfl
@[simp] theorem modPower_models (f : Power → Power) (s : State) : (modPower f s).models = s.models := rfl
@[simp] theorem modPower_streams (f : Power → Power) (s : State) : (modPower f s).streams = s.streams := rfl
@[simp] theorem modPower_steps (f : Power → Power) (s : State) : (modPower f s).steps = s.steps := rfl
@[simp] theorem modPower_links (f : Power → Power) (s : State) : (modPower f s).links = s.links := rfl
@[simp] theorem modPower_power (f : Power → Power) (s : State) : (modPower f s).power = f s.power := rfl
@[simp] theorem modPower_acct (f : Power → Power) (s : State) : (modPower f s).acct = s.acct := rfl
@[simp] theorem modPower_sec (f : Power → Power) (s : State) : (modPower f s).sec = s.sec := rfl
@[simp] theorem modPower_sympathetic (f : Power → Power) (s : State) : (modPower f s).sympathetic = s.sympathetic := rfl
@[simp] theorem modPower_starts (f : Power → Power) (s : State) : (modPower f s).starts = s.starts := rfl
@[simp] theorem modPower_cold (f : Power → Power) (s : State) : (modPower f s).cold = s.cold := rfl
@[simp] theorem modPower_free (f : Power → Power) (s : State) : (modPower f s).free = s.free := rfl

@[simp] theorem modKeeper_pending (f : Keeper → Keeper) (s : State) : (modKeeper f s).pending = s.pending := rfl
@[simp] theorem modKeeper_part (f : Keeper → Keeper) (s : State) : (modKeeper f s).part = s.part := rfl
@[simp] theorem modKeeper_serial (f : Keeper → Keeper) (s : State) : (modKeeper f s).serial = s.serial := rfl
@[simp] theorem modKeeper_slotAddr (f : Keeper → Keeper) (s : State) : (modKeeper f s).slotAddr = s.slotAddr := rfl
@[simp] theorem modKeeper_keeper (f : Keeper → Keeper) (s : State) : (modKeeper f s).keeper = f s.keeper := rfl
@[simp] theorem modKeeper_ports (f : Keeper → Keeper) (s : State) : (modKeeper f s).ports = s.ports := rfl
@[simp] theorem modKeeper_alert (f : Keeper → Keeper) (s : State) : (modKeeper f s).alert = s.alert := rfl
@[simp] theorem modKeeper_sessions (f : Keeper → Keeper) (s : State) : (modKeeper f s).sessions = s.sessions := rfl
@[simp] theorem modKeeper_cmds (f : Keeper → Keeper) (s : State) : (modKeeper f s).cmds = s.cmds := rfl
@[simp] theorem modKeeper_replies (f : Keeper → Keeper) (s : State) : (modKeeper f s).replies = s.replies := rfl
@[simp] theorem modKeeper_nextOrder (f : Keeper → Keeper) (s : State) : (modKeeper f s).nextOrder = s.nextOrder := rfl
@[simp] theorem modKeeper_nextReply (f : Keeper → Keeper) (s : State) : (modKeeper f s).nextReply = s.nextReply := rfl
@[simp] theorem modKeeper_events (f : Keeper → Keeper) (s : State) : (modKeeper f s).events = s.events := rfl
@[simp] theorem modKeeper_newEvents (f : Keeper → Keeper) (s : State) : (modKeeper f s).newEvents = s.newEvents := rfl
@[simp] theorem modKeeper_wire (f : Keeper → Keeper) (s : State) : (modKeeper f s).wire = s.wire := rfl
@[simp] theorem modKeeper_contexts (f : Keeper → Keeper) (s : State) : (modKeeper f s).contexts = s.contexts := rfl
@[simp] theorem modKeeper_landing (f : Keeper → Keeper) (s : State) : (modKeeper f s).landing = s.landing := rfl
@[simp] theorem modKeeper_media (f : Keeper → Keeper) (s : State) : (modKeeper f s).media = s.media := rfl
@[simp] theorem modKeeper_preds (f : Keeper → Keeper) (s : State) : (modKeeper f s).preds = s.preds := rfl
@[simp] theorem modKeeper_scans (f : Keeper → Keeper) (s : State) : (modKeeper f s).scans = s.scans := rfl
@[simp] theorem modKeeper_indexes (f : Keeper → Keeper) (s : State) : (modKeeper f s).indexes = s.indexes := rfl
@[simp] theorem modKeeper_searches (f : Keeper → Keeper) (s : State) : (modKeeper f s).searches = s.searches := rfl
@[simp] theorem modKeeper_plots (f : Keeper → Keeper) (s : State) : (modKeeper f s).plots = s.plots := rfl
@[simp] theorem modKeeper_programs (f : Keeper → Keeper) (s : State) : (modKeeper f s).programs = s.programs := rfl
@[simp] theorem modKeeper_runs (f : Keeper → Keeper) (s : State) : (modKeeper f s).runs = s.runs := rfl
@[simp] theorem modKeeper_trains (f : Keeper → Keeper) (s : State) : (modKeeper f s).trains = s.trains := rfl
@[simp] theorem modKeeper_models (f : Keeper → Keeper) (s : State) : (modKeeper f s).models = s.models := rfl
@[simp] theorem modKeeper_streams (f : Keeper → Keeper) (s : State) : (modKeeper f s).streams = s.streams := rfl
@[simp] theorem modKeeper_steps (f : Keeper → Keeper) (s : State) : (modKeeper f s).steps = s.steps := rfl
@[simp] theorem modKeeper_links (f : Keeper → Keeper) (s : State) : (modKeeper f s).links = s.links := rfl
@[simp] theorem modKeeper_power (f : Keeper → Keeper) (s : State) : (modKeeper f s).power = s.power := rfl
@[simp] theorem modKeeper_acct (f : Keeper → Keeper) (s : State) : (modKeeper f s).acct = s.acct := rfl
@[simp] theorem modKeeper_sec (f : Keeper → Keeper) (s : State) : (modKeeper f s).sec = s.sec := rfl
@[simp] theorem modKeeper_sympathetic (f : Keeper → Keeper) (s : State) : (modKeeper f s).sympathetic = s.sympathetic := rfl
@[simp] theorem modKeeper_starts (f : Keeper → Keeper) (s : State) : (modKeeper f s).starts = s.starts := rfl
@[simp] theorem modKeeper_cold (f : Keeper → Keeper) (s : State) : (modKeeper f s).cold = s.cold := rfl
@[simp] theorem modKeeper_free (f : Keeper → Keeper) (s : State) : (modKeeper f s).free = s.free := rfl

@[simp] theorem modSec_pending (f : Security → Security) (s : State) : (modSec f s).pending = s.pending := rfl
@[simp] theorem modSec_part (f : Security → Security) (s : State) : (modSec f s).part = s.part := rfl
@[simp] theorem modSec_serial (f : Security → Security) (s : State) : (modSec f s).serial = s.serial := rfl
@[simp] theorem modSec_slotAddr (f : Security → Security) (s : State) : (modSec f s).slotAddr = s.slotAddr := rfl
@[simp] theorem modSec_keeper (f : Security → Security) (s : State) : (modSec f s).keeper = s.keeper := rfl
@[simp] theorem modSec_ports (f : Security → Security) (s : State) : (modSec f s).ports = s.ports := rfl
@[simp] theorem modSec_alert (f : Security → Security) (s : State) : (modSec f s).alert = s.alert := rfl
@[simp] theorem modSec_sessions (f : Security → Security) (s : State) : (modSec f s).sessions = s.sessions := rfl
@[simp] theorem modSec_cmds (f : Security → Security) (s : State) : (modSec f s).cmds = s.cmds := rfl
@[simp] theorem modSec_replies (f : Security → Security) (s : State) : (modSec f s).replies = s.replies := rfl
@[simp] theorem modSec_nextOrder (f : Security → Security) (s : State) : (modSec f s).nextOrder = s.nextOrder := rfl
@[simp] theorem modSec_nextReply (f : Security → Security) (s : State) : (modSec f s).nextReply = s.nextReply := rfl
@[simp] theorem modSec_events (f : Security → Security) (s : State) : (modSec f s).events = s.events := rfl
@[simp] theorem modSec_newEvents (f : Security → Security) (s : State) : (modSec f s).newEvents = s.newEvents := rfl
@[simp] theorem modSec_wire (f : Security → Security) (s : State) : (modSec f s).wire = s.wire := rfl
@[simp] theorem modSec_contexts (f : Security → Security) (s : State) : (modSec f s).contexts = s.contexts := rfl
@[simp] theorem modSec_landing (f : Security → Security) (s : State) : (modSec f s).landing = s.landing := rfl
@[simp] theorem modSec_media (f : Security → Security) (s : State) : (modSec f s).media = s.media := rfl
@[simp] theorem modSec_preds (f : Security → Security) (s : State) : (modSec f s).preds = s.preds := rfl
@[simp] theorem modSec_scans (f : Security → Security) (s : State) : (modSec f s).scans = s.scans := rfl
@[simp] theorem modSec_indexes (f : Security → Security) (s : State) : (modSec f s).indexes = s.indexes := rfl
@[simp] theorem modSec_searches (f : Security → Security) (s : State) : (modSec f s).searches = s.searches := rfl
@[simp] theorem modSec_plots (f : Security → Security) (s : State) : (modSec f s).plots = s.plots := rfl
@[simp] theorem modSec_programs (f : Security → Security) (s : State) : (modSec f s).programs = s.programs := rfl
@[simp] theorem modSec_runs (f : Security → Security) (s : State) : (modSec f s).runs = s.runs := rfl
@[simp] theorem modSec_trains (f : Security → Security) (s : State) : (modSec f s).trains = s.trains := rfl
@[simp] theorem modSec_models (f : Security → Security) (s : State) : (modSec f s).models = s.models := rfl
@[simp] theorem modSec_streams (f : Security → Security) (s : State) : (modSec f s).streams = s.streams := rfl
@[simp] theorem modSec_steps (f : Security → Security) (s : State) : (modSec f s).steps = s.steps := rfl
@[simp] theorem modSec_links (f : Security → Security) (s : State) : (modSec f s).links = s.links := rfl
@[simp] theorem modSec_power (f : Security → Security) (s : State) : (modSec f s).power = s.power := rfl
@[simp] theorem modSec_acct (f : Security → Security) (s : State) : (modSec f s).acct = s.acct := rfl
@[simp] theorem modSec_sec (f : Security → Security) (s : State) : (modSec f s).sec = f s.sec := rfl
@[simp] theorem modSec_sympathetic (f : Security → Security) (s : State) : (modSec f s).sympathetic = s.sympathetic := rfl
@[simp] theorem modSec_starts (f : Security → Security) (s : State) : (modSec f s).starts = s.starts := rfl
@[simp] theorem modSec_cold (f : Security → Security) (s : State) : (modSec f s).cold = s.cold := rfl
@[simp] theorem modSec_free (f : Security → Security) (s : State) : (modSec f s).free = s.free := rfl

@[simp] theorem modLinks_pending (f : Links → Links) (s : State) : (modLinks f s).pending = s.pending := rfl
@[simp] theorem modLinks_part (f : Links → Links) (s : State) : (modLinks f s).part = s.part := rfl
@[simp] theorem modLinks_serial (f : Links → Links) (s : State) : (modLinks f s).serial = s.serial := rfl
@[simp] theorem modLinks_slotAddr (f : Links → Links) (s : State) : (modLinks f s).slotAddr = s.slotAddr := rfl
@[simp] theorem modLinks_keeper (f : Links → Links) (s : State) : (modLinks f s).keeper = s.keeper := rfl
@[simp] theorem modLinks_ports (f : Links → Links) (s : State) : (modLinks f s).ports = s.ports := rfl
@[simp] theorem modLinks_alert (f : Links → Links) (s : State) : (modLinks f s).alert = s.alert := rfl
@[simp] theorem modLinks_sessions (f : Links → Links) (s : State) : (modLinks f s).sessions = s.sessions := rfl
@[simp] theorem modLinks_cmds (f : Links → Links) (s : State) : (modLinks f s).cmds = s.cmds := rfl
@[simp] theorem modLinks_replies (f : Links → Links) (s : State) : (modLinks f s).replies = s.replies := rfl
@[simp] theorem modLinks_nextOrder (f : Links → Links) (s : State) : (modLinks f s).nextOrder = s.nextOrder := rfl
@[simp] theorem modLinks_nextReply (f : Links → Links) (s : State) : (modLinks f s).nextReply = s.nextReply := rfl
@[simp] theorem modLinks_events (f : Links → Links) (s : State) : (modLinks f s).events = s.events := rfl
@[simp] theorem modLinks_newEvents (f : Links → Links) (s : State) : (modLinks f s).newEvents = s.newEvents := rfl
@[simp] theorem modLinks_wire (f : Links → Links) (s : State) : (modLinks f s).wire = s.wire := rfl
@[simp] theorem modLinks_contexts (f : Links → Links) (s : State) : (modLinks f s).contexts = s.contexts := rfl
@[simp] theorem modLinks_landing (f : Links → Links) (s : State) : (modLinks f s).landing = s.landing := rfl
@[simp] theorem modLinks_media (f : Links → Links) (s : State) : (modLinks f s).media = s.media := rfl
@[simp] theorem modLinks_preds (f : Links → Links) (s : State) : (modLinks f s).preds = s.preds := rfl
@[simp] theorem modLinks_scans (f : Links → Links) (s : State) : (modLinks f s).scans = s.scans := rfl
@[simp] theorem modLinks_indexes (f : Links → Links) (s : State) : (modLinks f s).indexes = s.indexes := rfl
@[simp] theorem modLinks_searches (f : Links → Links) (s : State) : (modLinks f s).searches = s.searches := rfl
@[simp] theorem modLinks_plots (f : Links → Links) (s : State) : (modLinks f s).plots = s.plots := rfl
@[simp] theorem modLinks_programs (f : Links → Links) (s : State) : (modLinks f s).programs = s.programs := rfl
@[simp] theorem modLinks_runs (f : Links → Links) (s : State) : (modLinks f s).runs = s.runs := rfl
@[simp] theorem modLinks_trains (f : Links → Links) (s : State) : (modLinks f s).trains = s.trains := rfl
@[simp] theorem modLinks_models (f : Links → Links) (s : State) : (modLinks f s).models = s.models := rfl
@[simp] theorem modLinks_streams (f : Links → Links) (s : State) : (modLinks f s).streams = s.streams := rfl
@[simp] theorem modLinks_steps (f : Links → Links) (s : State) : (modLinks f s).steps = s.steps := rfl
@[simp] theorem modLinks_links (f : Links → Links) (s : State) : (modLinks f s).links = f s.links := rfl
@[simp] theorem modLinks_power (f : Links → Links) (s : State) : (modLinks f s).power = s.power := rfl
@[simp] theorem modLinks_acct (f : Links → Links) (s : State) : (modLinks f s).acct = s.acct := rfl
@[simp] theorem modLinks_sec (f : Links → Links) (s : State) : (modLinks f s).sec = s.sec := rfl
@[simp] theorem modLinks_sympathetic (f : Links → Links) (s : State) : (modLinks f s).sympathetic = s.sympathetic := rfl
@[simp] theorem modLinks_starts (f : Links → Links) (s : State) : (modLinks f s).starts = s.starts := rfl
@[simp] theorem modLinks_cold (f : Links → Links) (s : State) : (modLinks f s).cold = s.cold := rfl
@[simp] theorem modLinks_free (f : Links → Links) (s : State) : (modLinks f s).free = s.free := rfl

@[simp] theorem modAcct_pending (f : Accounting → Accounting) (s : State) : (modAcct f s).pending = s.pending := rfl
@[simp] theorem modAcct_part (f : Accounting → Accounting) (s : State) : (modAcct f s).part = s.part := rfl
@[simp] theorem modAcct_serial (f : Accounting → Accounting) (s : State) : (modAcct f s).serial = s.serial := rfl
@[simp] theorem modAcct_slotAddr (f : Accounting → Accounting) (s : State) : (modAcct f s).slotAddr = s.slotAddr := rfl
@[simp] theorem modAcct_keeper (f : Accounting → Accounting) (s : State) : (modAcct f s).keeper = s.keeper := rfl
@[simp] theorem modAcct_ports (f : Accounting → Accounting) (s : State) : (modAcct f s).ports = s.ports := rfl
@[simp] theorem modAcct_alert (f : Accounting → Accounting) (s : State) : (modAcct f s).alert = s.alert := rfl
@[simp] theorem modAcct_sessions (f : Accounting → Accounting) (s : State) : (modAcct f s).sessions = s.sessions := rfl
@[simp] theorem modAcct_cmds (f : Accounting → Accounting) (s : State) : (modAcct f s).cmds = s.cmds := rfl
@[simp] theorem modAcct_replies (f : Accounting → Accounting) (s : State) : (modAcct f s).replies = s.replies := rfl
@[simp] theorem modAcct_nextOrder (f : Accounting → Accounting) (s : State) : (modAcct f s).nextOrder = s.nextOrder := rfl
@[simp] theorem modAcct_nextReply (f : Accounting → Accounting) (s : State) : (modAcct f s).nextReply = s.nextReply := rfl
@[simp] theorem modAcct_events (f : Accounting → Accounting) (s : State) : (modAcct f s).events = s.events := rfl
@[simp] theorem modAcct_newEvents (f : Accounting → Accounting) (s : State) : (modAcct f s).newEvents = s.newEvents := rfl
@[simp] theorem modAcct_wire (f : Accounting → Accounting) (s : State) : (modAcct f s).wire = s.wire := rfl
@[simp] theorem modAcct_contexts (f : Accounting → Accounting) (s : State) : (modAcct f s).contexts = s.contexts := rfl
@[simp] theorem modAcct_landing (f : Accounting → Accounting) (s : State) : (modAcct f s).landing = s.landing := rfl
@[simp] theorem modAcct_media (f : Accounting → Accounting) (s : State) : (modAcct f s).media = s.media := rfl
@[simp] theorem modAcct_preds (f : Accounting → Accounting) (s : State) : (modAcct f s).preds = s.preds := rfl
@[simp] theorem modAcct_scans (f : Accounting → Accounting) (s : State) : (modAcct f s).scans = s.scans := rfl
@[simp] theorem modAcct_indexes (f : Accounting → Accounting) (s : State) : (modAcct f s).indexes = s.indexes := rfl
@[simp] theorem modAcct_searches (f : Accounting → Accounting) (s : State) : (modAcct f s).searches = s.searches := rfl
@[simp] theorem modAcct_plots (f : Accounting → Accounting) (s : State) : (modAcct f s).plots = s.plots := rfl
@[simp] theorem modAcct_programs (f : Accounting → Accounting) (s : State) : (modAcct f s).programs = s.programs := rfl
@[simp] theorem modAcct_runs (f : Accounting → Accounting) (s : State) : (modAcct f s).runs = s.runs := rfl
@[simp] theorem modAcct_trains (f : Accounting → Accounting) (s : State) : (modAcct f s).trains = s.trains := rfl
@[simp] theorem modAcct_models (f : Accounting → Accounting) (s : State) : (modAcct f s).models = s.models := rfl
@[simp] theorem modAcct_streams (f : Accounting → Accounting) (s : State) : (modAcct f s).streams = s.streams := rfl
@[simp] theorem modAcct_steps (f : Accounting → Accounting) (s : State) : (modAcct f s).steps = s.steps := rfl
@[simp] theorem modAcct_links (f : Accounting → Accounting) (s : State) : (modAcct f s).links = s.links := rfl
@[simp] theorem modAcct_power (f : Accounting → Accounting) (s : State) : (modAcct f s).power = s.power := rfl
@[simp] theorem modAcct_acct (f : Accounting → Accounting) (s : State) : (modAcct f s).acct = f s.acct := rfl
@[simp] theorem modAcct_sec (f : Accounting → Accounting) (s : State) : (modAcct f s).sec = s.sec := rfl
@[simp] theorem modAcct_sympathetic (f : Accounting → Accounting) (s : State) : (modAcct f s).sympathetic = s.sympathetic := rfl
@[simp] theorem modAcct_starts (f : Accounting → Accounting) (s : State) : (modAcct f s).starts = s.starts := rfl
@[simp] theorem modAcct_cold (f : Accounting → Accounting) (s : State) : (modAcct f s).cold = s.cold := rfl
@[simp] theorem modAcct_free (f : Accounting → Accounting) (s : State) : (modAcct f s).free = s.free := rfl

@[simp] theorem modPlots_pending (f : Plots → Plots) (s : State) : (modPlots f s).pending = s.pending := rfl
@[simp] theorem modPlots_part (f : Plots → Plots) (s : State) : (modPlots f s).part = s.part := rfl
@[simp] theorem modPlots_serial (f : Plots → Plots) (s : State) : (modPlots f s).serial = s.serial := rfl
@[simp] theorem modPlots_slotAddr (f : Plots → Plots) (s : State) : (modPlots f s).slotAddr = s.slotAddr := rfl
@[simp] theorem modPlots_keeper (f : Plots → Plots) (s : State) : (modPlots f s).keeper = s.keeper := rfl
@[simp] theorem modPlots_ports (f : Plots → Plots) (s : State) : (modPlots f s).ports = s.ports := rfl
@[simp] theorem modPlots_alert (f : Plots → Plots) (s : State) : (modPlots f s).alert = s.alert := rfl
@[simp] theorem modPlots_sessions (f : Plots → Plots) (s : State) : (modPlots f s).sessions = s.sessions := rfl
@[simp] theorem modPlots_cmds (f : Plots → Plots) (s : State) : (modPlots f s).cmds = s.cmds := rfl
@[simp] theorem modPlots_replies (f : Plots → Plots) (s : State) : (modPlots f s).replies = s.replies := rfl
@[simp] theorem modPlots_nextOrder (f : Plots → Plots) (s : State) : (modPlots f s).nextOrder = s.nextOrder := rfl
@[simp] theorem modPlots_nextReply (f : Plots → Plots) (s : State) : (modPlots f s).nextReply = s.nextReply := rfl
@[simp] theorem modPlots_events (f : Plots → Plots) (s : State) : (modPlots f s).events = s.events := rfl
@[simp] theorem modPlots_newEvents (f : Plots → Plots) (s : State) : (modPlots f s).newEvents = s.newEvents := rfl
@[simp] theorem modPlots_wire (f : Plots → Plots) (s : State) : (modPlots f s).wire = s.wire := rfl
@[simp] theorem modPlots_contexts (f : Plots → Plots) (s : State) : (modPlots f s).contexts = s.contexts := rfl
@[simp] theorem modPlots_landing (f : Plots → Plots) (s : State) : (modPlots f s).landing = s.landing := rfl
@[simp] theorem modPlots_media (f : Plots → Plots) (s : State) : (modPlots f s).media = s.media := rfl
@[simp] theorem modPlots_preds (f : Plots → Plots) (s : State) : (modPlots f s).preds = s.preds := rfl
@[simp] theorem modPlots_scans (f : Plots → Plots) (s : State) : (modPlots f s).scans = s.scans := rfl
@[simp] theorem modPlots_indexes (f : Plots → Plots) (s : State) : (modPlots f s).indexes = s.indexes := rfl
@[simp] theorem modPlots_searches (f : Plots → Plots) (s : State) : (modPlots f s).searches = s.searches := rfl
@[simp] theorem modPlots_plots (f : Plots → Plots) (s : State) : (modPlots f s).plots = f s.plots := rfl
@[simp] theorem modPlots_programs (f : Plots → Plots) (s : State) : (modPlots f s).programs = s.programs := rfl
@[simp] theorem modPlots_runs (f : Plots → Plots) (s : State) : (modPlots f s).runs = s.runs := rfl
@[simp] theorem modPlots_trains (f : Plots → Plots) (s : State) : (modPlots f s).trains = s.trains := rfl
@[simp] theorem modPlots_models (f : Plots → Plots) (s : State) : (modPlots f s).models = s.models := rfl
@[simp] theorem modPlots_streams (f : Plots → Plots) (s : State) : (modPlots f s).streams = s.streams := rfl
@[simp] theorem modPlots_steps (f : Plots → Plots) (s : State) : (modPlots f s).steps = s.steps := rfl
@[simp] theorem modPlots_links (f : Plots → Plots) (s : State) : (modPlots f s).links = s.links := rfl
@[simp] theorem modPlots_power (f : Plots → Plots) (s : State) : (modPlots f s).power = s.power := rfl
@[simp] theorem modPlots_acct (f : Plots → Plots) (s : State) : (modPlots f s).acct = s.acct := rfl
@[simp] theorem modPlots_sec (f : Plots → Plots) (s : State) : (modPlots f s).sec = s.sec := rfl
@[simp] theorem modPlots_sympathetic (f : Plots → Plots) (s : State) : (modPlots f s).sympathetic = s.sympathetic := rfl
@[simp] theorem modPlots_starts (f : Plots → Plots) (s : State) : (modPlots f s).starts = s.starts := rfl
@[simp] theorem modPlots_cold (f : Plots → Plots) (s : State) : (modPlots f s).cold = s.cold := rfl
@[simp] theorem modPlots_free (f : Plots → Plots) (s : State) : (modPlots f s).free = s.free := rfl

end Sys2Proof.Machine
end

