-- ==== Sys2Proof/Laws/Tables.lean ====
section
/-!
SUPPORT. Laws/Tables.lean: sorted tables, sparse bytes and lists changed at one place.
-/

namespace Sys2Proof.Machine

open Sys2Proof

/- Sorted tables -/

theorem kvGet_kvSet_same {α : Type} (k : Nat) (v : α) (t : KV α) : kvGet k (kvSet k v t) = some v := by
  induction t with
  | nil => simp [kvSet, kvGet]
  | cons p t ih =>
    obtain ⟨j, w⟩ := p
    simp only [kvSet]
    split
    · simp [kvGet]
    · split
      · simp [kvGet]
      · next h => simp [kvGet, ih]; intro h'; exact absurd h'.symm h

theorem kvGet_kvSet_other {α : Type} {k i : Nat} (v : α) (t : KV α) (h : k ≠ i) : kvGet i (kvSet k v t) = kvGet i t := by
  induction t with
  | nil => simp [kvSet, kvGet, h]
  | cons p t ih =>
    obtain ⟨j, w⟩ := p
    simp only [kvSet]
    split
    · simp [kvGet, h]
    · split
      · next e => subst e; simp [kvGet, h]
      · simp [kvGet, ih]

theorem kvGet_none_of_lt {α : Type} {k j : Nat} {w : α} {t : KV α} (hs : kvSorted ((j, w) :: t) = true) (h : k ≤ j) :
    kvGet k t = none := by
  induction t generalizing j w with
  | nil => rfl
  | cons p t ih =>
    obtain ⟨a, x⟩ := p
    simp only [kvSorted, Bool.and_eq_true, decide_eq_true_eq] at hs
    have : a ≠ k := by omega
    simp only [kvGet, this, if_false]
    exact ih hs.2 (by omega)

theorem kvSorted_tail {α : Type} {p : Nat × α} {t : KV α} (h : kvSorted (p :: t) = true) : kvSorted t = true := by
  cases t with
  | nil => rfl
  | cons q t => simp only [kvSorted, Bool.and_eq_true] at h; exact h.2

theorem kvGet_kvDel_same {α : Type} (k : Nat) (t : KV α) (h : kvSorted t = true) : kvGet k (kvDel k t) = none := by
  induction t with
  | nil => rfl
  | cons p t ih =>
    obtain ⟨j, w⟩ := p
    simp only [kvDel]
    split
    · next e => subst e; exact kvGet_none_of_lt h (Nat.le_refl _)
    · next e => simp only [kvGet, e, if_false]; exact ih (kvSorted_tail h)

theorem kvGet_kvDel_other {α : Type} {k i : Nat} (t : KV α) (h : k ≠ i) : kvGet i (kvDel k t) = kvGet i t := by
  induction t with
  | nil => rfl
  | cons p t ih =>
    obtain ⟨j, w⟩ := p
    simp only [kvDel]
    split
    · next e => subst e; simp [kvGet, h]
    · simp [kvGet, ih]

/-- Every key of a table is above a bound. -/
def kvAbove {α : Type} (a : Nat) (t : KV α) : Prop := ∀ p ∈ t, a < p.1

theorem kvSorted_cons {α : Type} (p : Nat × α) (t : KV α) : kvSorted (p :: t) = true ↔ kvAbove p.1 t ∧ kvSorted t = true := by
  induction t generalizing p with
  | nil => simp [kvSorted, kvAbove]
  | cons q t ih =>
    obtain ⟨a, x⟩ := p
    obtain ⟨b, y⟩ := q
    simp only [kvSorted, Bool.and_eq_true, decide_eq_true_eq]
    constructor
    · rintro ⟨h, hs⟩
      refine ⟨?_, hs⟩
      intro r hr
      rcases List.mem_cons.1 hr with rfl | hr
      · exact h
      · exact Nat.lt_trans h (((ih (b, y)).1 hs).1 r hr)
    · rintro ⟨h, hs⟩
      exact ⟨h (b, y) (by simp), hs⟩

theorem kvAbove_kvSet {α : Type} {a k : Nat} {v : α} {t : KV α} (ht : kvAbove a t) (hk : a < k) : kvAbove a (kvSet k v t) := by
  induction t with
  | nil => intro p hp; simp [kvSet] at hp; subst hp; exact hk
  | cons q t ih =>
    obtain ⟨j, w⟩ := q
    have hj : a < j := ht (j, w) (by simp)
    have ht' : kvAbove a t := fun p hp => ht p (by simp [hp])
    simp only [kvSet]
    split
    · intro p hp
      rcases List.mem_cons.1 hp with rfl | hp
      · exact hk
      · exact ht p hp
    · split
      · intro p hp
        rcases List.mem_cons.1 hp with rfl | hp
        · exact hk
        · exact ht' p hp
      · intro p hp
        rcases List.mem_cons.1 hp with rfl | hp
        · exact hj
        · exact ih ht' p hp

theorem kvAbove_kvDel {α : Type} {a k : Nat} {t : KV α} (ht : kvAbove a t) : kvAbove a (kvDel k t) := by
  induction t with
  | nil => exact ht
  | cons q t ih =>
    obtain ⟨j, w⟩ := q
    have ht' : kvAbove a t := fun p hp => ht p (by simp [hp])
    simp only [kvDel]
    split
    · exact ht'
    · intro p hp
      rcases List.mem_cons.1 hp with rfl | hp
      · exact ht (j, w) (by simp)
      · exact ih ht' p hp

theorem kvSorted_kvSet {α : Type} (k : Nat) (v : α) (t : KV α) (h : kvSorted t = true) : kvSorted (kvSet k v t) = true := by
  induction t with
  | nil => rfl
  | cons q t ih =>
    obtain ⟨j, w⟩ := q
    obtain ⟨ha, hs⟩ := (kvSorted_cons _ _).1 h
    simp only [kvSet]
    split
    · next hk =>
      refine (kvSorted_cons _ _).2 ⟨?_, h⟩
      intro p hp
      rcases List.mem_cons.1 hp with rfl | hp
      · exact hk
      · exact Nat.lt_trans hk (ha p hp)
    · split
      · next e => subst e; exact (kvSorted_cons _ _).2 ⟨ha, hs⟩
      · next h1 h2 => exact (kvSorted_cons _ _).2 ⟨kvAbove_kvSet ha (show j < k by omega), ih hs⟩

theorem kvSorted_kvDel {α : Type} (k : Nat) (t : KV α) (h : kvSorted t = true) : kvSorted (kvDel k t) = true := by
  induction t with
  | nil => rfl
  | cons q t ih =>
    obtain ⟨j, w⟩ := q
    obtain ⟨ha, hs⟩ := (kvSorted_cons _ _).1 h
    simp only [kvDel]
    split
    · exact hs
    · exact (kvSorted_cons _ _).2 ⟨kvAbove_kvDel ha, ih hs⟩

theorem kvSorted_filter {α : Type} (f : Nat × α → Bool) (t : KV α) (h : kvSorted t = true) : kvSorted (t.filter f) = true := by
  induction t with
  | nil => rfl
  | cons q t ih =>
    obtain ⟨ha, hs⟩ := (kvSorted_cons _ _).1 h
    simp only [List.filter_cons]
    split
    · refine (kvSorted_cons _ _).2 ⟨?_, ih hs⟩
      intro p hp
      exact ha p (List.mem_filter.1 hp).1
    · exact ih hs

theorem mem_kvSet {α : Type} {k : Nat} {v : α} {t : KV α} {p : Nat × α} (h : p ∈ kvSet k v t) : p = (k, v) ∨ p ∈ t := by
  induction t with
  | nil => simpa [kvSet] using h
  | cons q t ih =>
    obtain ⟨j, w⟩ := q
    simp only [kvSet] at h
    split at h
    · rcases List.mem_cons.1 h with h | h
      · exact .inl h
      · exact .inr h
    · split at h
      · rcases List.mem_cons.1 h with h | h
        · exact .inl h
        · exact .inr (by simp [h])
      · rcases List.mem_cons.1 h with h | h
        · exact .inr (by simp [h])
        · rcases ih h with h | h
          · exact .inl h
          · exact .inr (by simp [h])

theorem mem_kvDel {α : Type} {k : Nat} {t : KV α} {p : Nat × α} (h : p ∈ kvDel k t) : p ∈ t := by
  induction t with
  | nil => exact h
  | cons q t ih =>
    obtain ⟨j, w⟩ := q
    simp only [kvDel] at h
    split at h
    · simp [h]
    · rcases List.mem_cons.1 h with h | h
      · simp [h]
      · simp [ih h]

/- Sparse bytes -/

theorem memWf_nil : memWf [] = true := rfl

theorem memWf_memSet (m : Mem) (a : Nat) (b : Byte) (h : memWf m = true) : memWf (memSet m a b) = true := by
  simp only [memWf, Bool.and_eq_true, List.all_eq_true, decide_eq_true_eq] at h ⊢
  unfold memSet
  split
  · exact ⟨kvSorted_kvDel a m h.1, fun p hp => h.2 p (mem_kvDel hp)⟩
  · next hb =>
    refine ⟨kvSorted_kvSet a b m h.1, fun p hp => ?_⟩
    rcases mem_kvSet hp with rfl | hp
    · exact hb
    · exact h.2 p hp

theorem memWf_memWrite (m : Mem) (a : Nat) (bs : List Byte) (h : memWf m = true) : memWf (memWrite m a bs) = true := by
  induction bs generalizing m a with
  | nil => exact h
  | cons b bs ih => exact ih _ _ (memWf_memSet m a b h)

theorem memWf_memClear (m : Mem) (a n : Nat) (h : memWf m = true) : memWf (memClear m a n) = true := by
  simp only [memWf, Bool.and_eq_true, List.all_eq_true, decide_eq_true_eq] at h ⊢
  exact ⟨kvSorted_filter _ m h.1, fun p hp => h.2 p (List.mem_filter.1 hp).1⟩

theorem memWf_sorted {m : Mem} (h : memWf m = true) : kvSorted m = true := by
  simp only [memWf, Bool.and_eq_true] at h
  exact h.1

theorem memGet_memSet_same (m : Mem) (a : Nat) (b : Byte) (h : memWf m = true) : memGet (memSet m a b) a = b := by
  unfold memGet memSet
  split
  · next hb => simp [kvGet_kvDel_same a m (memWf_sorted h), hb]
  · simp [kvGet_kvSet_same]

theorem memGet_memSet_other (m : Mem) {a i : Nat} (b : Byte) (h : a ≠ i) : memGet (memSet m a b) i = memGet m i := by
  unfold memGet memSet
  split
  · simp [kvGet_kvDel_other m h]
  · simp [kvGet_kvSet_other b m h]

theorem memGet_memWrite_out (m : Mem) (a : Nat) (bs : List Byte) {i : Nat} (h : i < a ∨ a + bs.length ≤ i) :
    memGet (memWrite m a bs) i = memGet m i := by
  induction bs generalizing m a with
  | nil => rfl
  | cons b bs ih =>
    simp only [memWrite]
    rw [ih (memSet m a b) (a + 1) (by simp only [List.length_cons] at h; omega)]
    exact memGet_memSet_other m b (by simp only [List.length_cons] at h; omega)

/- Lists changed at one place -/

@[simp] theorem setAt_length {α : Type} (l : List α) (i : Nat) (f : α → α) : (setAt l i f).length = l.length := by simp [setAt]

theorem setAt_getElem? {α : Type} (l : List α) (i j : Nat) (f : α → α) :
    (setAt l i f)[j]? = if j = i then l[j]?.map f else l[j]? := by
  simp only [setAt, List.getElem?_map, List.getElem?_zipIdx]
  cases l[j]? with
  | none => simp
  | some v => simp; split <;> simp

theorem getD_setAt_same {α : Type} (l : List α) (i : Nat) (f : α → α) (d : α) (h : i < l.length) :
    (setAt l i f).getD i d = f (l.getD i d) := by
  simp [List.getD_eq_getElem?_getD, setAt_getElem?, List.getElem?_eq_getElem h]

theorem getD_setAt_other {α : Type} (l : List α) {i j : Nat} (f : α → α) (d : α) (h : j ≠ i) : (setAt l i f).getD j d = l.getD j d := by
  simp [List.getD_eq_getElem?_getD, setAt_getElem?, h]

end Sys2Proof.Machine
end

