-- ==== Sys2Proof/Laws/Events.lean ====
section
/-!
SUPPORT. Laws/Events.lean: what sending a packet, delivering an event and raising one change.
-/

namespace Sys2Proof.Machine

open Sys2Proof

theorem EventsOnly.refl (u : State) : EventsOnly u u := rfl

theorem EventsOnly.trans {u t v : State} (h1 : EventsOnly u t) (h2 : EventsOnly t v) : EventsOnly u v := by
  cases u; cases t; cases v
  simp only [EventsOnly, State.mk.injEq, true_and] at h1 h2 ⊢
  simp only [h1, h2, and_self]

theorem EventsOnly.fields {u t : State} (h : EventsOnly u t) :
    t.keeper = u.keeper ∧ t.cmds = u.cmds ∧ t.replies = u.replies ∧ t.contexts = u.contexts ∧ t.landing = u.landing ∧
      t.media = u.media ∧ t.plots = u.plots ∧ t.links = u.links ∧ t.power = u.power ∧ t.acct = u.acct ∧ t.sec = u.sec := by
  cases u; cases t
  simp only [EventsOnly, State.mk.injEq, true_and] at h
  simp only [h, and_self]

/-- A packet sent changes the wire and the port's time of sending. -/
theorem emit_events (port : Nat) (header payload : List Byte) (s : State) : EventsOnly s (emit port header payload s) := rfl

/-- Delivery to one session changes neither the log nor the alert. -/
theorem deliver_events (e : EventRec) (s : State) (n : Nat) :
    EventsOnly s (deliver e s n) ∧ (deliver e s n).events = s.events ∧ (deliver e s n).alert = s.alert := by
  unfold deliver
  simp only
  split
  · exact ⟨rfl, rfl, rfl⟩
  · split
    · exact ⟨rfl, rfl, rfl⟩
    · exact ⟨rfl, rfl, rfl⟩
    · split
      · exact ⟨rfl, rfl, rfl⟩
      · unfold sendEvent
        split <;> exact ⟨rfl, rfl, rfl⟩

theorem logEvent_events (e : EventRec) (s : State) : EventsOnly s (logEvent e s) ∧ Logged s (logEvent e s) e := by
  refine ⟨?_, ?_, ?_⟩ <;> simp only [EventsOnly, logEvent]

/-- Everything that raising an event changes, and the record it logs. -/
theorem raise_events (code sev kind source ctx : Nat) (args : List Byte) (s : State) :
    EventsOnly s (raise code sev kind source ctx args s) ∧
      Logged s (raise code sev kind source ctx args s) ⟨code, sev, kind, source, s.now, ctx, args⟩ := by
  unfold raise
  simp only
  generalize hl : logEvent _ s = u
  have hu : EventsOnly s u ∧ Logged s u ⟨code, sev, kind, source, s.now, ctx, args⟩ := by subst hl; exact logEvent_events _ _
  clear hl
  generalize eventSessions ctx s = l
  induction l generalizing u with
  | nil => exact hu
  | cons n l ih =>
    apply ih
    obtain ⟨a, b, c⟩ := deliver_events ⟨code, sev, kind, source, s.now, ctx, args⟩ u n
    obtain ⟨hu1, hu2, hu3⟩ := hu
    exact ⟨hu1.trans a, by rw [b]; exact hu2, by rw [c]; exact hu3⟩

/-- Delivery keeps the number of sessions and of ports. -/
theorem deliver_lengths (e : EventRec) (s : State) (n : Nat) :
    (deliver e s n).sessions.length = s.sessions.length ∧ (deliver e s n).ports.length = s.ports.length := by
  unfold deliver
  simp only
  split
  · exact ⟨rfl, rfl⟩
  · split
    · exact ⟨rfl, rfl⟩
    · simp
    · split
      · simp
      · unfold sendEvent
        split <;> simp [emit]

/-- Raising an event keeps the number of sessions and of ports. -/
theorem raise_lengths (code sev kind source ctx : Nat) (args : List Byte) (s : State) :
    (raise code sev kind source ctx args s).sessions.length = s.sessions.length ∧
      (raise code sev kind source ctx args s).ports.length = s.ports.length := by
  unfold raise
  simp only
  generalize hl : logEvent _ s = u
  have hu : u.sessions.length = s.sessions.length ∧ u.ports.length = s.ports.length := by subst hl; exact ⟨rfl, rfl⟩
  clear hl
  generalize eventSessions ctx s = l
  induction l generalizing u with
  | nil => exact hu
  | cons n l ih =>
    apply ih
    obtain ⟨a, b⟩ := deliver_lengths ⟨code, sev, kind, source, s.now, ctx, args⟩ u n
    exact ⟨a.trans hu.1, b.trans hu.2⟩

/-- A packet of a reply leaves the module as it was but for the wire. -/
theorem emitReply_events (r : Reply) (port : Nat) (s : State) : EventsOnly s (emitReply r port s) := emit_events ..

end Sys2Proof.Machine
end

