-- ==== Sys2Proof/Laws/Landing.lean ====
section
/-!
SUPPORT. Laws/Landing.lean: where the pieces of a tile's home lie.
-/

namespace Sys2Proof.Laws

open Sys2Proof Sys2Proof.Machine

/-- There is one piece for each 64 KiB, the last one perhaps not full. -/
theorem pieces_length (s : State) (owner tile bytes : Nat) : (s.pieces owner tile bytes).length = ceilDiv bytes 65536 := by
  simp [State.pieces]

/-- A tile of at most 64 KiB is not split. -/
theorem pieces_small (s : State) (owner tile bytes : Nat) (pos : 0 < bytes) (small : bytes ≤ 65536) :
    (s.pieces owner tile bytes).length = 1 := by
  rw [pieces_length]
  unfold ceilDiv
  omega

end Sys2Proof.Laws
end

