-- ==== Sys2Proof/Laws/Ready.lean ====
section
/-!
SUPPORT. Laws/Ready.lean: what the shared operations of the packet commands do: a command that may run runs, one that may not
changes nothing, and a reply is added.
-/

namespace Sys2Proof.Machine

open Sys2Proof

theorem Ready.key {s : State} {k : CmdKey} {op : Nat} {c : Cmd} (h : Ready s k op c) : c.key = k := by
  have := List.find?_some h.found
  simpa using this

/-- The meaning of a command that may run is its body. -/
theorem withCmd_ready {s : State} {k : CmdKey} {op : Nat} {c : Cmd} (f : Cmd → State → State) (h : Ready s k op c) :
    withCmd op k f s = f c s := by
  simp only [withCmd, h.found]
  rw [if_pos ⟨h.opcode, h.received, h.turn, h.serving, by simp [h.running]⟩, if_pos h.serves]

theorem withTarget_ready {s : State} {k : CmdKey} {op : Nat} {c : Cmd} {x : Ctx} (f : Cmd → Ctx → State → State)
    (h : ReadyTarget s k op c x) : withTarget op k f s = f c x s := by
  rw [withTarget, withCmd_ready _ h.toReady]
  simp [h.target, h.owner, h.open_, h.whole]

theorem withCtx_ready {s : State} {k : CmdKey} {op : Nat} {c : Cmd} {x : Ctx} (f : Cmd → Ctx → State → State)
    (h : ReadyCtx s k op c x) : withCtx op k f s = f c x s := by
  rw [withCtx, withCmd_ready _ h.toReady]
  simp [h.context, h.volumes]

/-- A command that no key names changes nothing (log entry 3). -/
theorem withCmd_absent {s : State} {k : CmdKey} (op : Nat) (f : Cmd → State → State) (h : findCmd k s = none) : withCmd op k f s = s := by
  simp [withCmd, h]

/-- Everything that putting a reply changes. -/
theorem putReply_answered (c : Cmd) (status : Nat) (sh : Bool) (payload : List Byte) (kib : Nat) (acts : List Act) (u : State) :
    Answered u (putReply c status sh payload kib acts u) c status payload acts :=
  ⟨_, rfl, rfl, rfl, rfl, rfl, rfl, rfl, rfl, rfl, rfl⟩

theorem complete_admin {c : Cmd} (status : Nat) (sh : Bool) (payload : List Byte) (kib : Nat) (acts : List Act) (u : State)
    (h : c.key.queue = .admin) : complete c status sh payload kib acts u = putReply c status sh payload kib acts u := by
  simp [complete, CmdKey.context, h]

theorem complete_opened {c : Cmd} (status : Nat) (sh : Bool) (payload : List Byte) (kib : Nat) (acts : List Act) (u : State)
    (h : (u.session c.key.session).phase ≠ .held) : complete c status sh payload kib acts u = putReply c status sh payload kib acts u := by
  unfold complete
  split
  · rfl
  · simp [h]

/-- A completion in a session that is not held, or on the admin queue, is a reply. -/
theorem complete_answered {c : Cmd} (status : Nat) (sh : Bool) (payload : List Byte) (kib : Nat) (acts : List Act) (u : State)
    (h : c.key.queue = .admin ∨ (u.session c.key.session).phase ≠ .held) :
    Answered u (complete c status sh payload kib acts u) c status payload acts := by
  rcases h with h | h
  · rw [complete_admin _ _ _ _ _ _ h]; exact putReply_answered ..
  · rw [complete_opened _ _ _ _ _ _ h]; exact putReply_answered ..

end Sys2Proof.Machine
end

