-- ==== Sys2Proof/WellFormed.lean ====
section
/-!
DEFINITION. WellFormed.lean: the commands a sender can send: numbers within the ranges the spec gives them (a port 0 or 1,
a physical plot 0 to 271, a die 0 to 3,071, a header of 32 bytes). A meaning looks up what its operands name and leaves the
module as it was when there is nothing there, so that an ill-formed command changes nothing either.
-/

namespace Sys2Proof

open Sys2Proof.Machine

/-- Session 0 to 3, context 0 to 1,023, tag 0 to 31 (Table 3-1). -/
def Machine.CmdKey.wf (k : CmdKey) : Bool := decide (k.session < 4) && decide (k.ctx < 1024) && decide (k.tag < 32)

/-- A row of dies, a band, a page 0 to 3,071 and a member 0 to 15 (R185). -/
def Machine.MediaAddr.wf (a : MediaAddr) : Bool :=
  decide (a.row < 188) && decide (a.band < 2800) && decide (a.page < 3072) && decide (a.member < 16)

/-- Six stacks, 64 pseudo-channels, 32 banks, 16 pages of 16,384 lines (R29); 272 plots, 53,248 SRAM lines (R25, R55). -/
def Machine.Line.wf : Line → Bool
  | .landing st p b g l => decide (st < 6) && decide (p < 64) && decide (b < 32) && decide (g < 16) && decide (l < 16384)
  | .sram p l => decide (p < 272) && decide (l < 53248)

/-- The bytes of a line: 128 in the Landing, 64 in a plot's SRAM (R29, R55). -/
def Machine.Line.bytesOk (l : Line) (bytes : List Byte) : Bool :=
  match l with
  | .landing _ _ _ _ _ => decide (bytes.length = 128)
  | .sram _ _ => decide (bytes.length = 64)

/-- The operands of a command lie in their ranges. -/
def Instr.wf : Instr → Bool
  | .packetArrival port header _ => decide (port < 2) && decide (header.length = 32)
  | .openSession k => k.wf
  | .heartbeat port => decide (port < 2)
  | .identify k => k.wf
  | .getLog k => k.wf
  | .setEventMask k => k.wf
  | .setTillingDays k => k.wf
  | .setAccountInterval k => k.wf
  | .setSympatheticThrottle k => k.wf
  | .regRead k => k.wf
  | .loReadLatch requester offset => decide (requester < 3) && decide (offset < 65536) && decide (offset % 4 = 0)
  | .regWrite k => k.wf
  | .prtPortCfgWrite k => k.wf
  | .prtAlertClear k => k.wf
  | .lndBucketCfgWrite k => k.wf
  | .lndFerryCfgWrite k => k.wf
  | .lndReserveCfgWrite k => k.wf
  | .lndStreamCfgWrite k => k.wf
  | .lndErrStatusClear k => k.wf
  | .sveCfgWrite k => k.wf
  | .sveDieSelWrite k => k.wf
  | .pltSelWrite k => k.wf
  | .pltOverflowClear k => k.wf
  | .lnkSelWrite k => k.wf
  | .pwrCapWrite k => k.wf
  | .accCtrlRecal k => k.wf
  | .secTamperClear k => k.wf
  | .fwStage k => k.wf
  | .fwCommitTrial k => k.wf
  | .fwCommitConfirm k => k.wf
  | .fwCommitRevert k => k.wf
  | .attestReport k => k.wf
  | .attestCertificate k => k.wf
  | .attestChallenge k => k.wf
  | .attestUnlock k => k.wf
  | .attestTransition k => k.wf
  | .closeSession k => k.wf
  | .createContext k => k.wf
  | .setQuota k => k.wf
  | .setClass k => k.wf
  | .closeContext k => k.wf
  | .queueReset k => k.wf
  | .read k => k.wf
  | .write k => k.wf
  | .flush k => k.wf
  | .discard k => k.wf
  | .secureDiscard k => k.wf
  | .verify k => k.wf
  | .reduceCapacity k => k.wf
  | .volumeCreate k => k.wf
  | .volumeDelete k => k.wf
  | .loadPredicate k => k.wf
  | .scan k => k.wf
  | .scanEmbed k => k.wf
  | .scanAggregate k => k.wf
  | .scanReadResume k _ => k.wf
  | .indexCreateNew k => k.wf
  | .indexCreateOpen k => k.wf
  | .indexBuild k => k.wf
  | .insert k => k.wf
  | .insertHoldRelease k => k.wf
  | .delete k => k.wf
  | .search k => k.wf
  | .searchDeadline k => k.wf
  | .settle k => k.wf
  | .settlingPassStart index => decide (index < 64)
  | .settlingPublish index => decide (index < 64)
  | .indexDrop k => k.wf
  | .modelLoadImport k => k.wf
  | .modelLoadPlace k => k.wf
  | .modelLoadQuery k => k.wf
  | .modelPlacementEnd slot => decide (slot < 64)
  | .modelUnload k => k.wf
  | .embed k => k.wf
  | .genOpen k => k.wf
  | .genStep k => k.wf
  | .generationStep slot _ => decide (slot < 64)
  | .genClose k => k.wf
  | .trainStep k => k.wf
  | .setStep k => k.wf
  | .update k => k.wf
  | .freezeBlocks k => k.wf
  | .thawBlocks k => k.wf
  | .checkpointSave k => k.wf
  | .checkpointRestore k => k.wf
  | .checkpointExport k => k.wf
  | .programLoad k => k.wf
  | .programRun k => k.wf
  | .phaseHint k => k.wf
  | .phaseHintExpiry ctx => decide (ctx < 1024)
  | .crossingEnable k => k.wf
  | .crossingDisable k => k.wf
  | .crossingQuery k => k.wf
  | .chainSetup k => k.wf
  | .peerCopy k => k.wf
  | .setDomain k => k.wf
  | .retireRange k => k.wf
  | .restoreSparePlot k => k.wf
  | .restoreSpareLane k _ _ => k.wf
  | .mm k seq => k.wf && decide (seq < 256)
  | .mmq k seq => k.wf && decide (seq < 256)
  | .close k seq => k.wf && decide (seq < 256)
  | .add k seq => k.wf && decide (seq < 256)
  | .sub k seq => k.wf && decide (seq < 256)
  | .mul k seq => k.wf && decide (seq < 256)
  | .fma k seq => k.wf && decide (seq < 256)
  | .min k seq => k.wf && decide (seq < 256)
  | .max k seq => k.wf && decide (seq < 256)
  | .lt k seq => k.wf && decide (seq < 256)
  | .select k seq => k.wf && decide (seq < 256)
  | .exp k seq => k.wf && decide (seq < 256)
  | .recip k seq => k.wf && decide (seq < 256)
  | .rsqrt k seq => k.wf && decide (seq < 256)
  | .tanh k seq => k.wf && decide (seq < 256)
  | .sigmoid k seq => k.wf && decide (seq < 256)
  | .gelu k seq => k.wf && decide (seq < 256)
  | .softplus k seq => k.wf && decide (seq < 256)
  | .dTanh k seq => k.wf && decide (seq < 256)
  | .dSigmoid k seq => k.wf && decide (seq < 256)
  | .dGelu k seq => k.wf && decide (seq < 256)
  | .dSoftplus k seq => k.wf && decide (seq < 256)
  | .rowSum k seq => k.wf && decide (seq < 256)
  | .rowMax k seq => k.wf && decide (seq < 256)
  | .colSum k seq => k.wf && decide (seq < 256)
  | .colMax k seq => k.wf && decide (seq < 256)
  | .maskUpper k seq => k.wf && decide (seq < 256)
  | .convert k seq => k.wf && decide (seq < 256)
  | .copy k seq => k.wf && decide (seq < 256)
  | .fill k seq => k.wf && decide (seq < 256)
  | .chainSend k seq => k.wf && decide (seq < 256)
  | .chainRecv k seq => k.wf && decide (seq < 256)
  | .table k seq => k.wf && decide (seq < 256)
  | .score k seq => k.wf && decide (seq < 256)
  | .topk k seq => k.wf && decide (seq < 256)
  | .checkWrite k seq => k.wf && decide (seq < 256)
  | .compare k seq => k.wf && decide (seq < 256)
  | .stepRule k seq => k.wf && decide (seq < 256)
  | .signRule k seq => k.wf && decide (seq < 256)
  | .signDecay k seq => k.wf && decide (seq < 256)
  | .adamBc k seq => k.wf && decide (seq < 256)
  | .signal k seq => k.wf && decide (seq < 256)
  | .wait k seq => k.wf && decide (seq < 256)
  | .sectionOpen k seq => k.wf && decide (seq < 256)
  | .sectionClose k seq => k.wf && decide (seq < 256)
  | .haltIf k seq => k.wf && decide (seq < 256)
  | .endSeq k seq => k.wf && decide (seq < 256)
  | .tileBoundary plot _ => decide (plot < 272)
  | .sliceEnd plot => decide (plot < 272)
  | .swapOutEnd plot => decide (plot < 272)
  | .swapInEnd plot => decide (plot < 272)
  | .tileReady _ tile ctx => decide (tile.plot < 272) && decide (ctx < 1024)
  | .ferryLeadShallow _ => true
  | .handOnBlockArrival k chain _ _ => k.wf && decide (chain < 65536)
  | .searchDataReturn k _ _ _ => k.wf
  | .plotHang plot => decide (plot < 272)
  | .moverTimeout plot => decide (plot < 272)
  | .sparePlotTakeover plot => decide (plot < 272)
  | .lineCheckFail line data _ _ => line.wf && line.bytesOk data.bytes
  | .refetchComplete line (.good _ bytes _) => line.wf && line.bytesOk bytes
  | .refetchComplete line _ => line.wf
  | .vaultLineFail kind _ => decide (kind = 1 ∨ kind = 2)
  | .bucketLeak => true
  | .pageReadComplete a _ _ => a.wf
  | .readAroundComplete a _ => a.wf
  | .programComplete band wl sieve _ _ => decide (band < 188 * 2800) && decide (wl < 768) && decide (sieve < 16)
  | .eraseComplete band sieve _ => decide (band < 188 * 2800) && decide (sieve < 16)
  | .suspendResume die => decide (die < 3072)
  | .journalStripeTimeout => true
  | .mapCheckpoint => true
  | .garbageCollection => true
  | .writeHoldRelease k => k.wf
  | .tillingRead a _ => a.wf
  | .spareDieCheck die _ => decide (die < 3072)
  | .dieUnresponsive die => decide (die < 3072)
  | .dieFailed die => decide (die < 3072)
  | .dieRebuildEnd die => decide (die < 3072)
  | .sieveLaneFail sieve lane => decide (sieve < 16) && decide (lane < 2)
  | .sieveLost sieve => decide (sieve < 16)
  | .restripeEnd sieve => decide (sieve < 16)
  | .heartbeatSend => true
  | .portHeartbeatTimeout port => decide (port < 2)
  | .portLockTimeout port => decide (port < 2)
  | .graceExpiry session => decide (session < 4)
  | .laneTrainingEnd position _ => decide (position < 48)
  | .laneRetrainTimer => true
  | .laneFail lane _ => decide (lane < 52)
  | .controlFlitSend crossing => decide (crossing < 48)
  | .crossingLossTimeout crossing => decide (crossing < 48)
  | .flitResendTimeout crossing => decide (crossing < 48)
  | .dataFlitReceive crossing lane flit => decide (crossing < 48) && decide (lane < 52) && decide (flit.length = 256)
  | .chainFlitReceive crossing lane flit => decide (crossing < 48) && decide (lane < 52) && decide (flit.length = 256)
  | .credit crossing cls _ => decide (crossing < 48) && decide (cls < 3)
  | .ack crossing _ => decide (crossing < 48)
  | .nak crossing _ => decide (crossing < 48)
  | .throttle crossing _ _ => decide (crossing < 48)
  | .slotFree crossing _ _ => decide (crossing < 48)
  | .chainAbort crossing _ => decide (crossing < 48)
  | .domain crossing _ => decide (crossing < 48)
  | .down crossing => decide (crossing < 48)
  | .throttleRepeat => true
  | .powerLoopTick _ _ parts => decide (parts.reserveFull < 64) && decide (parts.parts.length = 6)
  | .thermalSample temps => decide (temps.length = 8)
  | .thermalLimitStep => true
  | .deepIdleEntry => true
  | .accountingWindow _ => true
  | .recalibrationStart => true
  | .recalibrationEnd _ prices => decide (prices.length = 8)
  | .accountingIntervalEnd => true
  | .accountingJournal => true
  | .powerOn _ => true
  | .holdupTestEnd _ => true
  | .trialTimeout _ => true
  | .supervisorTimeout => true
  | .modResetNAssert => true
  | .modResetNRelease _ => true
  | .pwrFailWarnNAssert => true
  | .pwrFailWarnNRelease => true
  | .writeProtectEnd => true
  | .throttleNAssert => true
  | .throttleNRelease => true
  | .tamperNAssert => true
  | .tamperNRelease => true
  | .glitchTamper _ => true
  | .inputChatterStart input _ => decide (input < 4)
  | .inputChatterEnd input _ _ => decide (input < 4)
  | .inputLoss vinCv _ => decide (vinCv < 65536)
  | .inputRestored _ => true
  | .smbSetOffset offset _ => decide (offset < 65536)
  | .smbRead _ => true
  | .smbWrite value _ => decide (value < 2 ^ 32)
  | .smbLastStatus _ => true
  | .smbAlertResponse => true
  | .replyDeparture _ => true
  | .portLockGained port => decide (port < 2)
  | .frameDiscarded port _ _ => decide (port < 2)
  | .diePollAnswered die => decide (die < 3072)
  | .keeperPowerLoss => true
  | .hostPeek plot line => decide (plot < 272) && decide (line < 2048)

end Sys2Proof
end

