-- ==== Sys2Proof/Tests/Slice0.lean ====
section
/-!
SUPPORT. Tests/Slice0.lean: ill-formed commands that the checks refuse, worked values of the spec, one step of a command of each
family, and for every statement with hypotheses a concrete state and operands that meet them, one for each of its clauses.
-/

namespace Sys2Proof.Tests

set_option Elab.async false

open Sys2Proof Sys2Proof.Machine

/- The module that the tests run on -/

/-- A command with this opcode and payload, received and first in order. -/
def cmdOf (k : CmdKey) (op : Nat) (payload : List Byte) : Cmd :=
  { key := k, opcode := op, cls := 0, hdrCtx := 0, hdrQueue := 1, port := 0, totalLen := payload.length, parts := [(0, payload)], seen := [0], seq := 0,
    phase := .received, order := 0, arrived := 0, stagedKib := 0, th := false, lt := false, fs := false, ra := false, admitted := false,
    covered := false, pagesIn := [], segsIn := [], tally := 0, covers := [], lost := [], ids := [] }

/-- A context with a quota of 64 MiB. -/
def ctx0 : Ctx :=
  { session := 0, cls := .interactive, strict := false, sramKib := 256, landingMib := 64, maxPlots := 0, sliceUs := 2000, closing := false, torn := none,
    faulted := false, resetting := false, stepNo := none, stepSize := 0, lastRun := 0, want := 1 }

def kA : CmdKey := ⟨0, 0, .admin, 1⟩
def kW : CmdKey := ⟨0, 0, .work, 1⟩
def kD : CmdKey := ⟨0, 0, .data, 1⟩

/-- The module in service, OWNED and unlocked, with session 0 open, context 0 and port 0 up. -/
def base : State :=
  { State.reset with
    keeper := { Keeper.reset with stage := 5, moduleGood := true, holdupWeak := false, count := 2 ^ 40 }
    ports := [{ Port.reset with lock := true, up := true }, Port.reset]
    sessions := [{ Session.free with phase := .opened }, Session.free, Session.free, Session.free]
    contexts := [(0, ctx0)]
    landing := { Landing.reset with stacksUp := 63 }
    sec := { Security.reset with life := .owned, unlocked := true } }

/-- A state with one command outstanding. -/
def withC (c : Cmd) (s : State) : State := { s with cmds := [c], nextOrder := 1 }

/-- What a command leaves, and whether it answers a next state at all. -/
def after (i : Instr) (s : State) : State := match exec i s with
  | .next t => t
  | _ => s
def ran (i : Instr) (s : State) : Bool := match exec i s with
  | .next _ => true
  | _ => false

/-- The status of the one reply that waits. -/
def status (s : State) : Option Nat := s.replies.head?.map (·.status)
/-- Its payload. -/
def answer (s : State) : List Byte := (s.replies.head?.map (·.payload)).getD []

theorem ready_of {s : State} {k : CmdKey} {op : Nat} {c : Cmd} (h : findCmd k s = some c ∧ c.opcode = op ∧ c.phase = .received ∧
    isTurn c s = true ∧ s.serving = true ∧ s.serves op = true ∧ s.stalled k = false) : Ready s k op c :=
  ⟨h.1, h.2.1, h.2.2.1, h.2.2.2.1, h.2.2.2.2.1, h.2.2.2.2.2.1, h.2.2.2.2.2.2⟩

theorem admin_of {s : State} {k : CmdKey} {op : Nat} {c : Cmd} (h : findCmd k s = some c ∧ c.opcode = op ∧ c.phase = .received ∧
    isTurn c s = true ∧ s.serving = true ∧ s.serves op = true ∧ s.stalled k = false) (h' : k.queue = .admin) : ReadyAdmin s k op c :=
  ⟨ready_of h, h'⟩

theorem target_of {s : State} {k : CmdKey} {op : Nat} {c : Cmd} {x : Ctx} (h : findCmd k s = some c ∧ c.opcode = op ∧ c.phase = .received ∧
    isTurn c s = true ∧ s.serving = true ∧ s.serves op = true ∧ s.stalled k = false)
    (h' : k.queue = .admin ∧ kvGet c.hdrCtx s.contexts = some x ∧ x.session = k.session ∧ x.closing = false ∧ x.torn = none) :
    ReadyTarget s k op c x :=
  ⟨admin_of h h'.1, h'.2.1, h'.2.2.1, h'.2.2.2.1, h'.2.2.2.2⟩

theorem ctx_of {s : State} {k : CmdKey} {op : Nat} {c : Cmd} {x : Ctx} (h : findCmd k s = some c ∧ c.opcode = op ∧ c.phase = .received ∧
    isTurn c s = true ∧ s.serving = true ∧ s.serves op = true ∧ s.stalled k = false)
    (h' : k.queue ≠ .admin ∧ kvGet k.ctx s.contexts = some x ∧ (s.session k.session).phase = .opened ∧ s.deleteAhead c = false) :
    ReadyCtx s k op c x :=
  ⟨ready_of h, h'.1, h'.2.1, h'.2.2.1, h'.2.2.2⟩

/-- An admin command that is alone in the module. -/
abbrev Alone (op : Nat) (payload : List Byte) : Prop := ReadyAdmin (withC (cmdOf kA op payload) base) kA op (cmdOf kA op payload)

/- Steps, reset and the invariant -/

theorem witness_IdleStepCounts : State.reset.pending = [] ∧ ran .bucketLeak State.reset = true := by decide

theorem witness_EveryStepKeepsInvariant : State.reset.Inv ∧ step State.reset = .next (keeperTick State.reset) :=
  ⟨⟨by decide, rfl, rfl⟩, rfl⟩

theorem test_reset_status : State.reset.reg 0x1000 = 0x10C := by decide

/- Worked values of the spec -/

/-- Chapter 11: 0.05 rounded up into SC8 is 0x9D. -/
theorem test_sc8_scale : scaleUp false (1 / 20) = 0x9D := by decide +kernel
/-- Chapter 16: T of 80 J against M of 98 J is reported as 0x00B8. -/
theorem test_drift_args : disagreement 80 98 = 0xB8 := by decide

/- Ill-formed commands: one for each check -/

theorem test_wf_keys : Instr.wf (.identify ⟨3, 1023, .admin, 31⟩) = true ∧ Instr.wf (.identify ⟨4, 0, .admin, 0⟩) = false ∧
    Instr.wf (.identify ⟨0, 1024, .admin, 0⟩) = false ∧ Instr.wf (.identify ⟨0, 0, .admin, 32⟩) = false := by decide
theorem test_wf_packets : Instr.wf (.packetArrival 2 (zeros 32) []) = false ∧ Instr.wf (.packetArrival 1 (zeros 31) []) = false ∧
    Instr.wf (.heartbeat 2) = false := by decide
theorem test_wf_registers : Instr.wf (.loReadLatch 3 0) = false ∧ Instr.wf (.loReadLatch 2 65536) = false ∧ Instr.wf (.loReadLatch 2 6) = false ∧
    Instr.wf (.smbSetOffset 65536 none) = false ∧ Instr.wf (.smbWrite (2 ^ 32) none) = false := by decide
theorem test_wf_work : Instr.wf (.settlingPassStart 64) = false ∧ Instr.wf (.settlingPublish 64) = false ∧ Instr.wf (.modelPlacementEnd 64) = false ∧
    Instr.wf (.generationStep 64 true) = false ∧ Instr.wf (.phaseHintExpiry 1024) = false := by decide
theorem test_wf_tiles : Instr.wf (.mm ⟨0, 0, .work, 0⟩ 255) = true ∧ Instr.wf (.mm ⟨0, 0, .work, 0⟩ 256) = false ∧
    Instr.wf (.handOnBlockArrival ⟨0, 0, .work, 0⟩ 65536 0 true) = false := by decide
theorem test_wf_plots : Instr.wf (.tileBoundary 272 0) = false ∧ Instr.wf (.sliceEnd 272) = false ∧ Instr.wf (.plotHang 272) = false ∧
    Instr.wf (.hostPeek 272 0) = false ∧ Instr.wf (.hostPeek 0 2048) = false := by decide
theorem test_wf_lines : Instr.wf (.refetchComplete (.landing 6 0 0 0 0) .failed) = false ∧ Instr.wf (.refetchComplete (.landing 0 64 0 0 0) .failed) = false ∧
    Instr.wf (.refetchComplete (.landing 0 0 32 0 0) .failed) = false ∧ Instr.wf (.refetchComplete (.landing 0 0 0 16 0) .failed) = false ∧
    Instr.wf (.refetchComplete (.landing 0 0 0 0 16384) .failed) = false ∧ Instr.wf (.refetchComplete (.sram 272 0) .failed) = false ∧
    Instr.wf (.refetchComplete (.sram 0 53248) .failed) = false ∧ Instr.wf (.lineCheckFail (.sram 0 0) ⟨.only, none, 0, zeros 128, 0, []⟩ none []) = false ∧
    Instr.wf (.refetchComplete (.landing 0 0 0 0 0) (.good 1 (zeros 64) 0)) = false ∧ Instr.wf (.tileReady (.model 0) ⟨272, 0⟩ 0) = false ∧ Instr.wf (.vaultLineFail 3 0) = false := by
  decide +kernel
theorem test_wf_media : Instr.wf (.readAroundComplete ⟨188, 0, 0, 0⟩ true) = false ∧ Instr.wf (.readAroundComplete ⟨0, 2800, 0, 0⟩ true) = false ∧
    Instr.wf (.readAroundComplete ⟨0, 0, 3072, 0⟩ true) = false ∧ Instr.wf (.readAroundComplete ⟨0, 0, 0, 16⟩ true) = false ∧
    Instr.wf (.programComplete 526400 0 0 .host none) = false ∧ Instr.wf (.programComplete 0 768 0 .host none) = false ∧
    Instr.wf (.programComplete 0 0 16 .host none) = false ∧ Instr.wf (.dieFailed 3072) = false ∧ Instr.wf (.sieveLost 16) = false ∧
    Instr.wf (.sieveLaneFail 0 2) = false := by decide
theorem test_wf_links : Instr.wf (.laneTrainingEnd 48 none) = false ∧ Instr.wf (.laneFail 52 true) = false ∧ Instr.wf (.ack 48 0) = false ∧
    Instr.wf (.dataFlitReceive 0 52 (zeros 256)) = false ∧ Instr.wf (.dataFlitReceive 0 0 (zeros 255)) = false ∧ Instr.wf (.credit 0 3 0) = false := by
  decide +kernel
theorem test_wf_boundary : Instr.wf (.graceExpiry 4) = false ∧ Instr.wf (.powerLoopTick 0 0 ⟨64, (List.replicate 6 0)⟩) = false ∧ Instr.wf (.powerLoopTick 0 0 ⟨0, []⟩) = false ∧ Instr.wf (.thermalSample []) = false ∧
    Instr.wf (.recalibrationEnd true []) = false ∧ Instr.wf (.inputChatterStart 4 16) = false ∧ Instr.wf (.inputLoss 65536 []) = false := by decide

/- Features, IDENTIFY, logs (O6 to O8) -/

def feature (id value : Nat) : List Byte := leBytes 2 id ++ zeros 6 ++ leBytes 8 value

theorem witness_FeatureSet :
    (Alone 4 (feature 1 (2 ^ 64 - 1)) ∧ (feature 1 (2 ^ 64 - 1)).length = 16) ∧
    (Alone 4 (feature 2 30) ∧ fieldAt (feature 2 30) 8 8 = 30) ∧
    (Alone 4 (feature 3 3600) ∧ fieldAt (feature 3 3600) 8 8 = 3600) ∧ Alone 4 (feature 4 1) :=
  ⟨⟨admin_of (by decide) rfl, by decide⟩, ⟨admin_of (by decide) rfl, by decide⟩, ⟨admin_of (by decide) rfl, by decide⟩, admin_of (by decide) rfl⟩

theorem test_setTillingDays : (after (.setTillingDays kA) (withC (cmdOf kA 4 (feature 2 2)) base)).media.tillDays = 2 := by decide
theorem test_setAccountInterval :
    (after (.setAccountInterval kA) (withC (cmdOf kA 4 (feature 3 1)) base)).acct.nextIntervalS = 1 := by decide

theorem witness_FeatureRefused :
    (Alone 4 [] ∧ featureOk [] = false) ∧ (Alone 4 (feature 2 31) ∧ featureOk (feature 2 31) = true) ∧
    (Alone 4 (feature 3 0) ∧ featureOk (feature 3 0) = true) ∧ (Alone 4 (feature 4 2) ∧ featureOk (feature 4 2) = true) :=
  ⟨⟨admin_of (by decide) rfl, by decide⟩, ⟨admin_of (by decide) rfl, by decide⟩, ⟨admin_of (by decide) rfl, by decide⟩,
    admin_of (by decide) rfl, by decide⟩

theorem test_setEventMask_refused : status (after (.setEventMask kA) (withC (cmdOf kA 4 []) base)) = some stInvalid := by decide

theorem witness_IdentifyAndLog : Alone 2 [] ∧ Alone 3 (leBytes 1 2 ++ zeros 7 ++ leBytes 4 524287 ++ zeros 4) :=
  ⟨admin_of (by decide) rfl, admin_of (by decide) rfl⟩

theorem test_identify_length : (answer (after (.identify kA) (withC (cmdOf kA 2 []) base))).length = 128 := by decide +kernel

/- Packets and sessions (O9 to O13) -/

/-- IDENTIFY on the admin queue of session 0, tag 3. -/
def rawIdentify : List Byte := mkHeader 2 2 0 3 0 0 0 0 0 7 0 0 []

theorem witness_PacketAccepted :
    (base.serving = true ∧ (base.port 0).enabled = true ∧ (base.port 0).lock = true ∧ base.power.idle = .running) ∧
    (rawIdentify.length = 32 ∧ (decodeHeader rawIdentify).magic = 0xD2E1 ∧ crc32c (rawIdentify.take 28) = (decodeHeader rawIdentify).hdrCrc ∧
      (decodeHeader rawIdentify).version = 1 ∧ (decodeHeader rawIdentify).isReply = false ∧ (decodeHeader rawIdentify).isAdmin = true) ∧
    ((opInfo 2).any (·.admin) = true ∧ (decodeHeader rawIdentify).opcode = 2 ∧ opsTarget.contains 2 = false) ∧
    ((base.session (decodeHeader rawIdentify).session).phase = .opened ∧ findCmd (decodeHeader rawIdentify).key base = none ∧
      (decodeHeader rawIdentify).lenOk [] = true ∧ (decodeHeader rawIdentify).payCrc = 0 ∧ (decodeHeader rawIdentify).total = 0 ∧
      base.cmds = [] ∧ (base.session (decodeHeader rawIdentify).session).closing = false) := by decide +kernel

theorem test_packetArrival_receives :
    (after (.packetArrival 0 rawIdentify []) base).cmds.map (fun c => (c.opcode, c.seq, c.key.tag)) = [(2, 7, 3)] := by decide +kernel

theorem witness_PacketRefused :
    (let raw := rawIdentify.take 28 ++ zeros 4
     raw.length = 32 ∧ (decodeHeader raw).magic = 0xD2E1 ∧ crc32c (raw.take 28) ≠ (decodeHeader raw).hdrCrc) ∧
    (let raw := mkHeader 0x0F 2 0 3 0 0 0 0 0 7 0 0 []
     crc32c (raw.take 28) = (decodeHeader raw).hdrCrc ∧ (decodeHeader raw).version = 1 ∧ (decodeHeader raw).isReply = false ∧
      (base.session (decodeHeader raw).session).phase = .opened ∧ opInfo (decodeHeader raw).opcode = none) := by decide +kernel

/-- Session 1 held with key 5, its grace ended. -/
def held1 : State := { base with sessions := setAt base.sessions 1 fun x => { x with phase := .held, key := 5, graceEnd := 2 ^ 40 } }
def kA1 : CmdKey := ⟨1, 0, .admin, 0⟩
def openPay (mode key : Nat) : List Byte := leBytes 1 mode ++ zeros 7 ++ leBytes 8 key

theorem witness_SessionOpened :
    (ReadyAdmin (withC (cmdOf kA1 0 (openPay 1 0)) base) kA1 0 (cmdOf kA1 0 (openPay 1 0)) ∧ (base.session 1).phase = .free) ∧
    (ReadyAdmin (withC (cmdOf kA1 0 (openPay 2 5)) held1) kA1 0 (cmdOf kA1 0 (openPay 2 5)) ∧ (held1.session 1).phase = .held ∧
      (held1.session 1).key = 5) ∧
    ReadyAdmin (withC (cmdOf kA1 0 (openPay 2 6)) held1) kA1 0 (cmdOf kA1 0 (openPay 2 6)) :=
  ⟨⟨admin_of (by decide) rfl, by decide⟩, ⟨admin_of (by decide) rfl, by decide⟩, admin_of (by decide) rfl⟩

theorem test_openSession_wrong_key :
    status (after (.openSession kA1) (withC (cmdOf kA1 0 (openPay 2 6)) held1)) = some stInvalid := by decide

theorem witness_SessionClosed : Alone 0x0B [] ∧ kvSorted base.contexts = true ∧
    ∀ d ∈ (withC (cmdOf kA 0x0B []) base).cmds, d.key.queue = .admin := ⟨admin_of (by decide) rfl, by decide⟩

theorem test_closeSession : ((after (.closeSession kA) (withC (cmdOf kA 0x0B []) base)).contexts.map fun x => x.2.closing) = [true] := by
  decide

theorem witness_GraceEnds : 1 < held1.sessions.length ∧ kvSorted held1.contexts = true ∧ kvSorted held1.media.slots = true ∧ (held1.session 1).phase = .held ∧
    (held1.session 1).graceEnd ≤ held1.keeper.count := by decide

theorem test_graceExpiry : (after (.graceExpiry 1) held1).session 1 = Session.free ∧
    ((after (.graceExpiry 1) held1).events.map (·.code)) = [0x0003] := by decide

/- Ports and replies (O14 to O17) -/

/-- An admin command alone in a module. -/
abbrev AloneAs (s : State) (op : Nat) (payload : List Byte) : Prop := ReadyAdmin (withC (cmdOf kA op payload) s) kA op (cmdOf kA op payload)

theorem witness_PortCounts : base.serving = true ∧ (base.port 0).enabled = true ∧ (base.port 0).lock = true ∧ (base.port 0).lost = false ∧
    (base.port 1).up = false ∧ base.cmds = [] := by decide

theorem test_frameDiscarded_saturates : ((after (.frameDiscarded 0 70000 1) base).port 0).fecUncorr = 65535 := by decide

/-- Port 0 lost with lock held. -/
def lost0 : State := { base with ports := setAt base.ports 0 fun p => { p with up := false, lost := true } }

theorem witness_PortLost :
    ((base.port 0).up = true ∧ (base.port 0).lastBeat + 30 * countsMs ≤ base.keeper.count ∧ (base.port 1).up = false ∧
      (base.session 0).phase = .opened ∧ base.ports.length = 2 ∧ base.sessions.length = 4) ∧
    (lost0.serving = true ∧ (lost0.port 0).enabled = true ∧ (lost0.port 0).lock = true ∧ (lost0.port 0).lost = true) ∧
    ((base.port 1).up = false ∧ ((base.port 0).up || ((base.port 0).lock && (base.port 0).enabled)) = true) ∧
    ((lost0.port 0).up = false ∧ ((lost0.port 1).up || ((lost0.port 1).lock && (lost0.port 1).enabled)) = false ∧ lost0.ports.length = 2) := by decide

theorem test_portLockTimeout_holds : ((after (.portLockTimeout 0) base).session 0).phase = .held ∧
    ((after (.portLockTimeout 0) base).session 0).graceEnd = 2 ^ 40 + 1500000000 := by decide

theorem witness_HeartbeatsSent : base.serving = true ∧ (base.port 0).lock = true ∧ (base.port 0).enabled = true ∧ (base.port 0).beatSent = none ∧
    (base.port 1).lock = false ∧ ((after .heartbeatSend base).port 0).beatSent = some base.keeper.count := by decide +kernel

theorem test_heartbeatSend_period : (after .heartbeatSend base).wire.length = 1 ∧
    (after .heartbeatSend (after .heartbeatSend base)).wire.length = 1 := by decide +kernel

/-- A reply to an IDENTIFY that waits. -/
def waits : State := { after (.identify kA) (withC (cmdOf kA 2 []) base) with nextOrder := 1 }

/-- A reply of two packets. -/
def wide : State := { waits with replies := waits.replies.map fun r => { r with payload := zeros 65537 } }

theorem witness_ReplyDeparts : ((waits.replies.map fun r => (r.id, r.acts, waits.departs r, r.payload.length, r.reject)) = [(0, [], true, 128, false)]) ∧
    waits.serving = true ∧ (waits.port 0).up = true ∧ (waits.contexts.all fun x => decide (x.2.torn = none)) = true ∧ waits.Still ∧ (waits.cmds.all fun c => decide (c.phase = .replied)) = true ∧
    (∀ n < 4, (waits.session n).queued = [] ∧ (waits.session n).dropped = none) ∧
    ((waits.replies ++ wide.replies).map fun r => (r.on, r.sent)) = [(none, 0), (none, 0)] ∧
    (wide.replies.map fun r => (wide.departs r, decide (65536 < r.payload.length))) = [(true, true)] :=
  ⟨by decide +kernel, by decide +kernel, by decide +kernel, by decide +kernel, ⟨by decide +kernel, by decide +kernel, by decide +kernel, by decide +kernel⟩,
    by decide +kernel⟩

theorem test_replyDeparture_frees_tag : (after (.replyDeparture 0) waits).cmds = [] ∧ (after (.replyDeparture 0) waits).replies = [] ∧
    (after (.replyDeparture 0) waits).wire.length = 1 := by decide +kernel
theorem test_replyDeparture_first_of_two : ((after (.replyDeparture 0) wide).replies.map fun r => (r.sent, r.on)) = [(1, some 0)] := by
  decide +kernel

/- Contexts (O18 to O20) -/

def createPay (mib : Nat) : List Byte := leBytes 1 0 ++ leBytes 1 0 ++ leBytes 2 64 ++ leBytes 4 mib ++ leBytes 2 0 ++ leBytes 2 0 ++ zeros 4

/-- Every context number is in use. -/
def full : State := { base with contexts := (List.range' 0 1024).map fun n => (n, ctx0) }

theorem full_has {v : Ctx} : ∀ n a m, a ≤ m → m < a + n → (kvGet m ((List.range' a n).map fun i => (i, v))).isSome = true
  | 0, a, m, h, h' => by omega
  | n + 1, a, m, h, h' => by
    simp only [List.range'_succ, List.map_cons, kvGet]
    split
    · rfl
    · exact full_has n (a + 1) m (by omega) (by omega)

theorem witness_ContextCreated :
    (Alone 0x10 (createPay 64) ∧ createOk base.poolMib (createPay 64) = true ∧ kvGet 1 base.contexts = none ∧
      (∀ m < 1, (kvGet m base.contexts).isSome) ∧ base.grantedMib + 64 ≤ base.poolMib ∧ (withC (cmdOf kA 0x10 (createPay 64)) base).quotasDue 1 = []) ∧
    (AloneAs full 0x10 (createPay 64) ∧ createOk full.poolMib (createPay 64) = true ∧ ∀ m < 1024, (kvGet m full.contexts).isSome = true) :=
  ⟨⟨admin_of (by decide) rfl, by decide +kernel⟩, admin_of (by decide) rfl, by decide, fun m h => full_has 1024 0 m (by omega) (by omega)⟩

theorem test_createContext_lowest :
    (after (.createContext kA) (withC (cmdOf kA 0x10 (createPay 64)) base)).contexts.map (·.1) = [0, 1] := by decide +kernel

/-- A context of the admin command's session. -/
abbrev Target (op : Nat) (payload : List Byte) (x : Ctx) (s : State) : Prop :=
  ReadyTarget (withC (cmdOf kA op payload) s) kA op (cmdOf kA op payload) x

def quotaPay (mib which : Nat) : List Byte := leBytes 4 mib ++ leBytes 2 64 ++ leBytes 2 1 ++ leBytes 2 500 ++ leBytes 1 which ++ zeros 5
def batch0 : State := { base with contexts := [(0, { ctx0 with cls := .batch })] }

theorem witness_QuotaAndClass :
    (Target 0x11 (quotaPay 128 15) ctx0 base ∧ quotaOk base.poolMib (quotaPay 128 15) = true ∧
      base.grantedMib - base.grantOf 0 ctx0 + max 128 (base.grantOf 0 ctx0) ≤ base.poolMib ∧
      (withC (cmdOf kA 0x11 (quotaPay 128 15)) base).wholeChargeKib 0 ≤ 1024 * 128 ∧
      (withC (cmdOf kA 0x11 (quotaPay 128 15)) base).sramChargeKib 0 ≤ 64) ∧
    (let s : State := { base with contexts := [(0, ctx0), (1, { ctx0 with landingMib := 350000 })] }
     Target 0x11 (quotaPay 4305 1) ctx0 s ∧ quotaOk s.poolMib (quotaPay 4305 1) = true ∧ s.poolMib < s.grantedMib - s.grantOf 0 ctx0 + max 4305 (s.grantOf 0 ctx0)) ∧
    Target 0x12 (leBytes 1 0 ++ zeros 3) { ctx0 with cls := .batch } batch0 ∧ batch0.streams = [] ∧
    (Target 0x12 (leBytes 1 1 ++ zeros 3) ctx0 base ∧ 256 * max 1 (base.plotsHeld 0) ≤ base.headroomKib 0) ∧
    Target 0x12 (leBytes 1 0 ++ zeros 3) ctx0 base :=
  ⟨⟨target_of (by decide) (by decide), by decide +kernel⟩, ⟨target_of (by decide) (by decide), by decide +kernel⟩,
    target_of (by decide) (by decide), rfl, ⟨target_of (by decide) (by decide), by decide⟩, target_of (by decide) (by decide)⟩

theorem test_setQuota_sets : ((after (.setQuota kA) (withC (cmdOf kA 0x11 (quotaPay 128 15)) base)).contexts.map fun x =>
    (x.2.sramKib, x.2.maxPlots, x.2.sliceUs, x.2.landingMib)) = [(64, 1, 500, 64)] := by decide +kernel

theorem witness_ContextEnds : Target 0x13 [] ctx0 base ∧
    (let c := { cmdOf kA 0x14 [] with hdrQueue := 0 }
     ReadyTarget (withC c base) kA 0x14 c ctx0 ∧ c.tally ≠ 1) ∧
    (let c := { cmdOf kA 0x14 [] with hdrQueue := 0, tally := 1 }
     ReadyTarget (withC c base) kA 0x14 c ctx0) ∧ Target 0x14 [] ctx0 base :=
  ⟨target_of (by decide) (by decide), ⟨target_of (by decide) (by decide), by decide⟩, target_of (by decide) (by decide), target_of (by decide) (by decide)⟩

theorem test_queueReset_work_refused : status (after (.queueReset kA) (withC (cmdOf kA 0x14 []) base)) = some stInvalid := by decide

/- Registers (O21 to O25) -/

def regPay (off v : Nat) : List Byte := leBytes 4 off ++ leBytes 4 v

theorem witness_RegisterFields :
    Alone 6 (regPay 0x5030 70) ∧ Alone 6 (regPay 0x5034 4) ∧ Alone 6 (regPay 0x5028 0x000A1011) ∧ Alone 6 (regPay 0x5010 0x000E1001) ∧
    Alone 6 (regPay 0x6008 0x005F0710) ∧ Alone 6 (regPay 0x602C 23) ∧ Alone 6 (regPay 0x7004 271) ∧ Alone 6 (regPay 0x300C 51) ∧
    Alone 6 (regPay 0x3018 47) ∧ (bits 0x000A1011 23 16 = 10 ∧ bits 0x000A1011 15 8 = 16 ∧ bits 0x000A1011 7 4 = 1 ∧ bits 0x000A1011 3 0 = 1) ∧
    (bits 0x000E1001 23 8 = 3600) ∧ (bits 0x005F0710 23 16 = 95 ∧ bits 0x005F0710 11 8 = 7 ∧ bits 0x005F0710 7 0 = 16) ∧
    23 < base.part.diesPerChannel :=
  ⟨admin_of (by decide) rfl, admin_of (by decide) rfl, admin_of (by decide) rfl, admin_of (by decide) rfl, admin_of (by decide) rfl,
    admin_of (by decide) rfl, admin_of (by decide) rfl, admin_of (by decide) rfl, admin_of (by decide) rfl, by decide⟩

theorem test_lndReserve : (after (.lndReserveCfgWrite kA) (withC (cmdOf kA 6 (regPay 0x5030 70)) base)).reg 0x5030 = 70 := by decide +kernel
theorem test_lndFerry : (after (.lndFerryCfgWrite kA) (withC (cmdOf kA 6 (regPay 0x5028 0x000A1011)) base)).reg 0x5028 = 0x000A1011 := by
  decide +kernel
theorem test_sveCfg : (after (.sveCfgWrite kA) (withC (cmdOf kA 6 (regPay 0x6008 0x005F0710)) base)).reg 0x6008 = 0x005F0710 := by
  decide +kernel
theorem test_pltSel : (after (.pltSelWrite kA) (withC (cmdOf kA 6 (regPay 0x7004 271)) base)).plots.sel = 271 := by decide +kernel

theorem witness_RegisterRangesRefused :
    Alone 6 (regPay 0x5030 39) ∧ Alone 6 (regPay 0x5030 71) ∧ Alone 6 (regPay 0x4004 399) ∧ Alone 6 (regPay 0x4004 1251) ∧
    Alone 6 (regPay 0x7004 272) ∧ Alone 6 (regPay 0x602C 24) ∧ Alone 6 (regPay 0x300C 52) ∧ Alone 6 (regPay 0 1) :=
  ⟨admin_of (by decide) rfl, admin_of (by decide) rfl, admin_of (by decide) rfl, admin_of (by decide) rfl, admin_of (by decide) rfl,
    admin_of (by decide) rfl, admin_of (by decide) rfl, admin_of (by decide) rfl⟩

theorem test_pwrCap_refused : status (after (.pwrCapWrite kA) (withC (cmdOf kA 6 (regPay 0x4004 399)) base)) = some stInvalid := by
  decide +kernel

/-- TAMPER_N asserted. -/
def tampered : State := { base with keeper := { base.keeper with tamper := ⟨true, true, false, 1⟩ } }

theorem witness_RegisterClears :
    Alone 6 (regPay 0x2004 1) ∧ Alone 6 (regPay 0x501C 0x3F3F) ∧ Alone 6 (regPay 0x7044 1) ∧
    (Alone 6 (regPay 0x8004 7) ∧ base.keeper.tamper.asserted = false) ∧
    (AloneAs tampered 6 (regPay 0x8004 1) ∧ tampered.keeper.tamper.asserted = true) :=
  ⟨admin_of (by decide) rfl, admin_of (by decide) rfl, admin_of (by decide) rfl, ⟨admin_of (by decide) rfl, rfl⟩, admin_of (by decide) rfl, rfl⟩

theorem test_alertClear : (after (.prtAlertClear kA) (withC (cmdOf kA 6 (regPay 0x2004 1)) { base with alert := true })).alert = false := by
  decide +kernel

theorem witness_RegisterActs :
    Alone 6 (regPay 0x4004 400) ∧ Alone 6 (regPay 0x4004 1250) ∧ Alone 6 (regPay 0x9004 1) ∧ Alone 6 (regPay 0x2008 3) ∧ Alone 6 (regPay 0x2008 0) ∧
    (Alone 6 (regPay 0x2008 2) ∧ bit 2 0 = false ∧ (base.port 0).enabled = true) ∧
    (Alone 6 (regPay 0x2008 1) ∧ bit 1 0 = true ∧ (base.port 1).up = false ∧ (base.port 0).up = true ∧
      ∀ d ∈ (withC (cmdOf kA 6 (regPay 0x2008 1)) base).cmds, d.port ≠ 1) ∧
    (Alone 6 (regPay 0x3004 0x0104) ∧ bits 0x0104 15 8 = 1 ∧ bits 0x0104 7 0 = 4) :=
  ⟨admin_of (by decide) rfl, admin_of (by decide) rfl, admin_of (by decide) rfl, admin_of (by decide) rfl, admin_of (by decide) rfl,
    ⟨admin_of (by decide) rfl, by decide⟩, ⟨admin_of (by decide) rfl, by decide⟩, admin_of (by decide) rfl, by decide⟩

theorem test_portCfg_own_port : ((after (.prtPortCfgWrite kA) (withC (cmdOf kA 6 (regPay 0x2008 2)) base)).replies.map (·.acts)) =
    [[.disablePort 2]] ∧ ((after (.prtPortCfgWrite kA) (withC (cmdOf kA 6 (regPay 0x2008 1)) base)).port 1).enabled = false := by decide +kernel
theorem test_pwrCap : (after (.pwrCapWrite kA) (withC (cmdOf kA 6 (regPay 0x4004 400)) base)).power.capW = 400 ∧
    (after (.pwrCapWrite kA) (withC (cmdOf kA 6 (regPay 0x4004 400)) base)).power.cause = 4 := by decide +kernel

theorem witness_RegisterReads : Alone 5 (regPay 0x4018 1) ∧ Alone 5 (regPay 0x1020 1) ∧ Alone 5 (regPay 0xFF00 64) ∧
    (Alone 5 (regPay 0xFF04 64) ∧ 0x10000 < 0xFF04 + 4 * 64) ∧ loHi.length = 6 :=
  ⟨admin_of (by decide) rfl, admin_of (by decide) rfl, admin_of (by decide) rfl, ⟨admin_of (by decide) rfl, by decide⟩, rfl⟩

theorem test_regRead_count : answer (after (.regRead kA) (withC (cmdOf kA 5 (regPay 0x1020 1)) base)) = zeros 4 ∧
    (after (.regRead kA) (withC (cmdOf kA 5 (regPay 0x1020 1)) base)).regFor 0 0x1024 = 256 := by decide +kernel

/- Firmware, attestation and life cycle (O26 to O31) -/

def stagePay (offset total : Nat) (body : List Byte) : List Byte := leBytes 4 offset ++ leBytes 4 total ++ zeros 8 ++ body

theorem witness_FirmwareStaged :
    (Alone 7 (stagePay 0 50339760 [1#8]) ∧ base.sec.life ≠ .retired ∧ base.sec.booted = 0 ∧ base.sec.slot1.state ≠ .staging) ∧
    (Alone 7 (stagePay 0 1 [1#8]) ∧ base.imageStatus [1#8] ≠ stOk) ∧ (Alone 7 (stagePay 2 9 [1#8]) ∧ base.sec.slot1.staged.length ≠ 2) :=
  ⟨⟨admin_of (by decide) rfl, by decide⟩, ⟨admin_of (by decide) rfl, by decide +kernel⟩, admin_of (by decide) rfl, by decide⟩

/-- The checks that do not turn on the vendor's signature pass for this image of one byte; its body's hash is in its header. -/
def image1 : List Byte :=
  leBytes 4 0x4B5A4657 ++ [1#8, 0#8, 0#8, 0#8] ++ leBytes 4 1 ++ leBytes 4 1 ++ sha256 [7#8] ++ zeros 208 ++ zeros 7856 ++ [7#8]

theorem witness_FirmwareStaged_valid (h : Config.vendorVerify 0 (image1.take 256) (slice image1 256 7856) = true) : base.imageStatus image1 = stOk := by
  have hk : fieldAt (image1.take 256) 5 1 = 0 := by decide +kernel
  have hb : image1.drop 8112 = [7#8] := by decide +kernel
  unfold State.imageStatus
  simp only [hk, h, hb]
  decide +kernel

theorem test_fwStage : ((after (.fwStage kA) (withC (cmdOf kA 7 (stagePay 0 9 [1#8])) base)).sec.slot1.state) = .staging := by decide +kernel

/-- Slot 1 holds a valid image of SVN 3. -/
def twoSlots : State := { base with sec := { base.sec with slot1 := { FwSlot.empty with state := .valid, svn := 3 }, rollback := 3 } }
def commitPay (act : Nat) : List Byte := leBytes 1 act ++ zeros 7

theorem witness_FirmwareCommitted :
    (AloneAs twoSlots 8 (commitPay 1) ∧ twoSlots.sec.slot1.state = .valid) ∧
    (Alone 8 (commitPay 1) ∧ base.sec.slot1.state = .empty) ∧ (Alone 8 (commitPay 2) ∧ base.sec.recovery = false) ∧
    (AloneAs twoSlots 8 (commitPay 3) ∧ twoSlots.sec.rollback ≤ twoSlots.sec.slot1.svn) :=
  ⟨⟨admin_of (by decide) rfl, rfl⟩, ⟨admin_of (by decide) rfl, rfl⟩, ⟨admin_of (by decide) rfl, rfl⟩, admin_of (by decide) rfl, by decide⟩

theorem test_fwCommitTrial : (after (.fwCommitTrial kA) (withC (cmdOf kA 8 (commitPay 1)) twoSlots)).sec.slot1.state = .trialPending := by
  decide +kernel
theorem test_fwCommitRevert : (after (.fwCommitRevert kA) (withC (cmdOf kA 8 (commitPay 3)) twoSlots)).sec.preferred = 1 := by decide +kernel

def attestPay (act target : Nat) (body : List Byte) : List Byte := leBytes 1 act ++ leBytes 1 target ++ zeros 14 ++ body
def inLife (l : LifeState) : State := { base with sec := { base.sec with life := l } }

abbrev AloneIn (l : LifeState) (op : Nat) (payload : List Byte) : Prop := AloneAs (inLife l) op payload

theorem witness_Attested :
    (AloneIn .provisioned 9 (attestPay 1 0 (zeros 32)) ∧ attestOk (attestPay 1 0 (zeros 32)) = true) ∧
    AloneIn .blank 9 (attestPay 1 0 (zeros 32)) ∧ (Alone 9 (attestPay 2 0 []) ∧ attestOk (attestPay 2 0 []) = true) ∧
    (AloneIn .blank 9 (attestPay 3 0 []) ∧ attestOk (attestPay 3 0 []) = true) :=
  ⟨⟨admin_of (by decide) rfl, by decide⟩, admin_of (by decide) rfl, ⟨admin_of (by decide) rfl, by decide⟩, admin_of (by decide) rfl, by decide⟩

theorem test_attestReport_blank : status (after (.attestReport kA) (withC (cmdOf kA 9 (attestPay 1 0 (zeros 32))) (inLife .blank))) =
    some stLifecycle := by decide +kernel

/-- Locked, with the verifier of the secret of 32 zeros; and in a hold-off. -/
def locked (v : List Byte) (until_ : Nat) (s : State) : State := { s with sec := { s.sec with unlocked := false, verifier := v, holdoffEnd := until_ } }
def secret0 : List Byte := zeros 32
def unlockPay : List Byte := attestPay 4 0 secret0

theorem witness_OwnerSecret :
    (AloneAs (locked (verifierOf secret0 base.sec.kekSalt) (2 ^ 40) base) 9 unlockPay ∧ attestOk unlockPay = true ∧ unlockPay.length = 48 ∧
      unlockPay.drop 16 = secret0) ∧
    (AloneAs (locked [] 0 base) 9 unlockPay ∧ verifierOf secret0 base.sec.kekSalt ≠ []) ∧
    (AloneAs (locked [] (2 ^ 40 + 1) base) 9 unlockPay ∧ base.keeper.count < 2 ^ 40 + 1) ∧ AloneAs (locked [] 0 tampered) 9 unlockPay :=
  ⟨⟨admin_of (by decide) rfl, by decide⟩, ⟨admin_of (by decide) rfl, by decide +kernel⟩, ⟨admin_of (by decide) rfl, by decide⟩,
    admin_of (by decide) rfl⟩

theorem test_unlock_tampered : answer (after (.attestUnlock kA) (withC (cmdOf kA 9 unlockPay) (locked [] 0 tampered))) =
    [2#8, 4#8] ++ zeros 6 := by decide +kernel

theorem witness_LifeCycleMoves :
    (AloneAs (inLife .provisioned) 9 (attestPay 5 2 secret0) ∧ attestOk (attestPay 5 2 secret0) = true ∧ base.sec.mediaSetId = 0) ∧
    (AloneAs (locked (verifierOf secret0 base.sec.kekSalt) 0 base) 9 (attestPay 5 3 secret0) ∧ kvSorted base.contexts = true) ∧
    (AloneIn .blank 9 (attestPay 5 4 []) ∧ attestOk (attestPay 5 4 []) = true) :=
  ⟨⟨admin_of (by decide) rfl, by decide⟩, ⟨admin_of (by decide) rfl, by decide⟩, admin_of (by decide) rfl, by decide⟩

theorem test_transition_blank : answer (after (.attestTransition kA) (withC (cmdOf kA 9 (attestPay 5 4 [])) (inLife .blank))) =
    [0#8, 1#8] ++ zeros 6 := by decide +kernel

theorem witness_KeysCleared : base.sec.unlocked = true ∧ ran (.glitchTamper true) base = true := by decide +kernel

theorem test_glitchTamper : (after (.glitchTamper true) base).sec.tamperBits = 4 ∧ (after (.glitchTamper true) base).sec.unlocked = false := by
  decide +kernel

/- Volumes and storage (O32 to O35) -/

/-- Volume 1 of four units for every session: unit 0 stands in the write buffer, unit 1 is poisoned, units 2 and 3 are unmapped. -/
def vol1 : Volume := ⟨4, false, false, 0, 15, 0, []⟩
def slot0 : Slot := ⟨1, 0, 0, [1#8, 2#8, 3#8, 4#8, 5#8, 6#8, 7#8, 8#8], true, kD, none, none, false, true⟩
/-- A sieve with both lanes up. -/
def lanesUp : Sieve := ⟨true, true, false, true, true, []⟩
def stored1 : State := { base with media := { base.media with
  volumes := [(1, vol1)], slots := [(0, slot0)], nextSlot := 1, map := [(unitKey 1 0, .buffer 0), (unitKey 1 1, .poisoned)] } }
/-- Unit 3 of it lies on flash. -/
def place3 : MediaAddr := ⟨0, 8, 0, 1⟩
def stored2 : State := { stored1 with media := { stored1.media with map := stored1.media.map ++ [(unitKey 1 3, .media place3)] } }

/-- The map's segment of volume 1's first units lies on flash, and the cache does not hold it. -/
def uncached : State := { stored2 with media := { stored2.media with directory := [(segmentOf (unitKey 1 0), ⟨0, 9, 0, 1⟩)] } }
/-- Band 8 is closed and has held volume 1. -/
def held8 : State := { stored1 with media := { stored1.media with
  bands := [(8, { Band.fresh with state := .closed, sieves := List.range 16, held := [1] })] } }
/-- The hold-up store is weak. -/
def weak1 : State := { stored1 with keeper := { stored1.keeper with holdupWeak := true } }

/-- A data command of context 0 alone in a module. -/
abbrev Data (s : State) (op : Nat) (payload : List Byte) : Prop := ReadyCtx (withC (cmdOf kD op payload) s) kD op (cmdOf kD op payload) ctx0

def desc (vol first blocks : Nat) : List Byte := leBytes 1 vol ++ zeros 3 ++ leBytes 8 first ++ leBytes 4 blocks ++ zeros 16

theorem witness_ReadReturnsUnits : stored1.keysPresent = true ∧
    (Data uncached 0x20 (desc 1 48 1) ∧ uncached.missing [segmentOf (unitKey 1 3)] = [segmentOf (unitKey 1 3)] ∧
      (cmdOf kD 0x20 (desc 1 48 1)).segsIn = [] ∧ uncached.media.delta = []) ∧ stored1.missing [segmentOf (unitKey 1 3)] = [] ∧
    (Data stored1 0x20 (desc 1 63 1) ∧ (rangeDesc (desc 1 63 1)).first + 1 = 16 * vol1.units ∧
      (withC (cmdOf kD 0x20 (desc 1 63 1)) stored1).resultsFit (cmdOf kD 0x20 (desc 1 63 1)) (kib4 (4096 + 32 * trainLen 4096)) = true ∧
      stored1.placesOf 1 [3] = []) ∧
    (Data stored1 0x20 (desc 1 32 1) ∧ ∃ d, stored1.unitData 1 2 = some d ∧ d.length = 65536) ∧
    (Data stored2 0x20 (desc 1 48 1) ∧ stored2.placesOf 1 [3] = [place3]) ∧ (Data stored1 0x20 (desc 1 16 1) ∧ stored1.entry 1 1 = some .poisoned) :=
  ⟨by decide, ⟨ctx_of (by decide) (by decide), by decide +kernel⟩, by decide +kernel, ⟨ctx_of (by decide) (by decide), by decide +kernel⟩,
    ⟨ctx_of (by decide) (by decide), zeros 65536, by rfl, List.length_replicate⟩, ⟨ctx_of (by decide) (by decide), by decide +kernel⟩,
    ctx_of (by decide) (by decide), by decide⟩

theorem test_read_waits_for_page : ((after (.read kD) (withC (cmdOf kD 0x20 (desc 1 48 1)) stored2)).cmds.map (·.phase)) =
    [.waiting (.pages [place3])] := by decide +kernel
theorem test_read_waits_for_segment : ((after (.read kD) (withC (cmdOf kD 0x20 (desc 1 48 1)) uncached)).cmds.map (·.phase)) =
    [.waiting (.segments [segmentOf (unitKey 1 3)])] := by decide +kernel
theorem test_read_poisoned : status (after (.read kD) (withC (cmdOf kD 0x20 (desc 1 16 1)) stored1)) = some stMediaUncorrectable := by
  decide +kernel

/-- A WRITE of the last block of unit 2, with its block of zeros. -/
def writePay : List Byte := desc 1 47 1 ++ zeros 4096
/-- A flush reserve that is not whole holds every WRITE. -/
def holding (s : State) : State := { s with media := { s.media with reserve := s.media.reserve.drop 1 } }
def heldWrite (s : State) : State := withC { cmdOf kD 0x21 writePay with phase := .waiting .hold } s
/-- A held WRITE of the last block of unit 1, which has been poisoned meanwhile. -/
def heldPoisoned : State := withC { cmdOf kD 0x21 (desc 1 31 1 ++ zeros 4096) with phase := .waiting .hold } stored1

theorem writePay_length : writePay.length = 32 + 4096 * 1 := by decide +kernel

theorem witness_WriteEntersBuffer :
    (Data stored1 0x21 writePay ∧ (rangeDesc writePay).partly = [2] ∧ stored1.placesOf 1 [2] = [] ∧ stored1.entry 1 2 = none ∧
      (withC (cmdOf kD 0x21 writePay) stored1).holdsWrite 1 = false ∧ (∀ e ∈ stored1.media.map, ∀ n, e.2 = .buffer n → n < stored1.media.nextSlot)) ∧
    (stored1.deferredFull = false ∧ stored1.media.spareOut = false ∧
      stored1.missing (segmentRange 1 2 3) = [] ∧ stored1.keeper.holdupWeak = false ∧ weak1.keeper.holdupWeak = true) ∧ Data weak1 0x21 writePay ∧
    (Data (holding stored1) 0x21 writePay ∧ (withC (cmdOf kD 0x21 writePay) (holding stored1)).holdsWrite 1 = true) ∧
    ((heldWrite stored1).holdsWrite 1 = false ∧ (heldWrite (holding stored1)).holdsWrite 1 = true) ∧
    (heldPoisoned.holdsWrite 1 = false ∧ (rangeDesc (desc 1 31 1 ++ zeros 4096)).partly = [1] ∧ heldPoisoned.entry 1 1 = some .poisoned) :=
  ⟨⟨ctx_of ⟨rfl, rfl, rfl, by decide +kernel, rfl, rfl, rfl⟩ (by decide +kernel), by decide +kernel, by decide +kernel, by decide +kernel,
      by decide +kernel, by
        intro e he n hn
        simp [stored1] at he ⊢
        rcases he with rfl | rfl
        · simp at hn; omega
        · simp at hn⟩,
    by decide +kernel, ctx_of ⟨rfl, rfl, rfl, by decide +kernel, rfl, rfl, rfl⟩ (by decide +kernel),
    ⟨ctx_of ⟨rfl, rfl, rfl, by decide +kernel, rfl, rfl, rfl⟩ (by decide +kernel), by decide +kernel⟩, by decide +kernel, by decide +kernel⟩

theorem test_write_waits_when_weak : ((after (.write kD) (withC (cmdOf kD 0x21 writePay) weak1)).cmds.map (·.phase)) =
    [.waiting (.durable [1])] := by decide +kernel
theorem test_write_held : ((after (.write kD) (withC (cmdOf kD 0x21 writePay) (holding stored1))).cmds.map (·.phase)) = [.waiting .hold] := by
  decide +kernel

theorem witness_UnitsUnmapped :
    (Data stored1 0x23 (desc 1 0 64) ∧ kvSorted stored1.media.map = true ∧ kvSorted stored1.media.volumes = true ∧
      kvGet 1 stored1.media.volumes = some vol1 ∧ bit vol1.sessions 0 = true ∧ stored1.missing (segmentRange 1 0 4) = []) ∧
    (Data stored1 0x24 (desc 1 0 64) ∧ stored1.media.bands = []) ∧
    (Data held8 0x24 (desc 1 0 64) ∧ (held8.media.bands.map fun b => (b.2.held, b.2.state)) = [([1], .closed)]) ∧
    (Data stored1 0x28 (leBytes 1 1 ++ zeros 15) ∧
      (withC (cmdOf kD 0x28 (leBytes 1 1 ++ zeros 15)) stored1).volumeBusy 1 0 = false ∧ stored1.media.check = none ∧ stored1.media.directory = []) :=
  ⟨⟨ctx_of (by decide) (by decide), by decide +kernel⟩, ⟨ctx_of (by decide) (by decide), by decide⟩, ⟨ctx_of (by decide) (by decide), by decide⟩, ctx_of (by decide) (by decide), by decide⟩

theorem test_secureDiscard_waits : ((after (.secureDiscard kD) (withC (cmdOf kD 0x24 (desc 1 0 64)) held8)).cmds.map (·.phase)) =
    [.waiting (.erased [8] 1)] := by decide +kernel
theorem test_discard_last_unit : ((after (.discard kD) (withC (cmdOf kD 0x23 (desc 1 15 17)) stored1)).media.map.map (·.1)) = [unitKey 1 0] := by
  decide +kernel

def createVol (units : Nat) : List Byte := leBytes 1 2 ++ leBytes 1 1 ++ leBytes 1 15 ++ zeros 1 ++ leBytes 4 9 ++ leBytes 8 units ++ zeros 16
def allVolumes : List Byte := leBytes 1 0 ++ leBytes 1 1 ++ zeros 14
/-- Nothing that was acknowledged is in the write buffer. -/
def durable1 : State := { stored1 with media := { stored1.media with slots := [], map := [(unitKey 1 1, .poisoned)] } }

theorem witness_VolumesAndCapacity :
    (Data stored1 0x27 (createVol 19531249996) ∧ stored1.unassigned = 19531249996 ∧ kvGet 2 stored1.media.volumes = none) ∧
    Data stored1 0x26 (zeros 8 ++ leBytes 8 19531249996) ∧
    (Data stored1 0x25 (desc 1 0 1) ∧ stored1.mappedIn 1 0 1 = [0] ∧ stored1.entry 1 0 = some (.buffer 0) ∧ stored1.missing (segmentRange 1 0 1) = []) ∧
    (let c := { cmdOf kD 0x22 allVolumes with covers := [0] }
     ReadyCtx (withC c stored1) kD 0x22 c ctx0 ∧ ∀ y ∈ stored1.media.slots, y.1 ∈ c.covers) ∧
    (Data durable1 0x22 allVolumes ∧ (∀ y ∈ durable1.media.slots, y.2.acked = false)) :=
  ⟨⟨ctx_of (by decide) (by decide), by decide +kernel⟩, ctx_of (by decide) (by decide), ⟨ctx_of (by decide) (by decide), by decide +kernel⟩,
    ⟨ctx_of (by decide) (by decide), by decide⟩, ctx_of (by decide) (by decide), by decide⟩

theorem test_volumeCreate : ((after (.volumeCreate kD) (withC (cmdOf kD 0x27 (createVol 5)) stored1)).media.volumes.map fun v =>
    (v.1, v.2.units, v.2.protect, v.2.appTag)) = [(1, 4, false, 0), (2, 5, true, 9)] := by decide +kernel
theorem test_flush : status (after (.flush kD) (withC (cmdOf kD 0x22 allVolumes) durable1)) = some stOk := by decide +kernel

/- Scans (O36 to O38) -/

/-- A work command of context 0 alone in a module. -/
abbrev Work (s : State) (op : Nat) (payload : List Byte) : Prop := ReadyCtx (withC (cmdOf kW op payload) s) kW op (cmdOf kW op payload) ctx0

/-- The empty program passes every record. -/
def emptyProgram : List Byte := [1#8] ++ zeros 31
def layout1 : List Byte := [1#8] ++ zeros 3 ++ leBytes 4 65536 ++ zeros 24
def loadPay (handle : Nat) : List Byte := leBytes 1 handle ++ [1#8] ++ zeros 14 ++ layout1 ++ emptyProgram

theorem witness_PredicateLoaded :
    (Work base 0x30 (loadPay 31) ∧ 80 ≤ (loadPay 31).length ∧ programOk ((loadPay 31).drop 48) (layoutAt (loadPay 31) 16) = true ∧
      (layoutAt (loadPay 31) 16).ok 0 = true ∧ projOk (layoutAt (loadPay 31) 16) [] = true) ∧
    (Work base 0x30 (loadPay 32) ∧ ¬ fieldAt (loadPay 32) 0 1 < 32) :=
  ⟨⟨ctx_of (by decide) (by decide), by decide +kernel⟩, ctx_of (by decide) (by decide), by decide⟩

theorem test_loadPredicate : (after (.loadPredicate kW) (withC (cmdOf kW 0x30 (loadPay 31)) base)).preds.map (·.1) = [31] := by decide +kernel

/-- A scan that took this predicate at its receipt and has its places in the engines; its results are charged this many KiB. -/
def pred1 : Pred := ⟨1, layoutAt layout1 0, [], 0, []⟩
def scanOf (k : CmdKey) (kib : Nat) (s : State) : State := { s with scans := [⟨k, pred1, kib, [0], false, 0, 0⟩] }
/-- What the scan has staged. -/
def stagedBy (op : Nat) (payload : List Byte) (kib : Nat) : Nat := stored1.stagedKib (cmdOf kW op payload) ⟨kW, pred1, kib, [0], false, 0, 0⟩
def scanning (k : CmdKey) (s : State) : State := scanOf k 2048 s
def extent (vol first units : Nat) : List Byte := leBytes 1 vol ++ zeros 2 ++ leBytes 5 first ++ leBytes 5 units ++ zeros 3
def scanPay (flags units : Nat) : List Byte :=
  [0#8, 1#8] ++ leBytes 1 flags ++ zeros 1 ++ leBytes 4 2097152 ++ zeros 8 ++ extent 1 0 units
def units1 (c : Cmd) (s : State) (n : Nat) : List UnitScan := (s.scanUnits [⟨1, 0, n⟩]).map fun u => scanUnit pred1 c s u.2.1 u.1 u.2.2

/-- A paused scan with 3 KiB staged. -/
def pausedScan : State :=
  withC { cmdOf kW 0x31 (scanPay 0 1) with phase := .waiting .staging } { stored1 with scans := [⟨kW, pred1, 2, [0], true, 3, 0⟩] }

theorem witness_ScanReturnsSurvivors :
    (Work (scanning kW stored1) 0x31 (scanPay 0 1) ∧ scanHeadOk (scanPay 0 1) = true ∧ (scanPay 0 1).length = 32 ∧ outputMaxOk 2097152 = true ∧
      stored1.extentsOk 0 (extentsAt (scanPay 0 1) 16 1) = true ∧ stored1.scanUnits [⟨1, 0, 1⟩] = [(0, 1, 0)] ∧ stored1.placesOf 1 [0] = [] ∧
      (∀ v ∈ units1 (cmdOf kW 0x31 (scanPay 0 1)) stored1 1, v.bad = none) ∧
      ((units1 (cmdOf kW 0x31 (scanPay 0 1)) stored1 1).map (survivorBytes pred1)).sum ≤ 2097152 ∧ stored1.keysPresent = true ∧
      stored1.missing [segmentOf (unitKey 1 0)] = [] ∧
      (stored2.scanSieves [(0, 1, 3)] = [1] ∧ (withC (cmdOf kW 0x31 (scanPay 0 1)) (scanning kW stored2)).enginePlace kW [1] = true) ∧
      stagedBy 0x31 (scanPay 0 1) 2048 < 2048 ∧ stored1.media.delta = []) ∧
    Work (scanOf kW 0 stored1) 0x31 (scanPay 0 1) ∧
    (Work (scanOf kW 1 stored1) 0x31 (scanPay 0 1) ∧ 1 ≤ stagedBy 0x31 (scanPay 0 1) 1) ∧
    (Work (scanning kW stored1) 0x31 (scanPay 1 2) ∧ ∃ v ∈ units1 (cmdOf kW 0x31 (scanPay 1 2)) stored1 2, v.bad ≠ none) ∧
    (Work (scanning kW stored1) 0x31 (scanPay 0 2) ∧ bit 0 0 = false) ∧
    (pausedScan.scanOf kW = some ⟨kW, pred1, 2, [0], true, 3, 0⟩ ∧ (pausedScan.cmds.map (·.phase)) = [.waiting .staging]) :=
  ⟨⟨ctx_of (by decide) (by decide), by decide +kernel⟩, ctx_of (by decide) (by decide), ⟨ctx_of (by decide) (by decide), by decide +kernel⟩,
    ⟨ctx_of (by decide) (by decide), by decide +kernel⟩, ⟨ctx_of (by decide) (by decide), by decide⟩, by decide +kernel⟩

theorem test_scan_pauses : ((after (.scan kW) (withC (cmdOf kW 0x31 (scanPay 0 1)) (scanOf kW 1 stored1))).scans.map (·.paused)) = [true] ∧
    status (after (.scan kW) (withC (cmdOf kW 0x31 (scanPay 0 1)) (scanOf kW 0 stored1))) = some stQuota := by decide +kernel
theorem test_scan_poisoned : status (after (.scan kW) (withC (cmdOf kW 0x31 (scanPay 0 2)) (scanning kW stored1))) = some stMediaUncorrectable := by
  decide +kernel
theorem test_scanReadResume : ((after (.scanReadResume kW 2) pausedScan).cmds.map (·.phase)) = [.received] ∧
    ((after (.scanReadResume kW 2) pausedScan).scans.map fun q => (q.staged, q.drained, q.paused)) = [(1, 2, false)] := by decide +kernel

/-- One specification, COUNT. -/
def aggPay (units : Nat) : List Byte := [0#8, 1#8, 0#8, 1#8] ++ zeros 12 ++ extent 1 0 units ++ [1#8] ++ zeros 31

theorem witness_ScanAggregates :
    (Work (scanning kW stored1) 0x33 (aggPay 1) ∧ scanHeadOk (aggPay 1) = true ∧ (aggPay 1).length = 16 + 16 + 32 ∧ (aggAt (aggPay 1) 32).2 = true ∧
      (aggAt (aggPay 1) 32).1.bins ≤ 16384 ∧ stagedBy 0x33 (aggPay 1) 2048 < 2048) ∧
    (Work (scanOf kW 1 stored1) 0x33 (aggPay 1) ∧ 1 ≤ stagedBy 0x33 (aggPay 1) 1) ∧
    (Work (scanning kW stored1) 0x33 (aggPay 2) ∧ ∃ v ∈ units1 (cmdOf kW 0x33 (aggPay 2)) stored1 2, v.bad ≠ none) :=
  ⟨⟨ctx_of (by decide) (by decide), by decide +kernel⟩, ⟨ctx_of (by decide) (by decide), by decide +kernel⟩, ctx_of (by decide) (by decide),
    by decide +kernel⟩

theorem test_scanAggregate_count : status (after (.scanAggregate kW) (withC (cmdOf kW 0x33 (aggPay 1)) (scanning kW stored1))) = some stOk := by
  decide +kernel

/- Indexes and searches (O39 to O42) -/

/-- Table 9-4: L2, 16 subquantisers of 4 bits, degree 8, FP16 vectors of 16, mask 15, CAPACITY 1,024, SILT_MAX 4,096. -/
def ixPay (i mode : Nat) : List Byte :=
  leBytes 1 i ++ leBytes 1 mode ++ [1#8, 16#8, 4#8, 8#8, 0#8, 9#8, 16#8, 0#8, 15#8, 0#8] ++ leBytes 8 1024 ++ leBytes 4 4096 ++ leBytes 4 0 ++ zeros 8 ++
    leBytes 2 1 ++ [1#8, 1#8, 0#8, 0#8] ++ zeros 22
def ix : Index := indexOf (ixPay 63 1) 0
def node : Node := ⟨true, true, false, false, 7, 0, [], 0, 0, [], [], []⟩
/-- READY with a node that lives and one that is tombstoned. -/
def ready : Index := { ix with state := .ready, nodes := [(0, node), (1, { node with tomb := true })], siltList := [0] }
def withIx (x : Index) (s : State) : State := { s with indexes := [(63, x)] }

/-- It is nobody's, and the segment of the map that holds its silt directory stands on flash. -/
def siltAway : Index := { ready with state := .dormant, owner := 1024 }
def siltOut : State := { stored1 with media := { stored1.media with
  directory := [(segmentOf (unitKey (indexOwner 63) siltAway.siltAt), ⟨0, 9, 0, 1⟩)] } }
/-- Context n holds plot 0 as the one that runs there. -/
def residentOf (n : Nat) (cls : Cls) : Resident :=
  { ctx := n, cls := cls, sramKib := 256, sliceUs := 2000, leftUs := 0, remainder := false, owedUs := 0, since := 0, blocked := false, out := none }
def heldBy (n : Nat) (s : State) : State := { s with plots := { s.plots with list := [(0, { s.plot 0 with
  residents := [residentOf n .batch], running := some n })] } }

theorem witness_IndexCreatedAndDropped :
    (Work stored1 0x40 (ixPay 63 1) ∧ (ixPay 63 1).length = 64 ∧ ix.fieldsOk (ixPay 63 1) = true ∧ kvGet 63 stored1.indexes = none ∧
      ix.unitsFor ≤ stored1.unassigned ∧
      (modCmd kW (fun d => { d with stagedKib := 0 }) (withC (cmdOf kW 0x40 (ixPay 63 1)) stored1)).fits 0 (1024 * (ix.listMib + ix.hotCharge)) = true) ∧
    (Work (withIx { ready with state := .dormant, owner := 1024 } stored1) 0x40 (ixPay 63 2) ∧ bit ready.sessions 0 = true ∧
      (modCmd kW (fun d => { d with stagedKib := 0 }) (withC (cmdOf kW 0x40 (ixPay 63 2)) stored1)).fits 0 (1024 * (ready.listMib + ready.hotCharge)) = true ∧
      stored1.media.directory = [] ∧ stored1.placesOf (indexOwner 63) (((siltAway.loads 63).map fun u => (u.1, u.2.1)).map (·.2)) = []) ∧
    (let c := cmdOf kW 0x40 (ixPay 63 2)
     ReadyCtx (withC c (withIx siltAway siltOut)) kW 0x40 c ctx0 ∧ siltOut.missing [segmentOf (unitKey (indexOwner 63) siltAway.siltAt)] ≠ [] ∧ c.segsIn = []) ∧
    (Work (withIx { ready with state := .emptyDormant, owner := 1024 } stored1) 0x40 (ixPay 63 2) ∧
      (modCmd kW (fun d => { d with stagedKib := 0 }) (withC (cmdOf kW 0x40 (ixPay 63 2)) stored1)).fits 0 (1024 * ready.listMib) = true) ∧
    (Work (withIx { ready with state := .dormant, owner := 1024 } stored1) 0x46 (leBytes 1 63 ++ zeros 7)) ∧
    (Work (withIx ready stored1) 0x46 (leBytes 1 63 ++ zeros 7) ∧ ready.owner = 0 ∧ ready.ending = none ∧
      (withC (cmdOf kW 0x46 (leBytes 1 63 ++ zeros 7)) (withIx ready stored1)).indexNamed 63 0 = false) :=
  ⟨⟨ctx_of (by decide) (by decide), by decide +kernel⟩, ⟨ctx_of (by decide) (by decide), by decide +kernel⟩,
    ⟨ctx_of (by decide) (by decide), by decide +kernel⟩, ⟨ctx_of (by decide) (by decide), by decide +kernel⟩, ctx_of (by decide) (by decide),
    ctx_of (by decide) (by decide), by decide +kernel⟩

theorem test_indexCreate : ((after (.indexCreateNew kW) (withC (cmdOf kW 0x40 (ixPay 63 1)) stored1)).indexes.map fun x =>
    (x.1, x.2.capacity, x.2.landMib)) = [(63, 1024, 4)] := by decide +kernel

def buildOf (units : Nat) : List Byte := [63#8, 1#8, 0#8, 0#8] ++ leBytes 4 65536 ++ zeros 56 ++ extent 1 0 units
def buildPay : List Byte := buildOf 1
def insertPay : List Byte := [63#8] ++ zeros 3 ++ leBytes 4 1 ++ zeros 8 ++ zeros 48
def deletePay (id : Nat) : List Byte := [63#8] ++ zeros 3 ++ leBytes 4 1 ++ zeros 8 ++ leBytes 8 id
/-- Its silt list takes no more. -/
def brim : Index := { ready with siltMax := 1 }
def buildPred : Pred := ⟨1, ⟨1, 0, 0, 0, 65536, List.replicate 16 0⟩, [], 0, []⟩

theorem witness_IndexFilled : (stored1.writeProtected = false ∧ stored1.media.spareOut = false) ∧
    (State.Still { withC (cmdOf kW 0x41 buildPay) (withIx ix stored1) with indexes := kvDel 63 (withIx ix stored1).indexes } ∧ ix.state = .empty ∧
      stored1.media.directory = [] ∧ stored1.placesOf 1 [0] = []) ∧
    (Work (withIx ix stored1) 0x41 buildPay ∧ (withC (cmdOf kW 0x41 buildPay) (withIx ix stored1)).ownedIndex (cmdOf kW 0x41 buildPay) = some ix ∧
      buildPay.length = 80 ∧ stored1.extentsOk 0 (extentsAt buildPay 64 1) = true ∧ (stored1.scanUnits [⟨1, 0, 1⟩]).length * 1 ≤ ix.capacity ∧
      (modCmd kW (fun d => { d with stagedKib := 0 }) (withC (cmdOf kW 0x41 buildPay) (withIx ix stored1))).fits 0
        (1024 * (ix.listMib + ix.hotCharge - ix.landMib)) = true ∧
      (scanUnit buildPred (cmdOf kW 0x41 buildPay) stored1 1 0 0).bad = none ∧ stored1.keysPresent = true ∧ stored1.writeProtected = false ∧
      stored1.missing [segmentOf (unitKey 1 0)] = []) ∧
    (Work (withIx ix stored1) 0x41 (buildOf 2) ∧ (scanUnit buildPred (cmdOf kW 0x41 (buildOf 2)) stored1 1 0 1).bad ≠ none) ∧
    (Work (withIx ready stored1) 0x42 insertPay ∧ insertPay.length = 16 + 1 * ready.insertBytes ∧ (∀ e ∈ ready.entries insertPay 1, ready.vectorOk e.1 = true) ∧
      ((withC (cmdOf kW 0x42 insertPay) (withIx ready stored1)).freeSlots 63 ready 1) = [2] ∧ ready.siltList.length + 1 ≤ ready.siltMax) ∧
    (Work (withIx brim stored1) 0x42 insertPay ∧ brim.siltMax < brim.siltList.length + 1) ∧
    (let s := withC { cmdOf kW 0x42 insertPay with phase := .waiting (.silt 63) } (withIx ready stored1)
     (s.cmds.map (·.phase)) = [.waiting (.silt 63)] ∧ (s.freeSlots 63 ready 1).length = 1) ∧
    (Work (withIx ready stored1) 0x43 (deletePay 0) ∧ (deletePay 0).length = 16 + 8 ∧ (kvGet 0 ready.nodes).any (·.alive) = true) ∧
    (Work (withIx ready stored1) 0x43 (deletePay 1) ∧ (kvGet 1 ready.nodes).any (·.alive) = false) :=
  ⟨by decide +kernel, ⟨⟨by decide +kernel, by decide +kernel, by decide +kernel, by decide +kernel⟩, by decide +kernel⟩, ⟨ctx_of (by decide) (by decide), by decide +kernel⟩, ⟨ctx_of (by decide) (by decide), by decide +kernel⟩,
    ⟨ctx_of (by decide) (by decide), by decide +kernel⟩, ⟨ctx_of (by decide) (by decide), by decide⟩, by decide +kernel,
    ⟨ctx_of (by decide) (by decide), by decide⟩, ctx_of (by decide) (by decide), by decide⟩

theorem test_delete_sets_tombstone : ((after (.delete kW) (withC (cmdOf kW 0x43 (deletePay 0)) (withIx ready stored1))).indexes.map fun x =>
    x.2.nodes.map fun n => n.2.tomb) = [[true, true]] := by decide +kernel

/-- A pass over them, before its entries are linked and after it. -/
def passing : Index := { ready with pass := some ⟨[0], [1], 1, none⟩ }
def settling : Index := { ready with pass := some ⟨[0], [1], 1, some (1, 1)⟩ }

theorem witness_IndexSettles :
    (Work (withIx ready stored1) 0x45 (leBytes 1 63 ++ zeros 7) ∧ ready.state = .ready ∧ stored1.media.spareOut = false) ∧
    (withIx ready stored1).settleDue 63 ready = true ∧
    (passing.pass = some ⟨[0], [1], 1, none⟩ ∧ passing.ending = none ∧ passing.state = .ready ∧
      ((heldBy 1087 (withIx passing stored1)).plot 0).running = some (1024 + 63)) ∧
    (settling.pass = some ⟨[0], [1], 1, some (1, 1)⟩ ∧ 0 < (heldBy 1087 (withIx settling stored1)).plotsHeld (1024 + 63) ∧
      (heldBy 1087 (withIx settling stored1)).settles 63 = true) :=
  ⟨⟨ctx_of (by decide) (by decide), by decide⟩, by decide +kernel, by decide +kernel, by decide +kernel⟩

theorem test_settle_waits : ((after (.settle kW) (withC (cmdOf kW 0x45 (leBytes 1 63 ++ zeros 7)) (withIx ready stored1))).cmds.map (·.phase)) =
    [.waiting (.settled 63)] := by decide +kernel
theorem test_pass_links : ((after (.tileBoundary 0 1) (heldBy 1087 (withIx passing stored1))).indexes.map fun x =>
    (x.2.pass.map (·.links.isSome), x.2.nodes.map fun n => n.2.silt)) = [(some true, [false, true])] := by decide +kernel
theorem test_publish_removes : ((after (.settlingPublish 63) (heldBy 1087 (withIx settling stored1))).indexes.map fun x =>
    (x.2.pass, x.2.nodes.map fun n => n.2.removed)) = [(none, [false, true])] := by decide +kernel
theorem test_publish_needs_a_plot : ((after (.settlingPublish 63) (withIx settling stored1)).indexes.map fun x => x.2.pass) = [settling.pass] := by
  decide +kernel

def searchPay : List Byte := [63#8, 0#8, 0#8, 9#8] ++ leBytes 2 1024 ++ zeros 58 ++ zeros 32
/-- A walk that waits for nodes 0 and 1, with these matches. -/
def walk (ms : List Cand) : Search :=
  { key := kW, plot := 0, index := 63, k := 1, beamMax := 1, width := 1, hopMax := 1, rerank := 1, fallbackOff := false, fallbackMax := 0, query := zeros 32,
    qType := 9, filter := none, interactive := true, arrived := 0, phase := .walk, beam := [], matches_ := ms, seen := [], rounds := 1, awaiting := [0, 1], sweep := [], read := [], returned := [],
    cut := false, free := 0, estimate := 0, fell := false, skipped := false, sieves := [] }
/-- Plot 0 runs context 0, and this unit of it is at work. -/
def onPlot (unit : Option Nat) (s : State) : State := { s with plots := { s.plots with list := [(0, { s.plot 0 with
  running := some 0, flights := unit.toList.map fun u => ⟨kW, 0, 15, u, [], [], 0⟩ })] } }
def walking (ms : List Cand) : State := withC { cmdOf kW 0x44 searchPay with phase := .waiting (.search 63) } { withIx ready stored1 with searches := [walk ms] }

/-- The entry node's unit lies on flash, outside the hot region. -/
def nodeOut : State := { withIx ready stored1 with media := { stored1.media with map := stored1.media.map ++ [(unitKey (indexOwner 63) 0, .media place3)] } }

theorem witness_SearchWalks :
    (Work (withIx ready stored1) 0x44 searchPay ∧ searchPay.length = 64 + 32 ∧ fieldAt searchPay 24 40 = 0 ∧ ready.siltMax ≤ 1048576 ∧ ready.width = 1 ∧
      ready.hopMax = 1 ∧ kvGet ready.entry ready.nodes = some node ∧ ready.badSlot ready.entry = false ∧
      ((seat 0 1 (withC (cmdOf kW 0x44 searchPay) (withIx ready stored1))).searchPlot 0 256 63).isSome = true) ∧
    (Work nodeOut 0x44 searchPay ∧ ready.entry ∉ ready.hot ∧ nodeOut.entry (indexOwner 63) (ready.entry / 16) = some (.media place3) ∧
      ((seat 0 1 (withC (cmdOf kW 0x44 searchPay) nodeOut)).searchPlot 0 256 63).isSome = true) ∧
    ((walking []).searches.find? (fun r => decide (r.key = kW)) = some (walk []) ∧ (walk []).awaits 0 = true ∧ (∃ j ∈ (walk []).awaiting, j ≠ 0) ∧
      ready.badSlot 0 = false ∧ (walking []).hasRead (walk []) 0 true false = true ∧
      ((walking []).searches.all fun r => decide (r.returned = [])) = true ∧ ((onPlot none (walking [])).plot 0).running = some 0 ∧ ((onPlot none (walking [])).plot 0).flights = [] ∧
      (onPlot none (walking [])).stalled kW = false ∧ ((onPlot (some 4) (walking [])).plot 0).flights.map (·.unit) = [4]) ∧
    ((walk [⟨0, 0, true, 0, 0⟩]).arrived + 95000 ≤ (walking [⟨0, 0, true, 0, 0⟩]).now ∧ (walk []).sweep = [] ∧
      (((walk [⟨0, 0, true, 0, 0⟩]).matches_.take 1).map (·.id)) = [0] ∧ { walk [] with sweep := [(0, [0])] }.sweep ≠ []) ∧
    (((walk []).matches_.take 1).map (·.id) = [] ∧
      (walking []).resultsFit { cmdOf kW 0x44 searchPay with phase := .waiting (.search 63) } (kib4 (24 * 1 + 56)) = true) :=
  ⟨⟨ctx_of (by decide) (by decide), by decide +kernel⟩, ⟨ctx_of (by decide) (by decide), by decide +kernel⟩, by decide +kernel, by decide +kernel,
    by decide +kernel⟩

theorem test_searchData_kept : ((after (.searchDataReturn kW 0 true false) (onPlot (some 4) (walking []))).searches.map fun q =>
    (q.awaiting, q.returned)) = [([0, 1], [(0, true, false)])] ∧
    ((after (.searchDataReturn kW 0 true false) (onPlot none (walking []))).searches.map fun q => (q.awaiting, q.returned)) = [([1], [])] := by
  decide +kernel
theorem test_searchDeadline_reranks : ((after (.searchDeadline kW) (walking [⟨0, 0, true, 0, 0⟩])).searches.map fun q => (q.phase, q.cut)) =
    [(.rerank, true)] := by decide +kernel

/- Models and generation (O43, O44) -/

/-- A file with the CRC-32C of its bytes, the field zeroed, at this offset. -/
def sealed (at_ : Nat) (raw : List Byte) : List Byte := patch raw at_ (leBytes 4 (crc32c raw))

/-- A declaration of a 16 × 16 BF16 tile of this source (Table 12-6). -/
def bfTile (source : Nat) : List Byte := leBytes 2 16 ++ leBytes 2 16 ++ leBytes 1 7 ++ zeros 1 ++ leBytes 1 source ++ zeros 25
/-- A program of one sequence whose only instruction is END, and one tile (Table 12-5). -/
def imageOf (source chains : Nat) (chain : List Byte) : List Byte :=
  sealed 44 (leBytes 4 0x4B5A5450 ++ leBytes 1 1 ++ leBytes 1 chains ++ leBytes 2 1 ++ leBytes 2 1 ++ zeros 6 ++ leBytes 4 64 ++ zeros 4 ++ leBytes 4 128 ++
    zeros 4 ++ leBytes 4 96 ++ zeros 4 ++ leBytes 4 (128 + chain.length) ++ zeros 4 ++ zeros 16 ++ bfTile source ++ leBytes 4 112 ++ leBytes 4 1 ++ zeros 8 ++
    leBytes 4 0x58 ++ zeros 12 ++ chain)
def progImage : List Byte := imageOf 0 0 []

theorem test_program_passes : progImage.length = 128 ∧ imageBad progImage none = none := by decide +kernel
/-- IMAGE_CRC covers every byte: the spec's reason for a wrong one is 0x01. -/
theorem test_program_crc : imageBad (patch progImage 120 [1#8]) none = some (0xFFFF, 0, 1) := by decide +kernel

/-- A model of this kind: one layer of one tile whose data stand last, vocabulary 8, context 64, KV_LAYER 65,536, two input tokens and BF16
outputs of 16; the program stands for all its entries (Tables 13-1 and 13-2). -/
def modelOf (kind : Nat) (data : List Byte) : List Byte :=
  let e := leBytes 8 224 ++ leBytes 4 128 ++ zeros 4
  sealed 64 (leBytes 4 0x4B5A4D44 ++ leBytes 1 1 ++ leBytes 1 kind ++ leBytes 2 1 ++ leBytes 4 1 ++ leBytes 4 8 ++ leBytes 4 64 ++ leBytes 4 65536 ++
    leBytes 2 2 ++ zeros 6 ++ leBytes 1 7 ++ zeros 1 ++ leBytes 2 16 ++ leBytes 4 128 ++ leBytes 4 160 ++ leBytes 4 176 ++ leBytes 8 352 ++
    leBytes 8 (352 + data.length) ++ zeros 4 ++ zeros 60 ++ (bfTile 5 ++ []) ++ (zeros 4 ++ leBytes 4 1 ++ leBytes 8 512) ++ (e ++ e ++ e) ++ progImage ++ data)
def generator : List Byte := modelOf 1 []
def embedder : List Byte := modelOf 2 []

set_option maxRecDepth 20000 in
theorem test_models_pass : imgOk generator = true ∧ imgOk embedder = true ∧ imgOk (modelOf 3 []) = false := by decide +kernel

def shelf (image : List Byte) (state : ModelState) : Model :=
  { state := state, image := image, units := 1, count := 2, loader := 0, sessions := 15, early := false, homeKib := 2048, windowKib := 2048, windowLayers := 2,
    group := 0, members := 1, placement := 0, firstLayer := 0, lastLayer := 0, shards := 1, key := 0, wrapped := [], ending := none, lost := [] }
/-- The image lies in unit 0 of volume 1, and slot 63 holds a model. -/
def shelved (m : Option Model) : State := { stored1 with
  media := { stored1.media with slots := [(0, { slot0 with data := embedder })] }
  models := m.toList.map fun m => (63, m) }
def loadModelPay (mode flags group : Nat) : List Byte :=
  leBytes 1 mode ++ leBytes 1 63 ++ leBytes 1 flags ++ leBytes 1 15 ++ leBytes 4 group ++ leBytes 1 1 ++ zeros 7 ++
    (if mode = 1 then extent 1 0 1 else zeros 16) ++ zeros 32
def whole : Placing := ⟨0, 0, 0, 1⟩
/-- The slot's charges set aside, as for the load of it anew. -/
def freed (s : State) : State := { s with models := kvMod 63 (fun m => { m with homeKib := 0, windowKib := 0 }) s.models }
/-- Whether a placement of Table 13-3 fits, and what an import asks of the module. -/
def importable (c : Cmd) (s : State) : Bool :=
  let e := extentAt c.payload 16
  let image := (s.extentData e.1).take (fieldAt (s.extentData e.1) 56 8)
  s.extentsOk 0 [e] && !s.keeper.writeProtect && !s.media.spareOut && decide (s.placesOf 1 [0] = []) && decide (s.badUnits c 1 [0] = []) && imgOk image &&
    decide (image = embedder) && decide (ceilDiv image.length 65536 ≤ s.unassigned) && s.fits 0 (whole.kib image s.landing.windowLayers)

/-- A MODEL_LOAD waits for the end of placement. -/
def placing : State := withC { cmdOf kW 0x50 (loadModelPay 2 0 0) with phase := .waiting (.placed 63) } (shelved (some (shelf embedder .placing)))
def unloadPay (handle slot flags : Nat) : List Byte := leBytes 4 handle ++ leBytes 1 slot ++ leBytes 1 flags ++ zeros 2

set_option maxRecDepth 20000 in
theorem witness_ModelPlaced : base.keysPresent = true ∧
    (Work (shelved none) 0x50 (loadModelPay 1 1 0) ∧ modelLoadOk (loadModelPay 1 1 0) = true ∧
      importable (cmdOf kW 0x50 (loadModelPay 1 1 0)) (shelved none) = true) ∧
    (let s := shelved (some (shelf embedder .unavailable))
     Work s 0x50 (loadModelPay 1 0 7) ∧ modelLoadOk (loadModelPay 1 0 7) = true ∧ importable (cmdOf kW 0x50 (loadModelPay 1 0 7)) s = true ∧
       imgSame embedder embedder = true ∧ (freed s).placing embedder ((freed s).headroomKib 0) 1 = some whole) ∧
    (Work (shelved (some (shelf embedder .stored))) 0x50 (loadModelPay 2 0 0) ∧ modelLoadOk (loadModelPay 2 0 0) = true ∧
      (shelved (some (shelf embedder .stored))).fits 0 (whole.kib embedder 2) = true) ∧
    (Work (shelved none) 0x50 (loadModelPay 3 0 0) ∧ modelLoadOk (loadModelPay 3 0 0) = true) ∧
    (kvGet 63 placing.models = some (shelf embedder .placing) ∧ (placing.cmds.map (·.phase)) = [.waiting (.placed 63)] ∧ placing.refetchingModel 63 = false ∧
      stored1.missing [segmentOf (unitKey 1 0)] = [] ∧ placing.unloadAhead 63 0 = false) ∧
    (let s := shelved (some (shelf embedder .placed))
     kvSorted s.streams = true ∧ Work s 0x51 (unloadPay (63 + 128) 0 1) ∧ s.modelBusy 63 0 = false ∧ (shelf embedder .placed).handle 63 = 63 + 128 ∧ 63 = (63 + 128) % 64) ∧
    (let s := shelved (some (shelf embedder .stored))
     Work s 0x51 (unloadPay 0xFFFFFFFF 63 1) ∧ fieldAt (unloadPay 0xFFFFFFFF 63 1) 4 1 = 63) :=
  ⟨by decide, ⟨ctx_of (by decide) (by decide), by decide +kernel⟩, ⟨ctx_of (by decide) (by decide), by decide +kernel⟩,
    ⟨ctx_of (by decide) (by decide), by decide +kernel⟩, ⟨ctx_of (by decide) (by decide), by decide⟩, by decide +kernel,
    ⟨rfl, ctx_of (by decide) (by decide), by decide +kernel⟩, ⟨ctx_of (by decide) (by decide), by decide⟩⟩

theorem test_placement_ends : ((after (.modelPlacementEnd 63) placing).models.map fun m => (m.1, m.2.state, m.2.homeKib, m.2.windowKib)) =
    [(63, .placed, 2048, 0)] ∧ status (after (.modelPlacementEnd 63) placing) = some stOk := by decide +kernel
theorem test_modelUnload_drops : ((after (.modelUnload kW) (withC (cmdOf kW 0x51 (unloadPay (63 + 128) 0 1))
    (shelved (some (shelf embedder .placed))))).models.map fun m => m.2.state) = [.empty] := by decide +kernel

def embedPay : List Byte := leBytes 4 (63 + 128) ++ leBytes 4 1 ++ zeros 8 ++ leBytes 4 7 ++ leBytes 4 0
def scanEmbedPay : List Byte := [0#8, 1#8, 0#8, 0#8] ++ leBytes 4 2097152 ++ leBytes 4 (63 + 128) ++ zeros 4 ++ extent 1 0 1
/-- A prompt of one inline token and one from block 0 of unit 0, of at most 4 positions. -/
def openGenPay : List Byte :=
  leBytes 4 (63 + 128) ++ leBytes 4 4 ++ leBytes 2 1 ++ leBytes 1 1 ++ zeros 53 ++ leBytes 4 7 ++ (leBytes 1 1 ++ zeros 3 ++ zeros 8 ++ leBytes 2 1 ++ leBytes 2 1)
def stepPay (pos : Nat) : List Byte := leBytes 2 1023 ++ zeros 2 ++ leBytes 4 pos ++ zeros 8
def generating (data : List Byte) (cmd : Cmd) : State := withC cmd { stored1 with
  media := { stored1.media with slots := [(0, { slot0 with data := data })] }
  models := [(63, shelf generator .placed)] }
def stream (last : Nat) : Stream :=
  { ctx := 0, cls := .interactive, admitted := false, opened := true, slot := 63, maxContext := 8, prompt := [7], tokens := [3], pos := some last, replies := [(1, 5, 0)],
    ended := 0, stops := [], sample := false, temperature := 0, topP := 0, topK := 0, seed := 0, kvKib := 64, lastOut := 0 }
def streaming (cmd : Cmd) : State := { generating [] cmd with streams := [(1023, stream 4)] }
def stepping : Cmd := { cmdOf kW 0x54 (stepPay 5) with phase := .waiting (.token 1023) }

/-- Plot 0 runs context 0, and the one tile of the model in slot 63 stands there, or it does not. -/
def onTile (stands : Bool) (s : State) : State := { s with plots := { s.plots with list := [(0, { s.plot 0 with
  residents := [residentOf 0 .interactive], running := some 0, tiles := if stands then [⟨0, modelHandle 63, 0, 512, true, false⟩] else [] })] } }
/-- How a step of these commands finds its tiles: none where no plot runs it. -/
def tilesOf (s : State) (m : Model) (keys : List CmdKey) : Option (Option Nat) :=
  (s.stepOf 63 m false keys).bind fun x => (s.runsOn x.ctx).map fun p => s.firstMissing x m p

theorem stepReady_of {s : State} {m : Model} {keys : List CmdKey} {missing : Option Nat} (h : tilesOf s m keys = some missing) :
    StepReady s 63 m false keys missing := by
  simp only [tilesOf, Option.bind_eq_some_iff, Option.map_eq_some_iff] at h
  obtain ⟨x, hx, p, hp, hm⟩ := h
  exact ⟨x, p, hx, hp, hm⟩

set_option maxRecDepth 20000 in
theorem witness_EmbedAndScanEmbed :
    (let s := shelved (some (shelf embedder .placed))
     let c := cmdOf kW 0x52 embedPay
     Work s 0x52 embedPay ∧ embedPay.length = 16 + 4 * 1 * imgInput embedder ∧ (∀ i < 2, fieldAt embedPay (16 + 4 * i) 4 < imgVocab embedder) ∧
       imgKind embedder = 2 ∧ imgOutFormat embedder = 7 ∧ bit (shelf embedder .placed).sessions 0 = true ∧ s.unloadAhead 63 0 = false ∧
       s.resultsFit c (kib4 (32 + 32 * trainLen 32)) = true) ∧
    (let s := withC (cmdOf kW 0x52 embedPay) (onTile true (shelved (some (shelf embedder .placed))))
     StepReady (seat 0 1 s) 63 (shelf embedder .placed) false [kW] none ∧ s.streams_ 63 = false ∧ s.keysPresent = true) ∧
    StepReady (seat 0 1 (withC (cmdOf kW 0x52 embedPay) (onTile false (shelved (some (shelf embedder .placed)))))) 63 (shelf embedder .placed) false [kW]
      (some 0) ∧
    (let s := { shelved (some (shelf embedder .placed)) with scans := [⟨kW, pred1, 2048, [0], false, 0, 0⟩] }
     let c := cmdOf kW 0x32 scanEmbedPay
     Work s 0x32 scanEmbedPay ∧ scanHeadOk scanEmbedPay = true ∧ s.extentsOk 0 (extentsAt scanEmbedPay 16 1) = true ∧ s.scanUnits [⟨1, 0, 1⟩] = [(0, 1, 0)] ∧
       pred1.target = 1 ∧ s.placesOf 1 [0] = [] ∧ (∀ v ∈ units1 c s 1, v.bad = none) ∧
       ((units1 c s 1).flatMap (unitSurvivors pred1)).length * (16 + roundUp (imgOutBytes embedder) 8) ≤ 2097152 ∧
       s.stagedKib c ⟨kW, pred1, 2048, [0], false, 0, 0⟩ < 2048 ∧ s.streams_ 63 = false ∧ s.media.directory = [] ∧
       tilesOf (seat 0 1 (withC c (onTile true s))) (shelf embedder .placed) [kW] = some none) :=
  ⟨⟨ctx_of (by decide) (by decide), by decide +kernel⟩, ⟨stepReady_of (by decide +kernel), by decide +kernel⟩, stepReady_of (by decide +kernel),
    ctx_of (by decide) (by decide), by decide +kernel⟩

set_option maxRecDepth 20000 in
theorem witness_ModelWork :
    (let c := cmdOf kW 0x53 openGenPay
     let s := generating (leBytes 4 0 ++ leBytes 4 6) c
     ReadyCtx s kW 0x53 c ctx0 ∧ genFieldsOk openGenPay generator = true ∧ s.refOk 0 (slice openGenPay 68 16) = true ∧ 1 + 1 < fieldAt openGenPay 4 4 ∧
       s.placesOf 1 [0] = [] ∧ s.badUnits c 1 [0] = [] ∧ fieldAt ((s.unitData 1 0).getD (zeros 65536)) 4 4 < imgVocab generator ∧
       kvFree s.streams 1024 = some 0 ∧ s.fits 0 (kvPagesKib (shelf generator .placed) 4) = true) ∧
    (let c := cmdOf kW 0x54 (stepPay 5)
     ReadyCtx (streaming c) kW 0x54 c ctx0 ∧ (streaming c).streamOf 1023 0 = some (stream 4) ∧ fieldAt (stepPay 5) 4 4 = 4 + 1) ∧
    (let c := cmdOf kW 0x54 (stepPay 1)
     ReadyCtx (streaming c) kW 0x54 c ctx0 ∧ (stream 4).replies.find? (fun r => decide (r.1 = 1)) = some (1, 5, 0)) ∧
    ((stepping, 1023) ∈ (streaming stepping).tokenWaits 0x54 63 ∧ kvGet 1023 (streaming stepping).streams = some (stream 4) ∧
      (stream 4).cls = .interactive ∧ kvGet 63 (streaming stepping).models = some (shelf generator .placed) ∧ (streaming stepping).streams_ 63 = false ∧
      (streaming stepping).servedKeys 63 (shelf generator .placed) false = [kW]) ∧
    StepReady (onTile true (streaming stepping)) 63 (shelf generator .placed) false [kW] none ∧
    (let c := cmdOf kW 0x55 []
     ReadyCtx (streaming c) kW 0x55 c ctx0 ∧ kvSorted (streaming c).streams = true) ∧
    (let c := cmdOf kW 0x55 (leBytes 2 1023 ++ zeros 6)
     ReadyCtx (streaming c) kW 0x55 c ctx0 ∧ (streaming c).streamOf 1023 0 = some (stream 4)) :=
  ⟨⟨ctx_of (by decide) (by decide), by decide +kernel⟩, ⟨ctx_of (by decide) (by decide), by decide⟩, ⟨ctx_of (by decide) (by decide), by decide⟩,
    by decide +kernel, stepReady_of (by decide +kernel), ⟨ctx_of (by decide) (by decide), by decide⟩, ⟨ctx_of (by decide) (by decide), by decide⟩⟩

theorem test_genOpen_waits : ((after (.genOpen kW) (generating (leBytes 4 0 ++ leBytes 4 6) (cmdOf kW 0x53 openGenPay))).streams.map fun t =>
    (t.1, t.2.prompt)) = [(0, [6, 7])] := by decide +kernel
/-- The step's tile stands ready: its token is made; or it does not: the step stalls on it, a late arrival. -/
theorem test_step_needs_tiles : status (after (.generationStep 63 false) (onTile true (streaming stepping))) = some stOk ∧
    ((after (.generationStep 63 false) (onTile false (streaming stepping))).cmds.map (·.lt)) = [true] := by decide +kernel
theorem test_genStep_repeats : status (after (.genStep kW) (streaming (cmdOf kW 0x54 (stepPay 1)))) = some stOk := by decide +kernel

/- Programs, training, checkpoints (O45 to O48) -/

/-- W of the entry: 16 × 32 SC8 with BF16 scales, persistent; its gradient tile; and input rows of 16 BF16. -/
def wTile : TileDecl := tileDecl (leBytes 2 16 ++ leBytes 2 32 ++ leBytes 1 5 ++ leBytes 1 8 ++ leBytes 1 4 ++ zeros 25)
def inTile (rows : Nat) : TileDecl := tileDecl (leBytes 2 rows ++ leBytes 2 16 ++ leBytes 1 7 ++ zeros 1 ++ leBytes 1 2 ++ zeros 25)
def entry1 : Param := paramOf (zeros 2 ++ leBytes 2 1 ++ zeros 8 ++ leBytes 2 0xFFFF ++ zeros 2)
def trainer (rows : Nat) : Program :=
  { image := progImage, model := none, tiles := [wTile, wTile, inTile rows], qdescs := [], chains := [], params := [entry1], seqs := [(112, 1)],
    chainBase := 0, homes := [], frozen := [(0, [0])], kib := 8 }
def ctx1 : Ctx := { ctx0 with stepNo := some 7, stepSize := 0x3F800000 }
/-- Context 0 holds a program under handle 15, at step 7. -/
def training (g : Program) : State := { stored1 with contexts := [(0, ctx1)], programs := [(15, g)], slotAddr := 0 }
def Trains (s : State) (op : Nat) (payload : List Byte) : Prop := ReadyCtx (withC (cmdOf kW op payload) s) kW op (cmdOf kW op payload) ctx1

def updatePay : List Byte := leBytes 1 15 ++ zeros 1 ++ zeros 2 ++ leBytes 2 1 ++ zeros 2 ++ leBytes 4 7 ++ zeros 4
def freezePay (action first : Nat) : List Byte := leBytes 1 15 ++ leBytes 1 action ++ zeros 2 ++ leBytes 4 first ++ leBytes 4 1 ++ zeros 4

theorem witness_StepAndFreeze :
    (Trains (training (trainer 16)) 0x61 (leBytes 4 1 ++ leBytes 4 0x7F7FFFFF) ∧ 0x7F7FFFFF < 0x7F800000) ∧
    Trains (training (trainer 16)) 0x61 (leBytes 4 1 ++ leBytes 4 0x80000000) ∧
    ((training (trainer 16)).program 0 15 = some (trainer 16) ∧ Trains (training (trainer 16)) 0x62 updatePay ∧ 0 < (trainer 16).params.length ∧
      0 + 1 ≤ (trainer 16).params.length ∧ ctx1.stepNo = some (fieldAt updatePay 8 4) ∧ ctx1.strict = false) ∧
    (Trains (training (trainer 16)) 0x63 (freezePay 1 15) ∧ freezeRange (trainer 16) (freezePay 1 15) = some (0, [15]) ∧
      fieldAt (freezePay 1 15) 1 1 = 1) ∧
    (Trains (training (trainer 16)) 0x63 (freezePay 2 0) ∧ freezeRange (trainer 16) (freezePay 2 0) = some (0, [0]) ∧ fieldAt (freezePay 2 0) 1 1 = 2) :=
  ⟨⟨ctx_of (by decide) (by decide), by decide⟩, ctx_of (by decide) (by decide), ⟨by decide +kernel, ctx_of (by decide +kernel) (by decide +kernel), by decide +kernel⟩,
    ⟨ctx_of (by decide) (by decide), by decide +kernel⟩, ctx_of (by decide) (by decide), by decide +kernel⟩

theorem test_setStep : ((after (.setStep kW) (withC (cmdOf kW 0x61 (leBytes 4 9 ++ leBytes 4 0x80000000)) (training (trainer 16)))).contexts.map fun x =>
    (x.2.stepNo, x.2.stepSize)) = [(some 9, 0x80000000)] := by decide +kernel
theorem test_freeze_adds : ((after (.freezeBlocks kW) (withC (cmdOf kW 0x63 (freezePay 1 15)) (training (trainer 16)))).programs.map fun g =>
    g.2.frozen) = [[(0, [0, 15])]] := by decide +kernel

/-- One extent of one unit, records of 4,096 bytes, one micro-batch, the update after it. -/
def trainPay : List Byte :=
  leBytes 1 15 ++ [1#8, 255#8, 1#8] ++ leBytes 4 7 ++ leBytes 4 4096 ++ leBytes 4 1 ++ zeros 2 ++ zeros 14 ++ extent 1 0 1
def trainPred : Pred := ⟨1, ⟨1, 0, 0, 0, 4096, List.replicate 16 0⟩, [], 0, []⟩
def trainRecs (rows : Nat) : TrainScan := trainScan trainPred (training (trainer rows)) [⟨1, 0, 1⟩] false 0 0 [(0, 1, 0)] (some rows)

theorem witness_TrainStepBegins :
    (Trains (training (trainer 16)) 0x60 trainPay ∧ (training (trainer 16)).keysPresent = true ∧
      (training (trainer 16)).program 0 (fieldAt trainPay 0 1) = some (trainer 16) ∧ trainPay.length = 32 + 16 * 1 ∧ allZero (slice trainPay 18 14) = true ∧
      (training (trainer 16)).extentsOk 0 (extentsAt trainPay 32 1) = true ∧ fieldAt trainPay 2 1 = 0xFF ∧ (trainer 16).trainable 4096 = true ∧
      (training (trainer 16)).runBad ctx1 0 15 7 (trainer 16) = none ∧
      (training (trainer 16)).fits 0 (kib4 (4 * inputBytes (trainer 16).tiles + (trainer 16).outBytes)) = true ∧
      (trainRecs 16).units = [(1, 0)] ∧ (training (trainer 16)).placesOf 1 [0] = [] ∧ (takeMicro 16 (trainRecs 16).recs).isSome = true ∧
      (training (trainer 16)).media.directory = []) ∧
    (takeMicro 32 (trainRecs 32).recs = none ∧ (trainRecs 32).stop = none ∧ (trainRecs 32).bad = []) :=
  ⟨⟨ctx_of (by decide) (by decide), by decide +kernel⟩, by decide +kernel⟩

theorem test_trainStep_starts_run : ((after (.trainStep kW) (withC (cmdOf kW 0x60 trainPay) (training (trainer 16)))).trains.map fun t =>
    (t.used, t.micro)) = [(16, 0)] ∧ ((after (.trainStep kW) (withC (cmdOf kW 0x60 trainPay) (training (trainer 16)))).runs.map (·.handle)) = [15] := by
  decide +kernel
theorem test_trainStep_too_few : status (after (.trainStep kW) (withC (cmdOf kW 0x60 trainPay) (training (trainer 32)))) = some stOk := by
  decide +kernel

def checkpointPay (mode slot : Nat) : List Byte :=
  leBytes 1 mode ++ leBytes 1 15 ++ leBytes 1 slot ++ zeros 13 ++ (if mode = 3 then zeros 16 else extent 1 0 1)
def saved : List Byte := checkpointImage (trainer 16) ctx1
/-- The saved image lies in unit 0. -/
def savedIn : State := { training (trainer 16) with media := { stored1.media with slots := [(0, { slot0 with data := saved })] } }
/-- A program of the model in slot 63. -/
def exporter : Program := { trainer 16 with model := some (63 + 128) }
def exporting : State := { training exporter with models := [(63, shelf embedder .placed)] }

set_option maxRecDepth 20000 in
theorem witness_Checkpoints :
    (Trains (training (trainer 16)) 0x64 (checkpointPay 1 0) ∧ checkpointOk (checkpointPay 1 0) = true ∧
      (training (trainer 16)).extentsOk 0 [extentAt (checkpointPay 1 0) 16] = true ∧ stored1.media.directory = [] ∧ stored1.media.spareOut = false ∧
      ceilDiv saved.length 65536 = 1) ∧
    (Trains savedIn 0x64 (checkpointPay 2 0) ∧ checkpointOk (checkpointPay 2 0) = true ∧ savedIn.placesOf 1 [0] = [] ∧
      savedIn.badUnits (cmdOf kW 0x64 (checkpointPay 2 0)) 1 [0] = [] ∧ savedIn.unitData 1 0 = some saved ∧ checkpointFits (trainer 16) saved = true) ∧
    (Trains exporting 0x64 (checkpointPay 3 62) ∧ checkpointOk (checkpointPay 3 62) = true ∧ exporting.modelNow exporter = .good embedder ∧
      exporting.unloadAhead 62 0 = false ∧ exporting.modelIn 62 = none ∧ exportedImage exporter embedder = embedder) :=
  ⟨⟨ctx_of (by decide) (by decide), by decide +kernel⟩, ⟨ctx_of (by decide) (by decide), by decide +kernel⟩,
    ctx_of (by decide) (by decide), by decide +kernel⟩

set_option maxRecDepth 20000 in
theorem test_checkpoint_restores_frozen : ((after (.checkpointRestore kW) (withC (cmdOf kW 0x64 (checkpointPay 2 0)) { savedIn with
    programs := [(15, { trainer 16 with frozen := [] })] })).programs.map fun g => g.2.frozen) = [[(0, [0])]] := by decide +kernel

def programPay (image : List Byte) : List Byte := leBytes 1 15 ++ zeros 3 ++ leBytes 4 0xFFFFFFFF ++ zeros 8 ++ image
/-- A run of the trainer's program with its 512 input bytes. -/
def runPay : List Byte := leBytes 1 15 ++ zeros 3 ++ leBytes 4 7 ++ leBytes 4 512 ++ zeros 20 ++ zeros 512
def hintPay (kind lead duration n : Nat) : List Byte := leBytes 1 kind ++ zeros 1 ++ leBytes 2 lead ++ leBytes 2 duration ++ leBytes 2 n ++ zeros 8

set_option maxRecDepth 20000 in
theorem witness_ProgramsAndHints :
    (Work base 0x70 (programPay progImage) ∧ imageBad ((programPay progImage).drop 16) none = none ∧
      (endProgram 0 15 base).chainBase (parseProgram progImage).chains.length = some 0 ∧ (parseProgram progImage).fitsSram ctx0.sramKib = true ∧
      adamOk [parseProgram progImage] = true ∧ base.fits 0 (homesKib (parseProgram progImage).tiles) = true) ∧
    (Trains (training (trainer 16)) 0x71 runPay ∧ fieldAt runPay 8 4 = inputBytes (trainer 16).tiles ∧ runPay.length = 32 + 512 ∧
      (training (trainer 16)).runBad ctx1 0 15 7 (trainer 16) = none ∧
      (withC (cmdOf kW 0x71 runPay) (training (trainer 16))).fits 0 (kib4 (32 + (trainer 16).outBytes + 32 * trainLen (32 + (trainer 16).outBytes))) = true) ∧
    (Work base 0x72 (hintPay 1 50 60000 256) ∧ fieldAt (hintPay 1 50 60000 256) 6 2 = 256) ∧ Work base 0x72 (hintPay 3 0 1 0) ∧
    Work base 0x72 (hintPay 4 51 0 0) :=
  ⟨⟨ctx_of (by decide) (by decide), by decide +kernel⟩, ⟨ctx_of ⟨rfl, rfl, rfl, by decide +kernel, rfl, rfl, rfl⟩ (by decide +kernel), by decide +kernel⟩,
    ⟨ctx_of (by decide) (by decide), by decide⟩, ctx_of (by decide) (by decide), ctx_of (by decide) (by decide)⟩

theorem test_programLoad_crc : answer (after (.programLoad kW) (withC (cmdOf kW 0x70 (programPay (patch progImage 120 [1#8]))) base)) =
    [0xFF#8, 0xFF#8, 0#8, 0#8, 0#8, 0#8, 1#8] ++ zeros 9 := by decide +kernel
theorem test_hint_ends : ((after (.phaseHint kW) (withC (cmdOf kW 0x72 (hintPay 1 50 60000 256)) base)).power.hints.map fun h => h.ends - h.starts) =
    [1500000000] := by decide +kernel

/- Lines, links and lanes (O49 to O52) -/

def edge : Line := .landing 5 63 31 15 63
def faulty (data : LineData) : State := { base with landing := { base.landing with faults := [⟨edge, data, none, none, [], [], false⟩] } }
/-- The highest page of stack 5. -/
def retirePay : List Byte := [1#8, 5#8, 63#8, 31#8, 15#8, 0#8, 0#8, 0#8]
def restorePay (target n : Nat) : List Byte := leBytes 1 target ++ zeros 1 ++ leBytes 2 n ++ zeros 4
def spent : State := { base with
  plots := { base.plots with list := [(271, { base.plot 271 with role := .retired, restores := 1 })] }
  links := { base.links with lanes := [(50, { base.lane 50 with role := .channelFault }), (51, { base.lane 51 with role := .failed, restores := 1 })] } }

/-- The range left the pool at its receipt. -/
def reserved (s : State) : State := { s with landing := { s.landing with retiring := [⟨0, retirePages retirePay, 1⟩] } }
/-- The line is poisoned. -/
def poisoned1 : State := { base with landing := { base.landing with faults := [⟨edge, .only, none, none, [], [], true⟩] } }

theorem witness_LinesAndRetirement : (∃ a b, (base.pieces 0 0 131072)[0]? = some a ∧ (base.pieces 0 0 131072)[1]? = some b) ∧ base.keeper.stage = 5 ∧ edge.passes (zeros 128) (edge.check (zeros 128)) = true ∧
    edge.passes (1#8 :: zeros 127) (edge.check (zeros 128)) = false ∧
    ((faulty .flashBacked).landing.faults.find? (fun f => decide (f.line = edge)) = some ⟨edge, .flashBacked, none, none, [], [], false⟩ ∧
      2 ∈ (LineFault.mk edge .flashBacked none none [] [] false).sources ∧ (faulty .flashBacked).landing.retiring = []) ∧
    (faulty .only).landing.faults = [⟨edge, .only, none, none, [], [], false⟩] ∧ poisoned1.landing.faults.map (·.poisoned) = [true] ∧
    base.landing.lastLeak + 25000000 * base.landing.leakS ≤ base.now ∧
    (Work base 0x90 retirePay ∧ retireOk retirePay = true ∧ (retirePages retirePay) = [196607] ∧ base.landing.retiring = []) ∧
    (Work (reserved base) 0x90 retirePay ∧ (reserved base).landing.retiring = [⟨(cmdOf kW 0x90 retirePay).order, retirePages retirePay, 1⟩]) ∧
    (Work (reserved (faulty .flashBacked)) 0x90 retirePay ∧ edge.page = some 196607) ∧
    (Work spent 0x91 (restorePay 1 271) ∧ (spent.plot 271).role = .retired ∧ (spent.plot 271).restores < 2) ∧
    (Work spent 0x91 (restorePay 2 51) ∧ (spent.lane 51).role = .failed ∧ (spent.lane 51).restores < 2) ∧
    (Work spent 0x91 (restorePay 2 50) ∧ (spent.lane 50).role = .channelFault) :=
  ⟨⟨_, _, rfl, rfl⟩, rfl, by decide +kernel, by decide +kernel, by decide +kernel, rfl, rfl, by decide, ⟨ctx_of (by decide) (by decide), by decide +kernel⟩,
    ⟨ctx_of (by decide) (by decide), by decide +kernel⟩, ⟨ctx_of (by decide) (by decide), by decide⟩,
    ⟨ctx_of (by decide) (by decide), by decide +kernel⟩, ⟨ctx_of (by decide) (by decide), by decide +kernel⟩, ctx_of (by decide) (by decide), by decide +kernel⟩

theorem test_retireRange : ((after (.retireRange kW) (withC (cmdOf kW 0x90 retirePay) (reserved base))).landing.retired) = [196607] ∧
    ((after (.retireRange kW) (withC (cmdOf kW 0x90 retirePay) (reserved (faulty .flashBacked)))).cmds.map (·.phase)) = [.waiting .lines] := by
  decide +kernel
theorem test_poison_moves : ((after (.retireRange kW) (withC (cmdOf kW 0x90 retirePay) (reserved poisoned1))).landing.faults.map (·.poisoned)) =
    [true] ∧ (after (.refetchComplete edge .overwritten) poisoned1).landing.faults = [] := by decide +kernel
theorem test_restoreSparePlot : answer (after (.restoreSparePlot kW) (withC (cmdOf kW 0x91 (restorePay 1 271)) spent)) =
    [2#8, 0#8, 0#8, 0#8, 0#8, 0#8, 0#8, 0#8] := by decide +kernel

/-- A lane that is up to the peer with serial number 9. -/
def upLane (s : State) (l pos : Nat) : Lane := { s.lane l with role := .active, state := .up, position := some pos, peerSerial := 9 }
def crossUp : Crossing :=
  { state := .up, serial := 9, enabled := true, acceptCopy := true, width := 1, standby := 0, peerStep := 0, peerCause := 0, peerDomain := 3, txSeq := 0,
    rxSeq := 4095, unacked := [⟨7, 0, [], 0, 0⟩], queue := [], credits := [0, 0, 0], freedSeen := [0, 0, 0], freed := [0, 0, 0], transfers := [],
    slotsSeen := [], slotsFree := [], lastValid := 0, lastSent := 0, lastEvent := 0, nakked := false, turn := 0 }
def trained : State := { stored1 with links := { stored1.links with lanes := [(50, upLane stored1 50 47)] } }
/-- Crossing 47 to it is up; context 0's program under handle 15 has a chain whose second member is the peer's. -/
def chained : Program := { trainer 16 with chains := [⟨[0, 0xFF], true⟩] }
def linked : State := { trained with
  links := { trained.links with crossings := [(47, crossUp)] }, programs := [(15, chained)], power := { trained.power with cause := 1 } }
/-- SERIAL 0 is this module's here. -/
def setupPay (action options : Nat) : List Byte := leBytes 8 9 ++ leBytes 1 action ++ leBytes 1 options ++ zeros 6
def chainPay : List Byte := leBytes 1 15 ++ zeros 3 ++ leBytes 4 65535 ++ zeros 8 ++ leBytes 8 0 ++ leBytes 8 9
def peerPay : List Byte := leBytes 8 9 ++ extent 1 0 1 ++ leBytes 1 1 ++ zeros 23

theorem witness_CrossingCommands :
    (Work linked 0x80 (setupPay 1 1) ∧ crossingOk (setupPay 1 1) = true ∧ linked.crossingTo 9 = some 47 ∧ linked.crossing 47 = some crossUp) ∧
    (Work trained 0x80 (setupPay 1 0) ∧ crossingOk (setupPay 1 0) = true ∧ trained.crossingTo 9 = none ∧ trained.lanesTo 9 = [50] ∧
      kvFree trained.links.crossings 48 = some 0) ∧
    (Work linked 0x80 (setupPay 2 0) ∧ crossingOk (setupPay 2 0) = true ∧ kvSorted linked.links.crossings = true ∧ linked.links.bindings = [] ∧
      linked.links.copies = [] ∧ linked.models = []) ∧
    (Work linked 0x80 (setupPay 3 0) ∧ crossingOk (setupPay 3 0) = true) ∧ (Work linked 0x83 [255#8, 0#8, 0#8, 0#8]) ∧
    (Work linked 0x81 chainPay ∧ linked.program 0 15 = some chained ∧ chained.chains[0]? = some ⟨[0, 0xFF], true⟩ ∧ chainPay.length = 16 + 8 * 2 ∧
      (∀ m ∈ [0, 0xFF].zip [0, 9], m.1 ≠ 0xFF ↔ m.2 = linked.serial) ∧ linked.chainRanges = [(0, 1)] ∧
      (Binding.mk 0 15 0 [0, 9] [] 2 []).peers 0 = [9] ∧ (linked.upTo 9).isSome = true) ∧
    (Work linked 0x82 peerPay ∧ linked.keysPresent = true ∧ peerPay.length = 48 ∧ linked.extentsOk 0 [extentAt peerPay 8] = true ∧
      linked.upTo 9 = some 47 ∧ linked.placesOf 1 [0] = [] ∧ linked.media.directory = [] ∧ linked.badUnits (cmdOf kW 0x82 peerPay) 1 [0] = []) :=
  ⟨⟨ctx_of (by decide) (by decide), by decide +kernel⟩, ⟨ctx_of (by decide) (by decide), by decide +kernel⟩,
    ⟨ctx_of (by decide) (by decide), by decide +kernel⟩, ⟨ctx_of (by decide) (by decide), by decide⟩, ctx_of (by decide) (by decide),
    ⟨ctx_of (by decide) (by decide), by decide +kernel⟩, ctx_of (by decide) (by decide), by decide +kernel⟩

theorem test_chainSetup : ((after (.chainSetup kW) (withC (cmdOf kW 0x81 chainPay) linked)).links.bindings.map fun b => (b.1, b.2.members)) =
    [(65535, [0, 9])] := by decide +kernel
theorem test_setDomain : (after (.setDomain kW) (withC (cmdOf kW 0x83 [255#8, 0#8, 0#8, 0#8]) linked)).links.domain = 255 := by decide +kernel

/-- A flit of this kind with FSEQ 4,095 and no other bit set. -/
def flitOf (kind : Nat) : List Byte :=
  let body := leBytes 2 (16 * 4095 + kind) ++ zeros 250
  body ++ leBytes 4 (crc32c body)
def boundChain : Binding := ⟨0, 15, 0, [0, 9], [], 2, []⟩
def bound : State := { linked with links := { linked.links with bindings := [(65535, boundChain)] } }

theorem witness_LinkWords : (linked.crossing 47 = some crossUp ∧ crossUp.state = .up) ∧
    ((flitOf 1).length = 256 ∧ fieldAt (flitOf 1) 252 4 = crc32c ((flitOf 1).take 252) ∧ bits (fieldAt (flitOf 1) 0 2) 15 4 = crossUp.rxSeq ∧
      bit (fieldAt (flitOf 1) 2 2) 14 = false ∧ bits (fieldAt (flitOf 1) 0 2) 3 0 = 1) ∧
    (fieldAt (flitOf 3) 252 4 = crc32c ((flitOf 3).take 252) ∧ bits (fieldAt (flitOf 3) 0 2) 3 0 = 3) ∧
    ((2 ^ 31 - 1) % 2 ^ 32 + 2 ^ 32 - 0) % 2 ^ 32 < 2 ^ 31 ∧ (crossUp.queue = [] ∧ ∀ u ∈ crossUp.unacked, u.resent + 1 < linked.links.retryLimit) ∧
    ¬ (crossUp.peerStep = 7 % 4 ∧ crossUp.peerCause = 15 % 16) ∧ (127 % 256 + 256 - (kvGet 0 crossUp.slotsSeen).getD 0) % 256 < 128 ∧
    (kvGet 65535 bound.links.bindings = some boundChain ∧ kvSorted bound.links.bindings = true ∧ bound.runs = [] ∧ bound.crossing 47 = some crossUp) ∧
    (crossUp.unacked = [⟨7, 0, [], 0, 0⟩] ∧ 0 + 50 ≤ linked.now) ∧ (linked.power.cause ≠ 0 ∧ linked.links.lastThrottle + 25000 ≤ linked.now) := by
  decide +kernel

theorem test_ack_drops : ((after (.ack 47 7) linked).crossing 47).map (·.unacked.length) = some 0 ∧
    ((after (.ack 47 6) linked).crossing 47).map (·.unacked.length) = some 1 := by decide +kernel
theorem test_credit_adds : ((after (.credit 47 2 (2 ^ 31 - 1)) linked).crossing 47).map (·.credits) = some [0, 0, 2 ^ 31 - 1] := by decide +kernel

def trainingLane : State := { base with links := { base.links with lanes := [(50, { base.lane 50 with state := .training, fails := 2 })] } }

theorem witness_LanesAndLoss :
    (base.laneAt 47 = some 50 ∧ (base.lane 50).state ≠ .up ∧ (base.lane 50).role ≠ .channelFault ∧ base.crossingTo 9 = none) ∧
    ((trainingLane.lane 50).position.isSome = true ∧ (trainingLane.lane 50).state = .training ∧ 2 ≤ (trainingLane.lane 50).fails ∧ trainingLane.groupSpare (50 / 13) = some 51 ∧ 51 ≠ 50) ∧
    ((trained.lane 50).position.isSome = true ∧ (trained.lane 50).state = .up ∧ trained.crossingTo (trained.lane 50).peerSerial = none) ∧
    (linked.crossing 47 = some crossUp ∧ crossUp.state = .up ∧ linked.links.bindings = [] ∧ linked.links.copies = [] ∧ linked.models = []) ∧
    crossUp.lastValid + 100 ≤ linked.now := by decide +kernel

theorem test_laneFail_fails_over : (((after (.laneFail 50 false) trainingLane).lane 51).role, ((after (.laneFail 50 false) trainingLane).lane 51).position) =
    (.spareInUse, some 47) := by decide +kernel
theorem test_down_counts : (after (.down 47) linked).links.downs = 1 := by decide +kernel

/- Tile instructions (O53, O54) -/

/-- A scratch tile of 16 × 16 FP32, for every operand. -/
def fpTile : TileDecl := tileDecl (leBytes 2 16 ++ leBytes 2 16 ++ leBytes 1 8 ++ zeros 27)
def seqAt (plot : Nat) : Seq := ⟨0, false, .none, none, false, none, [], plot⟩
/-- A program of two sequences whose first instruction is this word, and a chain of both. -/
def wordProgram (w : Nat) : Program :=
  { image := leBytes 16 w ++ leBytes 16 0x58, model := none, tiles := [fpTile, wTile, inTile 16], qdescs := [], chains := [⟨[0, 1], false⟩], params := [entry1],
    seqs := [(0, 2), (0, 2)], chainBase := 0, homes := [], frozen := [], kib := 12 }
/-- A run of it: sequence 0 on plot 0, sequence 1 on plot 271. -/
def wordRun : Run :=
  { key := kW, ctx := 0, handle := 15, seqs := [seqAt 0, seqAt 271], tokens := [(255, 3)], check := 1, skips := 0, nonfinite := 0, issued := 0, tiles := [],
    eta := 0x3F800000, frozen := [], sent := [], landed := [], again := [], steps := [], late := false }
/-- Plot 0 runs its context, and the program's tiles stand ready there. -/
def running (w : Nat) (r : Run) : State := withC { cmdOf kW 0x71 [] with phase := .waiting (.run 15) } { base with
  programs := [(15, wordProgram w)], runs := [r], plots := { base.plots with list := [(0, { base.plot 0 with
    running := some 0, tiles := (List.range 3).map fun i => ⟨0, 15, i, 1024, true, false⟩ })] } }
def execAt (w seq : Nat) (r : Run) : Exec := ⟨wordProgram w, r, seq, [], 0⟩

/-- An instruction may issue at the first word of a sequence. -/
abbrev Issuable (s : State) (w seq : Nat) (r : Run) (kind : TKind) : Prop := kindOf (execAt w seq r).word = some kind ∧ s.runOf kW = some r ∧
  s.execOf r seq = some (execAt w seq r) ∧ seq < r.seqs.length ∧ (execAt w seq r).me.ended = false ∧ s.stalled kW = false ∧
  s.issuePlot r.ctx (execAt w seq r).me.plot = some 0 ∧ s.yields 0 r.ctx = false ∧ s.hazard 0 ((execAt w seq r).onPlot 0) (execAt w seq r).word = false ∧
  s.notReady 0 ((execAt w seq r).onPlot 0) (execAt w seq r).word = none

theorem issues_of {s : State} {w seq : Nat} {r : Run} {kind : TKind} (h : Issuable s w seq r kind) : Issues s kind kW seq (execAt w seq r) 0 :=
  ⟨⟨r, h.2.1, h.2.2.1, h.2.2.2.1⟩, h.2.2.2.2.1, h.1, h.2.2.2.2.2.1, h.2.2.2.2.2.2.1, h.2.2.2.2.2.2.2.1, h.2.2.2.2.2.2.2.2.1, h.2.2.2.2.2.2.2.2.2⟩

/-- The operation fields of every computing instruction (Tables 12-1 and 12-4). -/
def computing : List (Nat × TKind) :=
  [(0x01, .mm), (0x11, .mmq), (0x21, .close), (0x12, .lane .add), (0x22, .lane .sub), (0x32, .lane .mul), (0x42, .lane .fma), (0x52, .lane .min),
    (0x62, .lane .max), (0x72, .lane .lt), (0x82, .lane .select), (0x102, .fn .exp), (0x112, .fn .recip), (0x122, .fn .rsqrt), (0x132, .fn .tanh),
    (0x142, .fn .sigmoid), (0x152, .fn .gelu), (0x162, .fn .softplus)] ++
  [(0x182, .dfn .tanh), (0x192, .dfn .sigmoid), (0x1A2, .dfn .gelu), (0x1B2, .dfn .softplus), (0x202, .rowSum), (0x212, .rowMax), (0x222, .colSum),
    (0x232, .colMax), (0x302, .maskUpper), (0x03, .convert), (0x04, .copy), (0x14, .fill), (0x05, .table), (0x15, .score), (0x25, .topk), (0x06, .checkWrite),
    (0x16, .compare), (0x07, .update .step), (0x17, .update .sign), (0x27, .update .signDecay), (0x37, .update .adam)]

theorem computing_issuable : ∀ x ∈ computing, Issuable (running x.1 wordRun) x.1 0 wordRun x.2 := by decide +kernel

theorem witness_TileComputes :
    (∀ x ∈ computing, Issues (running x.1 wordRun) x.2 kW 0 (execAt x.1 0 wordRun) 0) ∧
    (let out := (execAt 0x12 0 wordRun).ref (wf 0x12 2 23 12)
     (execAt 0x12 0 wordRun).prog.tiles[out.home]? = some out.decl ∧ out.decl.source = 0 ∧ out.decl.format = 8 ∧ out.decl.shapeOk = true ∧ out.r0 = 0 ∧
       out.c0 = 0 ∧ out.rows = out.decl.rows ∧ out.cols = out.decl.cols ∧ 15 < out.rows) :=
  ⟨fun x h => issues_of (computing_issuable x h), by decide +kernel⟩

theorem test_computing_covers : computing.length = 39 := by decide
/-- The worked MM word of chapter 12. -/
theorem test_mm_word : let w := 0x00001001 + 0x00010000 * 2 ^ 32 + 0x00FFF01C * 2 ^ 64 + 0x2F2C7FFF * 2 ^ 96
    kindOf w = some .mm ∧ (mmProblem w).a = 0 ∧ (mmProblem w).b = 16 ∧ (mmProblem w).out = 28 ∧ (mmProblem w).m = 128 ∧ (mmProblem w).n = 192 ∧
      (mmProblem w).k = 768 ∧ mInterval w = 128 := by decide +kernel
/-- 0 + 0 is 0 in FP32. -/
theorem test_add_zero : ((execAt 0x12 0 wordRun).laneOp .add 0x12).code ((execAt 0x12 0 wordRun).ref 0) 15 15 = 0 := by decide +kernel

def openSec : Run := { wordRun with seqs := [{ seqAt 0 with section_ := some ⟨1023, none, none⟩ }, seqAt 271] }
/-- Sequence 1 has ended. -/
def lastOne : Run := { wordRun with seqs := [seqAt 0, { seqAt 271 with ended := true }] }
/-- A group of one hand-on block and one more pair is open, and block 1 of the chain has landed at sequence 1. -/
def group1 : Group := ⟨16, 16, List.replicate 256 (0, 0), 0⟩
def landed1 : HandOn := ⟨0, 0, 0, true, false, 0, 0, List.replicate 256 (0, 0)⟩
def grouped : Run := { wordRun with seqs := [{ seqAt 0 with groups := [(0, group1)] }, { seqAt 0 with groups := [(0, group1)] }], landed := [(0, 1, landed1)] }
def toFar : Run := { wordRun with seqs := [{ seqAt 0 with groups := [(0, group1)] }, seqAt 271] }
def fullWindow : State := { running 0x24 toFar with plots := { base.plots with list :=
  [(0, (running 0x24 toFar).plot 0), (271, { base.plot 271 with window := [some landed1, some landed1] })] } }
def sentBlock (crc : Nat) : HandOn := { landed1 with crc := crc, pairs := [(0, 0)] }
def sending (crc : Nat) : State := running 0x24 { wordRun with sent := [(0, 1, sentBlock crc)] }
/-- SIGNAL and WAIT of token 255, with VALUE 3 and 65,535; a section of 1,023 µs; HALT_IF of bits 1 and 0. -/
def waitWord (v : Nat) : Nat := 0x18 + (255 + 256 * v) * 2 ^ 32

set_option maxRecDepth 20000 in
theorem witness_TileSequencing :
    Issues (running (0x08 + 255 * 2 ^ 32) wordRun) .signal kW 0 (execAt (0x08 + 255 * 2 ^ 32) 0 wordRun) 0 ∧
    (Issues (running (waitWord 3) wordRun) .wait kW 0 (execAt (waitWord 3) 0 wordRun) 0 ∧
      wf (waitWord 3) 1 23 8 ≤ (kvGet (wf (waitWord 3) 1 7 0) wordRun.tokens).getD 0) ∧
    (Issues (running (waitWord 65535) wordRun) .wait kW 0 (execAt (waitWord 65535) 0 wordRun) 0 ∧
      (kvGet 255 wordRun.tokens).getD 0 < wf (waitWord 65535) 1 23 8) ∧
    Issues (running (0x28 + 1023 * 2 ^ 32) wordRun) .sectionOpen kW 0 (execAt (0x28 + 1023 * 2 ^ 32) 0 wordRun) 0 ∧
    Issues (running 0x38 openSec) .sectionClose kW 0 (execAt 0x38 0 openSec) 0 ∧
    (Issues (running (0x48 + 2 * 2 ^ 32) wordRun) .haltIf kW 0 (execAt (0x48 + 2 * 2 ^ 32) 0 wordRun) 0 ∧ Nat.land wordRun.check 2 = 0) ∧
    (Issues (running (0x48 + 2 ^ 32) wordRun) .haltIf kW 0 (execAt (0x48 + 2 ^ 32) 0 wordRun) 0 ∧ Nat.land wordRun.check 1 ≠ 0) ∧
    (Issues (running 0x58 wordRun) .endSeq kW 0 (execAt 0x58 0 wordRun) 0 ∧ (wordRun.seq 1).ended = false) ∧
    (Issues (running 0x58 lastOne) .endSeq kW 0 (execAt 0x58 0 lastOne) 0 ∧ (lastOne.seq 1).ended = true ∧
      ((findCmd kW (running 0x58 lastOne)).map (·.opcode)) = some 0x71) ∧
    (Issues (running 0x24 toFar) .chainSend kW 0 (execAt 0x24 0 toFar) 0 ∧ chainPlace (wordProgram 0x24) 0 0x24 = some (⟨[0, 1], false⟩, 0) ∧
      kvGet (movGroup 0x24) (execAt 0x24 0 toFar).me.groups = some group1 ∧ none ∈ ((running 0x24 toFar).plot 271).window) ∧
    (Issues fullWindow .chainSend kW 0 (execAt 0x24 0 toFar) 0 ∧ none ∉ (fullWindow.plot 271).window) ∧
    (Issues (running 0x34 grouped) .chainRecv kW 1 (execAt 0x34 1 grouped) 0 ∧ chainPlace (wordProgram 0x34) 1 0x34 = some (⟨[0, 1], false⟩, 1) ∧
      grouped.landed.find? (fun y => decide (y.1 = (running 0x34 grouped).chainNo (execAt 0x34 1 grouped) (wf 0x34 1 11 0)) && decide (y.2.1 = 1) &&
        decide (y.2.2.block = group1.moved / 8184)) = some (0, 1, landed1)) ∧
    ((sending 0).runOf kW = some { wordRun with sent := [(0, 1, sentBlock 0)] } ∧ (sentBlock (sentBlock 0).check).crc = (sentBlock (sentBlock 0).check).check ∧ wordRun.again = []) :=
  ⟨issues_of (by decide +kernel), ⟨issues_of (by decide +kernel), by decide +kernel⟩, ⟨issues_of (by decide +kernel), by decide +kernel⟩,
    issues_of (by decide +kernel), issues_of (by decide +kernel), ⟨issues_of (by decide +kernel), by decide +kernel⟩,
    ⟨issues_of (by decide +kernel), by decide +kernel⟩, ⟨issues_of (by decide +kernel), by decide +kernel⟩,
    ⟨issues_of (by decide +kernel), by decide +kernel⟩, ⟨issues_of (by decide +kernel), by decide +kernel⟩,
    ⟨issues_of (by decide +kernel), by decide +kernel⟩, ⟨issues_of (by decide +kernel), by decide +kernel⟩, by decide +kernel, by decide +kernel, rfl⟩

theorem test_signal_raises : (after (.signal kW 0) (running (0x08 + 255 * 2 ^ 32) wordRun)).runs.map (·.tokens) = [[(255, 4)]] := by decide +kernel

/-- Both sequences wait for a token that nobody signals (R389). -/
theorem test_wait_deadlock : status (after (.wait kW 0) (running (waitWord 65535) wordRun)) = some stInvalid := by decide +kernel
theorem test_haltIf_ends_run : status (after (.haltIf kW 0) (running (0x48 + 2 ^ 32) wordRun)) = some stOk := by decide +kernel
theorem test_chainSend_takes_slot : ((after (.chainSend kW 0) (running 0x24 toFar)).plot 271).window.map (·.isSome) = [true, false] := by decide +kernel

/- Plots, ferries and media (O55 to O57) -/

/-- Plot 271, serving number 255, of a module with a run of context 0, batch, on it, and one of context 1 outside, whose image waits. -/
def plotWith (f : Plot → Plot) : State :=
  let runOf := fun k : CmdKey => { wordRun with key := k, ctx := k.ctx, seqs := [seqAt 271, seqAt 271] }
  let cmd := fun k : CmdKey => { cmdOf k 0x71 [] with phase := .waiting (.run 15) }
  { base with
    contexts := [(0, { ctx0 with cls := .batch }), (1, ctx0)], cmds := [cmd kW, cmd ⟨0, 1, .work, 1⟩]
    programs := [(15, wordProgram 0x58), (31, wordProgram 0x58)], runs := [runOf kW, runOf ⟨0, 1, .work, 1⟩]
    plots := { base.plots with
      list := [(271, f { base.plot 271 with role := .active, logical := some 255 })], images := [⟨1, 271, 0, false, none, true, 10, false, 0, []⟩] } }
def resident0 : Resident := residentOf 0 .batch
def sliced : State := plotWith fun q => { q with residents := [resident0], running := some 0 }
def swapping (ctx : Nat) (out : Bool) : State := plotWith fun q => { q with residents := [resident0], swap := some ⟨ctx, out, none, 2 ^ 40 - 100, 271⟩ }
def hung : State := plotWith fun q => { q with flights := [⟨kW, 0, 15, 2, [], [], 2 ^ 40 - 1000⟩] }
def vacant (spares : Bool) : State := { base with plots := { base.plots with list :=
  (255, { base.plot 255 with role := .retired, logical := none, vacating := some 255 }) ::
    (if spares then [] else (List.range' 256 16).map (fun p => (p, { base.plot p with role := .retired }))) } }
/-- The section on plot 0 is open since the count of reset. -/
def overrunning : State := running 0x12 { wordRun with seqs := [{ seqAt 0 with section_ := some ⟨1023, some 0, none⟩ }, seqAt 271] }
/-- The program's tile 2 is on its way to plot 0, and sequence 0 waits for it. -/
def tardy : State :=
  let s := running 0x12 { wordRun with seqs := [{ seqAt 0 with fresh := true, block := .tile 2 }, seqAt 271] }
  { s with plots := { s.plots with list := [(0, { s.plot 0 with tiles := [⟨0, 15, 2, 1024, false, false⟩] })] } }
/-- A line that its ferry reads is being refetched. -/
def tardyLine : State := { tardy with landing := { tardy.landing with
  faults := [⟨.landing 0 0 0 0 0, .flashBacked, none, none, [], [⟨.program 0 15, 0, ⟨0, 2⟩⟩], false⟩] } }
/-- A schedule of the model in slot 63 that leads by two, whose last late arrival was of this layer; a step of it misses its first tile. -/
def ferrying (layer : Option Nat) : State :=
  let s := onTile false (streaming stepping)
  { s with landing := { s.landing with schedules := [⟨.model 63, 2, 1, 3, 4, 60, layer, [], 0⟩] } }

set_option maxRecDepth 20000 in
theorem witness_PlotsAndFerries : (base.plot 271).running = none ∧
    ((sliced.plot 271).running = some 0 ∧ sliced.overrunOn 271 = none ∧ 0 ∉ (sliced.plot 271).claims ∧ ∀ i ∈ sliced.plots.images, i.saved = true) ∧
    overrunning.overrunOn 0 = some (0, kW) ∧
    ((sliced.plot 271).residents.find? (fun y => decide (y.ctx = 0)) = some resident0 ∧ resident0.cls = .batch ∧ resident0.leftUs = 0 ∧
      sliced.sectionOn 271 0 = false ∧ (sliced.plot 271).flights = [] ∧ (sliced.waiting 271 []).isSome = true) ∧
    (((swapping 0 true).plot 271).swap = some ⟨0, true, none, 2 ^ 40 - 100, 271⟩ ∧
      ((swapping 0 true).plot 271).residents.find? (fun y => decide (y.ctx = 0)) = some resident0) ∧
    (((swapping 1 false).plot 271).swap = some ⟨1, false, none, 2 ^ 40 - 100, 271⟩ ∧ (kvGet 1 (swapping 1 false).contexts).isSome = true ∧
      ((swapping 1 false).plots.images.find? (fun i => decide (i.ctx = 1) && decide (i.plot = 271) && i.saved)).isSome = true ∧
      ((swapping 1 false).plot 271).room 256 = true ∧ ((swapping 1 false).plot 271).parked = false ∧ (swapping 1 false).hasWork 1 = true ∧
      (swapping 1 false).plotsHeld 1 = 0) ∧
    ((∃ f ∈ (hung.plot 271).flights, f.at_ + hangCounts (hung.clockOf 271) ≤ hung.now) ∧ (hung.plot 271).role = .active ∧
      (hung.plot 271).residents = [] ∧ (hung.plot 271).moverAt + 2500 ≤ hung.now) ∧
    (((vacant true).plot 255).vacating = some 255 ∧ ((vacant true).plot 255).role = .retired ∧ (vacant true).sparePlot = some 256) ∧
    (((vacant false).plot 255).vacating = some 255 ∧ (vacant false).sparePlot = none) ∧
    (tardy.refetchFor (.program 0 15) 0 ⟨0, 2⟩ = false ∧ ((tardy.plot 0).tiles.map (·.tile)) = [2] ∧ (SchedOwner.program 0 15).of 0 = true ∧
      tardyLine.refetchFor (.program 0 15) 0 ⟨0, 2⟩ = true) ∧
    (tilesOf (ferrying none) (shelf generator .placed) [kW] = some (some 0) ∧ (stepping, 1023) ∈ (ferrying none).tokenWaits 0x54 63 ∧
      (ferrying none).servedKeys 63 (shelf generator .placed) false = [kW] ∧ imgLayerOf generator 0 = some 0 ∧ (imgLayer generator 0).1 = 0 ∧
      ((ferrying none).landing.schedules.map (·.layer)) = [none] ∧ ((ferrying (some 0)).landing.schedules.map (·.layer)) = [some 0]) ∧
    60 * 25000000 ≤ (ferrying none).now := by decide +kernel

/-- 28,000 cycles at 700 MHz are 1,000 counts of 40 ns (R337). -/
theorem test_hang_counts : hangCounts 0 = 1000 := by decide
theorem test_slice_marks_out : ((after (.sliceEnd 271) sliced).plot 271).swap = some ⟨0, true, none, 2 ^ 40, 271⟩ := by decide +kernel
theorem test_overrun_tears_down : (kvGet 0 (after (.tileBoundary 0 1) overrunning).contexts).map (·.torn) = some (some stBoundOverrun) := by
  decide +kernel
theorem test_swapIn_joins : ((after (.swapInEnd 271) (swapping 1 false)).plot 271).residents.map (·.ctx) = [0, 1] := by decide +kernel
theorem test_tileReady : ((after (.tileReady (.program 0 15) ⟨0, 2⟩ 0) tardy).plot 0).tiles.map (·.ready) = [true] ∧
    ((after (.tileReady (.program 0 15) ⟨0, 2⟩ 0) tardyLine).plot 0).tiles.map (·.ready) = [false] := by decide +kernel
theorem test_late_once_a_layer : (after (.generationStep 63 false) (ferrying none)).landing.lateArrivals = 1 ∧
    (after (.generationStep 63 false) (ferrying (some 0))).landing.lateArrivals = 0 := by decide +kernel

/-- Pages that decode: with CORR_HIGH reached, and with a codeword that does not. -/
def goodPage : PageResult := ⟨0, 0, false, 0, false, false, 0, false⟩
def highPage : PageResult := { goodPage with maxCorr := 160 }
def badPage : PageResult := { goodPage with cwBad := 15, retry := 7, soft := true }
def oddPage : PageResult := { goodPage with mismatch := true }
/-- The four pages of a member, of which one is like this (Table 5-3). -/
def pagesOf (r : PageResult) : List PageResult := r :: [1, 2, 3].map fun p => { goodPage with plane := p }
/-- Unit 3 lies on page 0 of block set 8, on sieve 1, and the lanes of all sieves are up; a READ waits for it. -/
def fetch1 : PageReq := ⟨place3, .interactive, .cmd kD, 0xFFFF, 75, 7, 160, .queued, []⟩
def fetching (op : DieOp) : State :=
  let d := (stored2.dieAt place3).getD 0
  withC { cmdOf kD 0x20 (desc 1 48 1) with phase := .waiting (.pages [place3]) } { stored2 with media := { stored2.media with
    dies := [(d, { stored2.die d with op := op })], reads := [fetch1], sieves := List.replicate 16 lanesUp } }
/-- A MODEL_LOAD waits for it, whose stream checks are armed. -/
def armedRead (r : PageReq) : State :=
  let s := fetching .idle
  { s with cmds := s.cmds.map (fun c => { c with opcode := 0x50 }), media := { s.media with reads := [r] } }
/-- A search waits for node 0, which stands there. -/
def searchRead : State := { nodeOut with
  searches := [walk []], media := { nodeOut.media with
    reads := [⟨place3, .interactive, .search kW 0, 1, 75, 7, 160, .queued, []⟩], sieves := List.replicate 16 lanesUp } }
/-- Word line 767 of band 8 is programmed but on these sieves; the die of sieve 1 programs it. -/
def writing (done : List Nat) : State :=
  let d := (base.rowDie 0 1).getD 0
  { base with media := { base.media with
    bands := [(8, { Band.fresh with state := .opened, sieves := List.range 16, filled := 767 })]
    lines := [⟨8, 767, .host, [], [], [], done⟩], dies := [(d, { base.die d with op := .program, line := some (8, 767) })] } }
def erasing (done : List Nat) (doomed : Bool) : State :=
  let d := (base.rowDie 0 1).getD 0
  { base with media := { base.media with
    bands := [(8, { Band.fresh with state := .erasing, sieves := List.range 16, erased := done, doomed := doomed })]
    dies := [(d, { base.die d with op := .erase, erasing := some 8 })] } }
def allBut1 : List Nat := 0 :: (List.range' 2 14)
def suspended (op : DieOp) : State := { base with media := { base.media with dies := [(0, { base.die 0 with op := op })] } }
/-- A journal stripe of one entry, programmed but on these sieves. -/
def entry0 : JEntry := .map 1 0 (some (.media place3)) (some (.buffer 0)) (some 0)
def stripe (done : List Nat) : WordLine := ⟨8, 0, .journal, [], [], [⟨1, 255, 0, 0, .journal [entry0], 0⟩], done⟩
def logging (done : List Nat) : State :=
  let s := writing []
  { stored1 with media := { stored1.media with
    bands := [(8, { Band.fresh with state := .opened, kind := .journal, sieves := List.range 16 })], lines := [stripe done]
    dies := s.media.dies.map fun d => (d.1, { d.2 with line := some (8, 0) }) } }
def journaled : State := { stored1 with media := { stored1.media with
  sieves := List.replicate 16 lanesUp, journaled := 2 ^ 26
  journal := [.map 1 0 (some (.media place3)) (some (.buffer 0)) (some 0)] } }
/-- Band 8 holds unit 3; band 9 has been erased 151 times more. A tilling pass has read these places. -/
def worn (done : List Nat) : State := { stored2 with keeper := { stored2.keeper with count := 2 ^ 43 }, media := { stored2.media with
  sieves := List.replicate 16 { lanesUp with testOk := false }, tilled := done, tillDays := 2
  bands := [(8, { Band.fresh with state := .closed, sieves := List.range 16 }), (9, { Band.fresh with state := .closed, sieves := List.range 16, erases := 151 })] } }

/-- All places of the pass but place 3. -/
def others : List Nat := ((worn []).tillPlaces.map (·.num)).filter fun n => decide (n ≠ place3.num)
/-- Sieve 1 is lost. -/
def wornAway : State := { worn [] with media := { (worn []).media with sieves := setAt (worn []).media.sieves 1 fun v => { v with lost := true } } }
/-- A checkpoint whose directory has been written. -/
def checked : State := { journaled with media := { journaled.media with check := some ⟨[], 0, [], [], true, [], some place3, none, 0⟩ } }

/-- The die of sieve 1 in row 0. -/
def die1 : Nat := (base.rowDie 0 1).getD 0

theorem witness_MediaEngine_reads :
    ((fetching .idle).turn die1 = some fetch1 ∧ (fetching .idle).dieAt place3 = some die1 ∧
      (fetching .idle).serve place3 .interactive 75 = .direct none ∧ fetch1.reports (pagesOf goodPage) = true ∧
      ((fetching .idle).cmds.map (·.needs place3)) = [true]) ∧
    ((fetching .program).turn die1 = some fetch1 ∧ (fetching .program).serve place3 .interactive 75 = .direct (some .programSuspended)) ∧
    (((pagesOf goodPage).map fun x => (x.within 7).state 160) = [0, 0, 0, 0] ∧ ((pagesOf highPage).map fun x => (x.within 7).state 160) = [1, 0, 0, 0] ∧
      ((pagesOf badPage).map fun x => (x.within 7).state 160) = [4, 0, 0, 0] ∧ ((pagesOf oddPage).map fun x => ((x.within 7).state 160, x.mismatch)) =
        [(0, true), (0, false), (0, false), (0, false)]) ∧
    ((fetching .idle).armed fetch1 = false ∧ (fetching .idle).unitAt place3 = some (unitKey 1 3)) ∧
    ((armedRead fetch1).turn die1 = some fetch1 ∧ (armedRead fetch1).armed fetch1 = true) ∧
    ((searchRead.turn die1).map (·.for_) = some (.search kW 0) ∧ searchRead.dieAt place3 = some die1 ∧
      (PageReq.mk place3 .interactive (.search kW 0) 1 75 7 160 .queued []).reports [goodPage] = true) ∧
    ((fetching .erase).serveReq fetch1 = .around ∧ (fetching .erase).media.reads = [fetch1] ∧ (fetching .erase).wanted fetch1 = true ∧
      (fetching .erase).partsWait place3 .interactive 75 = false ∧
      ((fetching .erase).othersOf place3).all (fun b => !(fetching .erase).unreadable b) = true ∧ (fetching .erase).rebuildChecks place3 0xFFFF = true) ∧
    (let r := { fetch1 with step := .recheck, found := pagesOf oddPage }
     (armedRead r).wanted r = true ∧ r.step ≠ .queued ∧ (armedRead r).partsWait place3 .interactive 75 = false) := by decide +kernel

theorem witness_MediaEngine_writes :
    ((writing allBut1).wordLine 8 767 = some ⟨8, 767, .host, [], [], [], allBut1⟩ ∧ (writing allBut1).rowDie (8 / 2800) 1 = some die1 ∧
      die1 < (writing allBut1).part.dies ∧ ((writing allBut1).die die1).op = .program ∧ ((writing allBut1).die die1).line = some (8, 767) ∧
      (writing allBut1).blockOf die1 3 (8 % 2800) = some 8 ∧ ∀ w ∈ ((writing allBut1).band 8).sieves, w = 1 ∨ w ∈ allBut1) ∧
    ((writing []).wordLine 8 767 = some ⟨8, 767, .host, [], [], [], []⟩ ∧ ∃ w ∈ ((writing []).band 8).sieves, w ≠ 1 ∧ w ∉ ([] : List Nat)) ∧
    (((erasing allBut1 false).band 8).state = .erasing ∧ (erasing allBut1 false).rowDie (8 / 2800) 1 = some die1 ∧ die1 < base.part.dies ∧
      ((erasing allBut1 false).die die1).op = .erase ∧ ((erasing allBut1 false).die die1).erasing = some 8 ∧
      ∀ w ∈ ((erasing allBut1 false).band 8).sieves, ¬ (w ≠ 1 ∧ w ∉ ((erasing allBut1 false).band 8).erased)) ∧
    (∃ w ∈ ((erasing [] false).band 8).sieves, w ≠ 1 ∧ w ∉ ((erasing [] false).band 8).erased ∧ ((erasing [] false).sieve w).lost = false ∧
      ((erasing [] false).rowDie 0 w).isSome = true) ∧ ((erasing allBut1 true).band 8).doomed = true ∧
    ((suspended .programSuspended).readQueued 0 = false ∧ ((suspended .programSuspended).die 0).op = .programSuspended) ∧
    ((suspended .eraseSuspended).readQueued 0 = false ∧ ((suspended .eraseSuspended).die 0).op = .eraseSuspended) ∧
    ((logging allBut1).wordLine 8 0 = some (stripe allBut1) ∧ ((logging allBut1).die die1).op = .program ∧
      ((logging allBut1).die die1).line = some (8, 0) ∧ (stripe allBut1).entries = [entry0] ∧ (logging allBut1).entry 1 0 = some (.buffer 0) ∧
      kvSorted (logging allBut1).media.slots = true ∧ ∀ w ∈ ((logging allBut1).band 8).sieves, w = 1 ∨ w ∈ allBut1) := by decide +kernel

set_option maxRecDepth 20000 in
theorem witness_MediaEngine :
    (journaled.media.journal ≠ [] ∧ journaled.media.journalAt + 25000 ≤ journaled.now ∧ (journalBand journaled).isSome = true ∧
      journaled.journalLine = none) ∧
    (67108864 ≤ journaled.media.journaled ∧ journaled.pressure = false ∧ journaled.media.check = none) ∧
    (checked.media.check = some ⟨[], 0, [], [], true, [], some place3, none, 0⟩ ∧ checked.media.lines = [] ∧ (checked.media.bankSieve 8).isSome = true) ∧
    ((worn []).mediaPaused = false ∧ (worn []).victim = some 8 ∧ (worn []).liveIn 8 = [(unitKey 1 3, place3)]) ∧
    ((worn []).dieAt place3 = some die1 ∧ (worn []).serve place3 .housekeeping 75 = .direct none ∧ (worn []).turn die1 = none ∧
      (pagesOf goodPage).map (·.plane) = [0, 1, 2, 3]) ∧
    ((worn []).pressure = false ∧ (worn []).tillDue place3 = true ∧ (∃ b ∈ (worn []).tillPlaces, b.num ≠ place3.num ∧ b.num ∉ ([] : List Nat))) ∧
    ((worn others).tillDue place3 = true ∧ (∀ b ∈ (worn others).tillPlaces, b.num = place3.num ∨ b.num ∈ others) ∧
      ((worn others).unitAt place3).isSome = true) ∧
    (wornAway.pressure = false ∧ wornAway.tillDue place3 = true ∧ wornAway.serve place3 .housekeeping 75 = .around) := by decide +kernel

theorem test_pageRead_delivers :
    ((after (.pageReadComplete place3 .interactive (pagesOf goodPage)) (fetching .idle)).cmds.map (·.pagesIn)) = [[place3]] ∧
    ((after (.pageReadComplete place3 .interactive (pagesOf badPage)) (fetching .idle)).media.reads.map (·.step)) = [.rebuild] := by decide +kernel
theorem test_readAround_fails : (after (.readAroundComplete place3 false) (fetching .erase)).entry 1 3 = some .poisoned := by decide +kernel
theorem test_erase_frees_band : ((after (.eraseComplete 8 1 none) (erasing allBut1 true)).band 8).state = .retired := by decide +kernel
theorem test_tilling_pass_ends : (after (.tillingRead place3 (pagesOf goodPage)) (worn others)).media.health.tillPasses = 1 := by decide +kernel

/-- Die 0 in this role, silent since the count of reset. -/
def sick (role : DieRole) : State := { base with media := { base.media with dies := [(0, { base.die 0 with role := role, was := .member, goodMin := 2699 })] } }
/-- The die of sieve 1 in row 0 has taken its place, and block set 8 is to be rebuilt from its first word line. -/
def redoing : State := { base with media := { base.media with
  sieves := List.replicate 16 lanesUp, dies := [(die1, { base.die die1 with role := .rebuilding, todo := [(8, 0)] })]
  bands := [(8, { Band.fresh with state := .closed, sieves := List.range 16, filled := 768 })] } }
/-- A tilling cycle of 7 days later. -/
def later (s : State) : State := { s with keeper := { s.keeper with count := 2 ^ 44 } }
def sickSpare : State := { base with media := { base.media with dies := [(0, { base.die 0 with role := .unresponsive, was := .spare })] } }
/-- The lanes of all sieves are up; those of sieve 15 but for lane 1. -/
def laned : State := { base with media := { base.media with sieves := List.replicate 16 lanesUp } }
def oneLane : State := { laned with media := { laned.media with sieves := setAt laned.media.sieves 15 fun v => { v with lane1 := false } } }

theorem witness_MediaRepair :
    (0 < base.part.dies ∧ ((sick .spare).die 0).role = .spare ∧ ((sick .spare).die 0).goodMin < 2700 ∧
      ((later (sick .spare)).die 0).began + (later (sick .spare)).media.tillDays * 86400 * 25000000 ≤ (later (sick .spare)).now) ∧
    (((sick .member).die 0).answered + 25000 ≤ (sick .member).now ∧ ((sick .member).die 0).role = .member ∧ ((sick .member).spareFor 0).isSome = true) ∧
    (((sick .rebuilding).die 0).role = .rebuilding ∧ (sick .rebuilding).toRebuild 0 = []) ∧
    (redoing.rowDie 0 1 = some die1 ∧ kvGet 8 (redoing.die die1).todo = some 0 ∧ redoing.mediaPaused = false ∧ redoing.takesOp die1 true = true ∧
      (redoing.band 8).kind.lineStripes = 4 ∧ ∀ i < 4, redoing.partsWait ⟨0, 8, i, 1⟩ .housekeeping 75 = false) ∧
    (((sick .unresponsive).die 0).role = .unresponsive ∧ ((sick .unresponsive).die 0).answered + 50 * 25000 ≤ (sick .unresponsive).now ∧
      ((sick .unresponsive).die 0).was = .member) ∧
    ((sickSpare.die 0).role = .unresponsive ∧ (sickSpare.die 0).was = .spare ∧ (sickSpare.die 0).answered + 50 * 25000 ≤ sickSpare.now) ∧
    ((laned.sieve 15).lane1 = true ∧ laned.media.sieves.length = 16 ∧ kvSorted laned.media.bands = true ∧ (laned.sieve 15).lost = false) ∧
    ((oneLane.sieve 15).up = true ∧ (oneLane.sieve 15).lane1 = false ∧ oneLane.media.sieves.length = 16 ∧ kvSorted oneLane.media.bands = true) ∧
    (let s := after (.sieveLost 15) laned
     15 ∈ s.media.restriping ∧ ∀ b ∈ s.media.bands, 15 ∈ b.2.sieves → s.liveIn b.1 = [] ∧ s.mapIn b.1 = false) := by decide +kernel

theorem test_dieFailed_rebuilds : ((sick .member).spareFor 0).map (fun i => ((after (.dieFailed 0) (sick .member)).die i).role) = some .rebuilding := by
  decide +kernel
theorem test_rebuild_goes_on : ((after (.programComplete 8 0 1 .rebuild none) redoing).die die1).todo = [(8, 1)] := by decide +kernel
theorem test_lane1_lost_sieve : ((after (.sieveLaneFail 15 0) oneLane).sieve 15).lost = true := by decide +kernel

/- Power, accounting, inputs, starts and the management port (O58 to O60) -/

def withPower (f : Power → Power) : State := { base with power := f base.power }
def withAcct (f : Accounting → Accounting) : State := { base with acct := f base.acct }
/-- The cap of 1,250 W is exceeded by one watt, and met at 95%. -/
def stepped : State := withPower fun p => { p with limits := List.replicate 3 .batchStep }
def parking : State := withPower fun p => { p with limits := List.replicate 3 .interactiveStep ++ List.replicate 3 .batchStep }
def lifting : State := withPower fun p => { p with limits := [.batchStep], belowMs := 9 }
def temps (warm : Nat) : List Nat := warm :: List.replicate 7 40
def hot : State := withPower fun p => { p with warning := true, temps := temps 95, limitW := 430 }
def cool : State := withPower fun p => { p with warning := true, temps := temps 20, coolSince := some (2 ^ 40 - 250000000) }
def counts1 : AccCounts := { AccCounts.none with winModel := 100000000 }
def counting : State := withAcct fun a => { a with cur := { a.cur with counts := [(0, counts1)] }, standingUj := 0 }
def faulted : State := withAcct fun a => { a with calFault := true, faultAt := 2 ^ 40 - 250000000, calibratedAt := 2 ^ 40 - 15000000000 }

theorem witness_PowerAndAccounting :
    (¬ (State.reset.keeper.stage = 5 ∧ State.reset.power.idle = .running) ∧ base.keeper.stage = 5 ∧ base.power.idle = .running) ∧
    (base.capInForce < 1251 ∧ base.limitsOf .batchStep < 3) ∧ (stepped.capInForce < 1251 ∧ 3 ≤ stepped.limitsOf .batchStep ∧ stepped.limitsOf .interactiveStep < 3) ∧
    (parking.capInForce < 1251 ∧ 3 ≤ parking.limitsOf .batchStep ∧ 3 ≤ parking.limitsOf .interactiveStep ∧
      (List.range 272).find? parking.parkable = some 0) ∧
    (100 * 1187 ≤ 95 * base.capInForce ∧ base.power.belowMs + 1 < 10) ∧
    (100 * 1187 ≤ 95 * lifting.capInForce ∧ 9 ≤ lifting.power.belowMs ∧ lifting.power.limits = [.batchStep] ∧ lifting.limitsOf .landing = 0 ∧
      lifting.limitsOf .flash = 0) ∧
    (((temps 94).zip tripTemps).any (fun y => decide (y.2 ≤ y.1)) = false ∧ ((temps 94).zip base.power.warn).any (fun y => decide (y.2 ≤ y.1)) = false) ∧
    (((temps 95).zip tripTemps).any (fun y => decide (y.2 ≤ y.1)) = false ∧ base.power.warn.getD 0 0 ≤ (temps 95).getD 0 0 ∧ base.power.warning = false) ∧
    (((temps 110).zip tripTemps).any (fun y => decide (y.2 ≤ y.1)) = true ∧ base.keeper.stage ≠ 9) ∧
    (hot.power.limitAt + 25000000 ≤ hot.now ∧ hot.power.coolSince = none ∧
      ((hot.power.temps.zip hot.power.warn).any fun y => decide (y.2 ≤ y.1)) = true) ∧
    ((withPower fun p => { p with limitW := 1249 }).power.warning = false ∧ (withPower fun p => { p with limitW := 1249 }).power.limitW < 1250) ∧
    (cool.power.warning = true ∧ 2 ^ 40 - 250000000 + 10 * 25000000 ≤ cool.now) ∧
    (base.power.deepIdleS ≠ 0 ∧ base.quietNow = true ∧ base.power.idleSince + base.power.deepIdleS * 25000000 ≤ base.now) ∧
    (counting.acct.drift = false ∧ counting.acct.calFault = false ∧ counting.acct.cur.sum (·.winModel) ≤ 1 * 100000000 ∧
      (0, counts1) ∈ counting.acct.cur.counts) ∧
    ((withAcct fun a => { a with above := 9, standingUj := 0 }).acct.drift = false ∧ 9 ≤ (withAcct fun a => { a with above := 9, standingUj := 0 }).acct.above ∧
      15 * (2 * 100000000) < 100 * (2 * 100000000 - 0)) ∧
    (faulted.acct.calFault = true ∧ faulted.acct.calibrating = false ∧ faulted.acct.faultAt + 10 * 25000000 ≤ faulted.now ∧
      faulted.acct.calibratedAt + 600 * 25000000 ≤ faulted.now) ∧
    ((withAcct fun a => { a with calibrating := true, calFault := true }).acct.calibrating = true) ∧
    (base.acct.cur.start + base.acct.intervalS * 25000000 ≤ base.now ∧ base.acct.records.length + 123 ≤ 16777216) ∧
    base.acct.journalAt + 25000000 ≤ base.now := by decide +kernel

theorem test_loop_adds_limit : (after (.powerLoopTick 1251 4800 ⟨0, (List.replicate 6 0)⟩) base).power.limits = [.batchStep] ∧
    (after (.powerLoopTick 1250 4800 ⟨0, (List.replicate 6 0)⟩) base).power.limits = [] := by decide +kernel
theorem test_thermal_limit_floor : (after .thermalLimitStep hot).power.limitW = 400 := by decide +kernel
theorem test_interval_records : (after .accountingIntervalEnd counting).acct.nextSeq = 123 := by decide +kernel

def env0 : StartEnv := ⟨0, [], 0, [], false, [], 0, [], 0, [], 4000⟩
def noSlots : StartEnv := { env0 with slotsBad := 3 }
def withKeeper (f : Keeper → Keeper) : State := { base with keeper := f base.keeper }
def tried : State := { withKeeper (fun k => { k with moduleGood := false }) with sec := { base.sec with trial := true } }
/-- A module that has been started once and not since. -/
def formatted : State := { after (.powerOn env0) State.reset with keeper := Keeper.reset }
/-- A WRITE is outstanding. -/
def writingNow : State := withC (cmdOf kD 0x21 writePay) stored1
def inDown : InPin := ⟨true, true, false, 1⟩

/-- No root set reads back valid. -/
def noRoots : StartEnv := { env0 with rootsBad := [1, 2] }
/-- It waits in stage 7 under MOD_RESET_N, and in stage 0 without power. -/
def heldReset : State := withKeeper fun k => { k with stage := 1, modReset := inDown }

theorem witness_InputsAndStarts_starts :
    (formatted.media.factoryRead = true ∧ (formatted.media.rootsLeft.map fun r => (r.seq, r.sieve)) = [(1, 8), (2, 0)] ∧
      8 < formatted.media.sieves.length ∧ (formatted.sieve 8).lost = false ∧ formatted.keeper.modReset.asserted = false ∧
      formatted.keeper.thermtrip = false ∧ (formatted.sieve 0).testOk = true ∧ (formatted.sieve 0).lost = false ∧
      formatted.bootSlot env0 = some 0 ∧ env0.rootsBad = []) ∧
    (∀ r ∈ formatted.media.rootsLeft, r.seq ∈ noRoots.rootsBad) ∧
    (heldReset.keeper.stage = 1 ∧ heldReset.keeper.modReset.asserted = true) ∧
    ((withKeeper fun k => { k with stage := 0 }).keeper.modReset.asserted = false ∧ base.keeper.powered = true) := by decide +kernel

theorem witness_InputsAndStarts :
    (4000 ≤ env0.vinCv ∧ State.reset.keeper.stage = 1 ∧ State.reset.keeper.modReset.asserted = false ∧ State.reset.keeper.thermtrip = false ∧
      State.reset.bootSlot env0 = some 0 ∧ env0.stacksDown % 64 ≠ 63 ∧ (0 ∉ env0.plotsFail ∧ (State.reset.plot 0).role ≠ .retired) ∧
      State.reset.sec.life = .blank ∧ State.reset.sec.retiredFuse = false ∧ State.reset.media.factoryRead = false ∧
      (State.reset.sieve 0).lost = false ∧ 0 < State.reset.media.sieves.length) ∧
    (State.reset.bootSlot noSlots = none ∧ { env0 with stacksDown := 63 }.stacksDown % 64 = 63) ∧
    ((withKeeper fun k => { k with supplyOk := false }).keeper.supplyOk = false ∧ (withKeeper fun k => { k with supplyOk := false }).bootSlot env0 = some 0) ∧
    ((withKeeper fun k => { k with stage := 7, modReset := inDown }).keeper.modReset.chatter = false ∧
      (withKeeper fun k => { k with stage := 7, modReset := inDown }).keeper.stage = 7) ∧
    (tried.sec.trial = true ∧ tried.keeper.moduleGood = false ∧ tried.keeper.stage ≠ 0 ∧ tried.keeper.stage ≠ 7 ∧ tried.keeper.stage ≠ 9 ∧ tried.keeper.startAt + 120 * 25000000 ≤ tried.now ∧
      (stopModule 7 4 [] tried).bootSlot env0 = some 0) ∧
    (base.keeper.supplyOk = true ∧ base.keeper.powered = true) ∧ (3799 < 3800 ∧ 6200 < 6201) ∧
    (base.keeper.modReset.chatter = false ∧ base.keeper.modReset.asserted = false ∧ base.keeper.stage ≠ 0 ∧ base.keeper.stage ≠ 7) ∧
    (writingNow.keeper.pwrFail.chatter = false ∧ writingNow.keeper.pwrFail.asserted = false ∧ writingNow.keeper.stage = 5 ∧
      (writingNow.cmds.map fun c => (c.opcode, c.live)) = [(0x21, true)]) ∧
    ((withKeeper fun k => { k with pwrFail := inDown }).keeper.pwrFail.asserted = true) ∧
    (base.keeper.pwrFail.asserted = false ∧ base.keeper.releasedAt + 25000000 ≤ base.now) ∧
    (base.keeper.throttle.chatter = false ∧ base.keeper.throttle.asserted = false ∧ State.reset.keeper.stage ≠ 5) ∧
    ((withKeeper fun k => { k with throttle := inDown }).keeper.throttle.asserted = true) ∧
    (base.keeper.tamper.chatter = false ∧ base.keeper.tamper.asserted = false) ∧
    ((withKeeper fun k => { k with tamper := inDown }).keeper.tamper.asserted = true) ∧ ((base.keeper.pin 3).chatter = false ∧ 16 ≤ 16) ∧
    (((withKeeper fun k => { k with tamper := { inDown with chatter := true } }).keeper.pin 3).chatter = true) := by decide +kernel

theorem test_powerOn_starts : (after (.powerOn env0) State.reset).keeper.stage = 5 ∧ (after (.powerOn env0) State.reset).keeper.cause = 1 := by
  decide +kernel
theorem test_powerOn_halts : (after (.powerOn noSlots) State.reset).keeper.startFault = 1 ∧
    (after (.powerOn { env0 with stacksDown := 63 }) State.reset).keeper.startFault = 5 ∧
    (after (.powerOn noRoots) formatted).keeper.startFault = 2 := by decide +kernel
/-- One valid set is left: the module starts from it (R205). -/
theorem test_powerOn_older_root : (after (.powerOn { env0 with rootsBad := [2] }) formatted).keeper.stage = 5 := by decide +kernel
theorem test_reset_holds : (after (.powerOn env0) heldReset).keeper.stage = 7 ∧ (after (.powerOn env0) heldReset).keeper.idnAt = 0 := by decide +kernel
theorem test_powerOn_again : (after (.powerOn env0) formatted).keeper.stage = 5 := by decide +kernel
theorem test_warning_ends_write : status (after .pwrFailWarnNAssert writingNow) = some stWriteProtected := by decide +kernel
theorem test_tamper_wipes : (after .tamperNAssert base).sec.unlocked = false ∧ (after .tamperNAssert base).sec.wipes = 1 := by decide +kernel

def pointing (off : Nat) (serving : Bool) : State :=
  { base with keeper := { base.keeper with smbPointer := off, stage := if serving then 5 else 3 }, alert := true }
def pecked : State := { base with keeper := { base.keeper with pecRequired := true } }

/-- The last line of plot 271's exchange window has failed its check. -/
def badWindow : State := { base with landing := { base.landing with faults := [⟨windowSram 271 2047, .only, none, none, [], [], false⟩] } }

theorem witness_SmbusAndPeek :
    (base.keeper.powered = true ∧ base.pecOk none = true) ∧ badOffset 0xFFFC = false ∧ (badOffset 0x10000 = true ∧ badOffset 2 = true) ∧
    badOffset (pointing 0x10000 true).keeper.smbPointer = true ∧
    (badOffset 0x2000 = false ∧ 2 ≤ 0x2000 / 0x1000 ∧ assigned 0x2000 = true ∧ (pointing 0x2000 false).serving = false) ∧
    (0x0FFC / 0x1000 < 2 ∧ (pointing 0x2000 true).serving = true ∧ assigned 0xFFFC = false) ∧ (badOffset 0x1018 = false ∧ badOffset 0x101C = false) ∧
    (pecked.keeper.powered = true ∧ pecked.pecOk none = false ∧ pecked.pecOk (some false) = false) ∧ (pointing 0 true).alert = true ∧
    base.landing.faults = [] ∧ badWindow.landing.faults.map (·.line) = [windowSram 271 2047] := by decide +kernel

theorem test_smbRead_status : (after (.smbRead none) { State.reset with keeper := { State.reset.keeper with smbPointer := 0x1000 } }).wire =
    [.smbus [5#8, 0#8, 0x0C#8, 0x01#8, 0#8, 0#8]] := by decide +kernel
theorem test_peek_stops : exec (.hostPeek 272 0) base = .fault .noSuchLine := rfl
theorem test_peek_last_line : (after (.hostPeek 271 2047) base).wire.length = 1 ∧ (after (.hostPeek 271 2047) badWindow).wire = [] := by
  decide +kernel

end Sys2Proof.Tests
end

section
/-!
SUPPORT. Replies of admin commands, and the lengths and places of little-endian fields: what the proofs about the register
window and the log pages share.
-/

namespace Sys2Proof.Machine

open Sys2Proof

/- Little-endian fields -/

@[simp] theorem leBytes_length (n v : Nat) : (leBytes n v).length = n := by
  induction n generalizing v with
  | zero => rfl
  | succ n ih => simp [leBytes, ih]

@[simp] theorem zeros_length (n : Nat) : (zeros n).length = n := List.length_replicate

/-- The field of entry i of a table of fields of one width. -/
theorem slice_flatMap_leBytes {α : Type} (w : Nat) (f : α → Nat) (l : List α) (rest : List Byte) (i : Nat) (h : i < l.length) :
    slice (l.flatMap (fun a => leBytes w (f a)) ++ rest) (w * i) w = leBytes w (f l[i]) := by
  induction l generalizing i with
  | nil => exact absurd h (Nat.not_lt_zero i)
  | cons a l ih =>
    cases i with
    | zero => simp [slice]
    | succ i =>
      have skip : slice ((a :: l).flatMap (fun a => leBytes w (f a)) ++ rest) (w * (i + 1)) w =
          slice (l.flatMap (fun a => leBytes w (f a)) ++ rest) (w * i) w := by
        simp [slice, Nat.mul_succ, Nat.add_comm (w * i), ← List.drop_drop]
      rw [skip]
      exact ih i (Nat.lt_of_succ_lt_succ h)

/- Replies of admin commands -/

/-- A command of the admin queue carries that queue in its key. -/
theorem ReadyAdmin.key_queue {s : State} {k : CmdKey} {op : Nat} {c : Cmd} (h : ReadyAdmin s k op c) : c.key.queue = .admin := by
  rw [h.toReady.key]
  exact h.admin

theorem reply_answered {c : Cmd} (status : Nat) (payload : List Byte) (u : State) (h : c.key.queue = .admin) :
    Answered u (reply c status payload u) c status payload [] :=
  complete_answered status false payload 0 [] u (.inl h)

theorem fail_answered {c : Cmd} (status : Nat) (u : State) (h : c.key.queue = .admin) : Answered u (fail c status u) c status [] [] :=
  reply_answered status [] u h

end Sys2Proof.Machine
end

section
/-!
PROOFS. IDENTIFY (R2, Table 3-16) and the event log's page of GET_LOG (R103): the parts of the reply, and O8.
-/

namespace Sys2Proof.Machine

open Sys2Proof

/- IDENTIFY -/

theorem exec_identify {s : State} {k : CmdKey} {c : Cmd} (h : Ready s k 0x02 c) : exec (.identify k) s = .next (identify c s) :=
  congrArg Host.Outcome.next (withCmd_ready identify h)

theorem identify_answered {s : State} {c : Cmd} (h : c.key.queue = .admin) (empty : c.payload = []) :
    Answered s (identify c s) c stOk s.identity [] := by
  rw [identify, if_neg (not_not_intro empty)]
  exact reply_answered stOk s.identity s h

theorem identity_length (s : State) : s.identity.length = 128 := by
  simp [State.identity, List.length_flatMap]

/-- The IDN block is the window's first 4 KiB (Table 0-5). -/
theorem reg_of_idn (s : State) {off : Nat} (h : off < 0x1000) : s.reg off = s.idnReg off := by
  simp [State.reg, Nat.div_eq_of_lt h]

theorem slice_identity (s : State) {i : Nat} (h : i < 10) : slice s.identity (4 * i) 4 = leBytes 4 (s.reg (4 * i)) := by
  rw [reg_of_idn s (by omega)]
  simp only [State.identity, List.append_assoc]
  rw [slice_flatMap_leBytes 4 (fun i => s.idnReg (4 * i)) (List.range 10) _ i (by simpa using h)]
  simp

/- GET_LOG of the event log -/

theorem exec_getLog {s : State} {k : CmdKey} {c : Cmd} (h : Ready s k 0x03 c) : exec (.getLog k) s = .next (getLog c s) :=
  congrArg Host.Outcome.next (withCmd_ready getLog h)

/-- Without a filter the event page holds every record of the log, 32 bytes each. -/
theorem logPage_events (s : State) (session : Nat) : s.logPage 2 session none = (s.events.map fun e => (e.bytes, 0), 32) := by
  simp [State.logPage]

theorem logOk_events (s : State) (session : Nat) {p : List Byte} (len : p.length = 16) (page : fieldAt p 0 1 = 2)
    (opt : fieldAt p 1 1 = 0) (reserved : fieldAt p 12 4 = 0) : logOk s session p = true := by
  simp [logOk, len, page, opt, reserved, bit]

/-- The body of a reply that gives some records of the event log (R103). -/
def eventLogBody (s : State) (got : List EventRec) : List Byte :=
  leBytes 4 s.events.length ++ leBytes 4 got.length ++ leBytes 8 s.keeper.count ++ got.flatMap (·.bytes)

/-- 524,287 records of 32 bytes are the most that a reply of 16 MiB holds beside its 16 bytes of counts. -/
theorem getLog_events {s : State} {c : Cmd} (len : c.payload.length = 16) (page : fieldAt c.payload 0 1 = 2)
    (opt : fieldAt c.payload 1 1 = 0) (reserved : fieldAt c.payload 12 4 = 0) (count : fieldAt c.payload 8 4 ≤ 524287) :
    let got := (s.events.drop (fieldAt c.payload 4 4)).take (fieldAt c.payload 8 4)
    getLog c s = complete c (if got.length < fieldAt c.payload 8 4 then stOkShort else stOk)
      (decide (got.length < fieldAt c.payload 8 4)) (eventLogBody s got) 0 [] s := by
  have noOption : ∀ n, bit 0 n = false := by simp [bit]
  simp only [getLog, logOk_events s _ len page opt reserved, page, opt, noOption, logPage_events, Nat.min_eq_left count,
    ← List.map_drop, ← List.map_take, List.length_map, List.flatMap_map, eventLogBody, State.now, decide_eq_true_eq,
    Bool.not_true, Bool.false_eq_true, if_false]

theorem getLog_events_answered {s : State} {c : Cmd} (h : c.key.queue = .admin) (len : c.payload.length = 16)
    (page : fieldAt c.payload 0 1 = 2) (opt : fieldAt c.payload 1 1 = 0) (reserved : fieldAt c.payload 12 4 = 0)
    (count : fieldAt c.payload 8 4 ≤ 524287) :
    let got := (s.events.drop (fieldAt c.payload 4 4)).take (fieldAt c.payload 8 4)
    Answered s (getLog c s) c (if got.length < fieldAt c.payload 8 4 then stOkShort else stOk) (eventLogBody s got) [] := by
  rw [getLog_events len page opt reserved count]
  exact complete_answered _ _ _ 0 [] s (.inl h)

end Sys2Proof.Machine

namespace Sys2Proof.Proofs

open Sys2Proof.Machine

/-- Settles O8: IDENTIFY's reply is the identity table, whose first ten fields are the IDN registers; GET_LOG of page 2 gives the
records that the command's window on the event log cuts out. -/
theorem identifyAndLog : Obligations.IdentifyAndLog := by
  unfold Obligations.IdentifyAndLog
  intro s k c
  constructor
  · intro h empty
    exact ⟨identify c s, s.identity, exec_identify h.toReady, identify_answered h.key_queue empty, identity_length s,
      fun i hi => slice_identity s hi⟩
  · intro h len page opt reserved count
    exact ⟨getLog c s, exec_getLog h.toReady, getLog_events_answered h.key_queue len page opt reserved count⟩

end Sys2Proof.Proofs
end

section
/-!
PROOFS. Reading the register window (R9, R10, R104): what a read changes, what the latch of a _HI half gives and to whom, and O25.
-/

namespace Sys2Proof.Machine

open Sys2Proof

/- What reading registers leaves unchanged -/

/-- u is s but for the parts whose fields a read clears or latches. -/
def ReadsOnly (s u : State) : Prop :=
  u = { s with
    keeper := u.keeper, ports := u.ports, sessions := u.sessions, links := u.links, power := u.power, landing := u.landing
    media := u.media, plots := u.plots, sec := u.sec, acct := u.acct }

theorem ReadsOnly.trans {s u t : State} (first : ReadsOnly s u) (second : ReadsOnly u t) : ReadsOnly s t := by
  unfold ReadsOnly at first second ⊢
  calc t = _ := second
    _ = _ := by rw [first]

theorem modLane_readsOnly (lane : Nat) (f : Lane → Lane) (s : State) : ReadsOnly s (modLane lane f s) := by
  unfold modLane
  split <;> exact rfl

theorem clearRead_readsOnly (off : Nat) (s : State) : ReadsOnly s (clearRead off s) := by
  unfold clearRead
  split
  case h_11 => exact modLane_readsOnly ..  -- LNK_LANE_ERR
  all_goals exact rfl

theorem latchHi_readsOnly (who off : Nat) (s : State) : ReadsOnly s (latchHi who off s) := by
  unfold latchHi
  split <;> exact rfl

theorem readReg_readsOnly (who off : Nat) (s : State) : ReadsOnly s (readReg who off s).2 :=
  (clearRead_readsOnly off s).trans (latchHi_readsOnly who off _)

theorem readRegs_readsOnly (who off n : Nat) (s : State) : ReadsOnly s (readRegs who off n s).2 := by
  induction n generalizing off s with
  | zero => exact rfl
  | succ n ih => exact (readReg_readsOnly who off s).trans (ih (off + 4) _)

/- What reading registers answers -/

theorem readRegs_length (who off n : Nat) (s : State) : (readRegs who off n s).1.length = 4 * n := by
  induction n generalizing off s with
  | zero => rfl
  | succ n ih => simp only [readRegs, List.length_append, leBytes_length, ih]; omega

theorem readRegs_take (who off : Nat) {n : Nat} (s : State) (h : 1 ≤ n) :
    (readRegs who off n s).1.take 4 = leBytes 4 (s.regFor who off) := by
  obtain ⟨m, rfl⟩ := Nat.exists_eq_add_of_le' h
  simp [readRegs, readReg]

theorem readRegs_one (who off : Nat) (s : State) :
    readRegs who off 1 s = (leBytes 4 (s.regFor who off), latchHi who off (clearRead off s)) := by
  simp [readRegs, readReg]

/-- The payload of a REG_READ is in order (Table 3-14). -/
def regReadOk (p : List Byte) : Prop :=
  p.length = 8 ∧ fieldAt p 0 4 % 4 = 0 ∧ 1 ≤ fieldAt p 4 4 ∧ fieldAt p 4 4 ≤ 64 ∧ fieldAt p 0 4 + 4 * fieldAt p 4 4 ≤ 0x10000

theorem exec_regRead {s : State} {k : CmdKey} {c : Cmd} (h : Ready s k 0x05 c) : exec (.regRead k) s = .next (regReadCmd c s) :=
  congrArg Host.Outcome.next (withCmd_ready regReadCmd h)

theorem regReadCmd_ok {c : Cmd} (s : State) (ok : regReadOk c.payload) :
    regReadCmd c s = reply c stOk (readRegs c.port (fieldAt c.payload 0 4) (fieldAt c.payload 4 4) s).1
      (readRegs c.port (fieldAt c.payload 0 4) (fieldAt c.payload 4 4) s).2 := by
  unfold regReadOk at ok
  exact if_neg (by omega)

theorem regReadCmd_refused {c : Cmd} (s : State) (bad : ¬ regReadOk c.payload) : regReadCmd c s = fail c stInvalid s := by
  unfold regReadOk at bad
  exact if_pos (by omega)

/-- A REG_READ of one register. -/
theorem regReadCmd_one {c : Cmd} (s : State) {off : Nat} (len : c.payload.length = 8) (one : fieldAt c.payload 4 4 = 1)
    (at_ : fieldAt c.payload 0 4 = off) (aligned : off % 4 = 0) (inside : off + 4 ≤ 0x10000) :
    regReadCmd c s = reply c stOk (leBytes 4 (s.regFor c.port off)) (latchHi c.port off (clearRead off s)) := by
  rw [regReadCmd_ok s (by unfold regReadOk; omega), at_, one, readRegs_one]

/- The latch of a _HI half (R10) -/

theorem loHi_find_lo : ∀ p ∈ loHi, loHi.find? (fun q => decide (q.1 = p.1)) = some p := by decide
theorem loHi_find_hi : ∀ p ∈ loHi, loHi.find? (fun q => decide (q.2 = p.2)) = some p := by decide

/-- The count's two halves are a pair of R10. -/
theorem count_mem_loHi : (0x1020, 0x1024) ∈ loHi := by decide

/-- A read of any other register latches nothing. -/
theorem latchHi_of_not_lo {off : Nat} (who : Nat) (s : State) (h : loHi.find? (fun q => decide (q.1 = off)) = none) :
    latchHi who off s = s := by
  simp only [latchHi, h]

/-- A register that is the _HI of no pair reads as it is, whoever asks. -/
theorem regFor_of_not_hi {off : Nat} (who : Nat) (s : State) (h : loHi.find? (fun q => decide (q.2 = off)) = none) :
    s.regFor who off = s.reg off := by
  simp only [State.regFor, h]

theorem latchHi_of_pair {p : Nat × Nat} (who : Nat) (s : State) (h : p ∈ loHi) :
    latchHi who p.1 s = { s with keeper := { s.keeper with
      hiLatch := (who, p.1, s.reg p.2) :: s.keeper.hiLatch.filter fun e => !(decide (e.1 = who) && decide (e.2.1 = p.1)) } } := by
  simp only [latchHi, loHi_find_lo p h, modKeeper]

theorem regFor_of_pair {p : Nat × Nat} (who : Nat) (s : State) (h : p ∈ loHi) :
    s.regFor who p.2 =
      ((s.keeper.hiLatch.find? fun e => decide (e.1 = who) && decide (e.2.1 = p.1)).map (·.2.2)).getD (s.reg p.2) := by
  simp only [State.regFor, loHi_find_hi p h]

/-- A latch changes nothing but the latched values. -/
theorem latchHi_hiLatch_only {p : Nat × Nat} (who : Nat) (s : State) (h : p ∈ loHi) :
    latchHi who p.1 s = { s with keeper := { s.keeper with hiLatch := (latchHi who p.1 s).keeper.hiLatch } } := by
  rw [latchHi_of_pair who s h]

/-- The requester that latched reads what was latched, in every state that still holds the latch. -/
theorem regFor_latchHi_same {p : Nat × Nat} (who : Nat) (s u : State) (h : p ∈ loHi)
    (kept : u.keeper.hiLatch = (latchHi who p.1 s).keeper.hiLatch) : u.regFor who p.2 = s.reg p.2 := by
  rw [regFor_of_pair who u h, kept, latchHi_of_pair who s h]
  simp

/-- The latches of another requester stay as they were. -/
theorem find_latchHi_other {p : Nat × Nat} {who other : Nat} (s : State) (h : p ∈ loHi) (ne : other ≠ who) :
    (latchHi who p.1 s).keeper.hiLatch.find? (fun e => decide (e.1 = other) && decide (e.2.1 = p.1)) =
      s.keeper.hiLatch.find? fun e => decide (e.1 = other) && decide (e.2.1 = p.1) := by
  rw [latchHi_of_pair who s h, List.find?_cons_of_neg (by simp [ne.symm]), List.find?_filter]
  congr 1
  funext e
  by_cases own : e.1 = other
  · simp [own, ne]
  · simp [own]

/-- What a register reads as does not turn on what is latched. -/
theorem reg_latchHi {p : Nat × Nat} (who off : Nat) (s : State) (h : p ∈ loHi) : (latchHi who p.1 s).reg off = s.reg off := by
  rw [latchHi_of_pair who s h]
  rfl

theorem regFor_latchHi_other {p : Nat × Nat} {who other : Nat} (s : State) (h : p ∈ loHi) (ne : other ≠ who) :
    (latchHi who p.1 s).regFor other p.2 = s.regFor other p.2 := by
  rw [regFor_of_pair other _ h, regFor_of_pair other s h, find_latchHi_other s h ne, reg_latchHi who p.2 s h]

/- The registers that O25 names -/

theorem reg_deepIdle (s : State) : s.reg 0x4018 = s.power.deepIdleS := rfl
theorem reg_countLo (s : State) : s.reg 0x1020 = s.keeper.count % 2 ^ 32 := rfl
theorem reg_countHi (s : State) : s.reg 0x1024 = s.keeper.count / 2 ^ 32 % 2 ^ 32 := rfl
theorem clearRead_deepIdle (s : State) : clearRead 0x4018 s = s := rfl
theorem clearRead_countLo (s : State) : clearRead 0x1020 s = s := rfl

/-- While the latch is held, the count's high half reads as at the read of the low half, however far the count has gone on. -/
theorem regFor_countHi_latched (who : Nat) (s u : State) (kept : u.keeper.hiLatch = (latchHi who 0x1020 s).keeper.hiLatch) :
    u.regFor who 0x1024 = s.keeper.count / 2 ^ 32 % 2 ^ 32 :=
  (regFor_latchHi_same who s u count_mem_loHi kept).trans (reg_countHi s)

end Sys2Proof.Machine

namespace Sys2Proof.Proofs

open Sys2Proof.Machine

/-- A read of a run of registers answers them when it is in order (R104), and is refused when it is not. -/
theorem regRead_run {s : State} {k : CmdKey} {c : Cmd} (h : ReadyAdmin s k 0x05 c) :
    (regReadOk c.payload → ∃ u t body, exec (.regRead k) s = .next t ∧ Answered u t c stOk body [] ∧
      body.length = 4 * fieldAt c.payload 4 4 ∧ body.take 4 = leBytes 4 (s.regFor c.port (fieldAt c.payload 0 4)) ∧ ReadsOnly s u) ∧
    (¬ regReadOk c.payload → ∃ t, exec (.regRead k) s = .next t ∧ Answered s t c stInvalid [] []) := by
  constructor
  · intro ok
    have ⟨_, _, pos, _, _⟩ := ok
    refine ⟨(readRegs c.port (fieldAt c.payload 0 4) (fieldAt c.payload 4 4) s).2, regReadCmd c s, _, exec_regRead h.toReady, ?_,
      readRegs_length .., readRegs_take _ _ s pos, readRegs_readsOnly ..⟩
    rw [regReadCmd_ok s ok]
    exact reply_answered _ _ _ h.key_queue
  · intro bad
    refine ⟨_, exec_regRead h.toReady, ?_⟩
    rw [regReadCmd_refused s bad]
    exact fail_answered _ s h.key_queue

/-- A read of PWR_DEEP_IDLE answers its value and neither clears nor latches. -/
theorem regRead_deepIdle {s : State} {k : CmdKey} {c : Cmd} (h : ReadyAdmin s k 0x05 c) (len : c.payload.length = 8)
    (one : fieldAt c.payload 4 4 = 1) (at_ : fieldAt c.payload 0 4 = 0x4018) :
    ∃ t, exec (.regRead k) s = .next t ∧ Answered s t c stOk (leBytes 4 s.power.deepIdleS) [] := by
  refine ⟨_, exec_regRead h.toReady, ?_⟩
  rw [regReadCmd_one s len one at_ rfl (by decide), clearRead_deepIdle, latchHi_of_not_lo _ _ rfl,
    regFor_of_not_hi _ _ rfl, reg_deepIdle]
  exact reply_answered _ _ _ h.key_queue

/-- A read of the keeper count's low half answers it and latches the high half. -/
theorem regRead_countLo {s : State} {k : CmdKey} {c : Cmd} (h : ReadyAdmin s k 0x05 c) (len : c.payload.length = 8)
    (one : fieldAt c.payload 4 4 = 1) (at_ : fieldAt c.payload 0 4 = 0x1020) :
    ∃ t, exec (.regRead k) s = .next t ∧ Answered (latchHi c.port 0x1020 s) t c stOk (leBytes 4 (s.keeper.count % 2 ^ 32)) [] := by
  refine ⟨_, exec_regRead h.toReady, ?_⟩
  rw [regReadCmd_one s len one at_ rfl (by decide), clearRead_countLo, regFor_of_not_hi _ _ rfl, reg_countLo]
  exact reply_answered _ _ _ h.key_queue

/-- Settles O25: a run of registers by induction on their number; the latch of a pair by what the requester's newest latch gives. -/
theorem registerReads : Obligations.RegisterReads := by
  unfold Obligations.RegisterReads
  intro s
  refine ⟨fun k c h => regRead_run h, fun k c h len one => ⟨regRead_deepIdle h len one, fun at_ => ?_⟩,
    fun who p hp => ?_, fun who => ?_⟩
  · obtain ⟨t, runs, answered⟩ := regRead_countLo h len one at_
    exact ⟨latchHi c.port 0x1020 s, t, runs, answered, latchHi_hiLatch_only c.port s count_mem_loHi,
      fun n => regFor_countHi_latched c.port s _ rfl⟩
  · exact ⟨latchHi who p.1 s, rfl, latchHi_hiLatch_only who s hp, fun u kept => regFor_latchHi_same who s u hp kept⟩
  · exact ⟨latchHi who 0x1020 s, rfl, latchHi_hiLatch_only who s count_mem_loHi,
      fun n => regFor_countHi_latched who s _ rfl, fun other ne => regFor_latchHi_other s count_mem_loHi ne⟩

end Sys2Proof.Proofs
end

section
/-!
PROOFS. Writing the register window (R5, R6, R8, R71): one rule for the row of a register, one for a field with a stated range, and
O21, O22 and O23.
-/

namespace Sys2Proof.Machine

open Sys2Proof

/- The row of a register -/

/-- A row takes the writes to its own offsets, and completes with what the write answers. -/
theorem writeRow_own {offs : Nat → Bool} (f : Cmd → Nat → Nat → State → Written) {c : Cmd} (s : State) (len : c.payload.length = 8)
    (own : offs (fieldAt c.payload 0 4) = true) {st : Nat} {u : State} {acts : List Act}
    (w : f c (fieldAt c.payload 0 4) (fieldAt c.payload 4 4) s = (st, u, acts)) :
    writeRow offs f c s = complete c st false [] 0 acts u := by
  simp only [writeRow, len, own, w, decide_true, Bool.and_self, if_true]

/-- A REG_WRITE that may run, in the row of its offset, is answered with the status of the write, in the state that it leaves. -/
theorem writeRow_answered {s : State} {k : CmdKey} {c : Cmd} (h : ReadyAdmin s k 0x06 c) (len : c.payload.length = 8)
    {offs : Nat → Bool} (f : Cmd → Nat → Nat → State → Written) {off : Nat} (at_ : fieldAt c.payload 0 4 = off) (own : offs off = true)
    {st : Nat} {u : State} {acts : List Act} (w : f c off (fieldAt c.payload 4 4) s = (st, u, acts)) :
    ∃ t, Host.Outcome.next (withCmd 0x06 k (writeRow offs f) s) = (.next t : Out) ∧ Answered u t c st [] acts := by
  subst at_
  refine ⟨_, congrArg Host.Outcome.next (withCmd_ready _ h.toReady), ?_⟩
  rw [writeRow_own f s len own w]
  exact complete_answered st false [] 0 acts u (.inl h.key_queue)

/-- The same for the row of one register, or of a few, that stand at the offsets given. -/
theorem regRow_answered {s : State} {k : CmdKey} {c : Cmd} (h : ReadyAdmin s k 0x06 c) (len : c.payload.length = 8)
    {offs : List Nat} (f : Nat → Nat → State → Written) {off : Nat} (at_ : fieldAt c.payload 0 4 = off)
    (own : offs.contains off = true) {st : Nat} {u : State} {acts : List Act} (w : f off (fieldAt c.payload 4 4) s = (st, u, acts)) :
    ∃ t, regRow k offs f s = .next t ∧ Answered u t c st [] acts :=
  writeRow_answered h len (fun _ => f) at_ own w

/-- REG_WRITE itself is the row of the aligned offsets of the window that have no row of their own. -/
theorem regWriteCmd_row {c : Cmd} (s : State) (len : c.payload.length = 8) {off : Nat} (at_ : fieldAt c.payload 0 4 = off)
    (aligned : off % 4 = 0) (inside : off < 0x10000) :
    regWriteCmd c s = writeRow (fun o => !ownRow o) (fun _ => writeOther) c s := by
  simp only [regWriteCmd]
  exact if_neg (by omega)

/- Ranges (R71) -/

theorem inRange_ok {ok : Bool} (f : State → State) (s : State) (h : ok = true) : inRange ok f s = (stOk, f s, []) := if_pos h

theorem inRange_refused {ok : Bool} (f : State → State) (s : State) (h : ok = false) : inRange ok f s = (stInvalid, s, []) := by
  rw [inRange, h]
  rfl

theorem inside_iff {v lo hi : Nat} : inside v lo hi = true ↔ lo ≤ v ∧ v ≤ hi := by
  simp [inside]

theorem inside_false {v lo hi : Nat} : inside v lo hi = false ↔ v < lo ∨ hi < v := by
  rw [← Bool.not_eq_true, inside_iff]
  omega

/-- A field of eight bits holds at most 255. -/
theorem bits_8_le (v lo : Nat) : bits v (lo + 7) lo ≤ 255 := by
  unfold bits
  rw [show lo + 7 + 1 - lo = 8 by omega]
  omega

/- The writes that O21 names, in range -/

theorem writeReserveCfg_ok {v : Nat} (off : Nat) (s : State) (h : 40 ≤ bits v 7 0) (h' : bits v 7 0 ≤ 70) :
    writeReserveCfg off v s = (stOk, modLanding (fun l => { l with reservePct := bits v 7 0 }) s, []) :=
  inRange_ok _ s (inside_iff.2 ⟨h, h'⟩)

theorem writeStreamCfg_ok {v : Nat} (off : Nat) (s : State) (h : 4 ≤ bits v 7 0) (h' : bits v 7 0 ≤ 32) :
    writeStreamCfg off v s = (stOk, modLanding (fun l => { l with windowLayers := bits v 7 0 }) s, []) :=
  inRange_ok _ s (inside_iff.2 ⟨h, h'⟩)

/-- LEAD_MAX is at most 3 and LEAD_MIN at least 1, and neither passes the other. -/
theorem writeFerryCfg_ok {v : Nat} (off : Nat) (s : State) (shallow : 10 ≤ bits v 23 16 ∧ bits v 23 16 ≤ 255)
    (late : 1 ≤ bits v 15 8 ∧ bits v 15 8 ≤ 16) (most : bits v 7 4 ≤ 3) (least : 1 ≤ bits v 3 0) (order : bits v 3 0 ≤ bits v 7 4) :
    writeFerryCfg off v s = (stOk, modLanding (fun l => { l with
      shallowS := bits v 23 16, lateLimit := bits v 15 8, leadMax := bits v 7 4, leadMin := bits v 3 0 }) s, []) :=
  inRange_ok _ s (by simp only [Bool.and_eq_true, inside_iff]; exact ⟨⟨⟨shallow, late⟩, order, most⟩, least, order⟩)

theorem writeBucketCfg_ok {v : Nat} (off : Nat) (s : State) (cap : 1 ≤ bits v 7 0) (leak : 1 ≤ bits v 23 8) (leak' : bits v 23 8 ≤ 3600) :
    writeBucketCfg off v s = (stOk, { s with
      landing := { s.landing with
        capacity := bits v 7 0, leakS := bits v 23 8, lastLeak := s.keeper.count
        buckets := s.landing.buckets.map fun b => { b with level := min b.level (bits v 7 0) } }
      plots := { s.plots with list := s.plots.list.map fun p =>
        (p.1, { p.2 with bucket := { p.2.bucket with level := min p.2.bucket.level (bits v 7 0) } }) } }, []) := by
  have ok : (inside (bits v 7 0) 1 255 && inside (bits v 23 8) 1 3600) = true := by
    simp only [Bool.and_eq_true, inside_iff]
    exact ⟨⟨cap, bits_8_le v 0⟩, leak, leak'⟩
  simp only [writeBucketCfg, inRange_ok _ _ ok]
  rfl

theorem writeSveCfg_ok {v : Nat} (off : Nat) (s : State) (high : 50 ≤ bits v 23 16 ∧ bits v 23 16 ≤ 95)
    (retry : 1 ≤ bits v 11 8 ∧ bits v 11 8 ≤ 7) (corr : 16 ≤ bits v 7 0) :
    writeSveCfg off v s = (stOk, modMedia (fun m => { m with
      wbHighPct := bits v 23 16, retryMax := bits v 11 8, corrHigh := bits v 7 0 }) s, []) :=
  inRange_ok _ s (by simp only [Bool.and_eq_true, inside_iff]; exact ⟨⟨high, retry⟩, corr, bits_8_le v 0⟩)

theorem writeDieSel_ok {v : Nat} (off : Nat) (s : State) (h : bits v 4 0 < s.part.diesPerChannel) :
    writeDieSel off v s = (stOk, modMedia (fun m => { m with dieSel := bits v 11 0 }) s, []) :=
  inRange_ok _ s (decide_eq_true h)

theorem writePltSel_ok {v : Nat} (off : Nat) (s : State) (h : bits v 8 0 < 272) :
    writePltSel off v s = (stOk, modPlots (fun x => { x with sel := bits v 8 0 }) s, []) :=
  inRange_ok _ s (decide_eq_true h)

theorem writeLnkSel_lane {v : Nat} (s : State) (h : bits v 5 0 < 52) :
    writeLnkSel 0x300C v s = (stOk, modLinks (fun l => { l with laneSel := bits v 5 0 }) s, []) :=
  inRange_ok _ s (decide_eq_true h)

theorem writeLnkSel_crossing {v : Nat} (s : State) (h : bits v 5 0 < 48) :
    writeLnkSel 0x3018 v s = (stOk, modLinks (fun l => { l with xSel := bits v 5 0 }) s, []) :=
  inRange_ok _ s (decide_eq_true h)

/- The writes that O22 names, out of range -/

theorem writeReserveCfg_refused {v : Nat} (off : Nat) (s : State) (h : bits v 7 0 < 40 ∨ 70 < bits v 7 0) :
    writeReserveCfg off v s = (stInvalid, s, []) :=
  inRange_refused _ s (inside_false.2 h)

theorem writePwrCap_refused {v : Nat} (off : Nat) (s : State) (h : bits v 15 0 < 400 ∨ 1250 < bits v 15 0) :
    writePwrCap off v s = (stInvalid, s, []) :=
  inRange_refused _ s (inside_false.2 h)

theorem writePltSel_refused {v : Nat} (off : Nat) (s : State) (h : 272 ≤ bits v 8 0) : writePltSel off v s = (stInvalid, s, []) :=
  inRange_refused _ s (decide_eq_false (Nat.not_lt.2 h))

theorem writeDieSel_refused {v : Nat} (off : Nat) (s : State) (h : s.part.diesPerChannel ≤ bits v 4 0) :
    writeDieSel off v s = (stInvalid, s, []) :=
  inRange_refused _ s (decide_eq_false (Nat.not_lt.2 h))

theorem writeLnkSel_lane_refused {v : Nat} (s : State) (h : 52 ≤ bits v 5 0) : writeLnkSel 0x300C v s = (stInvalid, s, []) :=
  inRange_refused _ s (decide_eq_false (Nat.not_lt.2 h))

/-- IDN_VENDOR is assigned and has no writable field (R6, R71). -/
theorem writeOther_idnVendor (v : Nat) (s : State) : writeOther 0 v s = (stInvalid, s, []) := rfl

/- The writes that O23 names -/

theorem writeAlert_set {v : Nat} (off : Nat) (s : State) (h : bit v 0 = true) :
    writeAlert off v s = (stOk, { s with alert := false }, []) := by
  rw [writeAlert, if_pos h]

/-- PLT_OVERFLOW_0 holds the bits of plots 0 to 31. -/
theorem writePltOverflow_first (v : Nat) (s : State) :
    writePltOverflow 0x7044 v s = (stOk, { s with plots := { s.plots with list := s.plots.list.map fun p =>
      if (decide (p.1 < 32) && bit v p.1) then (p.1, { p.2 with bucket := { p.2.bucket with overflow := false } }) else p } }, []) := by
  simp [writePltOverflow, modPlots]

theorem writeTamper_clear {v : Nat} (off : Nat) (s : State) (some_ : v % 8 ≠ 0) (released : s.keeper.tamper.asserted = false) :
    writeTamper off v s = (stOk, { s with sec := { s.sec with
      tamperBits := s.sec.tamperBits - Nat.land s.sec.tamperBits (v % 8) } }, []) := by
  rw [writeTamper, if_neg some_, if_neg (by simp [released])]
  rfl

theorem writeTamper_asserted {v : Nat} (off : Nat) (s : State) (some_ : v % 8 ≠ 0) (asserted : s.keeper.tamper.asserted = true) :
    writeTamper off v s = (stLifecycle, s, []) := by
  rw [writeTamper, if_neg some_, if_pos asserted]

end Sys2Proof.Machine

namespace Sys2Proof.Proofs

open Sys2Proof.Machine

/-- Settles O21: each register's row completes with the write that its range lets through. -/
theorem registerFields : Obligations.RegisterFields := by
  unfold Obligations.RegisterFields
  intro s k c h len off v
  refine ⟨fun at_ lo hi => ?_, fun at_ lo hi => ?_, fun at_ a b d e f g i => ?_, fun at_ cap leak leak' => ?_,
    fun at_ a b d e f => ?_, fun at_ pos => ?_, fun at_ plot => ?_, fun at_ lane => ?_, fun at_ crossing => ?_⟩
  · exact regRow_answered h len writeReserveCfg at_ rfl (writeReserveCfg_ok _ s lo hi)
  · exact regRow_answered h len writeStreamCfg at_ rfl (writeStreamCfg_ok _ s lo hi)
  · exact regRow_answered h len writeFerryCfg at_ rfl (writeFerryCfg_ok _ s ⟨a, b⟩ ⟨d, e⟩ f g i)
  · exact regRow_answered h len writeBucketCfg at_ rfl (writeBucketCfg_ok _ s cap leak leak')
  · exact regRow_answered h len writeSveCfg at_ rfl (writeSveCfg_ok _ s ⟨a, b⟩ ⟨d, e⟩ f)
  · exact regRow_answered h len writeDieSel at_ rfl (writeDieSel_ok _ s pos)
  · exact regRow_answered h len writePltSel at_ rfl (writePltSel_ok _ s plot)
  · exact regRow_answered h len writeLnkSel at_ rfl (writeLnkSel_lane s lane)
  · exact regRow_answered h len writeLnkSel at_ rfl (writeLnkSel_crossing s crossing)

/-- Settles O22: each register's row completes with the refusal that its range makes. -/
theorem registerRangesRefused : Obligations.RegisterRangesRefused := by
  unfold Obligations.RegisterRangesRefused
  intro s k c h len off v
  refine ⟨fun at_ out => ?_, fun at_ out => ?_, fun at_ out => ?_, fun at_ out => ?_, fun at_ out => ?_, fun at_ => ?_⟩
  · exact regRow_answered h len writeReserveCfg at_ rfl (writeReserveCfg_refused _ s out)
  · exact regRow_answered h len writePwrCap at_ rfl (writePwrCap_refused _ s out)
  · exact regRow_answered h len writePltSel at_ rfl (writePltSel_refused _ s out)
  · exact regRow_answered h len writeDieSel at_ rfl (writeDieSel_refused _ s out)
  · exact regRow_answered h len writeLnkSel at_ rfl (writeLnkSel_lane_refused s out)
  · have row : exec (.regWrite k) s = .next (withCmd 0x06 k (writeRow (fun o => !ownRow o) fun _ => writeOther) s) := by
      refine congrArg Host.Outcome.next ?_
      rw [withCmd_ready _ h.toReady, withCmd_ready _ h.toReady, regWriteCmd_row s len at_ rfl (by decide)]
    rw [row]
    exact writeRow_answered h len _ at_ rfl (writeOther_idnVendor _ s)

/-- Settles O23: each register's row completes with the bits cleared, or, while TAMPER_N is asserted, with the refusal. -/
theorem registerClears : Obligations.RegisterClears := by
  unfold Obligations.RegisterClears
  intro s k c h len off v
  refine ⟨fun at_ one => ?_, fun at_ => ?_, fun at_ => ?_, fun at_ some_ released => ?_, fun at_ some_ asserted => ?_⟩
  · exact regRow_answered h len writeAlert at_ rfl (writeAlert_set _ s one)
  · exact regRow_answered h len writeErrStatus at_ rfl rfl
  · exact writeRow_answered h len (fun _ => writePltOverflow) at_ rfl (writePltOverflow_first _ s)
  · exact regRow_answered h len writeTamper at_ rfl (writeTamper_clear _ s some_ released)
  · exact regRow_answered h len writeTamper at_ rfl (writeTamper_asserted _ s some_ asserted)

end Sys2Proof.Proofs
end

section
/-!
PROOFS. SET_QUOTA (R38, R122, Table 4-3) and SET_CLASS (R124 to R126): what each does in its cases, and O19.
-/

namespace Sys2Proof.Machine

open Sys2Proof

theorem kvMod_some {α : Type} {k : Nat} {v : α} (f : α → α) {t : KV α} (h : kvGet k t = some v) : kvMod k f t = kvSet k (f v) t := by
  simp only [kvMod, h]

/- SET_QUOTA -/

theorem exec_setQuota {s : State} {k : CmdKey} {c : Cmd} {x : Ctx} (h : ReadyTarget s k 0x11 c x) :
    exec (.setQuota k) s = .next (setQuota c x s) :=
  congrArg Host.Outcome.next (withTarget_ready setQuota h)

/-- The Landing quota that a SET_QUOTA leaves the context with, and the other figures it sets at once (Table 4-3). -/
def newLanding (p : List Byte) (x : Ctx) : Nat := if bit (fieldAt p 10 1) 0 then fieldAt p 0 4 else x.landingMib
def withQuota (p : List Byte) (x : Ctx) : Ctx := { x with
  sramKib := if bit (fieldAt p 10 1) 1 then fieldAt p 4 2 else x.sramKib
  maxPlots := if bit (fieldAt p 10 1) 2 then fieldAt p 6 2 else x.maxPlots
  sliceUs := if bit (fieldAt p 10 1) 3 then sliceOf (fieldAt p 8 2) else x.sliceUs }

/-- What the pool would have granted, were the context given a Landing quota of so many MiB (R38). -/
def State.grantedWith (s : State) (n : Nat) (x : Ctx) (lnd : Nat) : Nat := s.grantedMib - s.grantOf n x + max lnd (s.grantOf n x)

theorem setQuota_fits {s : State} {c : Cmd} {x : Ctx} (ok : quotaOk s.poolMib c.payload = true)
    (pool : s.grantedWith c.hdrCtx x (newLanding c.payload x) ≤ s.poolMib)
    (landing : bit (fieldAt c.payload 10 1) 0 = true → s.wholeChargeKib c.hdrCtx ≤ 1024 * newLanding c.payload x)
    (sram : bit (fieldAt c.payload 10 1) 1 = true → s.sramChargeKib c.hdrCtx ≤ fieldAt c.payload 4 2) :
    setQuota c x s = complete c stOk false
      (leBytes 4 (newLanding c.payload x) ++ leBytes 2 (withQuota c.payload x).sramKib ++ leBytes 2 (withQuota c.payload x).maxPlots) 0
      (if bit (fieldAt c.payload 10 1) 0 then [.landingQuota c.hdrCtx (newLanding c.payload x)] else [])
      (modCtx c.hdrCtx (withQuota c.payload) s) := by
  rw [setQuota, if_neg (by simp [ok])]
  refine if_neg ?_
  rintro (beyond | ⟨named, beyond⟩ | ⟨named, beyond⟩)
  · exact absurd pool (Nat.not_le.2 beyond)
  · exact absurd (landing named) (Nat.not_le.2 beyond)
  · exact absurd (sram named) (Nat.not_le.2 beyond)

theorem setQuota_beyond {s : State} {c : Cmd} {x : Ctx} (ok : quotaOk s.poolMib c.payload = true)
    (pool : s.poolMib < s.grantedWith c.hdrCtx x (newLanding c.payload x)) : setQuota c x s = fail c stQuota s := by
  rw [setQuota, if_neg (by simp [ok])]
  exact if_pos (.inl pool)

/- SET_CLASS -/

theorem exec_setClass {s : State} {k : CmdKey} {c : Cmd} {x : Ctx} (h : ReadyTarget s k 0x12 c x) :
    exec (.setClass k) s = .next (setClass c x s) :=
  congrArg Host.Outcome.next (withTarget_ready setClass h)

section
variable {s : State} {c : Cmd} {x : Ctx} (len : c.payload.length = 4) (reserved : fieldAt c.payload 1 3 = 0)
include len reserved

theorem setClass_toInteractive (code : fieldAt c.payload 0 1 = 0) (cls : x.cls ≠ .interactive) (idle : ∀ t ∈ s.streams, t.2.ctx ≠ c.hdrCtx) :
    setClass c x s = complete c stOk false [] 0 [.setClass c.hdrCtx .interactive] s := by
  have none_ : (s.streams.any fun t => decide (t.2.ctx = c.hdrCtx)) = false := by simpa using fun a b m => idle (a, b) m
  simp [setClass, len, reserved, code, cls.symm, none_]

theorem setClass_toBatch (code : fieldAt c.payload 0 1 = 1) (cls : x.cls = .interactive)
    (room : 256 * max 1 (s.plotsHeld c.hdrCtx) ≤ s.headroomKib c.hdrCtx) :
    setClass c x s = complete c stOk false [] 0 [.setClass c.hdrCtx .batch] (lapseAdmission c.hdrCtx s) := by
  simp [setClass, len, reserved, code, cls, Nat.not_lt.2 room]

theorem setClass_same (code : fieldAt c.payload 0 1 = 0) (cls : x.cls = .interactive) : setClass c x s = reply c stOk [] s := by
  simp [setClass, len, reserved, code, cls]

end

end Sys2Proof.Machine

namespace Sys2Proof.Proofs

open Sys2Proof.Machine

/-- Settles O19: the quota fits the pool and the charges, or it does not; the class changes one way, the other, or not at all. -/
theorem quotaAndClass : Obligations.QuotaAndClass := by
  unfold Obligations.QuotaAndClass
  intro s k c x
  refine ⟨fun h ok => ⟨fun pool landing sram => ?_, fun pool => ?_⟩, fun h len reserved =>
    ⟨fun code cls idle => ?_, fun code cls room => ?_, fun code cls => ?_⟩⟩
  · refine ⟨_, exec_setQuota h, ?_⟩
    rw [setQuota_fits ok pool landing sram, modCtx, kvMod_some _ h.target]
    exact complete_answered _ _ _ _ _ _ (.inl h.key_queue)
  · refine ⟨_, exec_setQuota h, ?_⟩
    rw [setQuota_beyond ok pool]
    exact fail_answered _ s h.key_queue
  · refine ⟨_, exec_setClass h, ?_⟩
    rw [setClass_toInteractive len reserved code cls idle]
    exact complete_answered _ _ _ _ _ s (.inl h.key_queue)
  · refine ⟨_, exec_setClass h, ?_⟩
    rw [setClass_toBatch len reserved code cls room]
    exact complete_answered _ _ _ _ _ (lapseAdmission c.hdrCtx s) (.inl h.key_queue)
  · refine ⟨_, exec_setClass h, ?_⟩
    rw [setClass_same len reserved code cls]
    exact reply_answered _ _ s h.key_queue

end Sys2Proof.Proofs
end

section
/-!
PROOFS. The management port (R536 to R538) and the host peek (R36): what each transaction does in its cases, and O60.
-/

namespace Sys2Proof.Machine

open Sys2Proof

/- A transaction on the port -/

theorem smbus_passes {s : State} {pec : Option Bool} (f : State → State) (on : s.keeper.powered = true) (ok : s.pecOk pec = true) :
    smbus pec f s = f s := by
  simp [smbus, on, ok]

theorem smbus_badPec {s : State} {pec : Option Bool} (f : State → State) (on : s.keeper.powered = true) (bad : s.pecOk pec = false) :
    smbus pec f s = setSmb 4 s := by
  simp [smbus, on, bad]

theorem exec_smb_badPec {s : State} {pec : Option Bool} (on : s.keeper.powered = true) (bad : s.pecOk pec = false) (o v : Nat) :
    exec (.smbSetOffset o pec) s = .next (setSmb 4 s) ∧ exec (.smbRead pec) s = .next (setSmb 4 s) ∧
      exec (.smbWrite v pec) s = .next (setSmb 4 s) ∧ exec (.smbLastStatus pec) s = .next (setSmb 4 s) :=
  have to4 := fun f => congrArg Host.Outcome.next (smbus_badPec (pec := pec) f on bad)
  ⟨to4 _, to4 _, to4 _, to4 _⟩

section
variable {s : State} {pec : Option Bool} (on : s.keeper.powered = true) (ok : s.pecOk pec = true)
include on ok

/- SET_OFFSET -/

theorem exec_smbSetOffset_good {o : Nat} (good : badOffset o = false) :
    exec (.smbSetOffset o pec) s = .next { s with keeper := { s.keeper with smbPointer := o, smbStatus := 0 } } := by
  refine congrArg Host.Outcome.next ((smbus_passes _ on ok).trans ?_)
  simp [good, modKeeper]

theorem exec_smbSetOffset_bad {o : Nat} (bad : badOffset o = true) : exec (.smbSetOffset o pec) s = .next (setSmb 1 s) := by
  refine congrArg Host.Outcome.next ((smbus_passes _ on ok).trans ?_)
  simp [bad]

/- READ -/

theorem exec_smbRead : exec (.smbRead pec) s = .next (smbReadAt s) :=
  congrArg Host.Outcome.next (smbus_passes _ on ok)

theorem exec_smbRead_bad (bad : badOffset s.keeper.smbPointer = true) :
    exec (.smbRead pec) s = .next (answerSmb [5#8, 1#8, 0#8, 0#8, 0#8, 0#8] (setSmb 1 s)) := by
  rw [exec_smbRead on ok, smbReadAt, if_pos bad]
  rfl

/-- Before service only the IDN and KPR blocks are read (R537). -/
theorem exec_smbRead_early (good : badOffset s.keeper.smbPointer = false) (block : 2 ≤ s.keeper.smbPointer / 0x1000)
    (there : assigned s.keeper.smbPointer = true) (early : s.serving = false) :
    exec (.smbRead pec) s = .next (answerSmb [5#8, 5#8, 0#8, 0#8, 0#8, 0#8] s) := by
  rw [exec_smbRead on ok, smbReadAt, if_neg (by simp [good]), if_pos ⟨block, there, by simp [early]⟩]
  rfl

theorem exec_smbRead_value (good : badOffset s.keeper.smbPointer = false)
    (served : s.keeper.smbPointer / 0x1000 < 2 ∨ assigned s.keeper.smbPointer = false ∨ s.serving = true) :
    exec (.smbRead pec) s = .next (answerSmb ([5#8, 0#8] ++ leBytes 4 (readReg 2 s.keeper.smbPointer s).1)
      (modKeeper (fun k => { k with smbPointer := s.keeper.smbPointer + 4 }) (readReg 2 s.keeper.smbPointer s).2)) := by
  have notEarly : ¬ (2 ≤ s.keeper.smbPointer / 0x1000 ∧ assigned s.keeper.smbPointer = true ∧ (!s.serving) = true) := by
    rintro ⟨block, there, early⟩
    rcases served with low | none_ | served
    · omega
    · simp [none_] at there
    · simp [served] at early
  rw [exec_smbRead on ok, smbReadAt, if_neg (by simp [good]), if_neg notEarly]
  rfl

/- WRITE -/

theorem exec_smbWrite (v : Nat) : exec (.smbWrite v pec) s = .next (smbWriteAt v s) :=
  congrArg Host.Outcome.next (smbus_passes _ on ok)

theorem exec_smbWrite_bad (v : Nat) (bad : badOffset s.keeper.smbPointer = true) : exec (.smbWrite v pec) s = .next (setSmb 1 s) := by
  rw [exec_smbWrite on ok, smbWriteAt, if_pos bad]

theorem exec_smbWrite_outside (v : Nat) (good : badOffset s.keeper.smbPointer = false) (block : s.keeper.smbPointer / 0x1000 ≠ 1) :
    exec (.smbWrite v pec) s = .next (setSmb 2 s) := by
  rw [exec_smbWrite on ok, smbWriteAt, if_neg (by simp [good]), if_pos block]

theorem exec_smbWrite_config (v : Nat) (at_ : s.keeper.smbPointer = 0x1018) :
    exec (.smbWrite v pec) s = .next { s with keeper := { s.keeper with pecRequired := bit v 1, fastPlus := bit v 0, smbStatus := 0 } } := by
  rw [exec_smbWrite on ok, smbWriteAt, at_]
  rfl

theorem exec_smbWrite_led (v : Nat) (at_ : s.keeper.smbPointer = 0x101C) :
    exec (.smbWrite v pec) s = .next { s with keeper := { s.keeper with led := v % 4, smbStatus := 0 } } := by
  rw [exec_smbWrite on ok, smbWriteAt, at_]
  rfl

/- LAST_STATUS -/

theorem exec_smbLastStatus : exec (.smbLastStatus pec) s = .next (answerSmb (leBytes 1 s.keeper.smbStatus) s) :=
  congrArg Host.Outcome.next (smbus_passes _ on ok)

end

/- The alert response -/

theorem exec_smbAlertResponse {s : State} (on : s.keeper.powered = true) (alert : s.alert = true) :
    exec .smbAlertResponse s = .next (answerSmb (leBytes 1 (2 * (0x58 + s.slotAddr))) s) :=
  congrArg Host.Outcome.next (if_pos ⟨on, alert⟩)

/- HOST_PEEK -/

section
variable {s : State} {p line : Nat}

theorem exec_hostPeek_good (plot : p < 272) (there : line < 2048) (good : ∀ f ∈ s.landing.faults, f.line ≠ windowSram p line) :
    exec (.hostPeek p line) s = .next { s with wire := .peek p line ((s.plot p).windowLine line) :: s.wire } :=
  (if_pos ⟨plot, there⟩).trans (congrArg Host.Outcome.next (if_neg (by simpa using good)))

theorem exec_hostPeek_failed (plot : p < 272) (there : line < 2048) (failed : ∃ f ∈ s.landing.faults, f.line = windowSram p line) :
    exec (.hostPeek p line) s = .next s :=
  (if_pos ⟨plot, there⟩).trans (congrArg Host.Outcome.next (if_pos (by simpa using failed)))

theorem exec_hostPeek_absent (absent : ¬ (p < 272 ∧ line < 2048)) : exec (.hostPeek p line) s = .fault .noSuchLine := if_neg absent

end

end Sys2Proof.Machine

namespace Sys2Proof.Proofs

open Sys2Proof.Machine

/-- Settles O60: each transaction by the case of its pointer, its PEC and its register; the peek by the case of its line. -/
theorem smbusAndPeek : Obligations.SmbusAndPeek := by
  unfold Obligations.SmbusAndPeek
  intro s pec off Says st
  refine ⟨fun on ok => ⟨fun o good => exec_smbSetOffset_good on ok good, fun o bad => exec_smbSetOffset_bad on ok bad, fun bad => ?_,
    fun good => ⟨fun block there early => ?_, fun served => ?_, fun block v => ?_⟩, fun at_ v => ?_, fun at_ v => ?_, ?_⟩,
    fun on bad o v => exec_smb_badPec on bad o v, fun on alert => exec_smbAlertResponse on alert, fun p line => ⟨fun plot there good => ?_,
    fun plot there failed => exec_hostPeek_failed plot there failed, fun absent => exec_hostPeek_absent absent⟩⟩
  · exact ⟨exec_smbRead_bad on ok bad, fun v => exec_smbWrite_bad on ok v bad⟩
  · exact exec_smbRead_early on ok good block there early
  · exact ⟨_, _, exec_smbRead_value on ok good served, rfl, rfl⟩
  · exact exec_smbWrite_outside on ok v good block
  · exact exec_smbWrite_config on ok v at_
  · exact exec_smbWrite_led on ok v at_
  · exact exec_smbLastStatus on ok
  · exact exec_hostPeek_good plot there (by simpa using good)

end Sys2Proof.Proofs
end

section
/-!
PROOFS. A tile boundary that gives a context its plot back with a new slice, against O55.

The first conjunct about a running context says that a resident of its number on the plot after the boundary has the slice that it had
before, less what ran. Housekeeping of the boundary can take the context off the plot and offer it the same plot again: `dropGone` lets
the batch context go because it holds more plots than its share (R131), then lets a settling pass that has published go from the same
plot; the plot counts for batch work again, the share grows, and `offer` and `admitClaims` give the empty plot back to the context, which
joins as new residents do, with a whole slice.
-/

namespace Sys2Proof.Machine

open Sys2Proof

/-- A batch context of 64 KiB on each plot that wants some plots and has some MiB of the Landing. -/
def batchCtx (landingMib want : Nat) : Ctx :=
  { session := 0, cls := .batch, strict := false, sramKib := 64, landingMib := landingMib, maxPlots := 0, sliceUs := 2000, closing := false,
    torn := none, faulted := false, resetting := false, stepNo := none, stepSize := 0, lastRun := 0, want := want }

/-- Context 0 on a plot with 100 µs of its slice left. -/
def sliced : Resident := { (batchCtx 1 2).resident 0 0 with leftUs := 100 }

/-- The settling pass of index 0. -/
def settlingPass : Resident := ⟨1024, .housekeeping, 0, 2000, 2000, false, 0, 0, false, none⟩

/-- A PROGRAM_RUN of context 0, received. -/
def receivedRun : Cmd :=
  { key := ⟨0, 0, .work, 1⟩, opcode := 0x71, cls := 1, hdrCtx := 0, hdrQueue := 1, port := 0, totalLen := 0, parts := [(0, [])], seen := [0],
    seq := 0, phase := .received, order := 0, arrived := 0, stagedKib := 0, th := false, lt := false, fs := false, ra := false,
    admitted := false, covered := false, pagesIn := [], segsIn := [], tally := 0, covers := [], lost := [], ids := [] }

/-- Context 0 wants two plots and stands on plots 0 and 1, on plot 0 beside a pass that has published; context 1 wants 254 plots. While the
pass holds plot 0 for housekeeping, 255 plots are there for batch work, and context 0 has a share of one. -/
def overShare : State :=
  { State.reset with
    contexts := [(0, batchCtx 1 2), (1, batchCtx 1000 254)]
    cmds := [receivedRun]
    plots := { Plots.reset with list :=
      [(0, { Plot.shipped 0 with residents := [sliced, settlingPass], running := some 0 }), (1, { Plot.shipped 1 with residents := [sliced] })] } }

/-- A boundary on plot 0 at which 40 µs of context 0 have run. -/
def overShareBoundary : State := withEngine 0 (passWork 0 (tileBoundary 0 40)) overShare

/-- Context 0 stands on plot 0 again with a whole slice. -/
theorem overShareBoundary_residents : (overShareBoundary.plot 0).residents.map (fun r => (r.ctx, r.leftUs)) = [(0, 2000)] := by
  decide +kernel

/-- Without searches the engine of a plot has nothing to take. -/
theorem engineStep_idle (p : Nat) {s : State} (h : s.searches = []) : engineStep p s = s := by
  unfold engineStep
  split
  · rfl
  · simp [h]

end Sys2Proof.Machine

namespace Sys2Proof.Proofs

open Sys2Proof.Machine

/-- Refutes O55: at the boundary of `overShare` context 0 is resident with 2,000 µs left, and no resident had 2,040 µs left before. -/
theorem not_plotsAndFerries : ¬ Obligations.PlotsAndFerries := by
  unfold Obligations.PlotsAndFerries
  intro holds
  obtain ⟨-, boundary, -⟩ := holds overShare 0 (by decide)
  obtain ⟨u, runs, ⟨-, -, -, searches, -⟩, -, slice⟩ := boundary 0 40 rfl (by decide) rfl
  have idle : u.searches = [] := List.map_eq_nil_iff.1 searches
  have same : overShareBoundary = u := (Host.Outcome.next.inj runs).trans (engineStep_idle 0 idle)
  have residents := overShareBoundary_residents
  rw [same] at residents
  obtain ⟨r, mem, entry⟩ := List.mem_map.1 (residents ▸ List.mem_singleton_self _ : (0, 2000) ∈ (u.plot 0).residents.map _)
  obtain ⟨ctx, left⟩ := Prod.mk.inj entry
  have alone : 0 < 1024 ∧ 0 ∉ (overShare.plot 0).claims ∧ ∀ i ∈ overShare.plots.images, i.ctx = 0 → i.saved = true := by decide
  obtain ⟨y, before, -, shorter, -⟩ := slice alone r mem ctx
  have bound : ∀ y ∈ (overShare.plot 0).residents, y.leftUs - 40 < 2000 := by decide
  have := bound y before
  omega

end Sys2Proof.Proofs
end

section
/-!
SUPPORT. What the boundaries of a plot leave as it was (R123, R131 to R141): every operation of the placement engine, from one plot
changed to a context woken, ends in a state that is settled from the one before.
-/

namespace Sys2Proof.Machine

open Sys2Proof

/- Tables with one entry changed -/

theorem kvGet_kvMod_same {α : Type} (k : Nat) (f : α → α) (t : KV α) : kvGet k (kvMod k f t) = (kvGet k t).map f := by
  unfold kvMod
  split
  · next none_ => simp [none_]
  · next v some_ => simp [some_, kvGet_kvSet_same]

theorem kvGet_kvMod_other {α : Type} {k i : Nat} (f : α → α) (t : KV α) (h : k ≠ i) : kvGet i (kvMod k f t) = kvGet i t := by
  unfold kvMod
  split
  · rfl
  · exact kvGet_kvSet_other _ t h

/-- A change of an entry that a view does not see changes the view of no entry. -/
theorem kvGet_kvMod_view {α β : Type} {k : Nat} {f : α → α} (view : α → β) (same : ∀ x, view (f x) = view x) (n : Nat) (t : KV α) :
    (kvGet n (kvMod k f t)).map view = (kvGet n t).map view := by
  by_cases h : k = n
  · subst h
    rw [kvGet_kvMod_same, Option.map_map]
    congr 1
    funext x
    exact same x
  · rw [kvGet_kvMod_other f t h]

/- Settled states -/

theorem Settled.refl (s : State) : Settled s s := ⟨rfl, fun _ => rfl, fun _ => rfl, rfl, rfl⟩

theorem Settled.trans {s u t : State} (first : Settled s u) (second : Settled u t) : Settled s t := by
  obtain ⟨frame, contexts, counts, searches, runs⟩ := first
  obtain ⟨frame', contexts', counts', searches', runs'⟩ := second
  refine ⟨?_, fun n => (contexts' n).trans (contexts n), fun n => (counts' n).trans (counts n), searches'.trans searches,
    runs'.trans runs⟩
  calc t = _ := frame'
    _ = _ := by rw [frame]

theorem Settled.ite {c : Prop} [Decidable c] {s a b : State} (yes : Settled s a) (no : Settled s b) : Settled s (if c then a else b) := by
  split
  · exact yes
  · exact no

theorem Settled.foldl {α : Type} {f : State → α → State} (step : ∀ s a, Settled s (f s a)) (l : List α) (s : State) :
    Settled s (l.foldl f s) := by
  induction l generalizing s with
  | nil => exact Settled.refl s
  | cons a l ih => exact (step s a).trans (ih (f s a))

/- One part changed -/

theorem settled_modPlots (f : Plots → Plots) (s : State) : Settled s (modPlots f s) := ⟨rfl, fun _ => rfl, fun _ => rfl, rfl, rfl⟩

theorem settled_modPlot (p : Nat) (f : Plot → Plot) (s : State) : Settled s (modPlot p f s) :=
  Settled.ite (settled_modPlots _ s) (Settled.refl s)

theorem settled_modResident (p n : Nat) (f : Resident → Resident) (s : State) : Settled s (modResident p n f s) := settled_modPlot ..

/-- A context that ran or that wants plots is charged as before: its counts begin with its class and its session. -/
theorem settled_modCtx (n : Nat) {f : Ctx → Ctx} (same : ∀ x, { f x with lastRun := 0, want := 0 } = { x with lastRun := 0, want := 0 })
    (s : State) : Settled s (modCtx n f s) := by
  have start : ∀ x : Ctx, AccCounts.start (f x).cls.code (f x).session = AccCounts.start x.cls.code x.session := fun x => by
    have cls : (f x).cls = x.cls := (congrArg Ctx.cls (same x) :)
    have session : (f x).session = x.session := (congrArg Ctx.session (same x) :)
    rw [cls, session]
  have opened : ∀ m, (kvGet m (kvMod n f s.contexts)).map (fun x => AccCounts.start x.cls.code x.session) =
      (kvGet m s.contexts).map fun x => AccCounts.start x.cls.code x.session := fun m => kvGet_kvMod_view _ start m s.contexts
  refine ⟨rfl, fun m => kvGet_kvMod_view _ same m s.contexts, fun m => congrArg AccCounts.noLanding ?_, rfl, rfl⟩
  have counts : ∀ u : State, u.countsOf m =
      (kvGet m u.acct.cur.counts).getD (((kvGet m u.contexts).map fun x => AccCounts.start x.cls.code x.session).getD AccCounts.none) :=
    fun u => by unfold State.countsOf; cases kvGet m u.contexts <;> rfl
  rw [counts, counts s]
  exact congrArg (fun x => (kvGet m s.acct.cur.counts).getD (Option.getD x AccCounts.none)) (opened m)

/-- Bytes that go to or from the Landing change none of the other counts. -/
theorem charge_noLanding (prices : List Nat) (bytes : Nat) (a : AccCounts) :
    (AccCounts.charge prices (fun c => { c with landing := c.landing + bytes }) a).noLanding = a.noLanding := by
  simp [AccCounts.charge, AccCounts.noLanding]

theorem settled_chargeLanding (n bytes : Nat) (s : State) : Settled s (chargeLanding n bytes s) := by
  unfold chargeLanding account
  dsimp only
  split
  · exact ⟨rfl, fun _ => rfl, fun _ => rfl, rfl, rfl⟩
  · next p _ =>
    refine ⟨rfl, fun _ => rfl, fun m => ?_, rfl, rfl⟩
    by_cases h : p = m
    · subst h
      simp only [State.countsOf, modInterval, modAcct, kvGet_kvSet_same, Option.getD_some]
      exact charge_noLanding ..
    · simp only [State.countsOf, modInterval, modAcct, kvGet_kvSet_other _ _ h]

/-- Sequences and searches that stand on another plot are otherwise as they were. -/
theorem settled_restand (f : Run → Run) (g : Search → Search) (s : State)
    (runs : ∀ r, { f r with seqs := (f r).seqs.map fun q : Seq => { q with plot := 0 } } =
      { r with seqs := r.seqs.map fun q : Seq => { q with plot := 0 } })
    (searches : ∀ q, { g q with plot := 0 } = { q with plot := 0 }) :
    Settled s { s with runs := s.runs.map f, searches := s.searches.map g } := by
  refine ⟨rfl, fun _ => rfl, fun _ => rfl, ?_, ?_⟩
  · rw [List.map_map]
    exact List.map_congr_left fun q _ => searches q
  · rw [List.map_map]
    exact List.map_congr_left fun r _ => runs r

/- Residents come and go -/

theorem settled_refresh (p : Nat) (s : State) : Settled s (refresh p s) := settled_modPlot ..

theorem settled_refreshImages (s : State) : Settled s (refreshImages s) := settled_modPlots ..

theorem settled_claim (n kib : Nat) (s : State) (p : Nat) : Settled s (claim n kib s p) := by
  unfold claim
  exact settled_modPlot ..

theorem settled_join (p : Nat) (r : Resident) (s : State) : Settled s (join p r s) := settled_modPlot ..

theorem settled_leavePlot (p n : Nat) (s : State) : Settled s (leavePlot p n s) := by
  unfold leavePlot
  exact (settled_chargeLanding ..).trans (settled_modPlot ..)

theorem settled_moveBlocks (n from_ p : Nat) (s : State) : Settled s (moveBlocks n from_ p s) := by
  refine Settled.ite (Settled.refl s) (Settled.foldl (fun t h => Settled.ite (Settled.refl t) ?_) _ s)
  split
  · exact Settled.refl t
  · exact (settled_modPlot ..).trans (settled_modPlot ..)

theorem settled_rehome (n p : Nat) (from_ : Option Nat) (s : State) : Settled s (rehome n p from_ s) := by
  refine (settled_restand _ _ s (fun r => ?_) fun q => ?_).trans (settled_moveBlocks ..)
  · split
    · simp only [List.map_map]
      congr 1
      refine List.map_congr_left fun q _ => ?_
      simp only [Function.comp_apply]
      split <;> rfl
    · rfl
  · split <;> rfl

theorem settled_beginSwapOut (p ctx : Nat) (cause : Option Nat) (s : State) : Settled s (beginSwapOut p ctx cause s) := settled_modPlot ..

/- The parts of a boundary -/

theorem settled_dropGone (p : Nat) (busy : Option Nat) (s : State) : Settled s (dropGone p busy s) :=
  Settled.foldl (fun t _ => Settled.ite (Settled.refl t) (Settled.ite ((settled_leavePlot ..).trans (settled_modCtx _ (by intro; rfl) _))
    (Settled.ite (settled_leavePlot ..) (Settled.refl t)))) _ s

theorem settled_vacate (p : Nat) (busy : Option Nat) (s : State) : Settled s (vacate p busy s) :=
  Settled.ite (Settled.refl s) ((settled_modPlot ..).trans (Settled.foldl (fun t _ =>
    Settled.ite (Settled.refl t) ((settled_modPlots ..).trans (settled_leavePlot ..))) _ _))

theorem settled_applyQuotas (p : Nat) (busy : Option Nat) (s : State) : Settled s (applyQuotas p busy s) := by
  refine Settled.foldl (fun t r => ?_) _ s
  split
  · exact Settled.refl t
  · refine Settled.ite (Settled.refl t) (Settled.ite (Settled.ite (settled_leavePlot ..) (Settled.refl t)) ?_)
    refine (settled_modResident ..).trans (Settled.ite (settled_modResident ..) (Settled.ite (settled_modResident ..) ?_))
    split
    · exact Settled.foldl (fun _ _ => settled_modResident ..) _ _
    · split
      · exact Settled.refl _
      · exact (settled_leavePlot ..).trans (settled_claim ..)

theorem settled_startOut (p : Nat) (busy : Option Nat) (s : State) : Settled s (startOut p busy s) := by
  refine Settled.ite (Settled.refl s) ?_
  split
  · exact Settled.refl s
  · exact settled_beginSwapOut ..

theorem settled_offer (p : Nat) (s : State) : Settled s (offer p s) := by
  refine Settled.ite (Settled.refl s) ?_
  split
  · exact Settled.refl s
  · exact settled_claim ..

theorem settled_admitClaims (p : Nat) (s : State) : Settled s (admitClaims p s) := by
  refine Settled.foldl (fun t n => ?_) _ s
  split
  · exact settled_modPlot ..
  · exact Settled.ite (settled_modPlot ..) (Settled.ite ((settled_join ..).trans (settled_rehome ..)) (Settled.refl t))

theorem settled_startIn (p : Nat) (s : State) : Settled s (startIn p s) := by
  refine Settled.ite (Settled.refl s) ?_
  split
  · exact Settled.refl s
  · refine Settled.ite (settled_modPlot ..) ?_
    split
    · exact Settled.refl s
    · exact ((settled_modPlots ..).trans (settled_join ..)).trans (settled_rehome ..)

theorem settled_takePass (p : Nat) (s : State) : Settled s (takePass p s) := by
  unfold takePass
  dsimp only
  split
  · exact Settled.refl s
  · exact Settled.ite (Settled.refl s) (settled_join ..)

/-- The steps of a boundary, in their order (R123). -/
theorem settled_settleResidents (p : Nat) (busy : Option Nat) (s : State) : Settled s (settleResidents p busy s) :=
  (settled_modPlots ..).trans <| (settled_refreshImages _).trans <| (settled_dropGone ..).trans <| (settled_vacate ..).trans <|
    (settled_applyQuotas ..).trans <| (settled_refresh ..).trans <| (settled_startOut ..).trans <| (settled_offer ..).trans <|
    (settled_admitClaims ..).trans <| (settled_startIn ..).trans <| (settled_takePass ..).trans <| settled_refresh ..

theorem settled_choose (p : Nat) (s : State) : Settled s (choose p s) := by
  unfold choose
  split
  · exact (settled_modPlot ..).trans (settled_modCtx _ (by intro; rfl) _)
  · refine (settled_modPlot p _ s).trans (Settled.ite (Settled.refl _) ?_)
    split
    · exact Settled.refl _
    · exact settled_beginSwapOut ..

theorem settled_settleIdle (p : Nat) (s : State) : Settled s (settleIdle p s) :=
  Settled.ite ((settled_settleResidents ..).trans (settled_choose ..)) (Settled.refl s)

theorem settled_wakeCtx (ctx : Nat) (s : State) : Settled s (wakeCtx ctx s) :=
  (Settled.foldl (fun _ _ => (settled_refresh ..).trans (settled_settleIdle ..)) _ s).trans <|
    Settled.ite ((settled_refreshImages _).trans (Settled.foldl (fun _ _ => settled_settleIdle ..) _ _)) (Settled.refl _)

end Sys2Proof.Machine
end

section
/-!
PROOFS. Memory lines that fail their check (R56, R59, R61, R65), RETIRE_RANGE (R69, R70) and RESTORE_SPARE (R549 to R551): what each
changes, and O49.
-/

namespace Sys2Proof.Machine

open Sys2Proof

/- The windows of streaming mode (R52) -/

theorem sameModels_refl (s : State) : SameModels s s := fun _ => rfl

theorem sameModels_trans {s u t : State} (first : SameModels s u) (second : SameModels u t) : SameModels s t :=
  fun n => (second n).trans (first n)

/-- Two states with the same commands but for the promise that covers them. -/
def SameCmds (u t : State) : Prop := t.cmds.map (fun c => { c with covered := false }) = u.cmds.map fun c => { c with covered := false }

/-- t is u after work on memory lines and the windows that follows it. -/
structure LineWork (u t : State) : Prop where
  frame  : t = { u with landing := t.landing, models := t.models, cmds := t.cmds }
  models : SameModels u t
  cmds   : SameCmds u t

theorem LineWork.refl (s : State) : LineWork s s := ⟨rfl, sameModels_refl s, rfl⟩

theorem LineWork.trans {s u t : State} (first : LineWork s u) (second : LineWork u t) : LineWork s t :=
  ⟨by
    calc t = _ := second.frame
      _ = _ := by rw [first.frame],
    sameModels_trans first.models second.models, second.cmds.trans first.cmds⟩

theorem LineWork.foldl {α : Type} {f : State → α → State} (step : ∀ s a, LineWork s (f s a)) (l : List α) (s : State) :
    LineWork s (l.foldl f s) := by
  induction l generalizing s with
  | nil => exact LineWork.refl s
  | cons a l ih => exact (step s a).trans (ih (f s a))

theorem lineWork_modLanding (f : Landing → Landing) (s : State) : LineWork s (modLanding f s) := ⟨rfl, sameModels_refl s, rfl⟩

/-- Covers taken from some commands, and a window given to one model. -/
theorem lineWork_uncover (which : Cmd → Prop) [DecidablePred which] (s : State) :
    LineWork s { s with cmds := s.cmds.map fun c => if which c then { c with covered := false } else c } := by
  refine ⟨rfl, sameModels_refl s, ?_⟩
  simp only [SameCmds, List.map_map]
  refine List.map_congr_left fun c _ => ?_
  simp only [Function.comp_apply]
  split <;> rfl

theorem lineWork_window (slot : Nat) {f : Model → Model}
    (same : ∀ m, { f m with windowKib := 0, windowLayers := 0 } = { m with windowKib := 0, windowLayers := 0 }) (s : State) :
    LineWork s { s with models := kvMod slot f s.models } :=
  ⟨rfl, fun n => kvGet_kvMod_view _ same n s.models, rfl⟩

theorem lineWork_settleWindows (s : State) : LineWork s (settleWindows s) := by
  refine LineWork.foldl (fun t x => ?_) _ s
  split
  · exact LineWork.refl t
  · split
    · exact (lineWork_window x.1 (by intro; rfl) t).trans (lineWork_uncover _ _)
    · exact lineWork_window x.1 (by intro; rfl) t

theorem settleWindows_landing (s : State) : (settleWindows s).landing = s.landing := by
  unfold settleWindows
  generalize s.models = l
  induction l generalizing s with
  | nil => rfl
  | cons x l ih =>
    rw [List.foldl_cons, ih]
    split
    · rfl
    · split <;> rfl

/-- Without a retirement that waits only the windows are settled. -/
theorem settleRetiring_none {s : State} (h : s.landing.retiring = []) : settleRetiring s = settleWindows s := by
  simp only [settleRetiring, h, List.foldl_nil]

theorem lineWork_exemptReaders (f : LineFault) (s : State) : LineWork s (exemptReaders f s) := lineWork_uncover _ s

theorem lineWork_logLine (l : Line) (uncorr : Bool) (source : Nat) (s : State) : LineWork s (logLine l uncorr source s) := by
  unfold logLine
  exact lineWork_modLanding ..

theorem lineWork_uncorrectable (st pch bank page line : Nat) (s : State) :
    LineWork s (uncorrectable (.landing st pch bank page line) s) := by
  unfold uncorrectable
  exact lineWork_modLanding ..

/- LINE_CHECK_FAIL -/

/-- The flash read of a refetch changes the reads that wait alone. -/
theorem readLine_reads (f : LineFault) (cw : Nat) (s : State) :
    readLine f cw s = { s with media := { s.media with reads := (readLine f cw s).media.reads } } := by
  unfold readLine
  split <;> rfl

theorem readLine_cmds (f : LineFault) (cw : Nat) (s : State) : (readLine f cw s).cmds = s.cmds := (congrArg State.cmds (readLine_reads f cw s) :)

theorem readLine_models (f : LineFault) (cw : Nat) (s : State) : (readLine f cw s).models = s.models :=
  (congrArg State.models (readLine_reads f cw s) :)

theorem readLine_landing (f : LineFault) (cw : Nat) (s : State) : (readLine f cw s).landing = s.landing :=
  (congrArg State.landing (readLine_reads f cw s) :)

/-- A line stands in the list of those being refetched, the flash read is issued, and what follows is settled. -/
def listLine (g : LineFault) (cw : Nat) (s : State) : State :=
  let u := readLine g cw (settleWindows (modLanding (fun x => { x with
    faults := s.landing.faults.filter (fun h => decide (h.line ≠ g.line)) ++ [g] }) s))
  if g.flash.isSome then exemptReaders g u else u

theorem listLine_landing (g : LineFault) (cw : Nat) (s : State) : (listLine g cw s).landing =
    { s.landing with faults := s.landing.faults.filter (fun h => decide (h.line ≠ g.line)) ++ [g] } := by
  have : (listLine g cw s).landing = (readLine g cw (settleWindows (modLanding (fun x => { x with
      faults := s.landing.faults.filter (fun h => decide (h.line ≠ g.line)) ++ [g] }) s))).landing := by
    unfold listLine
    dsimp only
    split <;> rfl
  rw [this, readLine_landing, settleWindows_landing]
  rfl

/-- The parts that a listed line changes: work on lines before and after its flash read. -/
theorem listed_frame {s w r t : State} (before : LineWork s w) (read : r = { w with media := { w.media with reads := r.media.reads } })
    (after : LineWork r t) (faults : t.landing = { s.landing with faults := t.landing.faults }) :
    t = { s with
      landing := { s.landing with faults := t.landing.faults }, cmds := t.cmds, models := t.models
      media := { s.media with reads := t.media.reads } } := by
  have frame := after.frame
  have frame' := before.frame
  generalize r.media.reads = reads at read
  generalize w.landing = x, w.models = y, w.cmds = z at frame'
  subst frame' read
  have same : t.media.reads = reads := (congrArg (fun u : State => u.media.reads) frame :)
  rw [← faults, same]
  exact frame

theorem listLine_work (g : LineFault) (cw : Nat) (s : State) :
    (listLine g cw s = { s with
      landing := { s.landing with faults := (listLine g cw s).landing.faults }, cmds := (listLine g cw s).cmds
      models := (listLine g cw s).models, media := { s.media with reads := (listLine g cw s).media.reads } }) ∧
    SameModels s (listLine g cw s) ∧ SameCmds s (listLine g cw s) := by
  have first := (lineWork_modLanding (fun x => { x with
    faults := s.landing.faults.filter (fun h => decide (h.line ≠ g.line)) ++ [g] }) s).trans (lineWork_settleWindows _)
  generalize hw : settleWindows _ = w at first
  have read := readLine_reads g cw w
  have last : LineWork (readLine g cw w) (listLine g cw s) := by
    unfold listLine
    simp only [hw]
    split
    · exact lineWork_exemptReaders ..
    · exact LineWork.refl _
  refine ⟨?_, fun n => (last.models n).trans ?_, last.cmds.trans ?_⟩
  · exact listed_frame first read last (by rw [listLine_landing])
  · rw [readLine_models]
    exact first.models n
  · rw [readLine_cmds]
    exact first.cmds

/-- The line of a new stall, its readers and what else is known of it. -/
def faultOf (l : Line) (r : LineRead) (owner : Option Nat) (readers : List CmdKey) : LineFault :=
  { line := l, data := r.data, owner := owner, flash := r.flash, readers := readers.eraseDups, ferries := r.ferries, poisoned := false }

/-- A line that fails its check is listed: as a new stall, or with its readers added to the stall that runs (R56, R61). -/
theorem lineFails_lists {f : LineFault} {s : State} (cw : Nat) (clean : ∀ g ∈ s.landing.faults, g.line = f.line → g.poisoned = false)
    (good : f.poisoned = false) :
    ∃ g, g.line = f.line ∧ g.poisoned = false ∧ (∀ k ∈ f.readers, k ∈ g.readers) ∧ lineFails f cw s = listLine g cw s := by
  unfold lineFails
  dsimp only
  split
  · exact ⟨f, rfl, good, fun _ h => h, rfl⟩
  · next g found =>
    have line : g.line = f.line := by simpa using List.find?_some found
    have ok : g.poisoned = false := clean g (List.mem_of_find?_eq_some found) line
    refine ⟨{ g with
        readers := (g.readers ++ f.readers).eraseDups, flash := g.flash.or f.flash, ferries := (g.ferries ++ f.ferries).eraseDups },
      line, ok, fun k h => ?_, ?_⟩
    · exact List.mem_eraseDups.2 (List.mem_append_right _ h)
    · rw [if_neg (by simp [ok])]
      simp only [listLine, line]

theorem exec_lineCheckFail_passes {s : State} {l : Line} {r : LineRead} (owner : Option Nat) (readers : List CmdKey)
    (passes : l.passes r.bytes r.crc = true) : exec (.lineCheckFail l r owner readers) s = .next s :=
  congrArg Host.Outcome.next (if_pos (.inr passes))

theorem exec_lineCheckFail_fails {s : State} {l : Line} {r : LineRead} (owner : Option Nat) (readers : List CmdKey)
    (runs : s.keeper.stage = 5) (fails : l.passes r.bytes r.crc = false) :
    exec (.lineCheckFail l r owner readers) s = .next (lineFails (faultOf l r owner readers) r.cw s) :=
  congrArg Host.Outcome.next (if_neg (by simp [runs, fails]))

/- REFETCH_COMPLETE -/

/-- t is u after a refetch has ended: work on the lines, events, and what goes on at the boundaries of plots. -/
structure Resumed (u t : State) : Prop where
  frame  : t = { u with
    landing := t.landing, cmds := t.cmds, events := t.events, newEvents := t.newEvents, alert := t.alert, sessions := t.sessions
    ports := t.ports, wire := t.wire, plots := t.plots, contexts := t.contexts, runs := t.runs, searches := t.searches, acct := t.acct
    models := t.models }
  models : SameModels u t

theorem Resumed.trans {s u t : State} (first : Resumed s u) (second : Resumed u t) : Resumed s t :=
  ⟨by
    calc t = _ := second.frame
      _ = _ := by rw [first.frame],
    sameModels_trans first.models second.models⟩

theorem LineWork.resumed {u t : State} (h : LineWork u t) : Resumed u t :=
  ⟨by
    calc t = _ := h.frame
      _ = _ := by rw [h.frame],
    h.models⟩

theorem EventsOnly.resumed {u t : State} (h : EventsOnly u t) : Resumed u t :=
  ⟨by
    calc t = _ := h
      _ = _ := by rw [h],
    fun n => congrArg (fun s : State => (kvGet n s.models).map fun m => { m with windowKib := 0, windowLayers := 0 }) h⟩

theorem Settled.resumed {u t : State} (h : Settled u t) : Resumed u t :=
  ⟨by
    calc t = _ := h.1
      _ = _ := by rw [h.1],
    fun n => congrArg (fun s : State => (kvGet n s.models).map fun m => { m with windowKib := 0, windowLayers := 0 }) h.1⟩

theorem Settled.landing {u t : State} (h : Settled u t) : t.landing = u.landing := (congrArg State.landing h.1 :)

/-- The Landing after one corrected event on a line of a stack. -/
def Landing.countCorrected (st : Nat) (x : Landing) : Landing := { x with
  corrected := satAdd 32 x.corrected 1
  buckets := setAt x.buckets st fun _ => ((x.buckets.getD st Bucket.reset).add x.capacity).1 }

/-- A corrected event of the Landing counts and fills its stack's bucket; an overflow raises an event besides. -/
theorem corrected_stack (st pch bank page line : Nat) (s : State) :
    EventsOnly (modLanding (Landing.countCorrected st) s) (corrected (.landing st pch bank page line) s) := by
  unfold corrected
  dsimp only
  split
  · exact (raise_events ..).1
  · exact EventsOnly.refl _

/-- A refetch that ends with a good line, while no retirement waits: the line leaves the list, and its event is counted. -/
theorem lineGood_resumes {f : LineFault} {st pch bank page line : Nat} (at_ : f.line = .landing st pch bank page line) (source : Nat)
    {s : State} (quiet : s.landing.retiring = []) :
    Resumed s (lineGood f source s) ∧
      (lineGood f source s).landing.faults = s.landing.faults.filter (fun g => decide (g.line ≠ f.line)) ∧
      (lineGood f source s).landing.corrected = satAdd 32 s.landing.corrected 1 ∧
      (lineGood f source s).landing.buckets =
        setAt s.landing.buckets st fun _ => ((s.landing.buckets.getD st Bucket.reset).add s.landing.capacity).1 := by
  have logged := (lineWork_modLanding (fun x => { x with faults := x.faults.filter fun g => decide (g.line ≠ f.line) }) s).trans
    (lineWork_logLine f.line false source _)
  have events := corrected_stack st pch bank page line (logLine f.line false source
    (modLanding (fun x => { x with faults := x.faults.filter fun g => decide (g.line ≠ f.line) }) s))
  have landing := events.fields.2.2.2.2.1
  rw [← at_] at events landing
  unfold lineGood
  dsimp only
  generalize corrected f.line _ = u at events landing
  have retiring : u.landing.retiring = [] := by rw [landing]; exact quiet
  rw [settleRetiring_none retiring]
  have windows := (lineWork_settleWindows u).trans (lineWork_settleWindows _)
  have woken := Settled.foldl (fun s n => settled_wakeCtx n s) (f.readers.filterMap (·.context)) (settleWindows (settleWindows u))
  have last : _ = u.landing := (woken.landing.trans (settleWindows_landing _)).trans (settleWindows_landing u)
  refine ⟨(((logged.trans (lineWork_modLanding _ _)).resumed.trans events.resumed).trans windows.resumed).trans woken.resumed, ?_, ?_, ?_⟩
  all_goals rw [last, landing]; rfl

/-- A refetch that fails, of a line of which nothing but its bytes is lost, while no retirement waits (R59). -/
theorem lineBad_poisons {f : LineFault} {st pch bank page line : Nat} (at_ : f.line = .landing st pch bank page line)
    (only : f.data = .only) (owner : f.owner = none) (readers : f.readers = []) {s : State} (quiet : s.landing.retiring = []) :
    LineWork s (lineBad f s) ∧
      (lineBad f s).landing.faults =
        s.landing.faults.filter (fun g => decide (g.line ≠ f.line)) ++ [{ f with readers := [], poisoned := true }] ∧
      (lineBad f s).landing.uncorrected = satAdd 32 s.landing.uncorrected 1 ∧
      (lineBad f s).landing.uncorr = Nat.lor s.landing.uncorr (2 ^ st) := by
  have lost : ∀ u, lineLost f u = u := fun u => by simp [lineLost, only, owner, readers]
  have notFirmware : f.data ≠ .firmware := by simp [only]
  unfold lineBad
  dsimp only
  rw [if_neg notFirmware, lost, at_, ← at_]
  generalize hu : uncorrectable _ _ = u
  have counted : LineWork s u := by
    subst hu
    rw [at_]
    exact ((lineWork_modLanding _ s).trans (lineWork_logLine ..)).trans (lineWork_uncorrectable ..)
  have landing : u.landing.retiring = [] ∧ u.landing.faults =
      s.landing.faults.filter (fun g => decide (g.line ≠ f.line)) ++ [{ f with readers := [], poisoned := true }] ∧
      u.landing.uncorrected = satAdd 32 s.landing.uncorrected 1 ∧ u.landing.uncorr = Nat.lor s.landing.uncorr (2 ^ st) := by
    subst hu
    rw [at_]
    exact ⟨quiet, rfl, rfl, rfl⟩
  rw [settleRetiring_none landing.1, settleWindows_landing, settleWindows_landing]
  exact ⟨(counted.trans (lineWork_settleWindows u)).trans (lineWork_settleWindows _), landing.2⟩

/- BUCKET_LEAK -/

/-- Every bucket of the Landing loses one. -/
def Landing.leaked (x : Landing) (lastLeak : Nat) : Landing :=
  { x with lastLeak := lastLeak, buckets := x.buckets.map (Bucket.leak x.capacity) }

/-- The plots' buckets lose one with it. -/
theorem leak_state (s : State) (cap : Nat) (x : Landing) :
    mapPlots (fun p => { p with bucket := p.bucket.leak cap }) (modLanding (fun _ => x) s) = { s with
      landing := x
      plots := { s.plots with list := s.plots.list.map fun p =>
        (p.1, { p.2 with bucket := { p.2.bucket with
          level := p.2.bucket.level - 1, armed := p.2.bucket.armed || decide (p.2.bucket.level - 1 ≤ cap / 2) } }) } } := rfl

/-- Once a leak period has passed every bucket loses one. -/
theorem exec_bucketLeak {s : State} (runs : s.keeper.stage = 5)
    (due : s.since s.landing.lastLeak (s.landing.leakS * countsS) = true) :
    exec .bucketLeak s = .next (mapPlots (fun p => { p with bucket := p.bucket.leak s.landing.capacity })
      (modLanding (fun x => x.leaked (x.lastLeak + x.leakS * countsS)) s)) :=
  congrArg Host.Outcome.next (if_pos ⟨runs, due⟩)

theorem modLanding_leaked {s : State} {period : Nat} (seconds : s.landing.leakS * countsS = period) :
    modLanding (fun x => x.leaked (x.lastLeak + x.leakS * countsS)) s = modLanding (fun _ => s.landing.leaked (s.landing.lastLeak + period)) s := by
  simp only [modLanding, seconds]

/-- Every leak period each bucket loses one (R65). -/
theorem bucketLeak_each {s : State} (runs : s.keeper.stage = 5)
    (due : s.landing.lastLeak + 25000000 * s.landing.leakS ≤ s.now) :
    exec .bucketLeak s = .next { s with
      landing := { s.landing with
        lastLeak := s.landing.lastLeak + 25000000 * s.landing.leakS
        buckets := s.landing.buckets.map fun b => { b with level := b.level - 1, armed := b.armed || decide (b.level - 1 ≤ s.landing.capacity / 2) } }
      plots := { s.plots with list := s.plots.list.map fun p =>
        (p.1, { p.2 with bucket := { p.2.bucket with
          level := p.2.bucket.level - 1, armed := p.2.bucket.armed || decide (p.2.bucket.level - 1 ≤ s.landing.capacity / 2) } }) } } := by
  have seconds : s.landing.leakS * countsS = 25000000 * s.landing.leakS := by rw [countsS, Nat.mul_comm]
  have passed : s.since s.landing.lastLeak (s.landing.leakS * countsS) = true := by rw [seconds]; exact decide_eq_true due
  rw [exec_bucketLeak runs passed, modLanding_leaked seconds, leak_state]
  rfl

/-- A line read that fails its check leaves its line in the list with its readers stalled, and no other line changes. -/
theorem lineCheckFail_lists {s : State} {l : Line} (r : LineRead) (owner : Option Nat) (readers : List CmdKey)
    (clean : ∀ f ∈ s.landing.faults, f.line = l → f.poisoned = false) :
    ∃ t, lineFails (faultOf l r owner readers) r.cw s = t ∧
      t = { s with
        landing := { s.landing with faults := t.landing.faults }, cmds := t.cmds, models := t.models
        media := { s.media with reads := t.media.reads } } ∧ SameModels s t ∧
      t.cmds.map (fun c => { c with covered := false }) = s.cmds.map (fun c => { c with covered := false }) ∧
      (∃ f ∈ t.landing.faults, f.line = l ∧ f.poisoned = false ∧ ∀ k ∈ readers, k ∈ f.readers) ∧
      ∀ f, f.line ≠ l → (f ∈ t.landing.faults ↔ f ∈ s.landing.faults) := by
  obtain ⟨g, line, good, stalled, lists⟩ := lineFails_lists (f := faultOf l r owner readers) r.cw clean rfl
  have line : g.line = l := line
  obtain ⟨frame, models, cmds⟩ := listLine_work g r.cw s
  have landing := listLine_landing g r.cw s
  rw [lists]
  generalize listLine g r.cw s = t at *
  refine ⟨t, rfl, frame, models, cmds, ⟨g, ?_, line, good, fun k h => stalled k (List.mem_eraseDups.2 h)⟩, fun f other => ?_⟩
  · simp [landing]
  · have : f ≠ g := fun h => other (h ▸ line)
    simp [landing, line, other, this]

/-- The readers of a refetch that read flash are exempt. -/
theorem exempted_work (cond : Bool) (f : LineFault) (s : State) : LineWork s (if cond then exemptReaders f s else s) := by
  split
  · exact lineWork_exemptReaders f s
  · exact LineWork.refl s

theorem exempted_landing (cond : Bool) (f : LineFault) (s : State) :
    (if cond then exemptReaders f s else s).landing = s.landing := by
  split <;> rfl

section refetch

variable {s : State} {l : Line} {f : LineFault} (found : s.landing.faults.find? (fun f => decide (f.line = l)) = some f)
include found

theorem refetchEnds_good {n : Nat} {bytes : List Byte} {crc : Nat} (clean : f.poisoned = false) (source : n ∈ f.sources)
    (passes : l.passes bytes crc = true) :
    refetchEnds l (.good n bytes crc) s = lineGood f n (if f.readFlash (some n) then exemptReaders f s else s) := by
  simp only [refetchEnds, found]
  exact if_neg (by simp [clean, source, passes])

theorem refetchEnds_failed (clean : f.poisoned = false) :
    refetchEnds l .failed s = lineBad f (if f.readFlash none then exemptReaders f s else s) := by
  simp only [refetchEnds, found]
  exact if_neg (by simp [clean])

theorem refetchEnds_poison (poisoned : f.poisoned = true) : refetchEnds l .overwritten s = { s with
    landing := { s.landing with faults := s.landing.faults.filter fun g => decide (g.line ≠ l) } } := by
  simp only [refetchEnds, found]
  exact if_pos poisoned

theorem refetched_line : f.line = l := by simpa using List.find?_some found

end refetch

/- Root sets -/

theorem writeRoot_rootsWritten (s : State) : RootsWritten s 1 (writeRoot s) := by
  unfold RootsWritten writeRoot modMedia Media.writeRoot
  dsimp only
  split <;> rfl

/- RETIRE_RANGE -/

/-- A reply is the same to a command that waits as to one that does not. -/
theorem answered_withPhase {u t : State} {c : Cmd} {k : CmdKey} {p : Phase} {status : Nat} {payload : List Byte} {acts : List Act}
    (key : c.key = k) (h : Answered { u with cmds := withPhase u k p } t { c with phase := p } status payload acts) : Answered u t c status payload acts := by
  subst key
  obtain ⟨r, key, opcode, seq, port, st, pay, act, reject, id, frame⟩ := h
  refine ⟨r, key, opcode, seq, port, st, pay, act, reject, id, frame.trans ?_⟩
  simp only [withPhase, List.map_map]
  congr 1
  refine List.map_congr_left fun d _ => ?_
  simp only [Function.comp_apply]
  split <;> simp_all

/-- The Landing once the range of its only retirement is recorded. -/
def Landing.recorded (pages : List Nat) (x : Landing) : Landing := { x with
  retiring := []
  retired := (x.retired ++ pages).eraseDups
  faults := x.faults.map fun f => if f.line.page.any pages.contains then { f with line := f.line.moved } else f }

section retire

variable {s : State} {order n : Nat} {pages : List Nat} (one : s.landing.retiring = [⟨order, pages, n⟩])
include one

/-- A refetch runs in the range: the retirement waits. -/
theorem settleRetiring_waits {f : LineFault} (listed : f ∈ s.landing.faults) (clean : f.poisoned = false)
    (inside : f.line.page.any pages.contains = true) : settleRetiring s = settleWindows s := by
  have runs : s.landing.faults.any (fun f => !f.poisoned && f.line.page.any pages.contains) = true :=
    List.any_eq_true.2 ⟨f, listed, by rw [clean, inside]; rfl⟩
  simp only [settleRetiring, one, List.foldl_cons, List.foldl_nil]
  rw [if_pos (.inl runs)]

/-- No refetch runs in the range: it is recorded, and the command that waits for it completes. -/
theorem settleRetiring_records {c : Cmd} (clear : ∀ f ∈ s.landing.faults, f.line.page.any pages.contains = true → f.poisoned = true)
    (mine : s.cmds.find? (fun c => decide (c.order = order) && c.live) = some c) (waits : c.phase = .waiting .lines) :
    settleRetiring s = settleWindows (reply c stOk
      (leBytes 4 n ++ leBytes 4 (modLanding (Landing.recorded pages) (writeRoot s)).poolMib) (modLanding (Landing.recorded pages) (writeRoot s))) := by
  have quiet : s.landing.faults.any (fun f => !f.poisoned && f.line.page.any pages.contains) = false := by
    simp only [List.any_eq_false]
    intro f listed
    cases inside : f.line.page.any pages.contains
    · simp
    · simp [clear f listed inside]
  have landing : (modLanding (fun x => { x with
      retiring := x.retiring.filter fun q => decide (q.order ≠ order)
      retired := (x.retired ++ pages).eraseDups
      faults := x.faults.map fun f => if f.line.page.any pages.contains then { f with line := f.line.moved } else f }) (writeRoot s)) =
      modLanding (Landing.recorded pages) (writeRoot s) := by
    have : (writeRoot s).landing.retiring = [⟨order, pages, n⟩] := one
    simp [modLanding, Landing.recorded, this]
  simp only [settleRetiring, one, List.foldl_cons, List.foldl_nil, mine, quiet, landing]
  rw [if_neg (by simp [waits])]

end retire

/-- A completion in the session of a command that may run is a reply. -/
theorem ReadyCtx.answered {s : State} {k : CmdKey} {op : Nat} {c : Cmd} {x : Ctx} (h : ReadyCtx s k op c x) {d : Cmd} (same : d.key = k)
    (status : Nat) (payload : List Byte) {u : State} (sessions : u.sessions = s.sessions) :
    Answered u (reply d status payload u) d status payload [] := by
  refine complete_answered status false payload 0 [] u (.inr ?_)
  rw [State.session, sessions, same, ← State.session, h.opened]
  exact nofun

/-- The only entry of a list that passes a test is the one found. -/
theorem find?_unique {α : Type} {p : α → Bool} {l : List α} {a : α} (mem : a ∈ l) (passes : p a = true) (only : ∀ b ∈ l, p b = true → b = a) :
    l.find? p = some a := by
  cases h : l.find? p with
  | none => exact absurd passes (by simpa using List.find?_eq_none.1 h a mem)
  | some b => rw [only b (List.mem_of_find?_eq_some h) (List.find?_some h)]

section retireRange

variable {s : State} {k : CmdKey} {c : Cmd} {x : Ctx} (ready : ReadyCtx s k 0x90 c x) (ok : retireOk c.payload = true)
include ready ok

theorem exec_retireRange_refused (none_ : ∀ r ∈ s.landing.retiring, r.order ≠ c.order) :
    exec (.retireRange k) s = .next (fail c stQuota s) := by
  refine congrArg Host.Outcome.next ((withCtx_ready retireRange ready).trans ?_)
  have : s.landing.retiring.any (fun r => decide (r.order = c.order)) = false := by
    simpa [List.any_eq_false] using none_
  simp [retireRange, ok, this]

theorem exec_retireRange_settles {n : Nat} {pages : List Nat} (one : s.landing.retiring = [⟨c.order, pages, n⟩]) :
    exec (.retireRange k) s = .next (settleRetiring { s with cmds := withPhase s k (.waiting .lines) }) := by
  refine congrArg Host.Outcome.next ((withCtx_ready retireRange ready).trans ?_)
  simp only [retireRange, ok, one, ready.toReady.key, modCmd, withPhase]
  simp

omit ok in
/-- The command that waits for its lines is the one whose order the retirement has. -/
theorem waiting_found (alone : ∀ d ∈ s.cmds, d.order = c.order → d = c) :
    (withPhase s k (.waiting .lines)).find? (fun d => decide (d.order = c.order) && d.live) = some { c with phase := .waiting .lines } := by
  have mem : c ∈ s.cmds := List.mem_of_find?_eq_some ready.found
  have key := ready.toReady.key
  refine find?_unique (List.mem_map.2 ⟨c, mem, if_pos key⟩) (by simp [Cmd.live]) fun d listed mine => ?_
  obtain ⟨e, old, rfl⟩ := List.mem_map.1 listed
  have order : e.order = c.order := by
    split at mine <;> simp_all
  rw [alone e old order, if_pos key]

theorem exec_retireRange_waits {n : Nat} (one : s.landing.retiring = [⟨c.order, retirePages c.payload, n⟩])
    (refetched : ∃ f ∈ s.landing.faults, f.poisoned = false ∧ f.line.page.any (retirePages c.payload).contains = true) :
    exec (.retireRange k) s = .next (settleWindows { s with cmds := withPhase s k (.waiting .lines) }) := by
  obtain ⟨f, listed, clean, inside⟩ := refetched
  rw [exec_retireRange_settles ready ok one]
  exact congrArg Host.Outcome.next
    (settleRetiring_waits (s := { s with cmds := withPhase s k (.waiting .lines) }) one listed clean inside)

theorem exec_retireRange_records {n : Nat} (one : s.landing.retiring = [⟨c.order, retirePages c.payload, n⟩])
    (alone : ∀ d ∈ s.cmds, d.order = c.order → d = c)
    (clear : ∀ f ∈ s.landing.faults, f.line.page.any (retirePages c.payload).contains = true → f.poisoned = true) :
    let u := modLanding (Landing.recorded (retirePages c.payload)) (writeRoot s)
    ∃ t, exec (.retireRange k) s = .next (settleWindows t) ∧ Answered u t c stOk (leBytes 4 n ++ leBytes 4 u.poolMib) [] := by
  intro u
  have key := ready.toReady.key
  have records := settleRetiring_records (s := { s with cmds := withPhase s k (.waiting .lines) }) one clear
    (waiting_found ready alone) rfl
  refine ⟨_, (exec_retireRange_settles ready ok one).trans (congrArg Host.Outcome.next records), ?_⟩
  exact answered_withPhase (p := .waiting .lines) key (ready.answered (d := { c with phase := .waiting .lines }) key stOk
    (leBytes 4 n ++ leBytes 4 u.poolMib) (u := { u with cmds := withPhase u k (.waiting .lines) }) rfl)

end retireRange

/- RESTORE_SPARE -/

theorem modPlot_within {p : Nat} (h : p < 272) (f : Plot → Plot) (s : State) :
    modPlot p f s = { s with plots := { s.plots with list := kvSet p (f (s.plot p)) s.plots.list } } := if_pos h

theorem modLane_within {l : Nat} (h : l < 52) (f : Lane → Lane) (s : State) :
    modLane l f s = { s with links := { s.links with lanes := kvSet l (f (s.lane l)) s.links.lanes } } := if_pos h

/-- A spare lane of the lane's group serves its position. -/
def State.spareServes (s : State) (l : Nat) : Bool := ((List.range 13).map (13 * (l / 13) + ·)).any fun m =>
  decide (m ≠ l) && decide ((s.lane m).role = .spareInUse) && decide ((s.lane m).position = (s.lane l).position)

/-- A lane that failed, after its attempt: restored when its test passed. -/
def Lane.tested (q : Lane) (ok : Bool) (l : Nat) (served : Bool) (now : Nat) : Lane :=
  { (if ok then q.restored l served now else q) with restores := q.restores + 1 }

section restoreSpare

variable {s : State} {k : CmdKey} {c : Cmd} {x : Ctx} (ready : ReadyCtx s k 0x91 c x) (len : c.payload.length = 8)
  (zero1 : fieldAt c.payload 1 1 = 0) (zero4 : fieldAt c.payload 4 4 = 0)
include ready len zero1 zero4

theorem exec_restoreSparePlot (kind : fieldAt c.payload 0 1 = 1) (within : fieldAt c.payload 2 2 < 272)
    (retired : (s.plot (fieldAt c.payload 2 2)).role = .retired) (left : (s.plot (fieldAt c.payload 2 2)).restores < 2) :
    let q := s.plot (fieldAt c.payload 2 2)
    exec (.restoreSparePlot k) s = .next (reply c stOk (leBytes 1 2 ++ leBytes 1 (1 - q.restores) ++ zeros 6)
      (writeRoot { s with plots := { s.plots with
        list := kvSet (fieldAt c.payload 2 2) { q with marked := true, restores := q.restores + 1 } s.plots.list } })) := by
  intro q
  refine congrArg Host.Outcome.next ((withCtx_ready restorePlot ready).trans ?_)
  have plot : namesLane c.payload = false := by simp [namesLane, kind]
  have payload : restoreReply q.role.code (q.restores + 1) = leBytes 1 2 ++ leBytes 1 (1 - q.restores) ++ zeros 6 := by
    rw [restoreReply, show q.role.code = 2 by rw [retired, PlotRole.code], show 2 - (q.restores + 1) = 1 - q.restores by omega]
  simp only [restorePlot, plot]
  rw [if_neg nofun, if_neg (by simp [len, zero1, zero4, kind, within, retired, left]), modPlot_within within, payload]

theorem exec_restoreSpareLane (loopback retrained : Bool) (kind : fieldAt c.payload 0 1 = 2) (within : fieldAt c.payload 2 2 < 52)
    (failed : (s.lane (fieldAt c.payload 2 2)).role = .failed ∨ (s.lane (fieldAt c.payload 2 2)).role = .channelFault)
    (left : (s.lane (fieldAt c.payload 2 2)).restores < 2) :
    let l := fieldAt c.payload 2 2
    let y := (s.lane l).tested (loopback && (decide ((s.lane l).role = .failed) || retrained)) l (s.spareServes l) s.now
    exec (.restoreSpareLane k loopback retrained) s = .next (reply c stOk (restoreReply y.role.code y.restores)
      (writeRoot { s with links := { s.links with lanes := kvSet l y s.links.lanes } })) := by
  refine congrArg Host.Outcome.next ((withCtx_ready (restoreLane loopback retrained) ready).trans ?_)
  have lane : namesLane c.payload = true := by simp [namesLane, kind, len, zero1, zero4, within]
  have same : ∀ y, (writeRoot { s with links := { s.links with lanes := kvSet (fieldAt c.payload 2 2) y s.links.lanes } }).lane
      (fieldAt c.payload 2 2) = y := fun y => by
    show (kvGet _ (kvSet _ y s.links.lanes)).getD _ = y
    rw [kvGet_kvSet_same, Option.getD_some]
  simp only [restoreLane, lane]
  rw [if_neg (by simp), if_neg (by rcases failed with h | h <;> simp [h, left]), modLane_within within, same]
  rfl

end restoreSpare

theorem Lane.tested_fails {q : Lane} {ok : Bool} (h : ok = false) (l : Nat) (served : Bool) (now : Nat) :
    q.tested ok l served now = { q with restores := q.restores + 1 } := by
  simp [Lane.tested, h]

theorem Lane.tested_passes (q : Lane) (l : Nat) (served : Bool) (now : Nat) :
    let y := q.tested true l served now
    y.fails = 0 ∧ (y.role = .spareUnused ∨ ((y.role = .spareInUse ∨ y.role = .untrained) ∧ y.state = .training ∧ y.tried = now)) := by
  simp only [Lane.tested, Lane.restored, if_true]
  split
  · exact ⟨rfl, .inl rfl⟩
  · refine ⟨rfl, .inr ⟨?_, rfl, rfl⟩⟩
    dsimp only
    split
    · exact .inl rfl
    · exact .inr rfl

/- Pieces of a home (R29) -/

/-- Piece n of a home lies in the pseudo-channel after that of the piece before it, of 64. -/
theorem pieces_channel {s : State} {owner tile bytes n : Nat} {a : Nat × Nat} (h : (s.pieces owner tile bytes)[n]? = some a) :
    a.2 = (Config.firstPiece owner tile + n) % 64 := by
  simp only [State.pieces, List.getElem?_map, Option.map_eq_some_iff] at h
  obtain ⟨i, at_, rfl⟩ := h
  obtain ⟨_, rfl⟩ := List.getElem?_eq_some_iff.1 at_
  simp

theorem pieces_apart {s : State} {owner tile bytes n : Nat} {a b : Nat × Nat} (ha : (s.pieces owner tile bytes)[n]? = some a)
    (hb : (s.pieces owner tile bytes)[n + 1]? = some b) : a.2 ≠ b.2 := by
  rw [pieces_channel ha, pieces_channel hb]
  omega

end Sys2Proof.Machine

namespace Sys2Proof.Proofs
open Sys2Proof.Machine

/-- Settles O49: a failed check lists its line, and a refetch that ends takes it off again; a leak period lowers every bucket; a retirement is
recorded once no refetch runs in its range; an attempt at a plot or lane is counted and recorded; and the pieces of a home take the
pseudo-channels in turn. -/
theorem linesAndRetirement : Obligations.LinesAndRetirement := by
  unfold Obligations.LinesAndRetirement
  intro s
  refine ⟨fun l r owner readers runs => ⟨exec_lineCheckFail_passes owner readers, fun fails clean => ?_⟩, ?_,
    bucketLeak_each, ?_, ?_, fun _ _ _ _ _ _ => pieces_apart⟩
  · obtain ⟨t, ends, changes⟩ := lineCheckFail_lists r owner readers clean
    exact ⟨t, (exec_lineCheckFail_fails owner readers runs fails).trans (congrArg Host.Outcome.next ends), changes⟩
  · intro st pch bank page line f l found
    have at_ : f.line = l := refetched_line found
    refine ⟨fun clean quiet n source bytes crc passes => ?_, fun clean quiet only owner readers => ?_, fun poisoned =>
      congrArg Host.Outcome.next (refetchEnds_poison found poisoned)⟩
    · refine ⟨_, congrArg Host.Outcome.next (refetchEnds_good found clean source passes), ?_⟩
      have exempt := exempted_work (f.readFlash (some n)) f s
      have landing := exempted_landing (f.readFlash (some n)) f s
      obtain ⟨resumed, faults, corrected, buckets⟩ := lineGood_resumes at_ n (by rw [landing]; exact quiet)
      obtain ⟨frame, models⟩ := exempt.resumed.trans resumed
      rw [landing] at faults corrected buckets
      exact ⟨frame, models, fun g => by simp [faults, at_], corrected, buckets⟩
    · refine ⟨_, congrArg Host.Outcome.next (refetchEnds_failed found clean), ?_⟩
      have exempt := exempted_work (f.readFlash none) f s
      have landing := exempted_landing (f.readFlash none) f s
      obtain ⟨work, faults, uncorrected, uncorr⟩ := lineBad_poisons at_ only owner readers (by rw [landing]; exact quiet)
      obtain ⟨frame, models, cmds⟩ := exempt.trans work
      rw [landing] at faults uncorrected uncorr
      exact ⟨frame, models, cmds, ⟨{ f with readers := [], poisoned := true }, by simp [faults], at_, rfl⟩, uncorrected, uncorr⟩
  · intro k c x ready ok pages inside
    refine ⟨fun none_ => ⟨_, exec_retireRange_refused ready ok none_, ready.answered ready.toReady.key stQuota [] rfl⟩,
      fun n one alone => ⟨fun clear => ?_, exec_retireRange_waits ready ok one⟩⟩
    obtain ⟨t, records, answered⟩ := exec_retireRange_records ready ok one alone clear
    refine ⟨t, _, records, ?_, fun i => ?_, answered⟩
    · exact congrArg (modLanding (Landing.recorded pages)) (writeRoot_rootsWritten s)
    · exact List.mem_eraseDups.trans List.mem_append
  · intro k c x ready len zero1 zero4 n
    refine ⟨fun kind within retired left => ?_, fun loopback retrained kind within failed left => ?_⟩
    · exact ⟨_, _, exec_restoreSparePlot ready len zero1 zero4 kind within retired left, writeRoot_rootsWritten _,
        ready.answered ready.toReady.key stOk _ rfl⟩
    · refine ⟨_, _, _, exec_restoreSpareLane ready len zero1 zero4 loopback retrained kind within failed left, rfl, fun no => ?_, fun yes => ?_,
        writeRoot_rootsWritten _, ready.answered ready.toReady.key stOk _ rfl⟩
      · exact Lane.tested_fails (by simpa using no) ..
      · have passed : (loopback && (decide ((s.lane n).role = .failed) || retrained)) = true := by simpa using yes
        rw [passed]
        exact Lane.tested_passes ..
end Sys2Proof.Proofs
end

section
/-!
PROOFS. Tile instructions (R375 to R385): what issuing one does to the state, what each computing word does to its working state, the
bytes of an FP32 result, and O53.
-/

namespace Sys2Proof.Machine

open Sys2Proof

/- What an instruction changes on the plots -/

/-- t is u after scratchpad work and accounting: what is in flight on every plot stays. -/
structure PlotWork (u t : State) : Prop where
  frame   : t = { u with plots := t.plots, acct := t.acct }
  flights : ∀ p, (t.plot p).flights = (u.plot p).flights

theorem PlotWork.refl (s : State) : PlotWork s s := ⟨rfl, fun _ => rfl⟩

theorem PlotWork.trans {s u t : State} (first : PlotWork s u) (second : PlotWork u t) : PlotWork s t :=
  ⟨by
    calc t = _ := second.frame
      _ = _ := by rw [first.frame],
    fun p => (second.flights p).trans (first.flights p)⟩

theorem PlotWork.foldl {α : Type} {f : State → α → State} (step : ∀ s a, PlotWork s (f s a)) (l : List α) (s : State) :
    PlotWork s (l.foldl f s) := by
  induction l generalizing s with
  | nil => exact PlotWork.refl s
  | cons a l ih => exact (step s a).trans (ih (f s a))

theorem PlotWork.ite {c : Prop} [Decidable c] {s u t : State} (yes : PlotWork s u) (no : PlotWork s t) : PlotWork s (if c then u else t) := by
  split
  · exact yes
  · exact no

theorem plotWork_account (ctx : Option Nat) (f : AccCounts → AccCounts) (s : State) : PlotWork s (account ctx f s) := by
  unfold account
  dsimp only
  split <;> exact ⟨rfl, fun _ => rfl⟩

/-- A plot after a change of one plot. -/
theorem modPlot_plot (p q : Nat) (f : Plot → Plot) (s : State) :
    (modPlot p f s).plot q = if p < 272 ∧ p = q then f (s.plot q) else s.plot q := by
  by_cases within : p < 272
  · rw [modPlot_within within]
    by_cases same : p = q
    · subst same
      rw [if_pos ⟨within, rfl⟩]
      exact congrArg (Option.getD · _) (kvGet_kvSet_same ..)
    · rw [if_neg fun h => same h.2]
      exact congrArg (Option.getD · _) (kvGet_kvSet_other _ _ same)
  · rw [if_neg fun h => within h.1, modPlot, if_neg within]

/-- A change of a plot that keeps what is in flight there. -/
theorem plotWork_modPlot (p : Nat) {f : Plot → Plot} (keeps : ∀ q, (f q).flights = q.flights) (s : State) : PlotWork s (modPlot p f s) := by
  refine ⟨?_, fun q => ?_⟩
  · unfold modPlot
    split <;> rfl
  · rw [modPlot_plot]
    split
    · exact keeps _
    · rfl

theorem plotWork_evict (p : Nat) (t : Held) (s : State) : PlotWork s (evict p t s) := by
  refine PlotWork.trans ?_ (plotWork_modPlot p ?_ _)
  · exact PlotWork.ite (plotWork_account ..) (PlotWork.refl s)
  · exact fun _ => rfl

/-- Marking and dropping the copies of written tiles is scratchpad work (R35). -/
theorem plotWork_writtenBy (e : Exec) (w : Nat) (s : State) : PlotWork s (writtenBy e w s) := by
  refine PlotWork.foldl (fun s tile => ?_) _ s
  refine PlotWork.foldl (fun s q => ?_) _ s
  refine PlotWork.foldl (fun s t => ?_) _ s
  exact PlotWork.ite (PlotWork.refl s) (PlotWork.ite (plotWork_modPlot q (by intro; rfl) s) (plotWork_evict q t s))

theorem plotWork_countProblems (e : Exec) (qs : List QProblem) (s : State) : PlotWork s (countProblems e qs s) :=
  PlotWork.foldl (fun s _ => plotWork_account _ _ s) qs s

theorem plotWork_useShadow (e : Exec) (w : Nat) (s : State) : PlotWork s (useShadow e w s) := by
  unfold useShadow
  dsimp only
  refine PlotWork.trans ?_ (plotWork_modPlot _ ?_ _)
  · exact PlotWork.ite (PlotWork.refl s) ⟨rfl, fun _ => rfl⟩
  · exact fun _ => rfl

theorem plotWork_waited (e : Exec) (plot : Nat) (s : State) : PlotWork s (e.waited plot s) := by
  unfold Exec.waited resumeSeq
  dsimp only
  split
  · exact PlotWork.refl s
  · exact plotWork_account ..

/-- What is in flight on a plot stands on a listed plot. -/
theorem flight_listed {s : State} {p : Nat} {f : Flight} (h : f ∈ (s.plot p).flights) : ∃ q ∈ s.plots.list, f ∈ q.2.flights := by
  unfold State.plot at h
  generalize s.plots.list = l at *
  induction l with
  | nil => simp [kvGet, Plot.shipped] at h
  | cons x l ih =>
    rw [kvGet] at h
    split at h
    · exact ⟨x, by simp, h⟩
    · obtain ⟨q, listed, flies⟩ := ih h
      exact ⟨q, by simp [listed], flies⟩

/-- A run with an instruction in flight is not in deadlock. -/
theorem settleRun_flying {s : State} {p : Nat} {f : Flight} (h : f ∈ (s.plot p).flights) : settleRun f.key s = s := by
  obtain ⟨q, listed, flies⟩ := flight_listed h
  unfold settleRun
  split
  · rfl
  · split
    · rfl
    · dsimp only
      split
      · rfl
      · exact if_pos (List.any_eq_true.2 ⟨q, listed, List.any_eq_true.2 ⟨f, flies, decide_eq_true rfl⟩⟩)

/- An instruction issues -/

theorem execOf_some {s : State} {r : Run} {seq : Nat} {e : Exec} (h : s.execOf r seq = some e) :
    e.run = r ∧ e.seq = seq ∧ e.free = s.free ∧ s.program r.ctx r.handle = some e.prog := by
  unfold State.execOf at h
  obtain ⟨p, program, rfl⟩ := Option.map_eq_some_iff.1 h
  exact ⟨rfl, rfl, rfl, program⟩

/-- An instruction that may issue goes on from its working state. -/
theorem withTile_issues {s : State} {kind : TKind} {k : CmdKey} {seq : Nat} {e : Exec} {plot : Nat} (h : Issues s kind k seq e plot)
    (go : Exec → Nat → State → State) :
    withTile kind k seq go s = settleRun k (go (e.issued plot s) e.word (e.waited plot s)) := by
  obtain ⟨r, run, exec_, within⟩ := h.found
  obtain ⟨rfl, -, -, -⟩ := execOf_some exec_
  simp only [withTile, run, exec_]
  rw [if_neg (by simp [h.running, h.kind, h.steady, within])]
  have clear := h.clear
  have arrived := h.arrived
  unfold Exec.onPlot at clear arrived
  simp only [h.stands, h.keeps, clear, arrived]
  rfl

/- What a computing word does to the working state -/

/-- x is e after a word that writes the tiles ws: every other tile, the place in the sequence, the tokens, the step size and the hand-ons
stay. -/
structure Exec.Writes (ws : List Nat) (e x : Exec) : Prop where
  tiles  : x.prog.tiles = e.prog.tiles
  seq    : x.seq = e.seq
  key    : x.run.key = e.run.key
  ctx    : x.run.ctx = e.run.ctx
  handle : x.run.handle = e.run.handle
  pc     : x.me.pc = e.me.pc
  tokens : x.run.tokens = e.run.tokens
  eta    : x.run.eta = e.run.eta
  sent   : x.run.sent = e.run.sent
  kept   : ∀ n, (∀ m ∈ ws, (e.ref m).home ≠ n) → x.tile n = e.tile n

theorem Exec.Writes.refl (ws : List Nat) (e : Exec) : Exec.Writes ws e e := ⟨rfl, rfl, rfl, rfl, rfl, rfl, rfl, rfl, rfl, fun _ _ => rfl⟩

theorem Exec.Writes.ref {ws : List Nat} {e x : Exec} (h : Exec.Writes ws e x) (n : Nat) : x.ref n = e.ref n := by
  rw [Exec.ref, h.tiles, Exec.ref]

theorem Exec.Writes.trans {ws : List Nat} {e u x : Exec} (first : Exec.Writes ws e u) (second : Exec.Writes ws u x) : Exec.Writes ws e x where
  tiles := second.tiles.trans first.tiles
  seq := second.seq.trans first.seq
  key := second.key.trans first.key
  ctx := second.ctx.trans first.ctx
  handle := second.handle.trans first.handle
  pc := second.pc.trans first.pc
  tokens := second.tokens.trans first.tokens
  eta := second.eta.trans first.eta
  sent := second.sent.trans first.sent
  kept n other := (second.kept n fun m h => by rw [first.ref]; exact other m h).trans (first.kept n other)

/-- A change of the sequence that keeps its place. -/
theorem modSeq_pc {f : Seq → Seq} (keeps : ∀ q, (f q).pc = q.pc) (e : Exec) : (e.modSeq f).me.pc = e.me.pc := by
  show ((setAt e.run.seqs e.seq f).getD e.seq Seq.done).pc = (e.run.seqs.getD e.seq Seq.done).pc
  simp only [setAt, List.getD_eq_getElem?_getD, List.getElem?_map, List.getElem?_zipIdx]
  cases e.run.seqs[e.seq]? with
  | none => rfl
  | some q => simp [keeps]

section writes

variable {ws : List Nat} {e u : Exec}

theorem writes_modSeq {f : Seq → Seq} (keeps : ∀ q, (f q).pc = q.pc) : Exec.Writes ws u (u.modSeq f) :=
  ⟨rfl, rfl, rfl, rfl, rfl, modSeq_pc keeps u, rfl, rfl, rfl, fun _ _ => rfl⟩

theorem writes_take : Exec.Writes ws u u.take := ⟨rfl, rfl, rfl, rfl, rfl, rfl, rfl, rfl, rfl, fun _ _ => rfl⟩

/-- A tile put under a home number leaves every other home as it is. -/
theorem put_tile_other {m n : Nat} (h : m ≠ n) (t : Tile) : (u.put m t).tile n = u.tile n := by
  unfold Exec.put
  split
  · rfl
  · split
    · simp only [Exec.tile, kvGet_kvSet_other _ _ h]
    · split
      · simp only [Exec.tile, kvGet_kvSet_other _ _ h]
      · rfl

/-- Putting a tile changes the homes of the program or the tiles of the run alone. -/
theorem put_frame (n : Nat) (t : Tile) : ∃ homes tiles, u.put n t =
    { u with prog := { u.prog with homes := homes }, run := { u.run with tiles := tiles } } := by
  unfold Exec.put
  split
  · exact ⟨u.prog.homes, u.run.tiles, rfl⟩
  · split
    · exact ⟨_, u.run.tiles, rfl⟩
    · split
      · exact ⟨u.prog.homes, _, rfl⟩
      · exact ⟨u.prog.homes, u.run.tiles, rfl⟩

theorem writes_put {m : Nat} (h : m ∈ ws) (t : Tile) : Exec.Writes ws u (u.put (u.ref m).home t) := by
  have kept : ∀ n, (∀ m ∈ ws, (u.ref m).home ≠ n) → (u.put (u.ref m).home t).tile n = u.tile n := fun n other =>
    put_tile_other (other m h) t
  obtain ⟨homes, tiles, frame⟩ := put_frame (u := u) (u.ref m).home t
  rw [frame] at kept ⊢
  exact ⟨rfl, rfl, rfl, rfl, rfl, rfl, rfl, rfl, rfl, kept⟩

theorem Exec.Writes.put (first : Exec.Writes ws e u) {m : Nat} (h : m ∈ ws) (t : Tile) : Exec.Writes ws e (u.put (e.ref m).home t) := by
  rw [← first.ref]
  exact first.trans (writes_put h t)

theorem Exec.Writes.write (first : Exec.Writes ws e u) {m : Nat} (h : m ∈ ws) (x : Write) (val : Nat → Nat → FVal) :
    Exec.Writes ws e (u.write (e.ref m) x val) :=
  first.put h _

theorem Exec.Writes.take (first : Exec.Writes ws e u) : Exec.Writes ws e u.take := first.trans writes_take

end writes

/- The words -/

section words

variable {ws : List Nat} (e : Exec) {w : Nat}

theorem writes_laneOut (out : wf w 2 23 12 ∈ ws) (val : Nat → Nat → FVal) : Exec.Writes ws e (e.laneOut w val) :=
  ((Exec.Writes.refl ws e).write out _ val).take

theorem writes_scaleGrads (out : wf w 2 11 0 ∈ ws) (grads : wf w 3 11 0 ∈ ws) (g : Nat → Nat → FVal) : Exec.Writes ws e (e.scaleGrads w g) :=
  ((Exec.Writes.refl ws e).write out _ _).put grads _

theorem writes_mm (out : mDest w = false → wf w 2 11 0 ∈ ws) (grads : wf w 2 23 12 ≠ 0xFFF → wf w 3 11 0 ∈ ws) :
    Exec.Writes ws e (e.mm w) := by
  unfold Exec.mm
  dsimp only
  split
  · exact (writes_modSeq (by intro; rfl)).take
  · next here =>
    have out := out (by simpa using here)
    split
    · exact ((Exec.Writes.refl ws e).write out _ _).take
    · next other => exact (writes_scaleGrads e out (grads other) _).take

theorem writes_mmq (out : ∀ q ∈ e.prog.problems w, q.out ∈ ws) : Exec.Writes ws e (e.mmq w) := by
  refine List.foldlRecOn (motive := Exec.Writes ws e) _ _ (Exec.Writes.refl ws e) fun u h q listed => ?_
  rw [h.ref]
  exact (h.write (out q listed) _ _).take

theorem writes_close (out : wf w 2 11 0 ∈ ws) : Exec.Writes ws e (e.close w) := by
  unfold Exec.close
  split
  · exact Exec.Writes.refl ws e
  · exact (((Exec.Writes.refl ws e).write out _ _).trans (writes_modSeq (by intro; rfl))).take

theorem writes_convert (out : wf w 1 23 12 ∈ ws) : Exec.Writes ws e (e.convert w) := ((Exec.Writes.refl ws e).write out _ _).take

theorem writes_copy (out : wf w 1 23 12 ∈ ws) : Exec.Writes ws e (e.copy w) := (Exec.Writes.refl ws e).put out _

theorem writes_fill (out : wf w 1 23 12 ∈ ws) : Exec.Writes ws e (e.fill w) := ((Exec.Writes.refl ws e).write out _ _).take

theorem writes_table (out : wf w 2 11 0 ∈ ws) (scale : wf w 2 23 12 ∈ ws) : Exec.Writes ws e (e.table w) :=
  (((Exec.Writes.refl ws e).write out _ _).put scale _).take

theorem writes_score (out : wf w 2 11 0 ∈ ws) : Exec.Writes ws e (e.score w) := ((Exec.Writes.refl ws e).write out _ _).take

theorem writes_topk (out : wf w 2 11 0 ∈ ws) : Exec.Writes ws e (e.topk w) := ((Exec.Writes.refl ws e).write out _ _).take

theorem writes_checkWrite (out : wf w 1 23 12 ∈ ws) : Exec.Writes ws e (e.checkWrite w) := (Exec.Writes.refl ws e).put out _

theorem writes_compare : Exec.Writes ws e (e.compare w) := by
  unfold Exec.compare
  split
  · exact ⟨rfl, rfl, rfl, rfl, rfl, rfl, rfl, rfl, rfl, fun _ _ => rfl⟩
  · exact Exec.Writes.refl ws e

/-- An update writes the weights, and with ADAM_BC the state records. -/
theorem writes_updateWord {rule : Rule} (weights : wf w 1 11 0 ∈ ws) (records : rule = .adam → wf w 2 11 0 ∈ ws) :
    Exec.Writes ws e (e.updateWord rule w) := by
  have counts : ∀ (u : Exec) frozen bad, Exec.Writes ws u
      { u with run := { u.run with skips := u.run.skips + frozen, nonfinite := u.run.nonfinite + bad } } := fun _ _ _ =>
    ⟨rfl, rfl, rfl, rfl, rfl, rfl, rfl, rfl, rfl, fun _ _ => rfl⟩
  have put := (Exec.Writes.refl ws e).put weights
  unfold Exec.updateWord Exec.update
  dsimp only
  refine Exec.Writes.take (Exec.Writes.trans ?_ (counts ..))
  split
  · next adam => exact (put _).put (records adam) _
  · exact put _

end words

/- A computing word runs -/

/-- The operations of the synchronise class, which the sequencer itself runs. -/
def TKind.synchronise : List TKind := [.signal, .wait, .sectionOpen, .sectionClose, .haltIf, .endSeq]

/-- Every word has a unit but those of the synchronise class. -/
theorem unitOf_some {w : Nat} {kind : TKind} (h : kindOf w = some kind)
    (computes : kind ∉ TKind.synchronise) : ∃ unit, unitOf w = some unit := by
  unfold kindOf at h
  dsimp only at h
  unfold unitOf
  split at h
  case h_8 => exact absurd (List.mem_of_getElem? h) computes
  case h_9 => exact absurd h nofun
  all_goals next is => simp [is]

/-- The sequence of an instruction that issues runs on its plot. -/
theorem issued_plot {s : State} {kind : TKind} {k : CmdKey} {seq : Nat} {e : Exec} {plot : Nat} (h : Issues s kind k seq e plot) :
    (e.issued plot s).me.plot = plot := by
  obtain ⟨r, -, exec_, within⟩ := h.found
  obtain ⟨rfl, rfl, -, -⟩ := execOf_some exec_
  simp [Exec.issued, resumeSeq, Exec.onPlot, Exec.me, Exec.modSeq, Run.seq, setAt, List.getElem?_eq_getElem within]

theorem writes_issued (ws : List Nat) (e : Exec) (plot : Nat) (s : State) : Exec.Writes ws e (e.issued plot s) :=
  (writes_modSeq (by intro; rfl)).trans (writes_modSeq (by intro; rfl))

/-- The entry found by a test is the one put in place of it. -/
theorem find?_map_replaced {α : Type} {p : α → Bool} {l : List α} {a b : α} (found : l.find? p = some a) (same : p b = true) :
    (l.map fun x => if p x then b else x).find? p = some b := by
  induction l with
  | nil => exact absurd found nofun
  | cons x l ih =>
    by_cases h : p x = true
    · simp [h, same]
    · have : l.find? p = some a := by simpa [h] using found
      simp [h, ih this]

theorem runOf_replaced {s t : State} {k : CmdKey} {r x : Run} (run : s.runOf k = some r) (key : x.key = k)
    (runs : t.runs = s.runs.map fun r => if r.key = k then x else r) : t.runOf k = some x := by
  have replaced := find?_map_replaced (b := x) run (decide_eq_true key)
  rw [State.runOf, runs]
  simpa using replaced

theorem program_replaced {s t : State} {ctx handle : Nat} {p q : Program} (program : s.program ctx handle = some p)
    (programs : t.programs = kvMod (progKey ctx handle) (fun _ => q) s.programs) : t.program ctx handle = some q := by
  unfold State.program at program ⊢
  split at program
  · next within => rw [if_pos within, programs, kvGet_kvMod_same, program, Option.map_some]
  · exact absurd program nofun

/-- The instruction stands in flight on its plot. -/
theorem issue_flights {x : Exec} {w unit : Nat} (h : unitOf w = some unit) (within : x.me.plot < 272) (u : State) :
    issue x w u = { u with plots := (issue x w u).plots } ∧ ((issue x w u).plot x.me.plot).flights =
      (u.plot x.me.plot).flights ++ [⟨x.run.key, x.seq, x.run.handle, unit, x.prog.reads w, x.prog.writes w, u.now⟩] := by
  simp only [issue, h]
  refine ⟨?_, ?_⟩
  · rw [modPlot_within within]
  · rw [modPlot_plot, if_pos ⟨within, rfl⟩]

/-- A working state goes back between changes of the plots and accounting. -/
theorem commit_frame {s u v t : State} (x : Exec) (first : u = { s with plots := u.plots, acct := u.acct })
    (second : v = { commit x u with plots := v.plots }) (third : t = { v with plots := t.plots, acct := t.acct }) :
    t = { s with
      plots := t.plots, acct := t.acct, runs := s.runs.map fun r => if r.key = x.run.key then x.run else r
      programs := kvMod (progKey x.run.ctx x.run.handle) (fun _ => x.prog) s.programs, free := x.free } := by
  calc t = _ := third
    _ = { commit x u with plots := t.plots, acct := t.acct } := by rw [second]
    _ = _ := by rw [first]; rfl

/-- The state in which a computing word is in flight with its results in place. -/
def ran (x y : Exec) (w : Nat) (u : State) : State := writtenBy x w (issue x w (commit (y.next false) u))

theorem ran_frame {s u : State} {x y : Exec} {w unit : Nat} (h : unitOf w = some unit) (within : x.me.plot < 272) (before : PlotWork s u) :
    (ran x y w u = { s with
      plots := (ran x y w u).plots, acct := (ran x y w u).acct
      runs := s.runs.map fun r => if r.key = y.run.key then (y.next false).run else r
      programs := kvMod (progKey y.run.ctx y.run.handle) (fun _ => y.prog) s.programs, free := y.free }) ∧
    ((ran x y w u).plot x.me.plot).flights =
      (s.plot x.me.plot).flights ++ [⟨x.run.key, x.seq, x.run.handle, unit, x.prog.reads w, x.prog.writes w, s.now⟩] := by
  have marked := plotWork_writtenBy x w (issue x w (commit (y.next false) u))
  obtain ⟨frame, flights⟩ := issue_flights h within (commit (y.next false) u)
  have same : u.now = s.now := (congrArg State.now before.frame :)
  refine ⟨commit_frame (y.next false) before.frame frame marked.frame, (marked.flights _).trans (flights.trans ?_)⟩
  show (u.plot x.me.plot).flights ++ [⟨_, _, _, _, _, _, u.now⟩] = _
  rw [before.flights, same]

/-- A word of the matrix, vector, quantise, search, check or update class, or a COPY or FILL, that may issue runs: given its work on the
plots before it and the tiles it writes. -/
theorem computed_of {s : State} {kind : TKind} {k : CmdKey} {seq : Nat} {e : Exec} {plot : Nat} (h : Issues s kind k seq e plot)
    (bound : plot < 272) (computes : kind ∉ TKind.synchronise)
    (f : Exec → Nat → Exec) {prepare : Exec → Nat → State → State} (work : ∀ e w s, PlotWork s (prepare e w s))
    (writes : Exec.Writes (tilesWritten kind e.word (e.prog.problems e.word)) (e.issued plot s) (f (e.issued plot s) e.word)) :
    Computed s k seq e plot kind (.next (withTile kind k seq (fun e w s => runWord f e w (prepare e w s)) s)) (f (e.issued plot s) e.word) := by
  obtain ⟨r, run, exec_, within⟩ := h.found
  obtain ⟨hrun, hseq, -, program⟩ := execOf_some exec_
  obtain ⟨unit, hunit⟩ := unitOf_some h.kind computes
  have hkey : r.key = k := by simpa using List.find?_some run
  have hplot := issued_plot h
  have all := (writes_issued _ e plot s).trans writes
  have before := (plotWork_waited e plot s).trans (work (e.issued plot s) e.word (e.waited plot s))
  subst hkey hrun hseq
  obtain ⟨frame, flights⟩ := ran_frame (y := f (e.issued plot s) e.word) hunit (hplot.symm ▸ bound) before
  have ends := withTile_issues h fun e w s => runWord f e w (prepare e w s)
  rw [hplot] at flights
  rw [all.key, all.ctx, all.handle] at frame
  change _ = settleRun e.run.key (ran (e.issued plot s) (f (e.issued plot s) e.word) e.word
    (prepare (e.issued plot s) e.word (e.waited plot s))) at ends
  generalize ran _ _ _ _ = t at frame flights ends
  have programs : t.programs = _ := (congrArg State.programs frame :)
  have runs : t.runs = _ := (congrArg State.runs frame :)
  have flies := settleRun_flying (p := plot) (flights ▸ List.mem_append_right _ List.mem_cons_self)
  dsimp only at programs
  rw [← programs] at frame
  exact ⟨⟨t, unit, congrArg Host.Outcome.next (ends.trans flies), frame, runOf_replaced run all.key runs, program_replaced program programs,
    hunit, flights⟩, all.kept, all.pc, all.tokens, all.eta, all.sent⟩

section rows

variable {s : State} {kind : TKind} {k : CmdKey} {seq : Nat} {e : Exec} {plot : Nat} (bound : plot < 272)
  (computes : kind ∉ TKind.synchronise) {f : Exec → Nat → Exec}
include bound computes

/-- A word that does nothing to the plots but run. -/
theorem computed_data (writes : ∀ e w, Exec.Writes (tilesWritten kind w (e.prog.problems w)) e (f e w)) (h : Issues s kind k seq e plot) :
    Computed s k seq e plot kind (.next (dataTile kind f k seq s)) (f (e.issued plot s) e.word) :=
  computed_of (prepare := fun _ _ s => s) h bound computes f (fun _ _ => PlotWork.refl) (writes (e.issued plot s) e.word)

/-- A vector word, which writes OUT alone. -/
theorem computed_lane (out : ∀ w qs, tilesWritten kind w qs = [wf w 2 23 12]) (lane : ∀ e w, ∃ val, f e w = e.laneOut w val)
    (h : Issues s kind k seq e plot) : Computed s k seq e plot kind (.next (dataTile kind f k seq s)) (f (e.issued plot s) e.word) := by
  refine computed_data bound computes (fun e w => ?_) h
  obtain ⟨val, is⟩ := lane e w
  rw [is, out]
  exact writes_laneOut e List.mem_cons_self val

/-- A matrix word, whose multiply-accumulates are charged and which takes the shadow set. -/
theorem computed_mat (qs : Exec → Nat → List QProblem) (writes : ∀ e w, Exec.Writes (tilesWritten kind w (e.prog.problems w)) e (f e w))
    (h : Issues s kind k seq e plot) : Computed s k seq e plot kind (.next (matTile kind f qs k seq s)) (f (e.issued plot s) e.word) :=
  computed_of (prepare := fun e w s => useShadow e w (countProblems e (qs e w) s)) h bound computes f
    (fun e w s => (plotWork_countProblems e (qs e w) s).trans (plotWork_useShadow e w _)) (writes (e.issued plot s) e.word)

end rows

/- The codes of an FP32 tile (R31, R344) -/

theorem leNat_leBytes (n v : Nat) : leNat (leBytes n v) = v % 256 ^ n := by
  induction n generalizing v with
  | zero => simp [leBytes, leNat, Nat.mod_one]
  | succ n ih =>
    have power : 256 ^ (n + 1) = 2 ^ 8 * 256 ^ n := Nat.pow_succ'
    rw [leBytes, leNat, ih, BitVec.toNat_ofNat, power, Nat.mod_mul, show 2 ^ 8 = 256 from rfl]

/-- Codes of 32 bits are packed one after the other. -/
theorem packCodes_words (l : List Nat) : packCodes 32 l = l.flatMap (leBytes 4) := by
  induction l using packCodes.induct with
  | case1 => rfl
  | case2 a => simp [packCodes]
  | case3 a b t ih => simp [packCodes, ih]

theorem codeAt_packCodes_words {l : List Nat} {i : Nat} (h : i < l.length) : Tile.codeAt 32 (packCodes 32 l) i = l[i] % 2 ^ 32 := by
  have code := slice_flatMap_leBytes 4 id l [] i h
  rw [List.append_nil] at code
  rw [packCodes_words, Tile.codeAt, if_neg (by decide), fieldAt, Nat.mul_comm]
  exact (congrArg leNat code).trans (leNat_leBytes ..)

section place

variable {d : TileDecl} {r c : Nat} (cols : d.cols % 16 = 0) (right : c < d.cols)
include cols right

/-- The element at the stored position of an element is that element (R31). -/
theorem place_index : d.place (d.index r c) = (r, c) := by
  have : 0 < d.cols / 16 := by omega
  have across : c / 16 < d.cols / 16 := by omega
  have block : d.index r c / 256 = r / 16 * (d.cols / 16) + c / 16 := by unfold TileDecl.index; omega
  have inBlock : d.index r c % 256 = r % 16 * 16 + c % 16 := by unfold TileDecl.index; omega
  have down : d.index r c / 256 / (d.cols / 16) = r / 16 := by
    rw [block, Nat.mul_comm, Nat.mul_add_div this, Nat.div_eq_of_lt across, Nat.add_zero]
  have along : d.index r c / 256 % (d.cols / 16) = c / 16 := by
    rw [block, Nat.mul_comm, Nat.mul_add_mod, Nat.mod_eq_of_lt across]
  simp only [TileDecl.place, down, along, inBlock]
  ext <;> dsimp only <;> omega

theorem index_lt (rows : d.rows % 16 = 0) (below : r < d.rows) : d.index r c < d.elems := by
  have blocks : d.elems = d.rows / 16 * (d.cols / 16) * 256 := by
    unfold TileDecl.elems
    conv_lhs => rw [← Nat.div_add_mod d.rows 16, ← Nat.div_add_mod d.cols 16, rows, cols]
    ring
  have row : (r / 16 + 1) * (d.cols / 16) ≤ d.rows / 16 * (d.cols / 16) := Nat.mul_le_mul_right _ (by omega)
  rw [Nat.add_mul, Nat.one_mul] at row
  rw [blocks, TileDecl.index]
  omega

end place

/-- The code of an element written anew in a tile of 32-bit elements. -/
theorem rebuild_code {d : TileDecl} (words : fmtBits d.format = 32) (rows : d.rows % 16 = 0) (cols : d.cols % 16 = 0) (t : Tile)
    {inside : Nat → Nat → Bool} (code : Nat → Nat → Nat) (entry : Nat × Nat → Nat × Nat) {r c : Nat} (below : r < d.rows)
    (right : c < d.cols) (within : inside r c = true) : (t.rebuild d inside code entry).code d r c = code r c % 2 ^ 32 := by
  have bound := index_lt cols right rows below
  simp only [Tile.code, Tile.rebuild, words]
  rw [codeAt_packCodes_words (by simpa using bound)]
  simp [place_index cols right, within]

/-- A home of the run holds the tile put there. -/
theorem put_tile_same {e : Exec} {n : Nat} {d : TileDecl} (decl : e.prog.tiles[n]? = some d) (source : d.source = 0 ∨ d.source = 3) (t : Tile) :
    (e.put n t).tile n = t := by
  have other : d.source ≠ 4 ∧ ¬ (d.source = 1 ∨ d.source = 4) ∧ d.source ≠ 5 := by omega
  obtain ⟨persistent, kept, model⟩ := other
  simp only [Exec.put, decl, if_neg persistent, if_pos source, Exec.tile, if_neg kept, if_neg model, kvGet_kvSet_same, Option.getD_some]

/-- Element (i, j) of a vector result written to a whole FP32 tile of the run is its value, rounded to nearest. -/
theorem laneOut_code {e : Exec} {w : Nat} {val : Nat → Nat → FVal} {out : Ref} (is : e.ref (wf w 2 23 12) = out)
    (decl : e.prog.tiles[out.home]? = some out.decl) (source : out.decl.source = 0 ∨ out.decl.source = 3) (fp32_ : out.decl.format = 8)
    (shape : out.decl.shapeOk = true) (r0 : out.r0 = 0) (c0 : out.c0 = 0) (rows : out.rows = out.decl.rows) (cols : out.cols = out.decl.cols)
    {i j : Nat} (below : i < out.rows) (right : j < out.cols) :
    (e.laneOut w val).code out i j = wideCode 8 nearest (Config.nan (e.free + out.decl.index i j)).toNat (val i j) % 2 ^ 32 := by
  have sides : out.decl.rows % 16 = 0 ∧ out.decl.cols % 16 = 0 := by
    simp only [TileDecl.shapeOk, sideOk, Bool.and_eq_true, decide_eq_true_eq] at shape
    omega
  have inside : out.inside i j = true := by simp [Ref.inside, r0, c0, below, right]
  have written : (e.laneOut w val).tile out.home = (e.tile out.home).write out (laneWrite w e.free) val := by
    rw [← is] at decl source ⊢
    exact put_tile_same decl source _
  rw [Exec.code, written, r0, c0, Nat.zero_add, Nat.zero_add, Tile.write]
  rw [rebuild_code (by simp [fmtBits, fp32_]) sides.1 sides.2 _ _ _ (rows ▸ below) (cols ▸ right) inside]
  simp only [fp32_, r0, c0, Nat.sub_zero]
  rfl

end Sys2Proof.Machine

namespace Sys2Proof.Proofs

open Sys2Proof.Machine

/-- Settles O53: every computing word issues as `computed_of` says, given the tiles that it writes; and the code of an FP32 result is read
back from its place among the packed codes of its tile. -/
theorem tileComputes : Obligations.TileComputes := by
  unfold Obligations.TileComputes
  refine ⟨?_, fun e o w decl source fp32_ shape r0 c0 rows cols i below j right =>
    laneOut_code rfl decl source fp32_ shape r0 c0 rows cols below right⟩
  intro s k seq e plot bound x w Row
  have laneOps : ∀ o, Issues s (.lane o) k seq e plot →
      Computed s k seq e plot (.lane o) (.next (dataTile (.lane o) (Exec.laneOp · o ·) k seq s)) (x.laneOp o w) := fun o =>
    computed_lane bound (by simp [TKind.synchronise]) (fun _ _ => rfl) fun _ _ => ⟨_, rfl⟩
  have laneFns : ∀ g, Issues s (.fn g) k seq e plot →
      Computed s k seq e plot (.fn g) (.next (dataTile (.fn g) (Exec.laneFn · g ·) k seq s)) (x.laneFn g w) := fun g =>
    computed_lane bound (by simp [TKind.synchronise]) (fun _ _ => rfl) fun _ _ => ⟨_, rfl⟩
  have laneDfns : ∀ g, Issues s (.dfn g) k seq e plot →
      Computed s k seq e plot (.dfn g) (.next (dataTile (.dfn g) (Exec.laneDfn · g ·) k seq s)) (x.laneDfn g w) := fun g =>
    computed_lane bound (by simp [TKind.synchronise]) (fun _ _ => rfl) fun _ _ => ⟨_, rfl⟩
  have updates : ∀ r, r ≠ .adam → Issues s (.update r) k seq e plot →
      Computed s k seq e plot (.update r) (.next (dataTile (.update r) (Exec.updateWord · r ·) k seq s)) (x.updateWord r w) :=
    fun r plain => computed_data bound (by simp [TKind.synchronise]) fun e w =>
      writes_updateWord e (by cases r <;> simp [tilesWritten]) fun adam => absurd adam plain
  exact ⟨
    computed_mat bound (by simp [TKind.synchronise]) _ fun e w =>
      writes_mm e (fun h => by simp [tilesWritten, h]) fun h => by simp [tilesWritten, h],
    computed_mat bound (by simp [TKind.synchronise]) _ fun e w => writes_mmq e fun q h => List.mem_map_of_mem h,
    computed_data bound (by simp [TKind.synchronise]) fun e w => writes_close e (by simp [tilesWritten]),
    laneOps .add, laneOps .sub, laneOps .mul, laneOps .fma, laneOps .min, laneOps .max, laneOps .lt, laneOps .select,
    laneFns .exp, laneFns .recip, laneFns .rsqrt, laneFns .tanh, laneFns .sigmoid, laneFns .gelu, laneFns .softplus,
    laneDfns .tanh, laneDfns .sigmoid, laneDfns .gelu, laneDfns .softplus,
    computed_lane bound (by simp [TKind.synchronise]) (fun _ _ => rfl) fun _ _ => ⟨_, rfl⟩,
    computed_lane bound (by simp [TKind.synchronise]) (fun _ _ => rfl) fun _ _ => ⟨_, rfl⟩,
    computed_lane bound (by simp [TKind.synchronise]) (fun _ _ => rfl) fun _ _ => ⟨_, rfl⟩,
    computed_lane bound (by simp [TKind.synchronise]) (fun _ _ => rfl) fun _ _ => ⟨_, rfl⟩,
    computed_lane bound (by simp [TKind.synchronise]) (fun _ _ => rfl) fun _ _ => ⟨_, rfl⟩,
    computed_data bound (by simp [TKind.synchronise]) fun e w => writes_convert e (by simp [tilesWritten]),
    computed_data bound (by simp [TKind.synchronise]) fun e w => writes_copy e (by simp [tilesWritten]),
    computed_data bound (by simp [TKind.synchronise]) fun e w => writes_fill e (by simp [tilesWritten]),
    computed_data bound (by simp [TKind.synchronise]) fun e w => writes_table e (by simp [tilesWritten]) (by simp [tilesWritten]),
    computed_data bound (by simp [TKind.synchronise]) fun e w => writes_score e (by simp [tilesWritten]),
    computed_data bound (by simp [TKind.synchronise]) fun e w => writes_topk e (by simp [tilesWritten]),
    computed_data bound (by simp [TKind.synchronise]) fun e w => writes_checkWrite e (by simp [tilesWritten]),
    fun h => computed_of h bound (by simp [TKind.synchronise]) Exec.compare
      (fun e w s => PlotWork.ite (c := e.mismatch w = true) ⟨rfl, fun _ => rfl⟩ (PlotWork.refl s)) (writes_compare _),
    updates .step nofun, updates .sign nofun, updates .signDecay nofun,
    computed_data bound (by simp [TKind.synchronise]) fun e w => writes_updateWord e (by simp [tilesWritten]) fun _ => by simp [tilesWritten]⟩

end Sys2Proof.Proofs
end

section
/-!
PROOFS. Swerak ports (R73, R108 to R112): the rules of a port or a session changed, of an event raised, of replies made and trains dropped,
of sessions held and of a port cut; and O14.
-/

namespace Sys2Proof.Machine

open Sys2Proof

/- One port or one session changed -/

theorem modPort_port_same {n : Nat} (f : Port → Port) {s : State} (h : n < s.ports.length) : (modPort n f s).port n = f (s.port n) :=
  getD_setAt_same s.ports n f _ h

theorem modPort_port_other {n m : Nat} (f : Port → Port) (s : State) (h : m ≠ n) : (modPort n f s).port m = s.port m :=
  getD_setAt_other s.ports f _ h

/-- A change of a session that a view does not see changes the view of no session. -/
theorem modSession_view {β : Type} {f : Session → Session} (view : Session → β) (same : ∀ x, view (f x) = view x) (n m : Nat) (s : State) :
    view ((modSession n f s).session m) = view (s.session m) := by
  simp only [State.session, modSession, List.getD_eq_getElem?_getD, setAt_getElem?]
  split
  · cases s.sessions[m]? with
    | none => rfl
    | some x => exact same x
  · rfl

/-- A port with lock is one of the module's. -/
theorem port_within {s : State} {n : Nat} (h : (s.port n).lock = true) : n < s.ports.length := by
  by_contra out
  rw [State.port, List.getD_eq_default _ _ (Nat.not_lt.1 out)] at h
  exact absurd h (by decide)

/-- What holds of a port below 2 and of the other one holds of both. -/
theorem forall_ports {P : Nat → Prop} {port : Nat} (h : port < 2) : (∀ n < 2, P n) ↔ P port ∧ P (1 - port) := by
  constructor
  · exact fun all => ⟨all port h, all (1 - port) (by omega)⟩
  · rintro ⟨own, other⟩ n within
    by_cases e : n = port
    · rwa [e]
    · rwa [show n = 1 - port by omega]

theorem other_ne {port : Nat} (h : port < 2) : 1 - port ≠ port := by omega

/-- No port is up. -/
theorem portsUp_eq_zero {s : State} : s.portsUp = 0 ↔ ∀ n < 2, (s.port n).up = false := by
  rw [forall_ports (port := 0) (by decide)]
  unfold State.portsUp b2n
  cases (s.port 0).up <;> cases (s.port (1 - 0)).up <;> decide +revert

/- Events -/

/-- What holds of the log with the event and is kept by each delivery holds of the state after the event is raised. -/
theorem raise_rule {P : State → Prop} {s : State} (logged : ∀ e, P (logEvent e s)) (delivered : ∀ e u n, P u → P (deliver e u n))
    (code sev kind source ctx : Nat) (args : List Byte) : P (raise code sev kind source ctx args s) := by
  unfold raise
  dsimp only
  generalize (⟨code, sev, kind, source, s.now, ctx, args⟩ : EventRec) = e
  have start := logged e
  generalize logEvent e s = u at start
  generalize eventSessions ctx s = l
  induction l generalizing u with
  | nil => exact start
  | cons n l ih => exact ih _ (delivered e u n start)

/-- A delivery passes over the session, queues the event for it, or sends it at once. -/
theorem deliver_cases (e : EventRec) (s : State) (n : Nat) :
    deliver e s n = s ∨ deliver e s n = modSession n (queueEvent e) s ∨ deliver e s n = sendEvent n e s := by
  unfold deliver
  dsimp only
  split
  · exact .inl rfl
  · split
    · exact .inl rfl
    · exact .inr (.inl rfl)
    · split
      · exact .inr (.inl rfl)
      · exact .inr (.inr rfl)

/-- An event that is sent goes out as one packet, and the session counts it. -/
theorem sendEvent_cases (n : Nat) (e : EventRec) (s : State) :
    sendEvent n e s = s ∨ ∃ p h, sendEvent n e s = emit p h e.bytes (modSession n (fun x => { x with eventNo := (s.session n).eventNo + 1 }) s) := by
  unfold sendEvent
  split
  · exact .inl rfl
  · exact .inr ⟨_, _, rfl⟩

theorem sendEvent_ports (n : Nat) (e : EventRec) (s : State) : (sendEvent n e s).ports = s.ports := by
  rcases sendEvent_cases n e s with same | ⟨p, h, sent⟩
  · rw [same]
  · rw [sent]
    rfl

theorem deliver_ports (e : EventRec) (s : State) (n : Nat) : (deliver e s n).ports = s.ports := by
  rcases deliver_cases e s n with passed | queued | sent
  · rw [passed]
  · rw [queued]
    rfl
  · rw [sent, sendEvent_ports]

theorem raise_ports (code sev kind source ctx : Nat) (args : List Byte) (s : State) :
    (raise code sev kind source ctx args s).ports = s.ports :=
  raise_rule (P := fun u => u.ports = s.ports) (fun _ => rfl) (fun e u n h => (deliver_ports e u n).trans h) code sev kind source ctx args

/-- How a session stands: free, open or held, and until when. -/
def Session.stands (x : Session) : SessPhase × Nat := (x.phase, x.graceEnd)

theorem Session.stands_phase (x : Session) : x.stands.1 = x.phase := rfl
theorem Session.stands_grace (x : Session) : x.stands.2 = x.graceEnd := rfl

theorem queueEvent_stands (e : EventRec) (x : Session) : (queueEvent e x).stands = x.stands := by
  unfold queueEvent
  split <;> rfl

theorem deliver_stands (e : EventRec) (s : State) (n m : Nat) : ((deliver e s n).session m).stands = (s.session m).stands := by
  rcases deliver_cases e s n with passed | queued | sent
  · rw [passed]
  · rw [queued]
    exact modSession_view Session.stands (queueEvent_stands e) n m s
  · rw [sent]
    rcases sendEvent_cases n e s with same | ⟨p, h, sent⟩
    · rw [same]
    · rw [sent]
      exact modSession_view (f := fun x => { x with eventNo := (s.session n).eventNo + 1 }) Session.stands (fun _ => rfl) n m s

/-- An event leaves each session as it stood. -/
theorem raise_stands (code sev kind source ctx : Nat) (args : List Byte) (s : State) (m : Nat) :
    ((raise code sev kind source ctx args s).session m).stands = (s.session m).stands :=
  raise_rule (P := fun u => (u.session m).stands = (s.session m).stands) (fun _ => rfl)
    (fun e u n h => (deliver_stands e u n m).trans h) code sev kind source ctx args

/- Replies made -/

/-- t is u after replies to some commands were made. -/
def Replied (u t : State) : Prop :=
  t = { u with
    cmds := t.cmds, replies := t.replies, nextReply := t.nextReply, landing := { u.landing with faults := t.landing.faults }
    scans := t.scans, trains := t.trains }

theorem Replied.refl (s : State) : Replied s s := rfl

theorem Replied.trans {s u t : State} (first : Replied s u) (second : Replied u t) : Replied s t := by
  unfold Replied at first second ⊢
  calc t = _ := second
    _ = _ := by rw [first]

theorem replied_putReply (c : Cmd) (status : Nat) (sh : Bool) (payload : List Byte) (kib : Nat) (acts : List Act) (s : State) :
    Replied s (putReply c status sh payload kib acts s) := rfl

/-- The commands after a reply: those with the command's key have their reply, the others stay. -/
theorem mem_putReply_cmds {c d : Cmd} {status : Nat} {sh : Bool} {payload : List Byte} {kib : Nat} {acts : List Act} {s : State}
    (h : d ∈ (putReply c status sh payload kib acts s).cmds) : d.phase = .replied ∨ (d ∈ s.cmds ∧ d.key ≠ c.key) := by
  obtain ⟨b, mem, rfl⟩ := List.mem_map.1 h
  by_cases own : b.key = c.key
  · exact .inl (by rw [if_pos own])
  · rw [if_neg own]
    exact .inr ⟨mem, own⟩

/-- The replies after a reply: it is held when its session is, unless it answers an OPEN_SESSION (R112). -/
theorem mem_putReply_replies {c : Cmd} {r : Reply} {status : Nat} {sh : Bool} {payload : List Byte} {kib : Nat} {acts : List Act} {s : State}
    (h : r ∈ (putReply c status sh payload kib acts s).replies) :
    r ∈ s.replies ∨ r.held = (decide ((s.session r.key.session).phase = .held) && decide (r.opcode ≠ 0)) := by
  rcases List.mem_append.1 h with old | new
  · exact .inl old
  · rw [List.mem_singleton.1 new]
    exact .inr rfl

/- Trains dropped (R111, R112) -/

/-- Each of some commands completes TRANSFER_LOST. -/
def loseCmds (l : List Cmd) (s : State) : State := l.foldl (fun s c => putReply c stTransferLost false [] 0 [] s) s

theorem dropTrains_eq (ports : List Nat) (s : State) : dropTrains ports s = loseCmds (s.trainsOn ports) s := rfl

theorem replied_loseCmds (l : List Cmd) (s : State) : Replied s (loseCmds l s) := by
  induction l generalizing s with
  | nil => exact Replied.refl s
  | cons c l ih => exact (replied_putReply ..).trans (ih _)

theorem replied_dropTrains (ports : List Nat) (s : State) : Replied s (dropTrains ports s) := replied_loseCmds ..

theorem mem_loseCmds_cmds {d : Cmd} {l : List Cmd} {s : State} (h : d ∈ (loseCmds l s).cmds) :
    d.phase = .replied ∨ (d ∈ s.cmds ∧ ∀ c ∈ l, d.key ≠ c.key) := by
  induction l generalizing s with
  | nil => exact .inr ⟨h, by simp⟩
  | cons c l ih =>
    rcases ih h with done | ⟨mem, rest⟩
    · exact .inl done
    · rcases mem_putReply_cmds mem with done | ⟨mem, own⟩
      · exact .inl done
      · exact .inr ⟨mem, by simpa using ⟨own, rest⟩⟩

/-- No command is arriving any more on a port whose trains were dropped. -/
theorem dropTrains_none {ports : List Nat} {s : State} : ∀ d ∈ (dropTrains ports s).cmds, d.port ∈ ports → d.phase ≠ .arriving := by
  intro d mem on arriving
  rcases mem_loseCmds_cmds mem with done | ⟨mem, others⟩
  · simp [done] at arriving
  · exact others d (by simp [State.trainsOn, mem, arriving, on]) rfl

theorem dropTrains_idle {ports : List Nat} {s : State} (h : ∀ c ∈ s.cmds, c.port ∈ ports → c.phase ≠ .arriving) : dropTrains ports s = s := by
  have none_ : s.trainsOn ports = [] := by
    simp only [State.trainsOn, List.filter_eq_nil_iff, Bool.and_eq_true, decide_eq_true_eq, List.contains_iff_mem, not_and]
    exact fun c mem arriving on => h c mem on arriving
  rw [dropTrains_eq, none_]
  rfl

theorem mem_loseCmds_replies {r : Reply} {l : List Cmd} {s : State} (h : r ∈ (loseCmds l s).replies) :
    r ∈ s.replies ∨ r.held = (decide ((s.session r.key.session).phase = .held) && decide (r.opcode ≠ 0)) := by
  induction l generalizing s with
  | nil => exact .inl h
  | cons c l ih =>
    rcases ih h with old | new
    · exact mem_putReply_replies old
    · exact .inr new

/- Sessions held (R112) -/

/-- An open session held from a count on, with 60 s of grace; any other stays. -/
def Session.holdAt (now : Nat) (x : Session) : Session :=
  if x.phase = .opened then { x with phase := .held, graceEnd := now + 60 * countsS } else x

theorem holdSessions_sessions (s : State) : (holdSessions s).sessions = s.sessions.map (Session.holdAt s.now) := rfl

theorem holdSessions_session (s : State) (n : Nat) : (holdSessions s).session n = (s.session n).holdAt s.now := by
  rw [State.session, holdSessions_sessions, State.session, List.getD_eq_getElem?_getD, List.getElem?_map, List.getD_eq_getElem?_getD]
  cases s.sessions[n]? <;> rfl

/-- The replies of a session that was open are held. -/
theorem holdSessions_held {s : State} {r : Reply} (mem : r ∈ (holdSessions s).replies) (opened : (s.session r.key.session).phase = .opened) :
    r.held = true := by
  obtain ⟨q, _, rfl⟩ := List.mem_map.1 mem
  have key : (if decide ((s.session q.key.session).phase = .opened) = true then q.hold else q).key = q.key := by split <;> rfl
  rw [key] at opened
  rw [if_pos (decide_eq_true opened)]
  rfl

/- A port cut (R112) -/

/-- No port is up, and none can take a packet. -/
def State.bothLost (s : State) : Bool := decide (s.portsUp = 0 ∧ ([0, 1].all fun n => !(s.port n).lock || !(s.port n).enabled) = true)

theorem bothLost_iff {s : State} {port : Nat} (h : port < 2) : s.bothLost = true ↔
    ((s.port port).up = false ∧ ((s.port port).lock && (s.port port).enabled) = false) ∧
    ((s.port (1 - port)).up || ((s.port (1 - port)).lock && (s.port (1 - port)).enabled)) = false := by
  have both : s.bothLost = true ↔ ∀ n < 2, (s.port n).up = false ∧ ((s.port n).lock && (s.port n).enabled) = false := by
    rw [State.bothLost, decide_eq_true_eq, portsUp_eq_zero]
    simp only [List.all_cons, List.all_nil, Bool.and_true, ← Bool.not_and, Bool.and_eq_true, Bool.not_eq_true', forall_and]
    refine and_congr_right fun _ => ?_
    rw [forall_ports (port := 0) (by decide)]
  rw [both, forall_ports h, Bool.or_eq_false_iff]

theorem cutPort_keeps {s : State} {port : Nat} (h : s.bothLost = false) : cutPort port s = dropTrains [port] s := by
  have frame := replied_dropTrains [port] s
  have same : (dropTrains [port] s).bothLost = s.bothLost := by rw [frame]; rfl
  exact if_neg fun lost => by
    rw [← same] at h
    simp [State.bothLost, lost] at h

theorem cutPort_holds {s : State} {port : Nat} (h : s.bothLost = true) :
    cutPort port s = dropTrains [0, 1] (holdSessions (dropTrains [port] s)) := by
  have frame := replied_dropTrains [port] s
  have same : (dropTrains [port] s).bothLost = s.bothLost := by rw [frame]; rfl
  rw [← same] at h
  exact if_pos (of_decide_eq_true h)

/-- t is u after trains were dropped and sessions held. -/
def Cut (u t : State) : Prop :=
  t = { u with
    cmds := t.cmds, replies := t.replies, nextReply := t.nextReply, landing := { u.landing with faults := t.landing.faults }
    scans := t.scans, trains := t.trains, sessions := t.sessions }

theorem Cut.trans {s u t : State} (first : Cut s u) (second : Cut u t) : Cut s t := by
  unfold Cut at first second ⊢
  calc t = _ := second
    _ = _ := by rw [first]

theorem Replied.cut {u t : State} (h : Replied u t) : Cut u t := by
  unfold Cut
  calc t = _ := h
    _ = _ := by rw [h]

theorem cut_holdSessions (s : State) : Cut s (holdSessions s) := rfl

theorem cut_cutPort (port : Nat) (s : State) : Cut s (cutPort port s) := by
  by_cases lost : s.bothLost = true
  · rw [cutPort_holds lost]
    exact (replied_dropTrains ..).cut.trans <| (cut_holdSessions _).trans (replied_dropTrains ..).cut
  · rw [cutPort_keeps (by simpa using lost)]
    exact (replied_dropTrains ..).cut

/- Loss of lock (R110) -/

/-- A port without lock. -/
def unlockPort (port : Nat) (s : State) : State := modPort port (fun p => { p with lock := false, lockLost := s.now }) s

section
variable {s : State} {port : Nat} (within : port < 2) (two : s.ports.length = 2)
include within two

theorem unlockPort_own : (unlockPort port s).port port = { s.port port with lock := false, lockLost := s.now } :=
  modPort_port_same _ (by omega)

theorem unlockPort_up : ((unlockPort port s).port port).up = (s.port port).up := (congrArg Port.up (unlockPort_own within two) :)

theorem exec_portLockTimeout_up (up : (s.port port).up = true) :
    exec (.portLockTimeout port) s = .next (losePort port 2 (unlockPort port s)) :=
  congrArg Host.Outcome.next (if_pos ((unlockPort_up within two).trans up))

theorem exec_portLockTimeout_down (down : (s.port port).up = false) :
    exec (.portLockTimeout port) s = .next (cutPort port (unlockPort port s)) :=
  congrArg Host.Outcome.next (if_neg (ne_true_of_eq_false ((unlockPort_up within two).trans down)))

/-- A port that is not up and loses lock is the second one lost exactly when the other is not up and can take no packet. -/
theorem unlockPort_bothLost (down : (s.port port).up = false) : (unlockPort port s).bothLost =
    !((s.port (1 - port)).up || ((s.port (1 - port)).lock && (s.port (1 - port)).enabled)) := by
  rw [Bool.eq_iff_iff, bothLost_iff within, unlockPort_own within two, unlockPort, modPort_port_other _ s (other_ne within), Bool.not_eq_true',
    and_iff_right ⟨down, rfl⟩]

end

end Sys2Proof.Machine

namespace Sys2Proof.Proofs

open Sys2Proof.Machine

/-- Loss of lock on a port that is not up. -/
theorem lockTimeout_down {s : State} {port : Nat} (within : port < 2) (two : s.ports.length = 2) (down : (s.port port).up = false) :
    ∃ t, exec (.portLockTimeout port) s = .next t ∧ Cut (unlockPort port s) t ∧
      (∀ c ∈ t.cmds, c.port = port → c.phase ≠ .arriving) ∧
      (((s.port (1 - port)).up || ((s.port (1 - port)).lock && (s.port (1 - port)).enabled)) = true → t.sessions = s.sessions ∧
        ((∀ c ∈ s.cmds, c.port = port → c.phase ≠ .arriving) → t = unlockPort port s)) ∧
      (((s.port (1 - port)).up || ((s.port (1 - port)).lock && (s.port (1 - port)).enabled)) = false → (∀ c ∈ t.cmds, c.port < 2 → c.phase ≠ .arriving) ∧
        t.sessions = s.sessions.map (Session.holdAt s.now)) := by
  have lost := unlockPort_bothLost within two down
  refine ⟨_, exec_portLockTimeout_down within two down, cut_cutPort .., ?_⟩
  cases takes : (s.port (1 - port)).up || ((s.port (1 - port)).lock && (s.port (1 - port)).enabled) with
  | true =>
    rw [cutPort_keeps (by rw [lost, takes]; rfl)]
    refine ⟨fun c mem on => dropTrains_none c mem (by simp [on]), fun _ => ⟨?_, fun idle => ?_⟩, nofun⟩
    · rw [replied_dropTrains [port] (unlockPort port s)]
      rfl
    · exact dropTrains_idle (s := unlockPort port s) fun c mem on => idle c mem (by simpa using on)
  | false =>
    rw [cutPort_holds (by rw [lost, takes]; rfl)]
    have none_ : ∀ c ∈ (dropTrains [0, 1] (holdSessions (dropTrains [port] (unlockPort port s)))).cmds, c.port < 2 → c.phase ≠ .arriving :=
      fun c mem on => dropTrains_none c mem (by simp only [List.mem_cons, List.not_mem_nil, or_false]; omega)
    refine ⟨fun c mem on => none_ c mem (by omega), nofun, fun _ => ⟨none_, ?_⟩⟩
    rw [replied_dropTrains [0, 1], holdSessions_sessions, replied_dropTrains [port] (unlockPort port s)]
    rfl

/-- Settles O14: a change of one port for each event, and a port cut by whether the other takes packets. -/
theorem portCounts : Obligations.PortCounts := by
  unfold Obligations.PortCounts
  intro s port
  refine ⟨rfl, fun bad good => rfl, fun serving enabled lock kept => ?_, fun within two down => ?_⟩
  · refine congrArg Host.Outcome.next ?_
    simp only [heartbeatIn, serving, enabled, lock, kept]
    rfl
  · obtain ⟨t, runs, cut, none_, holds⟩ := lockTimeout_down within two down
    exact ⟨t, runs, cut, none_, holds⟩

end Sys2Proof.Proofs
end

section
/-!
PROOFS. A port lost (R110 to R112), and heartbeats (R108, R109, Table 3-12): O15 and O16.
-/

namespace Sys2Proof.Machine

open Sys2Proof

/- A port lost (R110 to R112) -/

/-- A port that is lost. -/
def Port.lose (p : Port) : Port := { p with up := false, lost := true, losses := satAdd 16 p.losses 1 }

/-- The port is down and its reply trains begin again. -/
def portDown (port : Nat) (s : State) : State := recallReplies port (modPort port Port.lose s)

/-- A port is lost, before the event is raised: with no port up any more all trains are dropped and open sessions are held. -/
def beforeLoss (port : Nat) (s : State) : State :=
  lapsePromise (dropTrains (if (portDown port s).portsUp = 0 then [0, 1] else [port])
    (if (portDown port s).portsUp = 0 then holdSessions (portDown port s) else portDown port s))

theorem losePort_raises {port : Nat} (cause : Nat) {s : State} (up : (s.port port).up = true) :
    ∃ sev args, losePort port cause s = raise 0x0001 sev 1 port 0xFFFF args (beforeLoss port s) :=
  ⟨_, _, if_neg (by simp [up])⟩

theorem beforeLoss_last {port : Nat} {s : State} (last : (portDown port s).portsUp = 0) :
    beforeLoss port s = lapsePromise (dropTrains [0, 1] (holdSessions (portDown port s))) := by
  rw [beforeLoss, if_pos last, if_pos last]

theorem beforeLoss_kept {port : Nat} {s : State} (kept : (portDown port s).portsUp ≠ 0) :
    beforeLoss port s = lapsePromise (dropTrains [port] (portDown port s)) := by
  rw [beforeLoss, if_neg kept, if_neg kept]

theorem Session.holdAt_phase (now : Nat) (x : Session) :
    (x.holdAt now).phase = if x.phase = .opened then .held else x.phase := by
  unfold Session.holdAt
  split <;> rfl

theorem cut_lapsePromise (s : State) : Cut s (lapsePromise s) := by
  unfold lapsePromise
  split <;> exact rfl

theorem lapsePromise_sessions (s : State) : (lapsePromise s).sessions = s.sessions := by
  unfold lapsePromise
  split <;> rfl

theorem lapsePromise_replies (s : State) : (lapsePromise s).replies = s.replies := by
  unfold lapsePromise
  split <;> rfl

theorem cut_beforeLoss (port : Nat) (s : State) : Cut (portDown port s) (beforeLoss port s) := by
  by_cases last : (portDown port s).portsUp = 0
  · rw [beforeLoss_last last]
    exact (cut_holdSessions _).trans <| (replied_dropTrains ..).cut.trans (cut_lapsePromise _)
  · rw [beforeLoss_kept last]
    exact (replied_dropTrains ..).cut.trans (cut_lapsePromise _)

section
variable {s : State} {port : Nat} (within : port < 2) (two : s.ports.length = 2)
include within two

theorem portDown_own : (portDown port s).port port = (s.port port).lose := modPort_port_same (s := s) Port.lose (by omega)

omit two in
theorem portDown_other : (portDown port s).port (1 - port) = s.port (1 - port) :=
  modPort_port_other Port.lose s (other_ne within)

theorem portDown_portsUp : (portDown port s).portsUp = 0 ↔ (s.port (1 - port)).up = false := by
  rw [portsUp_eq_zero, forall_ports within, portDown_own within two, portDown_other within]
  exact and_iff_right rfl

theorem beforeLoss_session (n : Nat) : (beforeLoss port s).session n =
    if (s.port (1 - port)).up = false then (s.session n).holdAt s.now else s.session n := by
  split
  case isTrue last =>
    rw [beforeLoss_last ((portDown_portsUp within two).2 last), State.session, lapsePromise_sessions, replied_dropTrains [0, 1]]
    exact holdSessions_session (portDown port s) n
  case isFalse kept =>
    rw [beforeLoss_kept (mt (portDown_portsUp within two).1 kept), State.session, lapsePromise_sessions, replied_dropTrains [port]]
    rfl

/-- With no port up any more, the replies of the sessions that were open are held, one to an OPEN_SESSION apart. -/
theorem beforeLoss_held (last : (s.port (1 - port)).up = false) {r : Reply} (mem : r ∈ (beforeLoss port s).replies) (other : r.opcode ≠ 0)
    (opened : (s.session r.key.session).phase = .opened) : r.held = true := by
  rw [beforeLoss_last ((portDown_portsUp within two).2 last), lapsePromise_replies] at mem
  rcases mem_loseCmds_replies mem with old | new
  · exact holdSessions_held old opened
  · have held : ((holdSessions (portDown port s)).session r.key.session).phase = .held := by
      rw [holdSessions_session]
      exact congrArg Session.phase (if_pos opened)
    rw [new, held]
    simpa using other

end

/-- t is s after a port was lost, with its record e in the event log. -/
structure Lost (port : Nat) (s t : State) (e : EventRec) : Prop where
  up       : (t.port port).up = false
  lost     : (t.port port).lost = true
  code     : e.code = 0x0001
  source   : e.source = port
  logged   : Logged s t e
  sessions : ∀ n, (t.session n).stands = (if (s.port (1 - port)).up = false then (s.session n).holdAt s.now else s.session n).stands
  held     : (s.port (1 - port)).up = false → ∀ r ∈ t.replies, r.opcode ≠ 0 → (s.session r.key.session).phase = .opened → r.held = true
  other    : t.port (1 - port) = s.port (1 - port)
  rest     : t.contexts = s.contexts ∧ t.media = s.media ∧ t.keeper = s.keeper

theorem losePort_lost {s : State} {port : Nat} (cause : Nat) (within : port < 2) (two : s.ports.length = 2) (up : (s.port port).up = true) :
    ∃ e, Lost port s (losePort port cause s) e := by
  obtain ⟨sev, args, raises⟩ := losePort_raises cause up
  obtain ⟨events, log, alert⟩ := raise_events 0x0001 sev 1 port 0xFFFF args (beforeLoss port s)
  have ports : (losePort port cause s).ports = (portDown port s).ports := by rw [raises, raise_ports, cut_beforeLoss]
  rw [← raises] at events log alert
  obtain ⟨keeper, -, replies, contexts, -, media, -⟩ := events.fields
  refine ⟨⟨0x0001, sev, 1, port, (beforeLoss port s).now, 0xFFFF, args⟩, ?_, ?_, rfl, rfl, ⟨?_, alert⟩, fun n => ?_,
    fun last r mem other opened => ?_, ?_, ?_, ?_, ?_⟩
  · rw [State.port, ports]
    exact (congrArg Port.up (portDown_own within two) :)
  · rw [State.port, ports]
    exact (congrArg Port.lost (portDown_own within two) :)
  · rw [log, cut_beforeLoss]
    rfl
  · rw [raises, raise_stands, beforeLoss_session within two]
  · rw [replies] at mem
    exact beforeLoss_held within two last mem other opened
  · rw [State.port, ports]
    exact portDown_other within
  · rw [contexts, cut_beforeLoss]
    rfl
  · rw [media, cut_beforeLoss]
    rfl
  · rw [keeper, cut_beforeLoss]
    rfl

/-- A loss that begins with the loss of lock is one of the port as it was. -/
theorem Lost.of_unlocked {port : Nat} {s t : State} {e : EventRec} (within : port < 2) (h : Lost port (unlockPort port s) t e) :
    Lost port s t e := by
  have other : (unlockPort port s).port (1 - port) = s.port (1 - port) := modPort_port_other _ s (other_ne within)
  obtain ⟨up, lost, code, source, logged, sessions, held, same, rest⟩ := h
  rw [other] at sessions held same
  exact ⟨up, lost, code, source, logged, sessions, held, same, rest⟩

theorem exec_portHeartbeatTimeout {s : State} {port : Nat} (up : (s.port port).up = true)
    (late : (s.port port).lastBeat + 30 * countsMs ≤ s.keeper.count) :
    exec (.portHeartbeatTimeout port) s = .next (losePort port 1 s) :=
  congrArg Host.Outcome.next (if_pos ⟨up, decide_eq_true late⟩)

/-- Both timers lose the port. -/
theorem timeout_lost {s : State} {port : Nat} (within : port < 2) (two : s.ports.length = 2) (up : (s.port port).up = true)
    {cmd : Sys2Proof.Instr} (timer : cmd ∈ [Instr.portHeartbeatTimeout port, Instr.portLockTimeout port])
    (late : cmd = .portHeartbeatTimeout port → (s.port port).lastBeat + 30 * countsMs ≤ s.keeper.count) :
    ∃ t e, exec cmd s = .next t ∧ Lost port s t e := by
  rcases List.mem_cons.1 timer with rfl | timer
  · obtain ⟨e, lost⟩ := losePort_lost 1 within two up
    exact ⟨_, e, exec_portHeartbeatTimeout up (late rfl), lost⟩
  · rw [List.mem_singleton.1 timer]
    have two' : (unlockPort port s).ports.length = 2 := by rw [unlockPort, modPort_ports, setAt_length, two]
    obtain ⟨e, lost⟩ := losePort_lost 2 within two' ((unlockPort_up within two).trans up)
    exact ⟨_, e, exec_portLockTimeout_up within two up, lost.of_unlocked within⟩

/- HEARTBEAT (R108 to R110) -/

/-- The port after a valid HEARTBEAT. -/
def beatPort (port : Nat) (s : State) : State := modPort port (fun p => { p with lastBeat := s.now, up := true, lost := false }) s

section
variable {s : State} {port : Nat} (serving : s.serving = true) (enabled : (s.port port).enabled = true) (lock : (s.port port).lock = true)
include serving enabled lock

theorem exec_heartbeat : exec (.heartbeat port) s = .next (if (s.port port).lost then
      raise 0x0002 0 1 port 0xFFFF (evArgs [(20, 1, (beatPort port s).portsUp)]) (beatPort port s) else beatPort port s) :=
  congrArg Host.Outcome.next (if_neg (by simp [serving, enabled, lock]))

theorem exec_heartbeat_lost (lost : (s.port port).lost = true) : exec (.heartbeat port) s =
    .next (raise 0x0002 0 1 port 0xFFFF (evArgs [(20, 1, (beatPort port s).portsUp)]) (beatPort port s)) := by
  rw [exec_heartbeat serving enabled lock, lost]
  rfl

end

/- HEARTBEAT_SEND (R109, Table 3-12) -/

theorem beatDue_never {s : State} {n : Nat} (never : (s.port n).beatSent = none) :
    s.beatDue n = ((s.port n).lock && (s.port n).enabled && s.serving) := by
  simp only [State.beatDue, never, Bool.and_true]

theorem beatDue_since {s : State} {n b : Nat} (last : (s.port n).beatSent = some b) :
    s.beatDue n = ((s.port n).lock && (s.port n).enabled && s.serving && s.since b (10 * countsMs)) := by
  simp only [State.beatDue, last]

theorem beatDue_serving {s : State} (serving : s.serving = true) (n : Nat) : s.beatDue n =
    ((s.port n).lock && (s.port n).enabled && ((s.port n).beatSent.all fun b => decide (b + 10 * countsMs ≤ s.keeper.count))) := by
  cases sent : (s.port n).beatSent with
  | none => rw [beatDue_never sent, serving, Option.all_none]
  | some b => rw [beatDue_since sent, serving, Bool.and_true, Option.all_some, State.since, State.now]

theorem heartbeatPayload_length (s : State) : (heartbeatPayload s).length = 16 := by
  simp [heartbeatPayload]

theorem heartbeatPayload_count (s : State) : slice (heartbeatPayload s) 0 8 = leBytes 8 s.keeper.count := by
  simp only [heartbeatPayload, List.append_assoc, slice, List.drop_zero]
  exact List.take_left' (leBytes_length 8 s.now)

/-- A HEARTBEAT with this payload. -/
def beatHeader (body : List Byte) : List Byte := mkHeader 0x01 2 0 0 0 0 0 0 16 0 0 0 body

/-- A HEARTBEAT leaves on a port, if one is due. -/
def beatIf (due : Bool) (body : List Byte) (n : Nat) (s : State) : State := if due then sendBeat body s n else s

/-- What HEARTBEAT_SEND leaves: a packet on each port where one is due, port 0 first. -/
def sendBeats (s : State) : State :=
  { beatIf (s.beatDue 1) (heartbeatPayload s) 1 (beatIf (s.beatDue 0) (heartbeatPayload s) 0 s) with newEvents := 0 }

theorem exec_heartbeatSend_idle {s : State} (none_ : (s.beatDue 0 || s.beatDue 1) = false) : exec .heartbeatSend s = .next s := by
  obtain ⟨zero, one⟩ := Bool.or_eq_false_iff.1 none_
  exact congrArg Host.Outcome.next (if_pos (by simp [zero, one]))

theorem exec_heartbeatSend_due {s : State} (some_ : (s.beatDue 0 || s.beatDue 1) = true) : exec .heartbeatSend s = .next (sendBeats s) := by
  have ports : [0, 1].filter (fun n => s.beatDue n) ≠ [] := fun none_ => by
    rw [List.filter_eq_nil_iff] at none_
    simp [none_ 0, none_ 1] at some_
  refine congrArg Host.Outcome.next ((if_neg ports).trans ?_)
  rw [List.foldl_filter]
  rfl

theorem beatIf_frame (due : Bool) (body : List Byte) (n : Nat) (s : State) :
    beatIf due body n s = { s with wire := (beatIf due body n s).wire, ports := (beatIf due body n s).ports } := by
  cases due <;> rfl

theorem beatIf_wire (due : Bool) (body : List Byte) (n : Nat) (s : State) :
    (beatIf due body n s).wire = (if due then [.packet n (beatHeader body) body] else []) ++ s.wire := by
  cases due <;> rfl

theorem beatIf_ports_length (due : Bool) (body : List Byte) (n : Nat) (s : State) : (beatIf due body n s).ports.length = s.ports.length := by
  cases due
  · rfl
  · exact setAt_length s.ports n fun p => { p with beatSent := some s.now }

theorem beatIf_port {due : Bool} (body : List Byte) {n : Nat} {s : State} (within : due = true → n < s.ports.length) (m : Nat) :
    (beatIf due body n s).port m = if due = true ∧ m = n then { s.port m with beatSent := some s.now } else s.port m := by
  cases due with
  | false => rfl
  | true =>
    by_cases own : m = n
    · subst own
      exact (modPort_port_same (fun p => { p with beatSent := some s.now }) (within rfl)).trans (if_pos ⟨rfl, rfl⟩).symm
    · exact (modPort_port_other (fun p => { p with beatSent := some s.now }) s own).trans (if_neg fun h => own h.2).symm

theorem beatDue_within {s : State} {n : Nat} (due : s.beatDue n = true) : n < s.ports.length := by
  simp only [State.beatDue, Bool.and_eq_true] at due
  obtain ⟨⟨⟨lock, -⟩, -⟩, -⟩ := due
  exact port_within lock

theorem sendBeats_frame (s : State) : sendBeats s = { s with newEvents := 0, wire := (sendBeats s).wire, ports := (sendBeats s).ports } := by
  unfold sendBeats
  rw [beatIf_frame (s.beatDue 1), beatIf_frame (s.beatDue 0)]

theorem sendBeats_wire (s : State) : (sendBeats s).wire =
    (if s.beatDue 1 then [.packet 1 (beatHeader (heartbeatPayload s)) (heartbeatPayload s)] else []) ++
    (if s.beatDue 0 then [.packet 0 (beatHeader (heartbeatPayload s)) (heartbeatPayload s)] else []) ++ s.wire := by
  rw [List.append_assoc, ← beatIf_wire, ← beatIf_wire]
  rfl

theorem sendBeats_port (s : State) : ∀ n < 2, (sendBeats s).port n =
    if s.beatDue n then { s.port n with beatSent := some s.keeper.count } else s.port n := by
  intro n within
  have first := beatIf_port (heartbeatPayload s) (beatDue_within (s := s) (n := 0))
  have now : (beatIf (s.beatDue 0) (heartbeatPayload s) 0 s).now = s.now := by rw [beatIf_frame]; rfl
  have second := beatIf_port (heartbeatPayload s) (n := 1) (s := beatIf (s.beatDue 0) (heartbeatPayload s) 0 s)
    (fun due => by rw [beatIf_ports_length]; exact beatDue_within due) n
  rw [now, first n] at second
  refine Eq.trans second ?_
  obtain rfl | rfl : n = 0 ∨ n = 1 := by omega
  · simp [State.now]
  · simp [State.now]

end Sys2Proof.Machine

namespace Sys2Proof.Proofs

open Sys2Proof.Machine

/-- Settles O15: both timers lose the port, and a loss holds the sessions when the other port is not up; a HEARTBEAT restores it. -/
theorem portLost : Obligations.PortLost := by
  unfold Obligations.PortLost
  intro s port within two four
  refine ⟨fun up cmd timer late => ?_, fun serving enabled lock lost => ?_⟩
  · obtain ⟨t, e, runs, loss⟩ := timeout_lost within two up timer late
    refine ⟨t, e, runs, loss.up, loss.lost, loss.code, loss.source, loss.logged, fun n _ => ?_, fun n _ opened last => ⟨?_, ?_⟩,
      fun n _ held => ?_, loss.other, loss.rest⟩
    · rw [← Session.stands_phase, loss.sessions]
      by_cases last : (s.port (1 - port)).up = false
      · rw [if_pos last, Session.stands_phase, Session.holdAt_phase]
        simp only [last, and_true]
      · rw [if_neg last, Session.stands_phase, if_neg fun h => last h.2]
    · rw [← Session.stands_grace, loss.sessions, if_pos last, Session.holdAt, if_pos opened]
      rfl
    · rintro r mem other rfl
      exact loss.held last r mem other opened
    · have kept : (s.session n).holdAt s.now = s.session n := if_neg (by simp [held])
      rw [← Session.stands_grace, loss.sessions, kept, ite_self, Session.stands_grace]
  · obtain ⟨events, logged⟩ := raise_events 0x0002 0 1 port 0xFFFF (evArgs [(20, 1, (beatPort port s).portsUp)]) (beatPort port s)
    have own := modPort_port_same (fun p => { p with lastBeat := s.now, up := true, lost := false }) (port_within lock)
    have beat : EventsOnly s (beatPort port s) := rfl
    refine ⟨_, _, exec_heartbeat_lost serving enabled lock lost, ?_, ?_, rfl, rfl, logged, beat.trans events⟩
    · rw [State.port, raise_ports]
      exact (congrArg Port.up own :)
    · rw [State.port, raise_ports]
      exact (congrArg Port.lost own :)

/-- Settles O16: whether one is due on each of the two ports. -/
theorem heartbeatsSent : Obligations.HeartbeatsSent := by
  unfold Obligations.HeartbeatsSent
  intro s serving
  simp only [← beatDue_serving serving]
  exact ⟨fun some_ => ⟨sendBeats s, beatHeader (heartbeatPayload s), exec_heartbeatSend_due some_, rfl, sendBeats_wire s,
    heartbeatPayload_length s, heartbeatPayload_count s, sendBeats_frame s, sendBeats_port s⟩, exec_heartbeatSend_idle⟩

end Sys2Proof.Proofs
end

section
/-!
PROOFS. Packets (Table 3-3, R76 to R79, R83, R88, R89): a header that passes its checks comes to its opcode, an admin command of one packet is
received, a packet that is refused is answered; and O9 and O10.
-/

namespace Sys2Proof.Machine

open Sys2Proof

/- The checks of a header -/

/-- A session but for what it knows of SEQUENCE. -/
def Session.noSeq (x : Session) : Session := { x with nextSeq := none, seqGaps := 0 }

/-- SEQUENCE noted changes only what the session expects next and its count of gaps (R81). -/
theorem noteSeq_noSeq (h : Header) (s : State) (m : Nat) : ((noteSeq h s).session m).noSeq = (s.session m).noSeq := by
  refine modSession_view Session.noSeq (fun x => ?_) h.session m s
  split
  · rfl
  · dsimp only
    split <;> rfl

theorem noteSeq_phase (h : Header) (s : State) (m : Nat) : ((noteSeq h s).session m).phase = (s.session m).phase :=
  (congrArg Session.phase (noteSeq_noSeq h s m) :)

theorem noteSeq_closing (h : Header) (s : State) (m : Nat) : ((noteSeq h s).session m).closing = (s.session m).closing :=
  (congrArg Session.closing (noteSeq_noSeq h s m) :)

/-- Two sessions that differ in SEQUENCE alone. -/
theorem eq_of_noSeq {x y : Session} (h : x.noSeq = y.noSeq) : x = { y with nextSeq := x.nextSeq, seqGaps := x.seqGaps } := by
  cases x
  cases y
  simp only [Session.noSeq, Session.mk.injEq] at h ⊢
  simp only [h, and_self]

section
variable {s : State} {port : Nat} {raw : List Byte} (payload : List Byte) (serving : s.serving = true) (enabled : (s.port port).enabled = true)
  (lock : (s.port port).lock = true) (whole : raw.length = 32) (magic : (decodeHeader raw).magic = 0xD2E1)
include serving enabled lock whole magic

theorem exec_packetArrival_badCrc (bad : crc32c (raw.take 28) ≠ (decodeHeader raw).hdrCrc) :
    exec (.packetArrival port raw payload) s =
      .next (badHeaderReply raw port (modPort port (fun p => { p with hdrErr := satAdd 16 p.hdrErr 1 }) s)) := by
  refine congrArg Host.Outcome.next ?_
  rw [arrive, if_neg (by simp [serving, enabled, lock]), if_neg (by simp [whole, magic]), if_pos bad]

/-- A module that is not in deep idle takes a good header of any opcode but HEARTBEAT to check 3. -/
theorem exec_packetArrival_good (good : crc32c (raw.take 28) = (decodeHeader raw).hdrCrc) (command : (decodeHeader raw).opcode ≠ 1)
    (awake : s.power.idle = .running) : exec (.packetArrival port raw payload) s = .next (checkHeader (decodeHeader raw) port payload s) := by
  refine congrArg Host.Outcome.next ?_
  rw [arrive, if_neg (by simp [serving, enabled, lock]), if_neg (by simp [whole, magic]), if_neg (not_not_intro good), if_neg command,
    wake, if_pos awake]

end

section
variable {h : Header} {port : Nat} {payload : List Byte} {s : State} (version : h.version = 1) (command : h.isReply = false)
  (opened : (s.session h.session).phase = .opened)
include version command opened

theorem checkHeader_unknown (unknown : opInfo h.opcode = none) :
    checkHeader h port payload s = rejectPacket h port stUnknownOpcode payload (noteSeq h s) := by
  have noted : (if (s.session h.session).phase = .free then s else noteSeq h s) = noteSeq h s := if_neg (by simp [opened])
  unfold checkHeader
  dsimp only
  rw [noted, if_neg (by simp [version, command]), if_neg (by simp [noteSeq_phase, opened]), unknown]

theorem checkHeader_known {info : OpInfo} (known : opInfo h.opcode = some info) (fits : info.fits h = true) :
    checkHeader h port payload s = checkContext h port info payload (noteSeq h s) := by
  have noted : (if (s.session h.session).phase = .free then s else noteSeq h s) = noteSeq h s := if_neg (by simp [opened])
  unfold checkHeader
  dsimp only
  rw [noted, if_neg (by simp [version, command]), if_neg (by simp [noteSeq_phase, opened]), known]
  exact if_pos fits

end

/- An admin command of one packet -/

theorem opInfo_admin {op : Nat} {info : OpInfo} (known : opInfo op = some info) (admin : info.admin = true) : op ∈ opsAdmin := by
  unfold opInfo at known
  dsimp only at known
  split at known
  · next mem => simpa using mem
  · split at known
    · rw [← Option.some.inj known] at admin
      cases admin
    · split at known
      · rw [← Option.some.inj known] at admin
        cases admin
      · cases known

/-- No admin command takes a predicate, or retires a range. -/
theorem capturePred_admin {c : Cmd} (s : State) (admin : c.opcode ∈ opsAdmin) : capturePred c s = s := by
  unfold capturePred
  dsimp only
  split
  · rfl
  · next q found =>
    split at found
    case h_6 => cases found
    all_goals
      next e =>
      rw [e] at admin
      exact absurd admin (by decide)

theorem retireReceived_admin {c : Cmd} (s : State) (admin : c.opcode ∈ opsAdmin) : retireReceived c s = s :=
  if_pos (.inl fun e => absurd (e ▸ admin) (by decide))

theorem markReset_other {c : Cmd} (s : State) (h : c.opcode ≠ 0x14) : c.markReset s = c := if_neg fun reset => h reset.1

theorem markFlush_other {c : Cmd} (s : State) (h : c.opcode ≠ 0x22) : c.markFlush s = c := if_neg h

/-- The command that an admin packet alone makes. -/
def Header.received (h : Header) (port : Nat) (payload : List Byte) (s : State) : Cmd :=
  { h.newCmd port s with
    parts := [(h.index, payload)], seen := [h.index], phase := .received, order := s.nextOrder, covered := false }

theorem trainLen_one {n : Nat} (h : n ≤ 65536) : trainLen n = 1 := if_pos h

theorem findCmd_none {k : CmdKey} {s : State} (h : findCmd k s = none) : ∀ d ∈ s.cmds, d.key ≠ k := by
  simpa [findCmd] using h

section
variable {h : Header} {s : State} (admin : h.isAdmin = true) (op : h.opcode ∈ opsAdmin) (target : h.opcode ∉ opsTarget)
  (single : h.total ≤ 65536) (free : findCmd h.key s = none) (opened : (s.session h.session).closing = false)
include admin op target single free opened

/-- It is received whole: no queue is reset for it, its session is not closing, and it names neither a predicate nor a range. -/
theorem acceptPacket_admin (port : Nat) (payload : List Byte) : acceptPacket (h.newCmd port s) h payload s =
    { s with cmds := s.cmds ++ [h.received port payload s], nextOrder := s.nextOrder + 1 } := by
  have others : s.cmds.filter (fun d => decide (d.key ≠ h.key)) = s.cmds :=
    List.filter_eq_self.2 fun d mem => decide_eq_true (findCmd_none free d mem)
  have notReset : h.opcode ≠ 0x14 := fun e => target (e ▸ by decide)
  have notFlush : h.opcode ≠ 0x22 := fun e => absurd (e ▸ op) (by decide)
  have whole : decide ([(h.index, payload)].length = trainLen h.total) = true := decide_eq_true (trainLen_one single).symm
  have queue : (h.newCmd port s).key.queue = .admin := by simp [Header.newCmd, Header.key, admin]
  have covered : (h.newCmd port s).covered = false := by simp [Header.newCmd, admin]
  have parts : kvSet h.index payload (h.newCmd port s).parts = [(h.index, payload)] := rfl
  have noReset : ∀ u : State, u.resettingFor (h.newCmd port s).key = false := fun u => by simp [State.resettingFor, queue]
  have open_ : ¬ (h.isAdmin = true ∧ (s.session h.session).closing = true ∧ (h.opcode ≠ 0 ∨ (s.session h.session).phase ≠ .held)) :=
    fun closing => by simp [opened] at closing
  unfold acceptPacket
  dsimp only
  rw [parts, whole, if_pos admin, markReset_other _ notReset, markFlush_other _ notFlush, if_pos rfl, covered, Bool.false_and, if_pos rfl,
    if_neg (ne_true_of_eq_false (noReset _))]
  refine (if_neg open_).trans ?_
  rw [if_pos rfl, capturePred_admin _ op, retireReceived_admin _ op]
  exact congrArg (fun l => { s with cmds := l ++ [h.received port payload s], nextOrder := s.nextOrder + 1 }) others

/-- Checks 7 to 14 of such a packet, whose lengths and payload check are right. -/
theorem checkContext_admin {info : OpInfo} (row : info.admin = true) (room : s.cmds.length < 16384) (port : Nat) {payload : List Byte}
    (len : h.lenOk payload = true) (crc : (if payload = [] then 0 else crc32c payload) = h.payCrc) :
    checkContext h port info payload s = { s with cmds := s.cmds ++ [h.received port payload s], nextOrder := s.nextOrder + 1 } := by
  have tag : checkContext h port info payload s = checkTag h port info none payload s := if_pos ⟨row, by simpa using target⟩
  have stages : checkTag h port info none payload s = checkPayload none h port payload s := by
    rw [checkTag, free]
    exact if_neg (Nat.not_le.2 room)
  have accept : checkPayload none h port payload s = acceptPacket (h.newCmd port s) h payload s :=
    (if_neg (by simp [len])).trans <| (if_neg (not_not_intro crc)).trans (if_neg (by simp [admin]))
  rw [tag, stages, accept]
  exact acceptPacket_admin admin op target single free opened port payload

end

/- What the packet of R89 says -/

/-- The flags with REPLY set, of a BAD_HEADER_CHECK reply. -/
def replyFlags (flags : Nat) : Nat := if flags % 2 = 0 then flags + 1 else flags

/-- The first 28 bytes of a BAD_HEADER_CHECK reply. -/
def badHeaderBody (raw : List Byte) : List Byte :=
  slice raw 0 4 ++ leBytes 4 (replyFlags (leNat (slice raw 4 4))) ++ slice raw 8 12 ++ leBytes 2 stBadHeader ++ zeros 6

theorem badHeaderReply_emits (raw : List Byte) (port : Nat) (s : State) :
    badHeaderReply raw port s = emit port (badHeaderBody raw ++ leBytes 4 (crc32c (badHeaderBody raw))) [] s := rfl

theorem slice_length {p : List Byte} {off n : Nat} (h : off + n ≤ p.length) : (slice p off n).length = n := by
  rw [slice, List.length_take, List.length_drop]
  omega

/-- A field that follows so many bytes. -/
theorem fieldAt_append {p : List Byte} {off : Nat} (h : p.length = off) (n v : Nat) (q : List Byte) :
    fieldAt (p ++ (leBytes n v ++ q)) off n = leNat (leBytes n v) := by
  rw [fieldAt, slice, List.drop_left' h, List.take_left' (leBytes_length n v)]

section
variable {raw : List Byte} (whole : raw.length = 32)
include whole

theorem badHeaderBody_length : (badHeaderBody raw).length = 28 := by
  simp [badHeaderBody, slice_length (p := raw) (off := 0) (n := 4) (by omega), slice_length (p := raw) (off := 8) (n := 12) (by omega)]

theorem badHeaderBody_status (q : List Byte) : fieldAt (badHeaderBody raw ++ q) 20 2 = stBadHeader := by
  have before : (slice raw 0 4 ++ leBytes 4 (replyFlags (leNat (slice raw 4 4))) ++ slice raw 8 12).length = 20 := by
    simp [slice_length (p := raw) (off := 0) (n := 4) (by omega), slice_length (p := raw) (off := 8) (n := 12) (by omega)]
  rw [badHeaderBody, List.append_assoc _ (leBytes 2 stBadHeader), List.append_assoc _ _ q, List.append_assoc _ _ q, fieldAt_append before]
  decide

end

end Sys2Proof.Machine

namespace Sys2Proof.Proofs

open Sys2Proof.Machine

/-- Settles O9, which also holds of a port with lock that is not up (log entry 140): the packet passes the checks of Table 3-3 in turn. -/
theorem packetAccepted : Obligations.PacketAccepted := by
  unfold Obligations.PacketAccepted
  intro s port raw payload info serving enabled lock awake whole magic good version command admin known row open_ notBeat target opened
    free room single len crc
  generalize hh : decodeHeader raw = h at *
  have op := opInfo_admin known row
  have fits : info.fits h = true := by simp [OpInfo.fits, admin, row]
  have accepted := checkContext_admin (s := noteSeq h s) admin op (by simpa using target) single free
    ((noteSeq_closing h s h.session).trans open_) row room port len crc
  refine ⟨{ noteSeq h s with cmds := s.cmds ++ [h.received port payload (noteSeq h s)], nextOrder := s.nextOrder + 1 },
    h.received port payload (noteSeq h s), ?_, ?_, rfl, rfl, List.append_nil _, rfl, rfl, rfl, rfl, fun n => ?_⟩
  · rw [exec_packetArrival_good payload serving enabled lock whole (hh ▸ magic) (hh ▸ good) (hh ▸ notBeat) awake, hh,
      checkHeader_known version command opened known fits, accepted]
    rfl
  · have none_ : s.cmds.find? (fun c => decide (c.key = h.key)) = none := free
    refine List.find?_append.trans ?_
    rw [none_]
    exact List.find?_cons_of_pos (p := fun c : Cmd => decide (c.key = h.key)) (decide_eq_true rfl)
  · exact eq_of_noSeq (noteSeq_noSeq h s n)

/-- Settles O10: the two refusals, in every case on an enabled port with lock, up or not (log entry 140); no command comes to be
(log entry 181). -/
theorem packetRefused : Obligations.PacketRefused := by
  unfold Obligations.PacketRefused
  intro s port raw payload serving enabled lock whole magic
  refine ⟨fun bad => ?_, fun good version command awake opened unknown => ?_⟩
  · have runs := exec_packetArrival_badCrc payload serving enabled lock whole magic bad
    rw [badHeaderReply_emits] at runs
    refine ⟨_, _, runs, rfl, badHeaderBody_status whole _, ?_, rfl⟩
    rw [List.length_append, leBytes_length, badHeaderBody_length whole]
  · have notBeat : (decodeHeader raw).opcode ≠ 1 := fun e => by
      rw [e] at unknown
      exact absurd unknown (by decide)
    have runs := exec_packetArrival_good payload serving enabled lock whole magic good notBeat awake
    rw [checkHeader_unknown version command opened unknown] at runs
    exact ⟨_, _, runs, rfl, rfl, rfl, rfl, rfl⟩

end Sys2Proof.Proofs
end

section
/-!
PROOFS. OPEN_SESSION (R101): O11.
-/

namespace Sys2Proof.Machine

open Sys2Proof

theorem exec_openSession {s : State} {k : CmdKey} {c : Cmd} (h : Ready s k 0x00 c) : exec (.openSession k) s = .next (openSession c s) :=
  congrArg Host.Outcome.next (withCmd_ready openSession h)

/-- The payload asks for a new session, and its number is free. -/
def State.opensNew (s : State) (c : Cmd) : Bool :=
  decide (fieldAt c.payload 0 1 = 1) && decide (fieldAt c.payload 8 8 = 0) && decide ((s.session c.key.session).phase = .free)

/-- The payload resumes a session that is held, with the key last issued for it. -/
def State.opensHeld (s : State) (c : Cmd) : Bool :=
  decide (fieldAt c.payload 0 1 = 2) && decide ((s.session c.key.session).phase = .held) &&
    decide (fieldAt c.payload 8 8 = (s.session c.key.session).key)

/-- The resume key that an OPEN_SESSION issues now. -/
def State.nextKey (s : State) : Nat := (Config.resumeKey s.free).toNat

/-- The payload of a reply to an OPEN_SESSION of a session. -/
def State.openBody (s : State) (n : Nat) : List Byte :=
  leBytes 8 s.nextKey ++ leBytes 2 (s.replies.filter fun r => decide (r.key.session = n) && r.held).length ++
    leBytes 2 (s.contextsOf n).length ++ zeros 4

theorem openSession_opens {s : State} {c : Cmd} (len : c.payload.length = 16) (reserved : fieldAt c.payload 1 7 = 0)
    (ok : (s.opensNew c || s.opensHeld c) = true) :
    openSession c s = complete c stOk false (s.openBody c.key.session) 0 [.afterOpen c.key.session (s.opensHeld c)]
      (modSession c.key.session (fun x =>
        if s.opensNew c then { Session.free with phase := .opened, key := s.nextKey, seqGaps := x.seqGaps }
        else { x with phase := .opened, key := s.nextKey, mask := 0, eventNo := 0 }) { s with free := s.free + 1 }) :=
  if_neg (not_or.2 ⟨not_not_intro len, not_or.2 ⟨not_not_intro reserved, by
    change ¬ (!(s.opensNew c || s.opensHeld c)) = true
    rw [ok]
    decide⟩⟩)

theorem openSession_refused {s : State} {c : Cmd} (new : s.opensNew c = false) (held : s.opensHeld c = false) : openSession c s = fail c stInvalid s :=
  if_pos (.inr (.inr (by
    simp only [State.opensNew, State.opensHeld] at new held
    simp [new, held])))

end Sys2Proof.Machine

namespace Sys2Proof.Proofs

open Sys2Proof.Machine

/-- Settles O11: the session is new, or resumed, or neither. The next key is drawn by the free counter (log entry 6). -/
theorem sessionOpened : Obligations.SessionOpened := by
  unfold Obligations.SessionOpened
  intro s k c h len reserved
  obtain rfl := h.toReady.key
  refine ⟨fun mode zero free => ?_, fun mode held key => ?_, fun notNew notHeld => ?_⟩
  · have new : s.opensNew c = true := by simp [State.opensNew, mode, zero, free]
    have notHeld : s.opensHeld c = false := by simp [State.opensHeld, mode]
    refine ⟨_, exec_openSession h.toReady, ?_⟩
    rw [openSession_opens len reserved (by rw [new]; rfl), notHeld]
    simp only [new, if_true]
    exact complete_answered _ _ _ _ _ _ (.inl h.key_queue)
  · have notNew : s.opensNew c = false := by simp [State.opensNew, mode]
    have resumes : s.opensHeld c = true := by simp [State.opensHeld, mode, held, key]
    refine ⟨_, exec_openSession h.toReady, ?_⟩
    rw [openSession_opens len reserved (by rw [resumes, Bool.or_true]), resumes]
    simp only [notNew, Bool.false_eq_true, if_false]
    exact complete_answered _ _ _ _ _ _ (.inl h.key_queue)
  · refine ⟨_, exec_openSession h.toReady, ?_⟩
    rw [openSession_refused]
    · exact fail_answered _ s h.key_queue
    · simpa [State.opensNew] using fun mode zero => notNew ⟨mode, zero⟩
    · simpa [State.opensHeld] using fun mode held => notHeld ⟨mode, held⟩

end Sys2Proof.Proofs
end

section
/-!
PROOFS. Commands of one session in a context of another: O13 and O20 fail. Nothing in either statement ties the session of a
command's key to the session of its context, and both are read off such a command.
-/

namespace Sys2Proof.Machine

open Sys2Proof

/-- A session in a phase, all else as in a free one. -/
def inPhase (p : SessPhase) : Session := { Session.free with phase := p }

/-- The one RETIRE_RANGE of `strayRetire`: of session 1, in context 1. -/
def strayRetireCmd : Cmd := { receivedRun with key := ⟨1, 1, .data, 0⟩, opcode := 0x90, phase := .waiting .lines, order := 1 }

/-- Session 1 is held and its grace has ended. It owns context 0; context 1 is of session 0, and a RETIRE_RANGE of session 1 waits in it for
its lines, all of which have settled. -/
def strayRetire : State :=
  { State.reset with
    sessions := [Session.free, inPhase .held, Session.free, Session.free]
    contexts := [(0, { batchCtx 0 0 with session := 1 }), (1, batchCtx 64 0)]
    landing := { Landing.reset with retiring := [⟨1, [0], 1⟩] }
    cmds := [strayRetireCmd] }

/-- As context 0 goes, the retirement settles and its command is answered. -/
theorem strayRetire_expires : (expireSession 1 strayRetire).replies.map (fun r => (r.key.session, r.opcode)) = [(1, 0x90)] := by decide +kernel

theorem exec_graceExpiry_strayRetire : exec (.graceExpiry 1) strayRetire = .next (expireSession 1 strayRetire) :=
  congrArg Host.Outcome.next (if_pos (by decide))

/-- The CLOSE_CONTEXT of `strayRead`: of session 0, of its context 0. -/
def closing0 : Cmd := { receivedRun with key := ⟨0, 0, .admin, 0⟩, opcode := 0x13, parts := [], seen := [] }

/-- An owned module in service. Session 0 is open and closes its context 0, in which a READ of the held session 1 stands. -/
def strayRead : State :=
  { State.reset with
    keeper := { Keeper.reset with stage := 5 }
    sec := { Security.reset with life := .owned }
    sessions := [inPhase .opened, inPhase .held, Session.free, Session.free]
    contexts := [(0, batchCtx 0 0)]
    cmds := [closing0, { receivedRun with key := ⟨1, 0, .data, 0⟩, opcode := 0x20 }] }

theorem strayRead_ready : ReadyTarget strayRead closing0.key 0x13 closing0 (batchCtx 0 0) where
  found := by decide
  opcode := rfl
  received := rfl
  turn := by decide
  serving := by decide
  serves := by decide
  running := by decide
  admin := rfl
  target := by decide
  owner := rfl
  open_ := rfl
  whole := rfl

/-- The READ waits for the quota of its held session, though the session that closes is open. -/
theorem strayRead_closes : (closeTarget closing0 strayRead).cmds.map (fun d => (d.key.context, d.phase)) =
    [(none, .replied), (some 0, .waiting (.quota stContextClosed false [] 0 []))] := by decide +kernel

end Sys2Proof.Machine

namespace Sys2Proof.Proofs

open Sys2Proof.Machine

/-- Refutes O13: freeing a context settles the retirements that waited, and a RETIRE_RANGE of the session in a context of another session is
then answered after the session's replies were discarded. -/
theorem not_graceEnds : ¬ Obligations.GraceEnds := by
  unfold Obligations.GraceEnds
  intro claim
  obtain ⟨t, _, run, _, _, replies, _⟩ := claim strayRetire 1 (by decide) (by decide) (by decide) (by decide) (by decide)
  obtain rfl : expireSession 1 strayRetire = t := Host.Outcome.next.inj (exec_graceExpiry_strayRetire.symm.trans run)
  obtain ⟨r, mem, answer⟩ : ∃ r ∈ (expireSession 1 strayRetire).replies, (r.key.session, r.opcode) = (1, 0x90) :=
    List.mem_map.1 (strayRetire_expires ▸ List.mem_singleton_self _)
  exact absurd ((congrArg Prod.snd answer).symm.trans (replies r mem (congrArg Prod.fst answer))) (by decide)

/-- Refutes O20: a command that ends with its context waits for the quota of its own session, and a held session may have one in a context
of a session that is open. -/
theorem not_contextEnds : ¬ Obligations.ContextEnds := by
  unfold Obligations.ContextEnds
  intro claim
  obtain ⟨t, _, run, _, _, _, _, _, _, ended, _⟩ := (claim strayRead closing0.key closing0 (batchCtx 0 0)).1 strayRead_ready (by decide)
  obtain rfl : closeTarget closing0 strayRead = t :=
    Host.Outcome.next.inj ((congrArg Host.Outcome.next (withCmd_ready closeTarget strayRead_ready.toReady)).symm.trans run)
  obtain ⟨d, mem, waits⟩ : ∃ d ∈ (closeTarget closing0 strayRead).cmds,
      (d.key.context, d.phase) = (some 0, .waiting (.quota stContextClosed false [] 0 [])) :=
    List.mem_map.1 (strayRead_closes ▸ List.mem_cons_of_mem _ (List.mem_singleton_self _))
  rcases ended d mem (congrArg Prod.fst waits) with replied | ⟨held, _⟩
  · exact Phase.noConfusion (replied.symm.trans (congrArg Prod.snd waits))
  · exact absurd held (by decide)

end Sys2Proof.Proofs
end

section
/-!
PROOFS. Registers whose writes act (R117, R204, R474, R490): the CAUSE bits settled, ports enabled and disabled; and O24.
-/

namespace Sys2Proof.Machine

open Sys2Proof

/- The CAUSE bits settled (R153, R468, R481) -/

/-- t is u after words left on crossings. -/
def Wired (u t : State) : Prop := t = { u with links := t.links, wire := t.wire }

theorem Wired.refl (u : State) : Wired u u := rfl

theorem Wired.trans {s u t : State} (first : Wired s u) (second : Wired u t) : Wired s t := by
  unfold Wired at first second ⊢
  calc t = _ := second
    _ = _ := by rw [first]

theorem wired_sendControl (x : Nat) (word : List Nat) (s : State) : Wired s (sendControl x word s) := rfl

theorem wired_sendAll (word : List Nat) (s : State) : Wired s (sendAll word s) := by
  unfold sendAll
  generalize s.upCrossings = l
  induction l generalizing s with
  | nil => exact Wired.refl s
  | cons x l ih => exact (wired_sendControl x word s).trans (ih _)

/-- t is u with marks for the throttling on commands and replies (R83, R96, R153). -/
structure Marked (u t : State) : Prop where
  frame   : t = { u with cmds := t.cmds, replies := t.replies }
  cmds    : (t.cmds.map fun d => (d.key, d.phase)) = u.cmds.map fun d => (d.key, d.phase)
  replies : (t.replies.map fun r => { r with cflags := 0 }) = u.replies.map fun r => { r with cflags := 0 }

theorem Marked.refl (u : State) : Marked u u := ⟨rfl, rfl, rfl⟩

theorem Marked.trans {s u t : State} (first : Marked s u) (second : Marked u t) : Marked s t where
  frame := by
    calc t = _ := second.frame
      _ = _ := by rw [first.frame]
  cmds := second.cmds.trans first.cmds
  replies := second.replies.trans first.replies

theorem marked_lapsePromise (s : State) : Marked s (lapsePromise s) := by
  unfold lapsePromise
  split
  · exact Marked.refl s
  · exact ⟨rfl, List.map_map, rfl⟩

theorem marked_markThrottled (s : State) : Marked s (markThrottled s) := by
  unfold markThrottled
  split
  · exact ⟨rfl, List.map_map, List.map_map⟩
  · exact Marked.refl s

/-- t is u after what the settling of the CAUSE bits changes beside them. -/
def Told (u t : State) : Prop :=
  t = { u with
    cmds := t.cmds, links := t.links, events := t.events, newEvents := t.newEvents, alert := t.alert, sessions := t.sessions
    ports := t.ports, replies := t.replies, wire := t.wire }

theorem Told.trans {s u t : State} (first : Told s u) (second : Told u t) : Told s t := by
  unfold Told at first second ⊢
  calc t = _ := second
    _ = _ := by rw [first]

theorem EventsOnly.told {u t : State} (h : EventsOnly u t) : Told u t := by
  calc t = _ := h
    _ = _ := by rw [h]

theorem Wired.told {u t : State} (h : Wired u t) : Told u t := by
  calc t = _ := h
    _ = _ := by rw [h]

theorem Marked.told {u t : State} (h : Marked u t) : Told u t := by
  calc t = _ := h.frame
    _ = _ := by rw [h.frame]

/-- A change of the bits raises an event; that, and a change of the lowest clock step, goes to every peer; marks follow. -/
theorem settlePower_settled (old s : State) : PowerSettled s (settlePower old s) := by
  unfold settlePower
  dsimp only
  generalize hb : (if decide (s.causeBits ≠ old.power.cause) = true then raise _ _ _ _ _ _ _ else
    modPower (fun p => { p with cause := s.causeBits }) s) = b
  have raised : EventsOnly (modPower (fun p => { p with cause := s.causeBits }) s) b := by
    rw [← hb]
    split
    · exact (raise_events ..).1
    · exact EventsOnly.refl _
  generalize hc : (if decide (s.causeBits ≠ old.power.cause) = true ∨ b.stepMin ≠ old.stepMin then sendAll _ _ else b) = w
  have wired : Wired b w := by
    rw [← hc]
    split
    · exact (show Wired b { b with links := { b.links with lastThrottle := b.now } } from rfl).trans (wired_sendAll ..)
    · exact Wired.refl b
  have marks := (marked_lapsePromise w).trans (marked_markThrottled _)
  obtain ⟨-, logged, queued, -⟩ := raised.fields
  have cmds : w.cmds = s.cmds := (congrArg State.cmds wired :).trans logged
  have replies : w.replies = s.replies := (congrArg State.replies wired :).trans queued
  exact ⟨(raised.told.trans wired.told).trans marks.told, by rw [marks.cmds, cmds], by rw [marks.replies, replies]⟩

theorem writePwrCap_ok {v : Nat} (off : Nat) (s : State) (low : 400 ≤ bits v 15 0) (high : bits v 15 0 ≤ 1250) :
    writePwrCap off v s = (stOk, settlePower s (writeRoot (modPower (fun p => { p with capW := bits v 15 0 }) s)), []) :=
  inRange_ok _ s (inside_iff.2 ⟨low, high⟩)

theorem writeAccCtrl_recal {v : Nat} (off : Nat) (s : State) (recal : bit v 0 = true) : writeAccCtrl off v s = (stOk, startRecal s, []) := by
  rw [writeAccCtrl, if_pos recal]

theorem writeOther_lnkCfg {v : Nat} (s : State) (lane : 1 ≤ bits v 15 8) (low : 4 ≤ bits v 7 0) (high : bits v 7 0 ≤ 64) :
    writeOther 0x3004 v s = (stOk, modLinks (fun l => { l with laneErrLimit := bits v 15 8, retryLimit := bits v 7 0 }) s, []) :=
  inRange_ok _ s (by rw [Bool.and_eq_true, inside_iff, inside_iff]; exact ⟨⟨lane, bits_8_le v 8⟩, low, high⟩)

/- Ports enabled and disabled (R108, R117) -/

/-- A port enabled. -/
def enablePort (n : Nat) (s : State) : State := modPort n (fun p => { p with enabled := true }) s

theorem setEnable_both (s : State) : setEnable 3 s = enablePort 1 (enablePort 0 s) := rfl

/-- A port disabled. -/
def disablePort (n : Nat) (s : State) : State := modPort n (fun p => { p with enabled := false }) s

/-- One port is left enabled, the other disabled: that is lost when it was up, else cut. -/
theorem setEnable_one {port : Nat} (h : port < 2) (s : State) : setEnable (2 ^ port) s =
    if ((disablePort (1 - port) (enablePort port s)).port (1 - port)).up = true then
      losePort (1 - port) 3 (disablePort (1 - port) (enablePort port s))
    else cutPort (1 - port) (modPort (1 - port) (fun p => { p with lost := true }) (disablePort (1 - port) (enablePort port s))) := by
  rcases (by omega : port = 0 ∨ port = 1) with rfl | rfl
  · rfl
  · rfl

/-- The port that stays enabled, and the other one, which was not up, as it is cut. -/
def enableOnly (port : Nat) (s : State) : State :=
  modPort (1 - port) (fun p => { p with lost := true }) (disablePort (1 - port) (enablePort port s))

section
variable {s : State} {port : Nat} (h : port < 2)
include h

theorem enableOnly_own (two : s.ports.length = 2) : (enableOnly port s).port port = { s.port port with enabled := true } := by
  rw [enableOnly, modPort_port_other _ _ (other_ne h).symm, disablePort, modPort_port_other _ _ (other_ne h).symm, enablePort,
    modPort_port_same _ (by omega)]

theorem disablePort_other (two : s.ports.length = 2) :
    (disablePort (1 - port) (enablePort port s)).port (1 - port) = { s.port (1 - port) with enabled := false } := by
  rw [disablePort, modPort_port_same _ (by rw [enablePort, modPort, setAt_length]; omega), enablePort, modPort_port_other _ s (other_ne h)]

theorem enableOnly_other (two : s.ports.length = 2) :
    (enableOnly port s).port (1 - port) = { s.port (1 - port) with enabled := false, lost := true } := by
  rw [enableOnly, modPort_port_same _ (by rw [disablePort, modPort, setAt_length, enablePort, modPort, setAt_length]; omega),
    disablePort_other h two]

/-- With no train begun on the other port, and its own port up or with lock, that is all. -/
theorem setEnable_idle (two : s.ports.length = 2) (down : (s.port (1 - port)).up = false)
    (takes : (s.port port).up = true ∨ (s.port port).lock = true) (idle : ∀ d ∈ s.cmds, d.port = 1 - port → d.phase ≠ .arriving) :
    setEnable (2 ^ port) s = enableOnly port s := by
  have stands : (enableOnly port s).bothLost = false := by
    rw [← Bool.not_eq_true, bothLost_iff h, enableOnly_own h two]
    rintro ⟨⟨down, locked⟩, -⟩
    rcases takes with up | lock
    · exact Bool.false_ne_true (down.symm.trans up)
    · simp [lock] at locked
  rw [setEnable_one h, disablePort_other h two, if_neg (by simp [down])]
  exact (cutPort_keeps stands).trans (dropTrains_idle fun d mem on => idle d mem (by simpa using on))

end

/-- The port that a write leaves enabled when it would clear one bit only. -/
theorem mod_four_of_bit {v port : Nat} (h : port < 2) (one : v % 4 ≠ 3) (own : bit v port = true) : v % 4 = 2 ^ port := by
  rcases (by omega : port = 0 ∨ port = 1) with rfl | rfl <;> simp only [bit, decide_eq_true_eq] at own <;> omega

theorem mod_four_of_not_bit {v port : Nat} (h : port < 2) (some : v % 4 ≠ 0) (own : bit v port = false) : Nat.lor (v % 4) (2 ^ port) = 3 := by
  rcases (by omega : port = 0 ∨ port = 1) with rfl | rfl <;> simp only [bit, decide_eq_false_iff_not] at own
  · rw [show v % 4 = 2 by omega]; rfl
  · rw [show v % 4 = 1 by omega]; rfl

/- What a PRT_PORT_CFG write does (R117) -/

section
variable {v port : Nat} (s : State) (within : port < 2)
include within

theorem writePortCfg_both (both : v % 4 = 3) : writePortCfg port v s = (stOk, enablePort 1 (enablePort 0 s), []) := by
  have own : bit v port = true := by
    rcases (by omega : port = 0 ∨ port = 1) with rfl | rfl <;> simp only [bit, decide_eq_true_eq] <;> omega
  rw [writePortCfg, if_neg (by omega), if_pos (.inl own), both, setEnable_both]

/-- A write that disables the enabled port it came in on leaves that to the departure of its reply. -/
theorem writePortCfg_later (some : v % 4 ≠ 0) (own : bit v port = false) (enabled : (s.port port).enabled = true) :
    writePortCfg port v s = (stOk, enablePort 1 (enablePort 0 s), [.disablePort (v % 4)]) := by
  rw [writePortCfg, if_neg some, if_neg (by simp [own, enabled]), mod_four_of_not_bit within some own, setEnable_both]

theorem writePortCfg_other (one : v % 4 ≠ 3) (own : bit v port = true) : writePortCfg port v s = (stOk, setEnable (2 ^ port) s, []) := by
  have mask := mod_four_of_bit within one own
  have some : v % 4 ≠ 0 := mask ▸ (Nat.two_pow_pos port).ne'
  rw [writePortCfg, if_neg some, if_pos (.inl own), mask]

end

end Sys2Proof.Machine

namespace Sys2Proof.Proofs

open Sys2Proof.Machine

/-- Settles O24, a row for each register. A port that is disabled while it is not up is cut, without PORT_LOST (log entry 140). -/
theorem registerActs : Obligations.RegisterActs := by
  unfold Obligations.RegisterActs
  intro s k c h len
  dsimp only
  refine ⟨fun off low high => ?_, fun off recal => ?_, fun off both within => ?_, fun off some within own enabled => ?_,
    fun off one within own down takes idle two => ?_, fun off none => ?_, fun off lane low high => ?_⟩
  · obtain ⟨t, run, answered⟩ := regRow_answered h len (offs := [0x4004]) writePwrCap off (by decide) (writePwrCap_ok _ s low high)
    exact ⟨_, t, run, answered, settlePower_settled ..⟩
  · exact regRow_answered h len writeAccCtrl off (by decide) (writeAccCtrl_recal _ s recal)
  · exact writeRow_answered h len _ off (by decide) (writePortCfg_both s within both)
  · exact writeRow_answered h len _ off (by decide) (writePortCfg_later s within some own enabled)
  · obtain ⟨t, run, answered⟩ := writeRow_answered h len (offs := fun o => decide (o = 0x2008)) (fun c _ v => writePortCfg c.port v) off (by decide)
      (writePortCfg_other s within one own)
    rw [setEnable_idle within two down takes idle] at answered
    exact ⟨_, t, run, rfl, enableOnly_own within two, enableOnly_other within two, answered⟩
  · exact writeRow_answered h len _ off (by decide) (if_pos none)
  · obtain ⟨t, run, answered⟩ := writeRow_answered h len (offs := fun o => !ownRow o) (fun _ => writeOther) off (by decide)
      (writeOther_lnkCfg s lane low high)
    refine ⟨t, ?_, answered⟩
    rw [← run]
    refine congrArg Host.Outcome.next ?_
    rw [withCmd_ready _ h.toReady, withCmd_ready _ h.toReady, regWriteCmd_row s len off rfl (by decide)]

end Sys2Proof.Proofs
end

section
/-!
PROOFS. Replies that depart (R77, R80, R83, R91, R92): the fields of a packet's header, what a departure changes beside the reply while
nothing is due; and O17.
-/

namespace Sys2Proof.Machine

open Sys2Proof

/- The header of a packet (Table 3-1) -/

theorem leBytes_add (m n v : Nat) : leBytes (m + n) v = leBytes m v ++ leBytes n (v / 256 ^ m) := by
  induction m generalizing v with
  | zero => simp [leBytes]
  | succ m ih =>
    rw [Nat.succ_add, leBytes, ih, Nat.div_div_eq_div_mul, ← Nat.pow_succ']
    rfl

/-- A field of some bytes of one word of a list of words. -/
theorem fieldAt_words (l : List Nat) (v : Nat) (l' : List Nat) (rest : List Byte) {i n : Nat} (fits : i + n ≤ 4) :
    fieldAt ((l ++ v :: l').flatMap (leBytes 4) ++ rest) (4 * l.length + i) n = v / 256 ^ i % 256 ^ n := by
  have word : leBytes 4 v = leBytes i v ++ (leBytes n (v / 256 ^ i) ++ leBytes (4 - (i + n)) (v / 256 ^ i / 256 ^ n)) := by
    rw [← leBytes_add, ← leBytes_add]
    congr 1
    omega
  have before : (l.flatMap (leBytes 4) ++ leBytes i v).length = 4 * l.length + i := by
    simp [List.length_flatMap, Nat.mul_comm]
  rw [List.flatMap_append, List.flatMap_cons, word]
  simp only [List.append_assoc]
  rw [← List.append_assoc (l.flatMap _), fieldAt_append before, leNat_leBytes]

section
variable (opcode flags cls tag queue ctx session index total seq status cflags : Nat) (payload : List Byte)

theorem mkHeader_opcode :
    fieldAt (mkHeader opcode flags cls tag queue ctx session index total seq status cflags payload) 3 1 = opcode % 256 := by
  refine (fieldAt_words [] _ [_, _, _, _, _, _] _ (i := 3) (n := 1) (by decide)).trans ?_
  omega

theorem mkHeader_status :
    fieldAt (mkHeader opcode flags cls tag queue ctx session index total seq status cflags payload) 20 2 = status % 65536 := by
  refine (fieldAt_words [_, _, _, _, _] _ [_] _ (i := 0) (n := 2) (by decide)).trans ?_
  omega

end

/- What is there to settle at a departure -/

theorem foldl_stays {α β : Type} {f : β → α → β} {l : List α} {b : β} (stays : ∀ a ∈ l, f b a = b) : l.foldl f b = b := by
  induction l with
  | nil => rfl
  | cons a l ih =>
    rw [List.foldl_cons, stays a List.mem_cons_self]
    exact ih fun x mem => stays x (List.mem_cons_of_mem a mem)

theorem mem_of_kvGet {α : Type} {k : Nat} {v : α} {t : KV α} (h : kvGet k t = some v) : (k, v) ∈ t := by
  induction t with
  | nil => exact absurd h nofun
  | cons p t ih =>
    obtain ⟨j, w⟩ := p
    by_cases own : j = k
    · subst own
      rw [Option.some.inj ((if_pos rfl).symm.trans h)]
      exact List.mem_cons_self
    · exact List.mem_cons_of_mem _ (ih ((if_neg own).symm.trans h))

theorem kvGet_of_mem {α : Type} {k : Nat} {v : α} {t : KV α} (sorted : kvSorted t = true) (h : (k, v) ∈ t) : kvGet k t = some v := by
  induction t with
  | nil => exact absurd h List.not_mem_nil
  | cons p t ih =>
    obtain ⟨above, rest⟩ := (kvSorted_cons p t).1 sorted
    rcases List.mem_cons.1 h with rfl | mem
    · exact if_pos rfl
    · exact (if_neg (Nat.ne_of_lt (above _ mem))).trans (ih rest mem)

/-- To set a key to the value it has changes nothing. -/
theorem kvSet_self {α : Type} {k : Nat} {v : α} {t : KV α} (sorted : kvSorted t = true) (h : (k, v) ∈ t) : kvSet k v t = t := by
  induction t with
  | nil => exact absurd h List.not_mem_nil
  | cons p t ih =>
    obtain ⟨above, rest⟩ := (kvSorted_cons p t).1 sorted
    rcases List.mem_cons.1 h with rfl | mem
    · exact (if_neg (Nat.lt_irrefl k)).trans (if_pos rfl)
    · have lt := above _ mem
      rw [kvSet, if_neg (by omega), if_neg (by omega), ih rest mem]

theorem kvMod_self {α : Type} {k : Nat} {v : α} {f : α → α} {t : KV α} (sorted : kvSorted t = true) (h : (k, v) ∈ t) (same : f v = v) :
    kvMod k f t = t := by
  rw [kvMod_some f (kvGet_of_mem sorted h), same, kvSet_self sorted h]

section
variable {s : State} (h : s.Still)
include h

theorem settleWindows_still : settleWindows s = s := by
  refine foldl_stays fun x mem => ?_
  by_cases placed : x.2.state = .placed
  · obtain ⟨closed, settled⟩ := (h.models x mem).2 placed
    have same : { x.2 with windowKib := 0 } = x.2 := by rw [← closed]
    rw [if_neg (not_not_intro placed), if_neg (by simp [settled]), kvMod_self h.sorted mem same]
  · exact if_pos placed

theorem settleEnds_still : settleEnds s = s := by
  unfold settleEnds
  dsimp only
  rw [foldl_stays (l := s.indexes) fun x mem => ?_, foldl_stays (l := s.models) fun m mem => ?_, settleRetiring_none h.retiring,
    settleWindows_still h]
  · rw [(h.models m mem).1]
  · obtain ⟨stays, built⟩ := h.indexes x mem
    rw [stays]
    exact if_neg fun due => built due.1

end

/-- What holds no torn-down context loses none at a departure. -/
theorem freeTorn_whole {s : State} (whole : ∀ x ∈ s.contexts, x.2.torn = none) (r : Reply) : freeTorn r s = s := by
  unfold freeTorn
  dsimp only
  split
  · rfl
  · split
    · rfl
    · next x found =>
      rw [whole _ (mem_of_kvGet found)]

theorem retryQuota_none {s : State} (none_ : ∀ c ∈ s.cmds, ∀ a b d e f, c.phase ≠ .waiting (.quota a b d e f)) : retryQuota s = s :=
  foldl_stays fun c mem => by
    split
    · next st sh payload kib acts waits => exact absurd waits (none_ c mem st sh payload kib acts)
    · rfl

/-- With no event queued and none dropped, only what is queued is written again. -/
theorem flushEvents_none {s : State} {n : Nat} (queued : (s.session n).queued = []) (dropped : (s.session n).dropped = none) :
    ∃ l, flushEvents n s = { s with sessions := l } := by
  unfold flushEvents
  split
  · exact ⟨_, rfl⟩
  · dsimp only
    rw [queued, dropped]
    exact ⟨_, rfl⟩

theorem account_acct (ctx : Option Nat) (f : AccCounts → AccCounts) (s : State) : ∃ a, account ctx f s = { s with acct := a } := by
  unfold account
  dsimp only
  split <;> exact ⟨_, rfl⟩

theorem countDeparture_acct (r : Reply) (c : Option Cmd) (late : Bool) (s : State) : ∃ a, countDeparture r c late s = { s with acct := a } := by
  obtain ⟨a, first⟩ := account_acct r.key.context (fun a => { a with thReplies := a.thReplies + b2n (bit r.cflags 1) }) s
  unfold countDeparture
  rw [first]
  cases c with
  | none => exact ⟨a, rfl⟩
  | some c =>
    dsimp only
    split
    · obtain ⟨b, second⟩ := account_acct r.key.context (fun a => { a with
        covered := a.covered + b2n c.covered, exceeded := a.exceeded + b2n (c.covered && late), exempt := a.exempt + b2n !c.covered })
        { s with acct := a }
      exact ⟨b, second⟩
    · exact ⟨a, rfl⟩

/- The departure -/

/-- The commands after a reply has gone: its own is gone, unless it answered a rejected packet. -/
theorem mem_dropReply {r : Reply} {s : State} {c : Cmd} (h : c ∈ (dropReply r s).cmds) :
    c ∈ s.cmds ∧ (r.reject = false → c.key = r.key → c.phase ≠ .replied) := by
  unfold dropReply at h
  cases reject : r.reject with
  | true => exact ⟨by simpa [reject] using h, nofun⟩
  | false =>
    obtain ⟨mem, stays⟩ : c ∈ s.cmds ∧ (c.key ≠ r.key ∨ c.phase ≠ .replied) := by simpa [reject] using h
    exact ⟨mem, fun _ own => stays.resolve_left (not_not_intro own)⟩

theorem mem_dropReply_other {r : Reply} {s : State} {c : Cmd} (h : c ∈ s.cmds) (other : c.key ≠ r.key) : c ∈ (dropReply r s).cmds := by
  unfold dropReply
  dsimp only
  split
  · exact h
  · exact List.mem_filter.2 ⟨h, by simp [other]⟩

/-- What the last packet of a reply without acts leaves, while nothing is due. -/
theorem departed_quiet {s : State} {r : Reply} (acts : r.acts = []) (whole : ∀ x ∈ s.contexts, x.2.torn = none) (still : s.Still)
    (quota : ∀ c ∈ s.cmds, ∀ a b d e f, c.phase ≠ .waiting (.quota a b d e f)) (queued : (s.session r.key.session).queued = [])
    (dropped : (s.session r.key.session).dropped = none) :
    ∃ a l, departed r s =
      { dropReply r s with acct := a, sessions := l, power := { s.power with idleSince := s.now } } := by
  unfold departed
  dsimp only
  obtain ⟨a, counted⟩ := countDeparture_acct r (if r.reject = true then none else findCmd r.key s)
    ((Option.map (fun c => decide (s.bound r c < s.now)) (if r.reject = true then none else findCmd r.key s)).getD false) s
  rw [counted, acts, List.foldl_nil]
  rw [freeTorn_whole (s := dropReply r { s with acct := a }) whole,
    settleEnds_still (s := dropReply r { s with acct := a }) ⟨still.indexes, still.models, still.sorted, still.retiring⟩,
    retryQuota_none (s := dropReply r { s with acct := a }) fun c mem => quota c (mem_dropReply mem).1]
  obtain ⟨l, flushed⟩ := flushEvents_none (s := dropReply r { s with acct := a }) queued dropped
  rw [flushed]
  exact ⟨a, l, rfl⟩

/-- The header of the next packet of a reply. -/
def State.replyHeader (s : State) (r : Reply) : List Byte :=
  mkHeader r.opcode
    (1 + 2 * b2n (decide (r.key.queue = .admin)) + 4 * b2n (decide (trainLen r.payload.length > 1)) + 8 * b2n r.held)
    r.cls r.key.tag r.hdrQueue r.hdrCtx r.key.session r.sent r.payload.length r.seq r.status (s.flagsOf r)
    (slice r.payload (65536 * r.sent) 65536)

theorem emitReply_emits (r : Reply) (port : Nat) (s : State) :
    emitReply r port s = emit port (s.replyHeader r) (slice r.payload (65536 * r.sent) 65536) s := rfl

theorem trainLen_many {n : Nat} (h : 65536 < n) : 1 < trainLen n := by
  rw [trainLen, if_neg (by omega), ceilDiv]
  omega

section
variable {s : State} {r : Reply}

theorem exec_replyDeparture (found : s.replies.find? (fun q => decide (q.id = r.id)) = some r) (serving : s.serving = true)
    (up : (s.port r.port).up = true) (departs : s.departs r = true) (first : r.on = none) :
    exec (.replyDeparture r.id) s = .next (depart r r.port s) := by
  have port : r.on.or (s.departPort r) = some r.port := by rw [first, State.departPort, if_pos up]; rfl
  refine congrArg Host.Outcome.next ?_
  rw [found]
  dsimp only
  rw [port]
  exact if_pos ⟨serving, departs⟩

variable (none_ : r.sent = 0)
include none_

theorem depart_first (long : 65536 < r.payload.length) : depart r r.port s = { s with
    wire := .packet r.port (s.replyHeader r) (slice r.payload 0 65536) :: s.wire, power := { s.power with idleSince := s.keeper.count }
    replies := s.replies.map fun q => if q.id = r.id then { q with sent := q.sent + 1, on := some r.port } else q } := by
  unfold depart
  rw [emitReply_emits, none_, if_pos (trainLen_many long)]
  rfl

theorem depart_only (short : r.payload.length ≤ 65536) :
    depart r r.port s = departed r (emit r.port (s.replyHeader r) r.payload s) := by
  have body : slice r.payload (65536 * r.sent) 65536 = r.payload := by
    rw [none_]
    exact List.take_of_length_le short
  unfold depart
  rw [emitReply_emits, body, none_, trainLen_one short]
  rfl

end

end Sys2Proof.Machine

namespace Sys2Proof.Proofs

open Sys2Proof.Machine

/-- Settles O17 in its two cases: the first packet of a train, and the only packet of a reply while nothing is due. -/
theorem replyDeparts : Obligations.ReplyDeparts := by
  unfold Obligations.ReplyDeparts
  intro s r found serving up departs on none_
  have runs := exec_replyDeparture found serving up departs on
  refine ⟨fun long => ?_, fun short acts whole still quota quiet four within => ?_⟩
  · rw [depart_first none_ long] at runs
    exact ⟨_, _, runs, mkHeader_opcode .., rfl⟩
  · obtain ⟨queued, dropped⟩ := quiet _ within
    obtain ⟨a, l, leaves⟩ := departed_quiet (s := emit r.port (s.replyHeader r) r.payload s) acts whole
      ⟨still.indexes, still.models, still.sorted, still.retiring⟩ quota queued dropped
    rw [depart_only none_ short, leaves] at runs
    refine ⟨_, _, runs, rfl, mkHeader_opcode .., mkHeader_status .., fun q mem => ?_, fun reject c mem own => ?_, rfl, fun c mem other => ?_⟩
    · exact of_decide_eq_true (List.mem_filter.1 mem).2
    · exact (mem_dropReply mem).2 reject own
    · exact mem_dropReply_other mem other

end Sys2Proof.Proofs
end

section
/-!
PROOFS. Commands that end with a context (R116, R127): what each leaves, and what stays as it was.
-/

namespace Sys2Proof.Machine

open Sys2Proof

/- What is left of the entries of an INSERT (R302) -/

/-- Every index of u is one of t, which may have lost nodes and entries of its silt list, and nothing else. -/
def IndexCut (u t : State) : Prop :=
  ∀ i x, kvGet i u.indexes = some x → ∃ y, kvGet i t.indexes = some y ∧ y = { x with nodes := y.nodes, siltList := y.siltList } ∧
    (∀ d ∈ y.nodes, d ∈ x.nodes) ∧ ∀ j ∈ y.siltList, j ∈ x.siltList

theorem IndexCut.of_eq {u t : State} (same : t.indexes = u.indexes) : IndexCut u t :=
  fun _ x h => ⟨x, same ▸ h, rfl, fun _ mem => mem, fun _ mem => mem⟩

theorem IndexCut.trans {s u t : State} (first : IndexCut s u) (second : IndexCut u t) : IndexCut s t := by
  intro i x h
  obtain ⟨y, hy, same, nodes, silt⟩ := first i x h
  obtain ⟨z, hz, same', nodes', silt'⟩ := second i y hy
  refine ⟨z, hz, ?_, fun d mem => nodes d (nodes' d mem), fun j mem => silt j (silt' j mem)⟩
  calc z = _ := same'
    _ = _ := by rw [same]

/-- An index without the nodes and the silt of a cut INSERT. -/
def Index.without (ids : List Nat) (x : Index) : Index :=
  { x with nodes := x.nodes.filter fun d => !ids.contains d.1, siltList := x.siltList.filter fun j => !ids.contains j }

theorem undoInsert_cases (c : Cmd) (s : State) :
    undoInsert c s = s ∨ undoInsert c s = { s with indexes := kvMod (fieldAt c.payload 0 1) (Index.without c.ids) s.indexes } := by
  unfold undoInsert
  split
  · exact .inl rfl
  · exact .inr rfl

theorem indexCut_undoInsert (c : Cmd) (s : State) : IndexCut s (undoInsert c s) := by
  rcases undoInsert_cases c s with same | cut
  · exact IndexCut.of_eq (congrArg State.indexes same)
  · intro i x h
    rw [cut]
    by_cases own : fieldAt c.payload 0 1 = i
    · subst own
      exact ⟨x.without c.ids, by rw [kvGet_kvMod_same, h]; rfl, rfl, fun d mem => (List.mem_filter.1 mem).1, fun j mem => (List.mem_filter.1 mem).1⟩
    · exact ⟨x, (kvGet_kvMod_other _ _ own).trans h, rfl, fun _ mem => mem, fun _ mem => mem⟩

/- The end of one command -/

/-- t is u after commands have ended: what they held is gone, and replies were made. -/
structure Ended (u t : State) : Prop where
  frame : t = { u with
    cmds := t.cmds, replies := t.replies, nextReply := t.nextReply, free := t.free, landing := { u.landing with faults := t.landing.faults }
    scans := t.scans, trains := t.trains, media := t.media, indexes := t.indexes, sec := { u.sec with vault := t.sec.vault } }
  cut : IndexCut u t

theorem Ended.refl (s : State) : Ended s s := ⟨rfl, IndexCut.of_eq rfl⟩

theorem Ended.trans {s u t : State} (first : Ended s u) (second : Ended u t) : Ended s t where
  frame := by
    calc t = _ := second.frame
      _ = _ := by rw [first.frame]
  cut := first.cut.trans second.cut

theorem Ended.sessions {s t : State} (h : Ended s t) : t.sessions = s.sessions := (congrArg State.sessions h.frame :)
theorem Ended.contexts {s t : State} (h : Ended s t) : t.contexts = s.contexts := (congrArg State.contexts h.frame :)
theorem Ended.runs {s t : State} (h : Ended s t) : t.runs = s.runs := (congrArg State.runs h.frame :)
theorem Ended.searches {s t : State} (h : Ended s t) : t.searches = s.searches := (congrArg State.searches h.frame :)

theorem Replied.ended {u t : State} (h : Replied u t) : Ended u t where
  frame := by
    calc t = _ := h
      _ = _ := by rw [h]
  cut := IndexCut.of_eq (congrArg State.indexes h :)

/-- t is u after changes of the media only. -/
def MediaOnly (u t : State) : Prop := t = { u with media := t.media }

theorem MediaOnly.trans {s u t : State} (first : MediaOnly s u) (second : MediaOnly u t) : MediaOnly s t := by
  unfold MediaOnly at first second ⊢
  calc t = _ := second
    _ = _ := by rw [first]

theorem mediaOnly_modMedia (f : Media → Media) (s : State) : MediaOnly s (modMedia f s) := rfl

theorem mediaOnly_journal (e : JEntry) (s : State) : MediaOnly s (journal e s) := mediaOnly_modMedia _ s

theorem mediaOnly_remap (owner unit : Nat) (e : Option MapEntry) (s : State) : MediaOnly s (remap owner unit e s) :=
  (mediaOnly_modMedia (setEntry owner unit e) s).trans (mediaOnly_journal ..)

theorem mediaOnly_dropSlot (n : Nat) (s : State) : MediaOnly s (dropSlot n s) := by
  unfold dropSlot
  split
  · rfl
  · next x _ =>
    dsimp only
    split
    · exact (mediaOnly_modMedia _ s).trans (mediaOnly_remap ..)
    · exact mediaOnly_modMedia _ s

theorem mediaOnly_dropPlaced (k : CmdKey) (s : State) : MediaOnly s (dropPlaced k s) :=
  List.foldlRecOn s.media.slots _ (motive := MediaOnly s) rfl fun u so x _ => by
    split
    · exact so.trans (mediaOnly_dropSlot x.1 u)
    · exact so

/-- What a command that ends held is dropped before its completion: a VOLUME_CREATE is carried to its end, the units that a WRITE had placed
go, and the entries of an INSERT (R231, R248, R302). -/
def giveUp (c : Cmd) (s : State) : State := undoInsert c (dropPlaced c.key (carryCreate c s))

/-- t is u after changes of the media, of the vault and of the free values only. -/
def Carried (u t : State) : Prop := t = { u with free := t.free, media := t.media, sec := { u.sec with vault := t.sec.vault } }

theorem Carried.trans {s u t : State} (first : Carried s u) (second : Carried u t) : Carried s t := by
  unfold Carried at first second ⊢
  calc t = _ := second
    _ = _ := by rw [first]

theorem MediaOnly.carried {u t : State} (h : MediaOnly u t) : Carried u t := by
  calc t = _ := h
    _ = _ := by rw [h]

theorem Carried.ended {u t : State} (h : Carried u t) : Ended u t where
  frame := by
    calc t = _ := h
      _ = _ := by rw [h]
  cut := IndexCut.of_eq (congrArg State.indexes h :)

theorem mediaOnly_writeRoots (s : State) : MediaOnly s (writeRoots s) := (mediaOnly_modMedia _ s).trans (mediaOnly_modMedia _ _)

theorem carried_holdKey (n : Nat) (s : State) : Carried s (holdKey n s) := rfl

theorem carried_makeVolume (p : List Byte) (s : State) : Carried s (makeVolume p s) := by
  unfold makeVolume
  have taken : Carried s { s with free := s.free + 1 } := rfl
  exact (taken.trans (carried_holdKey _ _)).trans ((mediaOnly_modMedia _ _).trans (mediaOnly_writeRoots _)).carried

theorem carryCreate_cases (c : Cmd) (s : State) : carryCreate c s = makeVolume c.payload s ∨ carryCreate c s = s := ite_eq_or_eq _ _ _

theorem carried_carryCreate (c : Cmd) (s : State) : Carried s (carryCreate c s) := by
  rcases carryCreate_cases c s with made | same
  · rw [made]
    exact carried_makeVolume ..
  · rw [same]
    rfl

theorem carried_dropPlaced (c : Cmd) (s : State) : Carried s (dropPlaced c.key (carryCreate c s)) :=
  (carried_carryCreate c s).trans (mediaOnly_dropPlaced ..).carried

theorem undoInsert_frame (c : Cmd) (s : State) : undoInsert c s = { s with indexes := (undoInsert c s).indexes } := by
  rcases undoInsert_cases c s with same | cut
  · rw [same]
  · rw [cut]

theorem ended_undoInsert (c : Cmd) (s : State) : Ended s (undoInsert c s) where
  frame := by
    calc undoInsert c s = _ := undoInsert_frame c s
      _ = _ := by rw [undoInsert_frame c s]
  cut := indexCut_undoInsert c s

theorem ended_giveUp (c : Cmd) (s : State) : Ended s (giveUp c s) := (carried_dropPlaced c s).ended.trans (ended_undoInsert ..)

theorem giveUp_cmds (c : Cmd) (s : State) : (giveUp c s).cmds = s.cmds :=
  (congrArg State.cmds (undoInsert_frame ..) :).trans (congrArg State.cmds (carried_dropPlaced c s) :)

/-- A completion is a reply or, in a held session, the wait for the quota (R44). -/
theorem fail_cases (c : Cmd) (status : Nat) (s : State) :
    fail c status s = putReply c status false [] 0 [] s ∨ ((s.session c.key.session).phase = .held ∧
      fail c status s = modCmd c.key (fun c => { c with phase := .waiting (.quota status false [] 0 []), stagedKib := 0 }) s) := by
  unfold fail reply complete
  split
  · exact .inl rfl
  · split
    · next waits => exact .inr ⟨waits.1, rfl⟩
    · exact .inl rfl

theorem replied_fail (c : Cmd) (status : Nat) (s : State) : Replied s (fail c status s) := by
  rcases fail_cases c status s with made | ⟨_, waits⟩
  · rw [made]
    exact replied_putReply ..
  · rw [waits]
    rfl

/-- The command has its reply or, in a held session, waits for its quota with the status. -/
def EndedWith (status : Nat) (s : State) (d : Cmd) : Prop :=
  d.phase = .replied ∨ ((s.session d.key.session).phase = .held ∧ d.phase = .waiting (.quota status false [] 0 []))

theorem EndedWith.of_sessions {status : Nat} {s t : State} {d : Cmd} (same : t.sessions = s.sessions) (h : EndedWith status t d) :
    EndedWith status s d := by
  unfold EndedWith State.session at h ⊢
  rwa [← same]

theorem mem_fail {c d : Cmd} {status : Nat} {s : State} (h : d ∈ (fail c status s).cmds) :
    EndedWith status s d ∨ (d ∈ s.cmds ∧ d.key ≠ c.key) := by
  rcases fail_cases c status s with made | ⟨held, waits⟩
  · rw [made] at h
    exact (mem_putReply_cmds h).imp_left .inl
  · rw [waits] at h
    obtain ⟨b, mem, rfl⟩ := List.mem_map.1 h
    by_cases own : b.key = c.key
    · rw [if_pos own]
      exact .inl (.inr ⟨(congrArg (fun k : CmdKey => (s.session k.session).phase) own).trans held, rfl⟩)
    · rw [if_neg own]
      exact .inr ⟨mem, own⟩

theorem endCmd_cases (status : Nat) (s : State) (c : Cmd) :
    (c.phase = .replied ∧ endCmd status s c = s) ∨ endCmd status s c = fail (c.stalledLate s) status (giveUp c s) := by
  unfold endCmd
  split
  · next replied => exact .inl ⟨replied, rfl⟩
  · exact .inr rfl

theorem ended_endCmd (status : Nat) (s : State) (c : Cmd) : Ended s (endCmd status s c) := by
  rcases endCmd_cases status s c with ⟨_, same⟩ | ends
  · rw [same]
    exact Ended.refl s
  · rw [ends]
    exact (ended_giveUp c s).trans (replied_fail ..).ended

theorem mem_endCmd {c d : Cmd} {status : Nat} {s : State} (h : d ∈ (endCmd status s c).cmds) :
    EndedWith status s d ∨ (d ∈ s.cmds ∧ (d.key = c.key → c.phase = .replied)) := by
  rcases endCmd_cases status s c with ⟨replied, same⟩ | ends
  · rw [same] at h
    exact .inr ⟨h, fun _ => replied⟩
  · rw [ends] at h
    rcases mem_fail h with done | ⟨mem, other⟩
    · exact .inl (done.of_sessions (ended_giveUp c s).sessions)
    · rw [giveUp_cmds] at mem
      exact .inr ⟨mem, fun own => absurd own other⟩

/- The end of some commands -/

theorem ended_foldl_endCmd (status : Nat) (l : List Cmd) (s : State) : Ended s (l.foldl (endCmd status) s) :=
  List.foldlRecOn l _ (motive := Ended s) (Ended.refl s) fun u so c _ => so.trans (ended_endCmd status u c)

theorem mem_foldl_endCmd {d : Cmd} {status : Nat} {l : List Cmd} {s : State} (h : d ∈ (l.foldl (endCmd status) s).cmds) :
    EndedWith status s d ∨ (d ∈ s.cmds ∧ ∀ c ∈ l, d.key = c.key → c.phase = .replied) := by
  induction l generalizing s with
  | nil => exact .inr ⟨h, fun _ mem => absurd mem List.not_mem_nil⟩
  | cons c l ih =>
    rcases ih h with done | ⟨mem, rest⟩
    · exact .inl (done.of_sessions (ended_endCmd status s c).sessions)
    · refine (mem_endCmd mem).imp_right fun ⟨mem, own⟩ => ⟨mem, ?_⟩
      exact List.forall_mem_cons.2 ⟨own, rest⟩

/-- Of the commands chosen none is left that has not ended. -/
theorem mem_endChosen {d : Cmd} {status : Nat} {p : Cmd → Bool} {s : State} (h : d ∈ ((s.cmds.filter p).foldl (endCmd status) s).cmds) :
    EndedWith status s d ∨ (d ∈ s.cmds ∧ p d = false) := by
  rcases mem_foldl_endCmd h with done | ⟨mem, others⟩
  · exact .inl done
  · cases chosen : p d with
    | false => exact .inr ⟨mem, rfl⟩
    | true => exact .inl (.inl (others d (List.mem_filter.2 ⟨mem, chosen⟩) rfl))

theorem endMade_replied (n : Nat) (which : CmdKey → Bool) (status : Nat) (s : State) : Replied s (endMade n which status s) := rfl

theorem ended_endCmds (n : Nat) (which : CmdKey → Bool) (status : Nat) (s : State) : Ended s (endCmds n which status s) :=
  (endMade_replied n which status s).ended.trans (ended_foldl_endCmd ..)

theorem mem_endCmds {d : Cmd} {n : Nat} {status : Nat} {s : State} (h : d ∈ (endCmds n (fun _ => true) status s).cmds) :
    EndedWith status s d ∨ (d ∈ s.cmds ∧ d.key.context ≠ some n) := by
  have made := endMade_replied n (fun _ => true) status s
  unfold endCmds at h
  dsimp only at h
  rcases mem_endChosen h with done | ⟨mem, left⟩
  · exact .inl (done.of_sessions made.ended.sessions)
  · exact .inr ⟨mem, by simpa using left⟩

end Sys2Proof.Machine
end

section
/-!
PROOFS. Contexts that close, and CLOSE_SESSION (R102, R127); O12.
-/

namespace Sys2Proof.Machine

open Sys2Proof

/- The work of a context stops (R127, R148, R466) -/

/-- t is u after words left on crossings and plots and links were changed. -/
def Unlinked (u t : State) : Prop := t = { u with links := t.links, wire := t.wire, plots := t.plots }

theorem Unlinked.trans {s u t : State} (first : Unlinked s u) (second : Unlinked u t) : Unlinked s t := by
  unfold Unlinked at first second ⊢
  calc t = _ := second
    _ = _ := by rw [first]

theorem Wired.unlinked {u t : State} (h : Wired u t) : Unlinked u t := by
  calc t = _ := h
    _ = _ := by rw [h]

theorem wired_breakChain (fid : Nat) (from_ : Option Nat) (s : State) : Wired s (breakChain fid from_ s) := by
  unfold breakChain
  split
  · exact Wired.refl s
  · next b _ =>
    have words := List.foldlRecOn ((b.peers s.serial).filter fun m => decide (some m ≠ from_))
      (fun s m => match s.upTo m with
        | none => s
        | some x => sendControl x (6 :: wordBytes 4 fid) s)
      (motive := Wired s) (Wired.refl s) fun u so m _ => by
        split
        · exact so
        · exact so.trans (wired_sendControl ..)
    exact words.trans rfl

theorem unlinked_dropBlocks (hs : List HandOn) (s : State) : Unlinked s (dropBlocks hs s) := by
  unfold dropBlocks
  split <;> rfl

/-- The state after a context's chains have broken and its blocks have left the exchange windows. -/
def unlink (n : Nat) (s : State) : State :=
  let u := s.links.bindings.foldl (fun s b => if b.2.ctx = n then breakChain b.1 none s else s) s
  dropBlocks ((u.runs.filter fun r => decide (r.ctx = n)).flatMap fun r => (r.sent ++ r.landed).map fun x => x.2.2) u

theorem unlinked_unlink (n : Nat) (s : State) : Unlinked s (unlink n s) := by
  have chains : Wired s (s.links.bindings.foldl (fun s b => if b.2.ctx = n then breakChain b.1 none s else s) s) :=
    List.foldlRecOn s.links.bindings _ (motive := Wired s) (Wired.refl s) fun u so b _ => by
      split
      · exact so.trans (wired_breakChain ..)
      · exact so
  exact chains.unlinked.trans (unlinked_dropBlocks ..)

theorem stopWork_eq (n : Nat) (s : State) : stopWork n s = { s with
    links := (unlink n s).links, wire := (unlink n s).wire, plots := (unlink n s).plots
    runs := s.runs.filter fun r => decide (r.ctx ≠ n)
    steps := s.steps.filter fun x => decide (x.ctx ≠ n)
    trains := s.trains.filter fun q => decide (q.key.context ≠ some n)
    searches := s.searches.filter fun q => decide (q.key.context ≠ some n)
    scans := s.scans.filter fun q => decide (q.key.context ≠ some n) } := by
  have frame := unlinked_unlink n s
  change { unlink n s with
    runs := (unlink n s).runs.filter fun r => decide (r.ctx ≠ n)
    steps := (unlink n s).steps.filter fun x => decide (x.ctx ≠ n)
    trains := (unlink n s).trains.filter fun q => decide (q.key.context ≠ some n)
    searches := (unlink n s).searches.filter fun q => decide (q.key.context ≠ some n)
    scans := (unlink n s).scans.filter fun q => decide (q.key.context ≠ some n) } = _
  rw [frame]

/- A context closes -/

/-- The context closes already, or a fault has torn it down. -/
def Ctx.ended (x : Ctx) : Bool := x.closing || x.torn.isSome

/-- A context that has not ended closes. -/
def Ctx.close (x : Ctx) : Ctx := if x.ended then x else { x with closing := true }

theorem Ctx.close_close (x : Ctx) : x.close.close = x.close := by
  have ended : x.close.ended = true := by
    unfold Ctx.close
    split
    · assumption
    · rfl
  exact if_pos ended

/-- The context of a number has ended. -/
def State.ended (s : State) (n : Nat) : Bool := (kvGet n s.contexts).any Ctx.ended

theorem map_close_ended {s : State} {n : Nat} (h : s.ended n = true) : (kvGet n s.contexts).map Ctx.close = kvGet n s.contexts := by
  unfold State.ended at h
  cases found : kvGet n s.contexts with
  | none => rfl
  | some x =>
    rw [found] at h
    exact congrArg some (if_pos h)

theorem map_close_going {s : State} {n : Nat} (h : s.ended n = false) :
    (kvGet n s.contexts).map Ctx.close = (kvGet n s.contexts).map fun x => { x with closing := true } := by
  unfold State.ended at h
  cases found : kvGet n s.contexts with
  | none => rfl
  | some x =>
    rw [found] at h
    exact congrArg some (if_neg fun ended => Bool.false_ne_true (h.symm.trans ended))

/-- The state as a context that has not ended closes. -/
def stopCtx (n : Nat) (s : State) : State := stopWork n (endCmds n (fun _ => true) stContextClosed s)

theorem closeWork_cases (n : Nat) (s : State) :
    (s.ended n = true ∧ closeWork n s = s) ∨
      (s.ended n = false ∧ closeWork n s = modCtx n (fun x => { x with closing := true }) (stopCtx n s)) := by
  cases ended : s.ended n with
  | true => exact .inl ⟨rfl, if_pos ended⟩
  | false => exact .inr ⟨rfl, if_neg (by rw [Bool.not_eq_true]; exact ended)⟩

/-- t is u after contexts have closed. -/
structure Closing (u t : State) : Prop where
  frame : t = { u with
    contexts := t.contexts, cmds := t.cmds, replies := t.replies, nextReply := t.nextReply, free := t.free
    landing := { u.landing with faults := t.landing.faults }, scans := t.scans, trains := t.trains, media := t.media, runs := t.runs
    steps := t.steps, searches := t.searches, indexes := t.indexes, plots := t.plots, links := t.links, wire := t.wire
    sec := { u.sec with vault := t.sec.vault } }
  cut : IndexCut u t

theorem Closing.refl (s : State) : Closing s s := ⟨rfl, IndexCut.of_eq rfl⟩

theorem Closing.trans {s u t : State} (first : Closing s u) (second : Closing u t) : Closing s t where
  frame := by
    calc t = _ := second.frame
      _ = _ := by rw [first.frame]
  cut := first.cut.trans second.cut

theorem Ended.closing {u t : State} (h : Ended u t) : Closing u t where
  frame := by
    calc t = _ := h.frame
      _ = _ := by rw [h.frame]
  cut := h.cut

theorem closing_stopWork (n : Nat) (s : State) : Closing s (stopWork n s) where
  frame := by rw [stopWork_eq]
  cut := IndexCut.of_eq (congrArg State.indexes (stopWork_eq ..) :)

section
variable (n : Nat) (s : State)

theorem ended_endClosed : Ended s (endCmds n (fun _ => true) stContextClosed s) := ended_endCmds n (fun _ => true) stContextClosed s

theorem closing_stopCtx : Closing s (stopCtx n s) := (ended_endClosed n s).closing.trans (closing_stopWork n _)

theorem stopCtx_contexts : (stopCtx n s).contexts = s.contexts := by
  rw [stopCtx, stopWork_eq]
  exact (ended_endClosed n s).contexts

theorem stopCtx_cmds : (stopCtx n s).cmds = (endCmds n (fun _ => true) stContextClosed s).cmds := by
  rw [stopCtx, stopWork_eq]

theorem stopCtx_runs : (stopCtx n s).runs = s.runs.filter fun r => decide (r.ctx ≠ n) := by
  rw [stopCtx, stopWork_eq]
  exact congrArg _ (ended_endClosed n s).runs

theorem stopCtx_searches : (stopCtx n s).searches = s.searches.filter fun q => decide (q.key.context ≠ some n) := by
  rw [stopCtx, stopWork_eq]
  exact congrArg _ (ended_endClosed n s).searches

end

/-- The context closes, and every other one stays. -/
theorem closeWork_contexts (n m : Nat) (s : State) :
    kvGet m (closeWork n s).contexts = if m = n then (kvGet m s.contexts).map Ctx.close else kvGet m s.contexts := by
  rcases closeWork_cases n s with ⟨ended, same⟩ | ⟨going, closes⟩
  · rw [same]
    by_cases own : m = n
    · subst own
      rw [if_pos rfl, map_close_ended ended]
    · rw [if_neg own]
  · rw [closes, modCtx, stopCtx_contexts]
    by_cases own : m = n
    · subst own
      rw [if_pos rfl, map_close_going going]
      exact kvGet_kvMod_same ..
    · rw [if_neg own]
      exact kvGet_kvMod_other _ _ (Ne.symm own)

/-- A command that has not ended, a run or a search stood before, and is none of a context that closes now. -/
theorem mem_closeWork {n : Nat} {s : State} {d : Cmd} (h : d ∈ (closeWork n s).cmds) :
    EndedWith stContextClosed s d ∨ (d ∈ s.cmds ∧ (d.key.context = some n → s.ended n = true)) := by
  rcases closeWork_cases n s with ⟨ended, same⟩ | ⟨_, closes⟩
  · rw [same] at h
    exact .inr ⟨h, fun _ => ended⟩
  · rw [closes] at h
    have mem : d ∈ (endCmds n (fun _ => true) stContextClosed s).cmds := by
      rw [← stopCtx_cmds]
      exact h
    exact (mem_endCmds mem).imp_right fun ⟨mem, other⟩ => ⟨mem, fun own => absurd own other⟩

theorem mem_closeWork_runs {n : Nat} {s : State} {r : Run} (h : r ∈ (closeWork n s).runs) :
    r ∈ s.runs ∧ (r.ctx = n → s.ended n = true) := by
  rcases closeWork_cases n s with ⟨ended, same⟩ | ⟨_, closes⟩
  · rw [same] at h
    exact ⟨h, fun _ => ended⟩
  · rw [closes] at h
    obtain ⟨mem, other⟩ := List.mem_filter.1 (stopCtx_runs n s ▸ h : r ∈ s.runs.filter _)
    exact ⟨mem, fun own => absurd own (of_decide_eq_true other)⟩

theorem mem_closeWork_searches {n : Nat} {s : State} {q : Search} (h : q ∈ (closeWork n s).searches) :
    q ∈ s.searches ∧ (q.key.context = some n → s.ended n = true) := by
  rcases closeWork_cases n s with ⟨ended, same⟩ | ⟨_, closes⟩
  · rw [same] at h
    exact ⟨h, fun _ => ended⟩
  · rw [closes] at h
    obtain ⟨mem, other⟩ := List.mem_filter.1 (stopCtx_searches n s ▸ h : q ∈ s.searches.filter _)
    exact ⟨mem, fun own => absurd own (of_decide_eq_true other)⟩

theorem closing_modCtx (n : Nat) (f : Ctx → Ctx) (s : State) : Closing s (modCtx n f s) := ⟨rfl, IndexCut.of_eq rfl⟩

theorem closing_closeWork (n : Nat) (s : State) : Closing s (closeWork n s) := by
  rcases closeWork_cases n s with ⟨_, same⟩ | ⟨_, closes⟩
  · rw [same]
    exact Closing.refl s
  · rw [closes]
    exact (closing_stopCtx n s).trans (closing_modCtx ..)

/- Contexts close in turn -/

/-- Some contexts close, in turn. -/
def closeEach (l : List Nat) (s : State) : State := l.foldl (fun s n => closeWork n s) s

theorem closing_closeEach (l : List Nat) (s : State) : Closing s (closeEach l s) :=
  List.foldlRecOn l _ (motive := Closing s) (Closing.refl s) fun u so n _ => so.trans (closing_closeWork n u)

theorem closeEach_sessions (l : List Nat) (s : State) : (closeEach l s).sessions = s.sessions := (congrArg State.sessions (closing_closeEach l s).frame :)

theorem closeEach_contexts (l : List Nat) (m : Nat) (s : State) :
    kvGet m (closeEach l s).contexts = if m ∈ l then (kvGet m s.contexts).map Ctx.close else kvGet m s.contexts := by
  induction l generalizing s with
  | nil => rfl
  | cons n l ih =>
    refine (ih (closeWork n s)).trans ?_
    rw [closeWork_contexts]
    by_cases own : m = n
    · subst own
      have twice : ((kvGet m s.contexts).map Ctx.close).map Ctx.close = (kvGet m s.contexts).map Ctx.close := by
        rw [Option.map_map]
        exact congrArg (fun f => (kvGet m s.contexts).map f) (funext Ctx.close_close)
      simp only [if_true, twice, List.mem_cons_self, ite_self]
    · simp [own]

/-- What stands after contexts have closed, and before each of them when it stands after, stood before all, and is of none of those that had
not ended. -/
theorem closeEach_stands {stands : State → Prop} {on : Nat → Prop} (step : ∀ n u, stands (closeWork n u) → stands u ∧ (on n → u.ended n = true))
    {l : List Nat} {s : State} (h : stands (closeEach l s)) : stands s ∧ ∀ n ∈ l, on n → s.ended n = true := by
  induction l generalizing s with
  | nil => exact ⟨h, fun _ mem => absurd mem List.not_mem_nil⟩
  | cons n l ih =>
    obtain ⟨after, rest⟩ := ih h
    obtain ⟨before, first⟩ := step n s after
    refine ⟨before, List.forall_mem_cons.2 ⟨first, fun m mem onto => ?_⟩⟩
    by_cases own : m = n
    · subst own
      exact first onto
    · have ended := rest m mem onto
      rwa [State.ended, closeWork_contexts, if_neg own] at ended

/- CLOSE_SESSION -/

/-- Every number of the table with a context of the session, and no other, is one of its contexts. -/
theorem mem_contextsOf {s : State} (sorted : kvSorted s.contexts = true) {n m : Nat} {x : Ctx} (h : kvGet m s.contexts = some x) :
    m ∈ s.contextsOf n ↔ x.session = n := by
  simp only [State.contextsOf, List.mem_map, List.mem_filter, decide_eq_true_eq]
  constructor
  · rintro ⟨⟨i, y⟩, ⟨mem, own⟩, rfl⟩
    rwa [← Option.some.inj ((kvGet_of_mem sorted mem).symm.trans h)]
  · exact fun own => ⟨(m, x), ⟨mem_of_kvGet h, own⟩, rfl⟩

/-- The admin commands of the session that still have to end, its CLOSE_SESSION apart. -/
def Cmd.endsWith (c d : Cmd) : Bool :=
  decide (d.key.queue = .admin) && decide (d.key.session = c.key.session) && decide (d.key ≠ c.key) && decide (d.phase ≠ .replied)

/-- The state after the contexts of a session have closed and its other admin commands have ended. -/
def endSession (c : Cmd) (s : State) : State :=
  let u := closeEach (s.contextsOf c.key.session) s
  (u.cmds.filter c.endsWith).foldl (endCmd stContextClosed) u

theorem closeSession_eq {c : Cmd} (s : State) (bare : c.payload = []) : closeSession c s =
    complete c stOk false [] 0 [.freeSession c.key.session] (modSession c.key.session (fun x => { x with closing := true }) (endSession c s)) :=
  if_neg (not_not_intro bare)

section
variable (c : Cmd) (s : State)

theorem ended_endSession : Ended (closeEach (s.contextsOf c.key.session) s) (endSession c s) := ended_foldl_endCmd ..

theorem closing_endSession : Closing s (endSession c s) := (closing_closeEach ..).trans (ended_endSession c s).closing

/-- What the answer of a CLOSE_SESSION leaves. -/
theorem answerClosing_frame (status : Nat) (acts : List Act) (n : Nat) (f : Session → Session) :
    let t := putReply c status false [] 0 acts (modSession n f (endSession c s))
    t = { s with
      sessions := t.sessions, contexts := t.contexts, cmds := t.cmds, replies := t.replies, nextReply := t.nextReply, free := t.free
      landing := { s.landing with faults := t.landing.faults }, scans := t.scans, trains := t.trains, media := t.media, runs := t.runs
      steps := t.steps, searches := t.searches, indexes := t.indexes, plots := t.plots, links := t.links, wire := t.wire
      sec := { s.sec with vault := t.sec.vault } } := by
  have closing := (closing_endSession c s).frame
  generalize endSession c s = u at closing ⊢
  rw [closing]
  rfl

variable {c s} (sorted : kvSorted s.contexts = true)
include sorted

theorem endSession_contexts {n : Nat} {x : Ctx} (h : kvGet n s.contexts = some x) :
    kvGet n (endSession c s).contexts = some (if x.session = c.key.session ∧ x.ended = false then { x with closing := true } else x) := by
  rw [(ended_endSession c s).contexts, closeEach_contexts, h]
  simp only [mem_contextsOf sorted h, Option.map_some, Ctx.close]
  by_cases own : x.session = c.key.session
  · cases ended : x.ended with
    | true => simp [own]
    | false => simp [own]
  · simp [own]

/-- What is of a context that a session closes, and stands after it, is of one that had ended. -/
theorem ended_of_closed {on : Nat → Prop} (h : ∀ n ∈ s.contextsOf c.key.session, on n → s.ended n = true) {n : Nat} {x : Ctx} (onto : on n)
    (found : kvGet n s.contexts = some x) (own : x.session = c.key.session) : x.ended = true := by
  have ended := h n ((mem_contextsOf sorted found).2 own) onto
  rwa [State.ended, found] at ended

theorem mem_endSession_runs {r : Run} (h : r ∈ (endSession c s).runs) :
    r ∈ s.runs ∧ ∀ x, kvGet r.ctx s.contexts = some x → x.session = c.key.session → x.ended = true := by
  rw [(ended_endSession c s).runs] at h
  obtain ⟨before, closed⟩ := closeEach_stands (stands := fun u => r ∈ u.runs) (on := fun n => r.ctx = n) (fun _ _ => mem_closeWork_runs) h
  exact ⟨before, fun x => ended_of_closed sorted closed rfl⟩

theorem mem_endSession_searches {q : Search} (h : q ∈ (endSession c s).searches) :
    q ∈ s.searches ∧ ∀ n x, q.key.context = some n → kvGet n s.contexts = some x → x.session = c.key.session → x.ended = true := by
  rw [(ended_endSession c s).searches] at h
  obtain ⟨before, closed⟩ := closeEach_stands (stands := fun u => q ∈ u.searches) (on := fun n => q.key.context = some n)
    (fun _ _ => mem_closeWork_searches) h
  exact ⟨before, fun n x => ended_of_closed sorted closed⟩

/-- A command that has not ended as contexts closed is of none that had not ended. -/
theorem mem_closeEach {d : Cmd} (h : d ∈ (closeEach (s.contextsOf c.key.session) s).cmds) :
    EndedWith stContextClosed s d ∨ (d ∈ s.cmds ∧
      ∀ n x, d.key.context = some n → kvGet n s.contexts = some x → x.session = c.key.session → x.ended = true) := by
  by_contra stays
  obtain ⟨live, stays⟩ := not_or.1 stays
  obtain ⟨⟨_, before⟩, closed⟩ := closeEach_stands (stands := fun u => u.sessions = s.sessions ∧ d ∈ u.cmds)
    (on := fun n => d.key.context = some n) (fun n u ⟨same, mem⟩ => by
      have same : u.sessions = s.sessions := (congrArg State.sessions (closing_closeWork n u).frame :).symm.trans same
      rcases mem_closeWork mem with done | ⟨mem, ended⟩
      · exact absurd (done.of_sessions same) live
      · exact ⟨⟨same, mem⟩, ended⟩) ⟨closeEach_sessions .., h⟩
  exact stays ⟨before, fun n x => ended_of_closed sorted closed⟩

/-- A command of the session that stands after it has closed is its CLOSE_SESSION, has ended, or is of a context that had ended. -/
theorem mem_endSession {d : Cmd} (whole : ∀ d ∈ s.cmds, d.key.session = c.key.session → d.key.queue ≠ .admin →
      ∃ x, kvGet d.key.ctx s.contexts = some x ∧ x.session = c.key.session)
    (h : d ∈ (endSession c s).cmds) (own : d.key.session = c.key.session) (other : d.key ≠ c.key) :
    EndedWith stContextClosed s d ∨ (d.key.queue ≠ .admin ∧ ∃ x, kvGet d.key.ctx s.contexts = some x ∧ x.ended = true) := by
  rcases mem_endChosen h with done | ⟨mem, left⟩
  · exact .inl (done.of_sessions (closeEach_sessions ..))
  · rcases mem_closeEach sorted mem with done | ⟨mem, closed⟩
    · exact .inl done
    · by_cases admin : d.key.queue = .admin
      · have replied : d.phase = .replied := by simpa [Cmd.endsWith, admin, own, other] using left
        exact .inl (.inl replied)
      · obtain ⟨x, found, mine⟩ := whole d mem own admin
        exact .inr ⟨admin, x, found, closed _ x (by rw [CmdKey.context, if_neg admin]) found mine⟩

end

end Sys2Proof.Machine

namespace Sys2Proof.Proofs

open Sys2Proof.Machine

/-- Settles O12: the contexts close in turn, the other admin commands end, and the CLOSE_SESSION is answered. Its act, which frees the
number, waits for the departure of its reply. -/
theorem sessionClosed : Obligations.SessionClosed := by
  unfold Obligations.SessionClosed
  intro s k c h bare sorted whole
  obtain rfl := h.toReady.key
  have runs : exec (.closeSession c.key) s = .next (closeSession c s) := congrArg Host.Outcome.next (withCmd_ready closeSession h.toReady)
  rw [closeSession_eq s bare, complete_admin _ _ _ _ _ _ h.key_queue] at runs
  obtain ⟨r, key, _, _, _, status, _, acts, _, _, answered⟩ := putReply_answered c stOk false [] 0 [.freeSession c.key.session]
    (modSession c.key.session (fun x => { x with closing := true }) (endSession c s))
  refine ⟨_, r, runs, ?_, key, status, acts, fun d mem own => ?_, fun n x found => endSession_contexts sorted found,
    fun q => mem_endSession_runs sorted, fun q => mem_endSession_searches sorted, answerClosing_frame .., (closing_endSession c s).cut⟩
  · rw [answered]
    exact List.mem_append_right _ (List.mem_singleton_self r)
  · rcases mem_putReply_cmds mem with replied | ⟨mem, other⟩
    · exact .inl replied
    · rcases mem_endSession sorted whole mem own other with (replied | ⟨held, waits⟩) | left
      · exact .inl replied
      · exact .inr (.inl ⟨own ▸ held, waits⟩)
      · exact .inr (.inr left)

end Sys2Proof.Proofs
end

section
/-!
PROOFS. CREATE_CONTEXT (R38, R119 to R121, Table 4-2): the lowest free number, what the pool has granted with a new context, and O18.
-/

namespace Sys2Proof.Machine

open Sys2Proof

/- The lowest free number -/

theorem kvFree_lowest {α : Type} {t : KV α} {n bound : Nat} (inside : n < bound) (free : kvGet n t = none)
    (taken : ∀ m < n, (kvGet m t).isSome) : kvFree t bound = some n := by
  rw [kvFree, List.find?_range_eq_some]
  exact ⟨by simp [free], List.mem_range.2 inside, fun m below => by simpa using taken m below⟩

theorem kvFree_full {α : Type} {t : KV α} {bound : Nat} (taken : ∀ m < bound, (kvGet m t).isSome) : kvFree t bound = none := by
  rw [kvFree, List.find?_range_eq_none]
  exact fun m below => by simpa using taken m below

/- What the pool has granted (R38) -/

/-- A sum over a table grows by the share of a key that was in none of its entries. -/
theorem sum_map_kvSet_new {α : Type} (f : Nat × α → Nat) {k : Nat} (v : α) {t : KV α} (new : kvGet k t = none) :
    ((kvSet k v t).map f).sum = (t.map f).sum + f (k, v) := by
  induction t with
  | nil => simp [kvSet]
  | cons p t ih =>
    obtain ⟨j, w⟩ := p
    rw [kvGet] at new
    split at new
    case isTrue => cases new
    case isFalse other =>
      rw [kvSet]
      split
      · simp only [List.map_cons, List.sum_cons]; omega
      · simp only [if_neg (Ne.symm other), List.map_cons, List.sum_cons, ih new]; omega

theorem grantOf_none_due {s : State} {n : Nat} (none_ : s.quotasDue n = []) (x : Ctx) : s.grantOf n x = x.landingMib := by
  rw [State.grantOf, none_]
  rfl

/-- A new context adds its Landing quota to what is granted, while no reply still has to act on its number. -/
theorem grantedMib_new {s : State} {n : Nat} (new : kvGet n s.contexts = none) (none_ : s.quotasDue n = []) (x : Ctx) :
    { s with contexts := kvSet n x s.contexts }.grantedMib = s.grantedMib + x.landingMib := by
  rw [← grantOf_none_due none_ x]
  exact sum_map_kvSet_new (fun p => s.grantOf p.1 p.2) x new

/- CREATE_CONTEXT -/

theorem exec_createContext {s : State} {k : CmdKey} {c : Cmd} (h : Ready s k 0x10 c) :
    exec (.createContext k) s = .next (createContext c s) :=
  congrArg Host.Outcome.next (withCmd_ready createContext h)

/-- The context that a CREATE_CONTEXT's payload asks for (Table 4-2). -/
def newContext (c : Cmd) (s : State) : Ctx :=
  { session := c.key.session, cls := if fieldAt c.payload 0 1 = 0 then .interactive else .batch
    strict := bit (fieldAt c.payload 1 1) 0, sramKib := fieldAt c.payload 2 2, landingMib := fieldAt c.payload 4 4
    maxPlots := fieldAt c.payload 8 2, sliceUs := if fieldAt c.payload 0 1 = 0 then 2000 else sliceOf (fieldAt c.payload 10 2)
    closing := false, torn := none, faulted := false, resetting := false, stepNo := none, stepSize := 0, lastRun := s.now, want := 0 }

theorem newContext_sliceUs (c : Cmd) (s : State) : (newContext c s).sliceUs =
    if fieldAt c.payload 0 1 = 0 ∨ fieldAt c.payload 10 2 = 0 then 2000 else fieldAt c.payload 10 2 := by
  by_cases interactive : fieldAt c.payload 0 1 = 0
  · simp [newContext, interactive]
  · simp [newContext, sliceOf, interactive]

/-- With a free number and room in the pool, the answer is the number and what the pool has left. -/
theorem createContext_fits {s : State} {c : Cmd} {n : Nat} (ok : createOk s.poolMib c.payload = true)
    (free : kvFree s.contexts 1024 = some n) (room : s.grantedMib + fieldAt c.payload 4 4 ≤ s.poolMib) :
    createContext c s =
      let t : State := { s with contexts := kvSet n (newContext c s) s.contexts }
      reply c stOk (leBytes 2 n ++ zeros 2 ++ leBytes 4 (t.poolMib - t.grantedMib)) t := by
  simp only [createContext, ok, free, Bool.not_true, Bool.false_eq_true, if_false, if_neg (Nat.not_lt.2 room)]
  rfl

theorem createContext_full {s : State} {c : Cmd} (ok : createOk s.poolMib c.payload = true)
    (full : kvFree s.contexts 1024 = none) : createContext c s = fail c stQuota s := by
  simp only [createContext, ok, full, Bool.not_true, Bool.false_eq_true, if_false]

end Sys2Proof.Machine

namespace Sys2Proof.Proofs

open Sys2Proof.Machine

/-- Settles O18: the lowest free number is found and fits the pool, where a raise that is due counts as granted (log entry 173); or no
number is free. -/
theorem contextCreated : Obligations.ContextCreated := by
  unfold Obligations.ContextCreated
  intro s k c h ok
  refine ⟨fun n inside free taken none_ room => ?_, fun taken => ?_⟩
  · refine ⟨newContext c s, _, exec_createContext h.toReady, congrArg CmdKey.session h.toReady.key, rfl, rfl, rfl, rfl, rfl, rfl, rfl,
      newContext_sliceUs c s, ?_⟩
    rw [createContext_fits ok (kvFree_lowest inside free taken) room]
    dsimp only
    rw [grantedMib_new free none_]
    exact reply_answered stOk _ _ h.key_queue
  · refine ⟨_, exec_createContext h.toReady, ?_⟩
    rw [createContext_full ok (kvFree_full taken)]
    exact fail_answered _ s h.key_queue

end Sys2Proof.Proofs
end

section
/-!
SUPPORT. What a tile instruction leaves beside the working state of its run (R35, R45, R72, R123): the runs stand as they were, on whatever
plots; and the working state that is put back.
-/

namespace Sys2Proof.Machine

open Sys2Proof

/- A run and the plots that its sequences stand on -/

/-- A sequence, and a run, but for the plots. -/
def Seq.unplaced (q : Seq) : Seq := { q with plot := 0 }
def Run.unplaced (r : Run) : Run := { r with seqs := r.seqs.map Seq.unplaced }

theorem unplaced_seq (r : Run) (i : Nat) : r.unplaced.seq i = (r.seq i).unplaced :=
  List.getD_map r.seqs Seq.done Seq.unplaced

/-- Runs that differ in plots alone have the same sequences but for the plots. -/
theorem seq_of_unplaced {r q : Run} (same : r.unplaced = q.unplaced) (i : Nat) : (r.seq i).unplaced = (q.seq i).unplaced := by
  rw [← unplaced_seq, same, unplaced_seq]

theorem runOf_unplaced {u t : State} (same : t.runs.map Run.unplaced = u.runs.map Run.unplaced) (k : CmdKey) :
    (t.runOf k).map Run.unplaced = (u.runOf k).map Run.unplaced := by
  have found : ∀ v : State, (v.runOf k).map Run.unplaced = (v.runs.map Run.unplaced).find? fun r => decide (r.key = k) :=
    fun v => by rw [List.find?_map]; rfl
  rw [found, found, same]

/- What an instruction changes beside the working state of its run -/

/-- t is u after boundaries on plots, ferries, layer boundaries and hand-on words: the runs stand as they were, on whatever plots. -/
structure Beside (u t : State) : Prop where
  frame : t = { u with
    plots := t.plots, acct := t.acct, contexts := t.contexts, runs := t.runs, searches := t.searches
    landing := { u.landing with schedules := t.landing.schedules }, links := t.links, wire := t.wire }
  runs  : t.runs.map Run.unplaced = u.runs.map Run.unplaced

theorem Beside.trans {s u t : State} (first : Beside s u) (second : Beside u t) : Beside s t where
  frame := by
    calc t = _ := second.frame
      _ = _ := by rw [first.frame]
  runs := second.runs.trans first.runs

theorem Settled.beside {u t : State} (h : Settled u t) : Beside u t := by
  obtain ⟨frame, -, -, -, runs⟩ := h
  exact ⟨by calc t = _ := frame
              _ = _ := by rw [frame], runs⟩

theorem PlotWork.beside {u t : State} (h : PlotWork u t) : Beside u t :=
  ⟨by calc t = _ := h.frame
        _ = _ := by rw [h.frame], by rw [h.frame]⟩

theorem Unlinked.beside {u t : State} (h : Unlinked u t) : Beside u t :=
  ⟨by calc t = _ := h
        _ = _ := by rw [h], by rw [h]⟩

theorem beside_layerBoundary (o : SchedOwner) (s : State) : Beside s (layerBoundary o s) := ⟨rfl, rfl⟩

theorem settled_keepOrChoose (p n : Nat) (s : State) : Settled s (keepOrChoose p n s) := by
  unfold keepOrChoose
  dsimp only
  split
  · exact settled_choose ..
  · exact Settled.ite ((settled_modResident ..).trans (settled_choose ..)) (settled_modCtx _ (by intro; rfl) s)

theorem settled_pause (p : Nat) (s : State) : Settled s (pause p s) := by
  have first := settled_refresh p s
  unfold pause
  dsimp only
  generalize refresh p s = u at first ⊢
  split
  · exact first
  · exact first.trans (Settled.ite ((settled_settleResidents ..).trans (settled_keepOrChoose ..)) (Settled.refl u))

theorem settled_issue (e : Exec) (w : Nat) (s : State) : Settled s (issue e w s) := by
  unfold issue
  split
  · exact Settled.refl s
  · exact settled_modPlot ..

/- Ferries -/

theorem plotWork_chargeLanding (n bytes : Nat) (s : State) : PlotWork s (chargeLanding n bytes s) := plotWork_account ..

theorem plotWork_makeRoom (p n bytes : Nat) (keep : Nat → Nat → Bool) (fuel : Nat) (s : State) :
    PlotWork s (makeRoom p n bytes keep fuel s) := by
  induction fuel generalizing s with
  | zero => exact PlotWork.refl s
  | succ fuel ih =>
    refine PlotWork.ite (PlotWork.refl s) ?_
    split
    · exact PlotWork.refl s
    · exact (plotWork_evict ..).trans (ih _)

/-- Room is made for the tile, changed copies elsewhere are written back, and the tile joins those on the plot (R33). -/
theorem plotWork_ferry (r : Run) (g : Program) (p : Nat) (keep : Nat → Nat → Bool) (s : State) (tile : Nat) :
    PlotWork s (ferry r g p keep s tile) := by
  have room := plotWork_makeRoom p r.ctx (g.ref tile).bytes keep (s.plot p).tiles.length s
  unfold ferry
  dsimp only
  generalize makeRoom p r.ctx (g.ref tile).bytes keep (s.plot p).tiles.length s = u at room ⊢
  refine PlotWork.ite (PlotWork.refl s) (room.trans ?_)
  refine PlotWork.ite (PlotWork.refl _) (PlotWork.ite (PlotWork.refl _) (PlotWork.ite (plotWork_modPlot p (by intro; rfl) _) ?_))
  refine PlotWork.ite (plotWork_modPlot p (by intro; rfl) _) (PlotWork.trans ?_ (plotWork_modPlot p (by intro; rfl) _))
  refine PlotWork.trans (PlotWork.foldl (fun s x => ?_) _ u) (plotWork_chargeLanding ..)
  exact (plotWork_chargeLanding ..).trans (plotWork_modPlot x.1 (by intro; rfl) _)

theorem plotWork_ferryAhead (r : Run) (g : Program) (seq : Nat) (s : State) : PlotWork s (ferryAhead r g seq s) :=
  (PlotWork.foldl (plotWork_ferry r g _ _) _ s).trans (PlotWork.foldl (plotWork_ferry r g _ _) _ _)

/- The working state put back -/

/-- All that the statement of O54 lets an instruction change. -/
def InstrFrame (s t : State) : Prop := t = { s with
  plots := t.plots, acct := t.acct, contexts := t.contexts, runs := t.runs, searches := t.searches, programs := t.programs, free := t.free
  landing := { s.landing with schedules := t.landing.schedules }, links := t.links, wire := t.wire }

theorem InstrFrame.trans {s u t : State} (first : InstrFrame s u) (second : InstrFrame u t) : InstrFrame s t := by
  unfold InstrFrame at first second ⊢
  calc t = _ := second
    _ = _ := by rw [first]

theorem Beside.instrFrame {u t : State} (h : Beside u t) : InstrFrame u t := by
  calc t = _ := h.frame
    _ = _ := by rw [h.frame]

/-- t is s after an instruction that leaves the run of the command as x has it, on whatever plots. -/
structure LeavesRun (s : State) (k : CmdKey) (x : Exec) (t : State) : Prop where
  frame : InstrFrame s t
  run   : (t.runOf k).map Run.unplaced = some x.run.unplaced

theorem LeavesRun.followed {s t v : State} {k : CmdKey} {x : Exec} (h : LeavesRun s k x t) (beside : Beside t v) : LeavesRun s k x v :=
  ⟨h.frame.trans beside.instrFrame, (runOf_unplaced beside.runs k).trans h.run⟩

section
variable {s : State} {kind : TKind} {k : CmdKey} {seq : Nat} {e : Exec} {plot : Nat} (h : Issues s kind k seq e plot)
include h

theorem Issues.seq_eq : e.seq = seq := by
  obtain ⟨r, -, exec_, -⟩ := h.found
  exact (execOf_some exec_).2.1

theorem Issues.run : s.runOf k = some e.run := by
  obtain ⟨r, run, exec_, -⟩ := h.found
  rw [run, (execOf_some exec_).1]

theorem Issues.key : e.run.key = k := by simpa using List.find?_some h.run

theorem Issues.within : e.seq < e.run.seqs.length := by
  obtain ⟨r, -, exec_, within⟩ := h.found
  obtain ⟨rfl, rfl, -, -⟩ := execOf_some exec_
  exact within

theorem commit_runOf {x : Exec} {u : State} (before : Beside s u) (key : x.run.key = k) : (commit x u).runOf k = some x.run := by
  have there := runOf_unplaced before.runs k
  rw [h.run] at there
  obtain ⟨r, run, -⟩ := Option.map_eq_some_iff.1 there
  exact runOf_replaced run key (by rw [commit, key])

theorem leavesRun_commit {x : Exec} {u : State} (before : Beside s u) (key : x.run.key = k) : LeavesRun s k x (commit x u) :=
  ⟨before.instrFrame.trans rfl, by rw [commit_runOf h before key, Option.map_some]⟩

end

theorem beside_waited (e : Exec) (plot : Nat) (s : State) : Beside s (e.waited plot s) := (plotWork_waited e plot s).beside

/-- What the statement of O54 says of an instruction with which the run goes on. -/
def GoesOn (s : State) (k : CmdKey) (e : Exec) (out : Out) (holds : State → Run → Prop) : Prop :=
  ∃ t r, out = .next (settleRun k t) ∧ t.runOf k = some r ∧ holds t r ∧ r.issued ≤ e.run.issued + 1 ∧ InstrFrame s t

/-- What a run has in common with a working state, whatever plots its sequences stand on. -/
structure StandsAs (r : Run) (seq : Nat) (x : Exec) : Prop where
  pc       : (r.seq seq).pc = x.me.pc
  ended    : (r.seq seq).ended = x.me.ended
  block    : (r.seq seq).block = x.me.block
  section_ : (r.seq seq).section_ = x.me.section_
  groups   : (r.seq seq).groups = x.me.groups
  tokens   : r.tokens = x.run.tokens
  sent     : r.sent = x.run.sent
  landed   : r.landed = x.run.landed

theorem standsAs_of_unplaced {r : Run} {seq : Nat} {x : Exec} (present : x.seq = seq) (same : r.unplaced = x.run.unplaced) :
    StandsAs r seq x := by
  subst present
  have me : (r.seq x.seq).unplaced = x.me.unplaced := seq_of_unplaced same x.seq
  exact ⟨(congrArg Seq.pc me :), (congrArg Seq.ended me :), (congrArg Seq.block me :), (congrArg Seq.section_ me :), (congrArg Seq.groups me :),
    (congrArg Run.tokens same :), (congrArg Run.sent same :), (congrArg Run.landed same :)⟩

/-- An instruction that leaves the run as x has it goes on, with what follows of the run. -/
theorem goesOn_of {s : State} {kind : TKind} {k : CmdKey} {seq : Nat} {e : Exec} {plot : Nat} (h : Issues s kind k seq e plot)
    {go : Exec → Nat → State → State} {t : State} (goes : go (e.issued plot s) e.word (e.waited plot s) = t) {x : Exec}
    (leaves : LeavesRun s k x t) (present : x.seq = e.seq) (issued : x.run.issued ≤ e.run.issued + 1) {holds : State → Run → Prop}
    (so : ∀ r, t.runOf k = some r → StandsAs r seq x → holds t r) : GoesOn s k e (.next (withTile kind k seq go s)) holds := by
  obtain ⟨r, run, same⟩ := Option.map_eq_some_iff.1 leaves.run
  have count : r.issued = x.run.issued := (congrArg Run.issued same :)
  exact ⟨t, r, congrArg Host.Outcome.next (goes ▸ withTile_issues h go), run,
    so r run (standsAs_of_unplaced (present.trans h.seq_eq) same), count ▸ issued, leaves.frame⟩

/- The present sequence -/

section
variable {e : Exec} (within : e.seq < e.run.seqs.length)
include within

theorem modSeq_me (f : Seq → Seq) : (e.modSeq f).me = f e.me := getD_setAt_same e.run.seqs e.seq f Seq.done within

theorem next_me (fresh : Bool) : (e.next fresh).me = { e.me with pc := e.me.pc + 1, block := .none, waitAt := none, fresh := fresh } :=
  modSeq_me (e := { e with run := { e.run with issued := e.run.issued + 1 } }) within _

theorem modSeq_within (f : Seq → Seq) : (e.modSeq f).seq < (e.modSeq f).run.seqs.length := by simpa [Exec.modSeq] using within

theorem next_within (fresh : Bool) : (e.next fresh).seq < (e.next fresh).run.seqs.length :=
  modSeq_within (e := { e with run := { e.run with issued := e.run.issued + 1 } }) within _

theorem issued_within (plot : Nat) (s : State) : (e.issued plot s).seq < (e.issued plot s).run.seqs.length :=
  modSeq_within (modSeq_within within _) _

theorem issued_me (plot : Nat) (s : State) : (e.issued plot s).me =
    { e.me with plot := plot, block := .none, waitAt := none, section_ := e.me.section_.map fun x => x.resume s.now } := by
  unfold Exec.issued resumeSeq Exec.onPlot
  rw [modSeq_me (modSeq_within within _), modSeq_me within]

theorem issued_groups (plot : Nat) (s : State) : (e.issued plot s).me.groups = e.me.groups := by rw [issued_me within]

end

end Sys2Proof.Machine
end

section
/-!
PROOFS. The synchronise and chain classes (R145, R325, R326, R382, R386 to R388): the working state that each word leaves, the end of a
run, hand-ons between members on this module; and O54.
-/

namespace Sys2Proof.Machine

open Sys2Proof

/- SIGNAL and WAIT (R386) -/

/-- A sequence that waits for a token can look again. -/
def Seq.lookAgain (q : Seq) : Seq := if q.block = SeqBlock.token then { q with block := .none } else q

/-- The working state in which a token is raised and the sequences that wait for one can look again. -/
def Exec.signalled (e : Exec) (token : Nat) : Exec := { e with run := { e.run with
  tokens := kvSet token (satAdd 16 ((kvGet token e.run.tokens).getD 0) 1) e.run.tokens, seqs := e.run.seqs.map Seq.lookAgain } }

theorem signalled_pc (e : Exec) (token : Nat) : (e.signalled token).me.pc = e.me.pc := by
  have me : (e.signalled token).me = e.me.lookAgain := List.getD_map e.run.seqs Seq.done Seq.lookAgain
  rw [me, Seq.lookAgain]
  split <;> rfl

theorem signalled_within {e : Exec} (within : e.seq < e.run.seqs.length) (token : Nat) :
    (e.signalled token).seq < (e.signalled token).run.seqs.length := within.trans_eq (List.length_map ..).symm

theorem signal_eq (e : Exec) (w : Nat) (s : State) :
    signal e w s = wakeCtx e.run.ctx (nextSegment (e.signalled (wf w 1 7 0)) s) := rfl

section
variable {s : State} {kind : TKind} {k : CmdKey} {seq : Nat} {e : Exec} {plot : Nat}

theorem leavesRun_nextSegment (h : Issues s kind k seq e plot) {x : Exec} {u : State} (before : Beside s u) (key : x.run.key = k) :
    LeavesRun s k (x.next true) (nextSegment x u) := by
  have committed := leavesRun_commit h before (x := x.next true) key
  exact (committed.followed (beside_layerBoundary (.program x.run.ctx x.run.handle) _)).followed
    (plotWork_ferryAhead (x.next true).run x.prog x.seq _).beside

theorem signal_goesOn (h : Issues s .signal k seq e plot) : GoesOn s k e (exec (.signal k seq) s) fun _ r =>
    (r.seq seq).pc = e.me.pc + 1 ∧
      kvGet (wf e.word 1 7 0) r.tokens = some (satAdd 16 ((kvGet (wf e.word 1 7 0) e.run.tokens).getD 0) 1) := by
  have segment := leavesRun_nextSegment h (beside_waited e plot s) (x := (e.issued plot s).signalled (wf e.word 1 7 0)) h.key
  refine goesOn_of h (signal_eq ..) (segment.followed (settled_wakeCtx ..).beside) rfl le_rfl fun r _ stands => ⟨?_, ?_⟩
  · rw [stands.pc, next_me (signalled_within (issued_within h.within plot s) _), signalled_pc, issued_me h.within]
  · rw [stands.tokens]
    exact kvGet_kvSet_same ..

/-- What a sequence that waits has as it had. -/
theorem wait_me {x : Exec} (within : x.seq < x.run.seqs.length) {b : SeqBlock} (now : Nat) (here : b ≠ .peer) :
    (x.wait b now).me = { x.me with block := b, waitAt := none } := by
  rw [Exec.wait, modSeq_me within]
  simp only [if_neg here]

/-- A sequence that cannot go on until another does is held where it stands. -/
theorem goesOn_held (h : Issues s kind k seq e plot) {go : Exec → Nat → State → State} {b : SeqBlock}
    (goes : go (e.issued plot s) e.word (e.waited plot s) = pause (e.issued plot s).me.plot
      (commit ((e.issued plot s).wait b (e.waited plot s).now) (e.waited plot s))) (here : b ≠ .peer) {holds : State → Run → Prop}
    (so : ∀ t r, (r.seq seq).pc = e.me.pc → (r.seq seq).block = b → r.tokens = e.run.tokens → holds t r) :
    GoesOn s k e (.next (withTile kind k seq go s)) holds := by
  have committed := leavesRun_commit h (beside_waited e plot s) (x := (e.issued plot s).wait b (e.waited plot s).now) h.key
  have me := wait_me (issued_within h.within plot s) (e.waited plot s).now here
  refine goesOn_of h goes (committed.followed (settled_pause ..).beside) rfl (Nat.le_succ _) fun r _ stands => so _ r ?_ ?_ stands.tokens
  · rw [stands.pc, me, issued_me h.within]
  · rw [stands.block, me]

theorem waitToken_reached {x : Exec} {w : Nat} (reached : wf w 1 23 8 ≤ (kvGet (wf w 1 7 0) x.run.tokens).getD 0) (u : State) :
    waitToken x w u = nextSegment x u := if_neg (Nat.not_lt.2 reached)

theorem waitToken_short {x : Exec} {w : Nat} (short : (kvGet (wf w 1 7 0) x.run.tokens).getD 0 < wf w 1 23 8) (u : State) :
    waitToken x w u = pause x.me.plot (commit (x.wait .token u.now) u) := if_pos short

theorem wait_goesOn (h : Issues s .wait k seq e plot)
    (reached : wf e.word 1 23 8 ≤ (kvGet (wf e.word 1 7 0) e.run.tokens).getD 0) : GoesOn s k e (exec (.wait k seq) s) fun _ r =>
    (r.seq seq).pc = e.me.pc + 1 ∧ r.tokens = e.run.tokens := by
  have within := issued_within h.within plot s
  refine goesOn_of h (waitToken_reached (x := e.issued plot s) reached _) (leavesRun_nextSegment h (beside_waited e plot s) h.key) rfl le_rfl
    fun r _ stands => ⟨?_, stands.tokens⟩
  rw [stands.pc, next_me within, issued_me h.within]

theorem wait_held (h : Issues s .wait k seq e plot)
    (short : (kvGet (wf e.word 1 7 0) e.run.tokens).getD 0 < wf e.word 1 23 8) : GoesOn s k e (exec (.wait k seq) s) fun _ r =>
    (r.seq seq).pc = e.me.pc ∧ (r.seq seq).block = .token :=
  goesOn_held h (waitToken_short (x := e.issued plot s) short _) nofun fun _ _ pc block _ => ⟨pc, block⟩

/- Sections (R145, R388) -/

/-- The working state in which a section is opened, or closed, and the sequence has gone on. -/
def Exec.withSection (x : Exec) (sec : Option Section) : Exec := (x.modSeq fun q => { q with section_ := sec }).next false

theorem withSection_me {x : Exec} (within : x.seq < x.run.seqs.length) (sec : Option Section) : (x.withSection sec).me =
    { x.me with pc := x.me.pc + 1, block := .none, waitAt := none, fresh := false, section_ := sec } := by
  rw [Exec.withSection, next_me (modSeq_within within _), modSeq_me within]

/-- A sequence of a run that stands on the plot with a section open. -/
theorem sectionOn_of {t : State} {r : Run} {i p : Nat} (run : r ∈ t.runs) (within : i < r.seqs.length) (going : (r.seq i).ended = false)
    (stands : (r.seq i).plot = p) (opened : (r.seq i).section_.isSome = true) : t.sectionOn p r.ctx = true := by
  have listed : i ∈ (List.range r.seqs.length).filter fun i => !(r.seq i).ended && decide ((r.seq i).plot = p) :=
    List.mem_filter.2 ⟨List.mem_range.2 within, by simp [going, stands]⟩
  have there : (r, i) ∈ t.seqsOn p r.ctx :=
    List.mem_flatMap.2 ⟨r, List.mem_filter.2 ⟨run, decide_eq_true rfl⟩, List.mem_map.2 ⟨i, listed, rfl⟩⟩
  exact List.any_eq_true.2 ⟨(r, i), there, opened⟩

/-- A section that is opened keeps the context on the plot. -/
theorem sectionOn_opened (h : Issues s kind k seq e plot) (sec : Section) :
    (commit ((e.issued plot s).withSection (some sec)) (e.waited plot s)).sectionOn plot e.run.ctx = true := by
  have within := issued_within h.within plot s
  have me := withSection_me within (some sec)
  have run := commit_runOf h (beside_waited e plot s) (x := (e.issued plot s).withSection (some sec)) h.key
  refine sectionOn_of (r := ((e.issued plot s).withSection (some sec)).run) (i := e.seq) (List.mem_of_find?_eq_some run)
    (next_within (modSeq_within within _) false) ?_ ?_ ?_
  · exact (congrArg Seq.ended me).trans ((congrArg Seq.ended (issued_me h.within plot s)).trans h.running)
  · exact (congrArg Seq.plot me).trans (issued_plot h)
  · exact congrArg (fun q : Seq => q.section_.isSome) me

theorem sectionOpen_goesOn (h : Issues s .sectionOpen k seq e plot) : GoesOn s k e (exec (.sectionOpen k seq) s) fun t r =>
    (r.seq seq).pc = e.me.pc + 1 ∧ (r.seq seq).section_ = some ⟨wf e.word 1 10 0, none, none⟩ ∧ t.sectionOn plot e.run.ctx = true := by
  have me := withSection_me (issued_within h.within plot s) (some ⟨wf e.word 1 10 0, none, none⟩)
  have committed := leavesRun_commit h (beside_waited e plot s)
    (x := (e.issued plot s).withSection (some ⟨wf e.word 1 10 0, none, none⟩)) h.key
  refine goesOn_of h (t := commit ((e.issued plot s).withSection _) (e.waited plot s)) rfl committed rfl le_rfl
    fun r _ stands => ⟨?_, ?_, sectionOn_opened h _⟩
  · rw [stands.pc, me, issued_me h.within]
  · rw [stands.section_, me]

theorem sectionClose_goesOn (h : Issues s .sectionClose k seq e plot) : GoesOn s k e (exec (.sectionClose k seq) s) fun _ r =>
    (r.seq seq).pc = e.me.pc + 1 ∧ (r.seq seq).section_ = none := by
  have me := withSection_me (issued_within h.within plot s) none
  have committed := leavesRun_commit h (beside_waited e plot s) (x := (e.issued plot s).withSection none) h.key
  refine goesOn_of h rfl (committed.followed (settled_pause (e.issued plot s).me.plot _).beside) rfl le_rfl fun r _ stands => ⟨?_, ?_⟩
  · rw [stands.pc, me, issued_me h.within]
  · rw [stands.section_, me]

end

/- The end of a run (R387, Table 12-9) -/

/-- The bytes after some others. -/
theorem slice_after {n m : Nat} (a b rest : List Byte) (before : a.length = n) (length : b.length = m) :
    slice (a ++ (b ++ rest)) n m = b := by
  subst before length
  simp [slice]

theorem unlinked_keepSteps (r : Run) (s : State) : Unlinked s (keepSteps r s) := rfl

theorem unlinked_dropHeld (n handle : Nat) (which : Nat → Bool) (s : State) : Unlinked s (dropHeld n handle which s) := rfl

/-- A run that leaves in good order takes its tiles and blocks from the plots, and is gone. -/
theorem leaveRun_ok (r : Run) (u : State) : ∃ v, Unlinked u v ∧
    Unlinked { v with runs := v.runs.filter fun q => decide (q.key ≠ r.key) } (leaveRun r stOk u) := by
  unfold leaveRun
  dsimp only
  rw [if_pos rfl]
  split
  · exact ⟨u, rfl, (unlinked_dropBlocks ..).trans (unlinked_keepSteps ..)⟩
  · exact ⟨_, unlinked_dropHeld .., (unlinked_dropBlocks ..).trans (unlinked_keepSteps ..)⟩

theorem leaveRun_runs (r : Run) (u : State) : (leaveRun r stOk u).runs = u.runs.filter fun q => decide (q.key ≠ r.key) := by
  obtain ⟨v, dropped, left⟩ := leaveRun_ok r u
  rw [left, show v.runs = u.runs from (congrArg State.runs dropped :)]

theorem leaveRun_sessions (r : Run) (u : State) : (leaveRun r stOk u).sessions = u.sessions := by
  obtain ⟨v, dropped, left⟩ := leaveRun_ok r u
  rw [left, show v.sessions = u.sessions from (congrArg State.sessions dropped :)]

theorem filter_runOf (k : CmdKey) {s u : State} (runs : u.runs = s.runs.filter fun q => decide (q.key ≠ k)) : u.runOf k = none := by
  rw [State.runOf, runs]
  simp

/-- A run of a PROGRAM_RUN that ends OK is answered, in a session that is not held, and is gone. -/
theorem finishRun_answers {u : State} {k : CmdKey} {r : Run} {c : Cmd} (run : u.runOf k = some r) (cmd : findCmd k u = some c)
    (op : c.opcode = 0x71) (opened : (u.session k.session).phase = .opened) (endKind : Nat) (blocked : Nat × Nat) :
    (∃ q ∈ (finishRun k stOk endKind blocked u).replies, q.key = k ∧ q.status = stOk ∧ slice q.payload 12 1 = leBytes 1 endKind) ∧
      (finishRun k stOk endKind blocked u).runOf k = none := by
  have key : c.key = k := by simpa using List.find?_some cmd
  have own : r.key = k := by simpa using List.find?_some run
  have session : ((leaveRun r stOk u).session c.key.session).phase = .opened := by
    rw [key, ← opened, State.session, leaveRun_sessions, State.session]
  have runs : (leaveRun r stOk u).runs = u.runs.filter fun q => decide (q.key ≠ k) := own ▸ leaveRun_runs r u
  simp only [finishRun, run, cmd]
  rw [if_neg (by rw [op]; decide)]
  obtain ⟨q, to_, -, -, -, status, payload, -, -, -, answered⟩ :=
    complete_answered (c := { c with lt := c.lt || r.late, fs := c.fs || decide (r.skips ≠ 0) }) stOk false _ _ []
      (leaveRun r stOk u) (.inr (by simp [session]))
  rw [answered]
  refine ⟨⟨q, List.mem_append_right _ (List.mem_singleton_self q), to_.trans key, status, ?_⟩, filter_runOf k runs⟩
  rw [payload]
  simp only [List.append_assoc]
  rw [← List.append_assoc, ← List.append_assoc]
  exact slice_after _ _ _ (by simp) (by simp)

/-- What the statement of O54 says of an instruction with which a run ends. -/
def EndsRun (s : State) (k : CmdKey) (out : Out) (kind : Byte) : Prop :=
  ∀ c, findCmd k s = some c → c.opcode = 0x71 → k.queue ≠ .admin → (s.session k.session).phase = .opened →
    ∃ t, ∃ r ∈ t.replies, out = .next t ∧ r.key = k ∧ r.status = stOk ∧ slice r.payload 12 1 = [kind] ∧ t.runOf k = none

theorem settleRun_none {k : CmdKey} {s : State} (h : s.runOf k = none) : settleRun k s = s := by
  unfold settleRun
  rw [h]

section
variable {s : State} {kind : TKind} {k : CmdKey} {seq : Nat} {e : Exec} {plot : Nat}

/-- An instruction with which its run ends: the answer stands after the boundary that follows on the plot. -/
theorem endsRun_of (h : Issues s kind k seq e plot) {go : Exec → Nat → State → State} {x : Exec} {endKind : Nat} {p : Nat}
    (goes : go (e.issued plot s) e.word (e.waited plot s) = pause p (finishRun k stOk endKind (0, 0) (commit x (e.waited plot s))))
    (key : x.run.key = k) {byte : Byte} (code : leBytes 1 endKind = [byte]) : EndsRun s k (.next (withTile kind k seq go s)) byte := by
  intro c cmd op _ opened
  have waited := beside_waited e plot s
  have cmds : (commit x (e.waited plot s)).cmds = s.cmds := (congrArg State.cmds waited.frame :)
  have sessions : (commit x (e.waited plot s)).sessions = s.sessions := (congrArg State.sessions waited.frame :)
  rw [findCmd, ← cmds] at cmd
  rw [State.session, ← sessions] at opened
  obtain ⟨⟨r, answered, to_, status, body⟩, gone⟩ := finishRun_answers (commit_runOf h waited key) cmd op opened endKind (0, 0)
  have paused := (settled_pause p (finishRun k stOk endKind (0, 0) (commit x (e.waited plot s)))).beside
  have replies := (congrArg State.replies paused.frame :)
  have still := runOf_unplaced paused.runs k
  rw [gone, Option.map_none, Option.map_eq_none_iff] at still
  refine ⟨_, r, replies ▸ answered, ?_, to_, status, body.trans code, still⟩
  rw [withTile_issues h, goes, settleRun_none still]

/- HALT_IF and END (R387) -/

theorem haltIf_goesOn (h : Issues s .haltIf k seq e plot) (clear : Nat.land e.run.check (wf e.word 1 31 0) = 0) :
    GoesOn s k e (exec (.haltIf k seq) s) fun _ r => (r.seq seq).pc = e.me.pc + 1 := by
  have committed := leavesRun_commit h (beside_waited e plot s) (x := (e.issued plot s).next false) h.key
  refine goesOn_of h (t := commit ((e.issued plot s).next false) (e.waited plot s)) (if_neg (not_not_intro clear)) committed rfl le_rfl
    fun r _ stands => ?_
  rw [stands.pc, next_me (issued_within h.within plot s), issued_me h.within]

theorem haltIf_ends (h : Issues s .haltIf k seq e plot) (set_ : Nat.land e.run.check (wf e.word 1 31 0) ≠ 0) :
    EndsRun s k (exec (.haltIf k seq) s) 1#8 :=
  endsRun_of h (x := (e.issued plot s).next false) (if_pos set_) h.key rfl

/-- The working state in which the sequence has ended. -/
def Exec.finished (x : Exec) : Exec := (x.next false).modSeq fun q => { q with ended := true }

theorem finished_me {x : Exec} (within : x.seq < x.run.seqs.length) : x.finished.me.ended = true := by
  rw [Exec.finished, modSeq_me (next_within within false)]

theorem modSeq_other {x : Exec} (f : Seq → Seq) {i : Nat} (other : i ≠ x.seq) : (x.modSeq f).run.seq i = x.run.seq i :=
  getD_setAt_other x.run.seqs f Seq.done other

theorem next_other {x : Exec} (fresh : Bool) {i : Nat} (other : i ≠ x.seq) : (x.next fresh).run.seq i = x.run.seq i :=
  modSeq_other (x := { x with run := { x.run with issued := x.run.issued + 1 } }) _ other

/-- The other sequences of the run stand as they were. -/
theorem finished_other (e : Exec) (plot : Nat) (s : State) {i : Nat} (other : i ≠ e.seq) :
    ((e.issued plot s).finished).run.seq i = e.run.seq i := by
  calc ((e.issued plot s).finished).run.seq i = ((e.issued plot s).next false).run.seq i := modSeq_other _ other
    _ = (e.issued plot s).run.seq i := next_other false other
    _ = (e.onPlot plot).run.seq i := modSeq_other _ other
    _ = e.run.seq i := modSeq_other _ other

theorem finished_length (e : Exec) (plot : Nat) (s : State) : ((e.issued plot s).finished).run.seqs.length = e.run.seqs.length := by
  simp [Exec.finished, Exec.next, Exec.issued, resumeSeq, Exec.onPlot, Exec.modSeq]

theorem all_ended_iff (r : Run) : r.seqs.all (·.ended) = true ↔ ∀ i < r.seqs.length, (r.seq i).ended = true := by
  rw [List.all_eq_true, List.forall_mem_iff_getElem]
  refine forall_congr' fun i => forall_congr' fun below => ?_
  rw [Run.seq, List.getD_eq_getElem _ _ below]

/-- With the sequence the whole run has ended when the others had. -/
theorem finished_all (h : Issues s kind k seq e plot) : ((e.issued plot s).finished).run.seqs.all (·.ended) = true ↔
    ∀ i, i ≠ seq → i < e.run.seqs.length → (e.run.seq i).ended = true := by
  rw [all_ended_iff, finished_length, ← h.seq_eq]
  refine forall_congr' fun i => ?_
  by_cases own : i = e.seq
  · subst own
    exact ⟨fun _ other => absurd rfl other, fun _ _ => finished_me (issued_within h.within plot s)⟩
  · rw [finished_other e plot s own]
    simp [own]

theorem endSeq_goesOn (h : Issues s .endSeq k seq e plot)
    (others : ∃ i, i ≠ seq ∧ i < e.run.seqs.length ∧ (e.run.seq i).ended = false) :
    GoesOn s k e (exec (.endSeq k seq) s) fun _ r => (r.seq seq).ended = true := by
  have going : ¬ ((e.issued plot s).finished).run.seqs.all (·.ended) = true := fun all => by
    obtain ⟨i, other, below, goes⟩ := others
    simp [(finished_all h).1 all i other below] at goes
  have committed := leavesRun_commit h (beside_waited e plot s) (x := (e.issued plot s).finished) h.key
  refine goesOn_of h (congrArg (pause _) (if_neg going)) (committed.followed (settled_pause _ _).beside) rfl le_rfl fun r _ stands => ?_
  rw [stands.ended, finished_me (issued_within h.within plot s)]

theorem endSeq_ends (h : Issues s .endSeq k seq e plot)
    (others : ∀ i, i ≠ seq → i < e.run.seqs.length → (e.run.seq i).ended = true) : EndsRun s k (exec (.endSeq k seq) s) 0#8 :=
  endsRun_of h (x := (e.issued plot s).finished) (congrArg (pause _) (if_pos ((finished_all h).2 others))) h.key rfl

/- Chain hand-ons on this module (R325, R326, R382) -/

/-- A plot with a free slot takes a block into it, and one without takes none. -/
theorem accept_free {p : Plot} (free : none ∈ p.window) (b : HandOn) : ∃ win, p.accept b = some win ∧ some b ∈ win := by
  obtain ⟨i, found⟩ := Option.isSome_iff_exists.1 (List.findIdx?_isSome.trans (List.any_eq_true.2 ⟨none, free, rfl⟩) :
    (p.window.findIdx? (·.isNone)).isSome = true)
  obtain ⟨below, -⟩ := List.findIdx?_eq_some_iff_getElem.1 found
  refine ⟨setAt p.window i fun _ => some b, by rw [Plot.accept, found, Option.map_some], List.mem_of_getElem? (i := i) ?_⟩
  rw [setAt_getElem?, if_pos rfl, List.getElem?_eq_getElem below, Option.map_some]

theorem accept_full {p : Plot} (full : none ∉ p.window) (b : HandOn) : p.accept b = none := by
  rw [Plot.accept, Option.map_eq_none_iff, List.findIdx?_eq_none_iff]
  intro w listed
  cases w with
  | none => exact absurd listed full
  | some _ => rfl

/-- The plot of the next member of a chain, and the block that a CHAIN_SEND to a member of this module hands on to it. -/
def Exec.successorPlot (x : Exec) (c : Chain) (place : Nat) : Nat := (x.run.seq (c.members.getD (place + 1) 0xFF)).plot
def State.nextBlock (u : State) (x : Exec) (w place : Nat) (g : Group) : HandOn :=
  handOnBlock g (u.chainNo x (wf w 1 11 0)) place (x.chainStep (wf w 1 11 0) place (decide (g.moved = 0))) false

/-- The plot has taken a block into its window. -/
def takeBlock (p : Nat) (win : List (Option HandOn)) (u : State) : State := modPlot p (fun q => { q with window := win, moverAt := u.now }) u

section sends
variable {x : Exec} {w : Nat} {c : Chain} {place : Nat} {g : Group} (member : chainPlace x.prog x.seq w = some (c, place))
  (group : kvGet (movGroup w) x.me.groups = some g) (here : c.members.getD (place + 1) 0xFF ≠ 0xFF) (u : State)
include member group here

theorem chainSend_slot {win : List (Option HandOn)}
    (takes : (u.plot (x.successorPlot c place)).accept (u.nextBlock x w place g) = some win) :
    chainSend x w u = commit (x.sentBlock (movGroup w) (wf w 1 11 0) place (place + 1) g (u.nextBlock x w place g))
      (issue x w (takeBlock (x.successorPlot c place) win u)) := by
  unfold Exec.successorPlot State.nextBlock at takes
  simp only [chainSend, member, group, here, ne_eq, not_false_eq_true, if_true, decide_false, takes]
  rfl

theorem chainSend_full (full : none ∉ (u.plot (x.successorPlot c place)).window) :
    chainSend x w u = pause x.me.plot (commit (x.wait .slot u.now) u) := by
  unfold Exec.successorPlot at full
  simp only [chainSend, member, group, here, ne_eq, not_false_eq_true, if_true, accept_full full]

end sends

/-- An instruction that comes to be in flight leaves the exchange windows. -/
theorem issue_window (x : Exec) (w : Nat) (u : State) (p : Nat) : ((issue x w u).plot p).window = (u.plot p).window := by
  unfold issue
  split
  · rfl
  · rw [modPlot_plot]
    split <;> rfl

theorem settled_takeBlock (p : Nat) (win : List (Option HandOn)) (u : State) : Settled u (takeBlock p win u) := settled_modPlot ..

theorem takeBlock_window {p : Nat} (bound : p < 272) (win : List (Option HandOn)) (u : State) :
    ((takeBlock p win u).plot p).window = win := by
  rw [takeBlock, modPlot_plot, if_pos ⟨bound, rfl⟩]

/-- A block that has gone stands with the sender's copies, whether its group is released with it or not. -/
theorem sentBlock_frame (x : Exec) (mg i place to_ : Nat) (g : Group) (b : HandOn) : ∃ seqs issued, issued ≤ x.run.issued + 1 ∧
    x.sentBlock mg i place to_ g b = { x with run := { x.run with
      seqs := seqs, issued := issued, sent := x.run.sent ++ [(b.chain, to_, b)], steps := kvSet (16 * i + place) b.step x.run.steps } } := by
  unfold Exec.sentBlock
  dsimp only
  split
  · exact ⟨_, _, le_rfl, rfl⟩
  · exact ⟨_, _, Nat.le_succ _, rfl⟩

theorem sentBlock_last {x : Exec} (within : x.seq < x.run.seqs.length) (mg i place to_ : Nat) (g : Group) {b : HandOn} (last : b.last = true) :
    (x.sentBlock mg i place to_ g b).me.pc = x.me.pc + 1 := by
  simp only [Exec.sentBlock, last, if_true]
  rw [next_me (modSeq_within (by exact within) _), modSeq_me (by exact within)]
  rfl

/-- The working state in which a block that had landed is merged into its group. -/
def Exec.merged (x : Exec) (w place : Nat) (g : Group) (y : Nat × Nat × HandOn) : Exec :=
  ({ x with run := { x.run with
      landed := x.run.landed.filter fun z => decide (z ≠ y)
      steps := if y.2.2.last then kvSet (16 * wf w 1 11 0 + place) y.2.2.step x.run.steps else x.run.steps } }.modSeq fun q =>
    { q with block := .none, groups := kvSet (movGroup w) (mergeBlock g x.free y.2.2) q.groups }).take

/-- The sequence goes on with the last block of a hand-on. -/
def Exec.received (x : Exec) (w place : Nat) (g : Group) (y : Nat × Nat × HandOn) : Exec :=
  if y.2.2.last then (x.merged w place g y).next false else x.merged w place g y

theorem chainRecv_landed {x : Exec} {w : Nat} {c : Chain} {place : Nat} {g : Group} (member : chainPlace x.prog x.seq w = some (c, place))
    (group : kvGet (movGroup w) x.me.groups = some g) (u : State) {y : Nat × Nat × HandOn}
    (found : x.run.landed.find? (fun z => decide (z.1 = u.chainNo x (wf w 1 11 0)) && decide (z.2.1 = place) &&
      decide (z.2.2.block = g.moved / 8184)) = some y) :
    chainRecv x w u = returnSlot (u.chainNo x (wf w 1 11 0)) (place - 1) y.2.2 (commit (x.received w place g y) (issue x w u)) := by
  simp only [chainRecv, member, group, found]
  rfl

theorem received_frame (x : Exec) (w place : Nat) (g : Group) (y : Nat × Nat × HandOn) : ∃ seqs issued steps, issued ≤ x.run.issued + 1 ∧
    x.received w place g y = { x with free := x.free + 2 ^ 21, run := { x.run with
      seqs := seqs, issued := issued, landed := x.run.landed.filter fun z => decide (z ≠ y), steps := steps } } := by
  unfold Exec.received
  split
  · exact ⟨_, _, _, le_rfl, rfl⟩
  · exact ⟨_, _, _, Nat.le_succ _, rfl⟩

section
variable {x : Exec} (within : x.seq < x.run.seqs.length) (w place : Nat) (g : Group) (y : Nat × Nat × HandOn)
include within

theorem merged_within : (x.merged w place g y).seq < (x.merged w place g y).run.seqs.length := by
  simpa [Exec.merged, Exec.take, Exec.modSeq] using within

theorem merged_me : (x.merged w place g y).me =
    { x.me with block := .none, groups := kvSet (movGroup w) (mergeBlock g x.free y.2.2) x.me.groups } :=
  getD_setAt_same x.run.seqs x.seq
    (fun q => { q with block := .none, groups := kvSet (movGroup w) (mergeBlock g x.free y.2.2) q.groups }) Seq.done within

theorem received_groups : kvGet (movGroup w) (x.received w place g y).me.groups = some (mergeBlock g x.free y.2.2) := by
  have merged : kvGet (movGroup w) (x.merged w place g y).me.groups = some (mergeBlock g x.free y.2.2) := by
    rw [merged_me within]
    exact kvGet_kvSet_same ..
  unfold Exec.received
  split
  · rw [next_me (merged_within within ..)]
    exact merged
  · exact merged

theorem received_last (last : y.2.2.last = true) : (x.received w place g y).me.pc = x.me.pc + 1 := by
  rw [Exec.received, if_pos last, next_me (merged_within within ..), merged_me within]

end

/-- A slot that is returned is free here, and counted for the peer that its block came from. -/
theorem unlinked_returnSlot (fid from_ : Nat) (b : HandOn) (s : State) : Unlinked s (returnSlot fid from_ b s) := by
  have dropped := unlinked_dropBlocks [b] s
  unfold returnSlot
  dsimp only
  generalize dropBlocks [b] s = u at dropped ⊢
  split
  · exact dropped
  · split
    · exact dropped
    · refine dropped.trans ?_
      split
      · rfl
      · exact (wired_sendControl ..).unlinked

theorem waited_acct (e : Exec) (plot : Nat) (s : State) : ∃ a, e.waited plot s = { s with acct := a } := by
  unfold Exec.waited resumeSeq
  dsimp only
  split
  · exact ⟨s.acct, rfl⟩
  · exact account_acct ..

theorem waited_plot (e : Exec) (plot : Nat) (s : State) (p : Nat) : (e.waited plot s).plot p = s.plot p := by
  obtain ⟨a, is⟩ := waited_acct e plot s
  rw [is]
  rfl

theorem waited_chainNo (e x : Exec) (plot : Nat) (s : State) (i : Nat) : (e.waited plot s).chainNo x i = s.chainNo x i := by
  obtain ⟨a, is⟩ := waited_acct e plot s
  rw [is]
  rfl

section chains
variable {c : Chain} {place : Nat} {g : Group} (member : chainPlace e.prog e.seq e.word = some (c, place))
  (group : kvGet (movGroup e.word) e.me.groups = some g)
include member group

theorem chainSend_goesOn (h : Issues s .chainSend k seq e plot) (here : c.members.getD (place + 1) 0xFF ≠ 0xFF)
    (bound : (e.issued plot s).successorPlot c place < 272)
    (free : none ∈ (s.plot ((e.issued plot s).successorPlot c place)).window) :
    GoesOn s k e (exec (.chainSend k seq) s) fun t r => ∃ b : HandOn,
      b.pairs = (g.pairs.drop g.moved).take 8184 ∧ b.block = g.moved / 8184 ∧ b.from_ = place ∧
      b.last = decide (g.pairs.length ≤ g.moved + 8184) ∧ some b ∈ (t.plot ((e.issued plot s).successorPlot c place)).window ∧
      (∃ no, r.sent = e.run.sent ++ [(no, place + 1, b)]) ∧ (b.last = true → (r.seq seq).pc = e.me.pc + 1) := by
  have within := issued_within h.within plot s
  rw [← issued_groups h.within plot s] at group
  generalize is : (e.waited plot s).nextBlock (e.issued plot s) e.word place g = b
  have block : b.pairs = (g.pairs.drop g.moved).take 8184 ∧ b.block = g.moved / 8184 ∧ b.from_ = place ∧
      b.last = decide (g.pairs.length ≤ g.moved + 8184) := is ▸ ⟨rfl, rfl, rfl, rfl⟩
  obtain ⟨pairs, number, from_, last⟩ := block
  obtain ⟨win, takes, stands⟩ := accept_free (waited_plot e plot s _ ▸ free) b
  have goes := chainSend_slot (x := e.issued plot s) member group here (e.waited plot s) (is ▸ takes)
  obtain ⟨seqs, issued, few, sent⟩ := sentBlock_frame (e.issued plot s) (movGroup e.word) (wf e.word 1 11 0) place (place + 1) g b
  rw [is] at goes
  have taken := (settled_takeBlock ((e.issued plot s).successorPlot c place) win (e.waited plot s)).trans (settled_issue (e.issued plot s) e.word _)
  have committed := leavesRun_commit h ((beside_waited e plot s).trans taken.beside)
    (x := (e.issued plot s).sentBlock (movGroup e.word) (wf e.word 1 11 0) place (place + 1) g b) (by rw [sent]; exact h.key)
  refine goesOn_of h goes committed (by rw [sent]; rfl) (by rw [sent]; exact few) fun r _ as_ =>
    ⟨b, pairs, number, from_, last, ?_, ⟨b.chain, ?_⟩, fun done => ?_⟩
  · have window := (issue_window (e.issued plot s) e.word _ _).trans (takeBlock_window bound win (e.waited plot s))
    exact window.symm ▸ stands
  · rw [as_.sent, sent]
    rfl
  · rw [as_.pc, sentBlock_last within _ _ _ _ _ done, issued_me h.within]

theorem chainSend_held (h : Issues s .chainSend k seq e plot) (here : c.members.getD (place + 1) 0xFF ≠ 0xFF)
    (full : none ∉ (s.plot ((e.issued plot s).successorPlot c place)).window) :
    GoesOn s k e (exec (.chainSend k seq) s) fun _ r => (r.seq seq).pc = e.me.pc ∧ (r.seq seq).block = .slot := by
  rw [← issued_groups h.within plot s] at group
  exact goesOn_held h (chainSend_full (x := e.issued plot s) member group here (e.waited plot s) (waited_plot e plot s _ ▸ full)) nofun
    fun _ _ pc block _ => ⟨pc, block⟩

theorem chainRecv_goesOn (h : Issues s .chainRecv k seq e plot) {y : Nat × Nat × HandOn}
    (found : e.run.landed.find? (fun z => decide (z.1 = s.chainNo e (wf e.word 1 11 0)) && decide (z.2.1 = place) &&
      decide (z.2.2.block = g.moved / 8184)) = some y) : GoesOn s k e (exec (.chainRecv k seq) s) fun _ r =>
    kvGet (movGroup e.word) (r.seq seq).groups = some (mergeBlock g e.free y.2.2) ∧
      r.landed = e.run.landed.filter (fun z => decide (z ≠ y)) ∧ (y.2.2.last = true → (r.seq seq).pc = e.me.pc + 1) := by
  have within := issued_within h.within plot s
  rw [← issued_groups h.within plot s] at group
  have goes := chainRecv_landed (x := e.issued plot s) member group (e.waited plot s) (waited_chainNo .. ▸ found)
  obtain ⟨seqs, issued, steps, few, received⟩ := received_frame (e.issued plot s) e.word place g y
  have committed := leavesRun_commit h ((beside_waited e plot s).trans (settled_issue (e.issued plot s) e.word _).beside)
    (x := (e.issued plot s).received e.word place g y) (by rw [received]; exact h.key)
  refine goesOn_of h goes (committed.followed (unlinked_returnSlot ..).beside) (by rw [received]; rfl)
    (by rw [received]; exact few) fun r _ stands => ⟨?_, ?_, fun last => ?_⟩
  · rw [stands.groups]
    exact received_groups within ..
  · rw [stands.landed, received]
    rfl
  · rw [stands.pc, received_last within _ _ _ _ last, issued_me h.within]

end chains

end

/- Blocks checked where they landed (R326) -/

/-- The run of a key after a change of the runs of that key. -/
theorem runOf_map {s t : State} {k : CmdKey} {f : Run → Run} (keeps : ∀ q, (f q).key = q.key)
    (runs : t.runs = s.runs.map fun q => if q.key = k then f q else q) : t.runOf k = (s.runOf k).map f := by
  have same : ((fun r : Run => decide (r.key = k)) ∘ fun q => if q.key = k then f q else q) = fun r => decide (r.key = k) := by
    funext q
    by_cases own : q.key = k
    · simp [own, keeps]
    · simp [own]
  rw [State.runOf, runs, List.find?_map, same, State.runOf]
  refine Option.map_congr fun r found => ?_
  rw [if_pos (by simpa using List.find?_some found)]

theorem eq_of_unplaced {q r : Run} (same : q.unplaced = r.unplaced) : q = { r with seqs := q.seqs } := by
  calc q = { q.unplaced with seqs := q.seqs } := rfl
    _ = { r.unplaced with seqs := q.seqs } := by rw [same]

/-- The run in which a block has landed, and the state with it. -/
def Run.land (x : Nat × Nat × HandOn) (r : Run) : Run :=
  { r with sent := r.sent.erase x, landed := r.landed ++ [x], again := r.again.erase x }
def landBlock (k : CmdKey) (x : Nat × Nat × HandOn) (s : State) : State :=
  { s with runs := s.runs.map fun q => if q.key = k then q.land x else q }

section
variable {s : State} {k : CmdKey} {chain member : Nat} {r : Run} {x : Nat × Nat × HandOn} (run : s.runOf k = some r)
  (sent : r.sent.find? (fun y => decide (y.1 = chain) && decide (y.2.1 = member) && !(r.landed.contains y)) = some x)
  (here : x.2.2.peer = false)
include run sent here

/-- A block that passes its check has landed, and what waits for it is woken. -/
theorem handOn_lands (passes : x.2.2.crc = x.2.2.check) : ∃ t q, exec (.handOnBlockArrival k chain member true) s = .next t ∧
    t.runOf k = some q ∧
    q = { r with seqs := q.seqs, sent := r.sent.erase x, landed := r.landed ++ [x], again := r.again.erase x } ∧
    t = { s with runs := t.runs, searches := t.searches, plots := t.plots, contexts := t.contexts, acct := t.acct } := by
  have lands : handOnArrives k chain member true s = wakeCtx r.ctx (landBlock k x s) := by
    simp only [handOnArrives, run, sent, passes, here, and_self, if_true, Bool.false_eq_true, if_false]
    rfl
  have landed : (landBlock k x s).runOf k = some (r.land x) := by
    rw [runOf_map (t := landBlock k x s) (f := Run.land x) (fun _ => rfl) rfl, run, Option.map_some]
  have woken := settled_wakeCtx r.ctx (landBlock k x s)
  have there := runOf_unplaced woken.beside.runs k
  rw [landed, Option.map_some] at there
  obtain ⟨q, found, same⟩ := Option.map_eq_some_iff.1 there
  exact ⟨_, q, congrArg Host.Outcome.next lands, found, eq_of_unplaced same, woken.1⟩

/-- One that fails for the first time is counted, and asked for again. -/
theorem handOn_fails (first : x ∉ r.again) : exec (.handOnBlockArrival k chain member false) s = .next { s with
    runs := s.runs.map fun q => if q.key = k then { q with again := q.again ++ [x] } else q
    plots := { s.plots with chainResend := satAdd 16 s.plots.chainResend 1 } } := by
  refine congrArg Host.Outcome.next ?_
  have fresh : r.again.contains x = false := by simpa using first
  simp only [handOnArrives, run, sent, here, fresh, Bool.false_eq_true, false_and, if_false]
  rfl

end

end Sys2Proof.Machine

namespace Sys2Proof.Proofs

open Sys2Proof.Machine

/-- Settles O54: each word leaves a working state that is put back, with what goes on beside it on the plots, the links and the
schedules; HALT_IF and the last END answer the command. -/
theorem tileSequencing : Obligations.TileSequencing := by
  unfold Obligations.TileSequencing
  intro s k seq e plot w Held Ends Went tok n
  exact ⟨signal_goesOn, fun h => ⟨wait_goesOn h, wait_held h⟩, sectionOpen_goesOn, sectionClose_goesOn,
    fun h => ⟨haltIf_goesOn h, haltIf_ends h⟩, fun h => ⟨endSeq_goesOn h, endSeq_ends h⟩,
    fun c place g member group => ⟨fun h here bound => ⟨chainSend_goesOn member group h here bound, chainSend_held member group h here⟩,
      fun x h => chainRecv_goesOn member group h⟩,
    fun r chain member x run sent here => ⟨handOn_lands run sent here, handOn_fails run sent here⟩⟩

end Sys2Proof.Proofs
end

section
/-!
PROOFS. Work on the media (chapters 5 and 6): what each operation on dies, bands, word lines, the map and the page reads leaves as it was.
-/

namespace Sys2Proof.Machine

open Sys2Proof

/- Views that an operation leaves -/

/-- A fold leaves what each of its steps leaves. -/
theorem foldl_keeps {α β γ : Type} {f : β → α → β} (view : β → γ) (step : ∀ b a, view (f b a) = view b) (l : List α) (b : β) :
    view (l.foldl f b) = view b :=
  List.foldlRecOn l f (motive := fun u => view u = view b) rfl fun u same a _ => (step u a).trans same

/-- t is u after work on the media only, which leaves this view of them. -/
structure Keeps {β : Type} (view : Media → β) (u t : State) : Prop where
  frame : MediaOnly u t
  same  : view t.media = view u.media

section
variable {β γ : Type} {view : Media → β}

theorem Keeps.refl (s : State) : Keeps view s s := ⟨rfl, rfl⟩

theorem Keeps.trans {s u t : State} (first : Keeps view s u) (second : Keeps view u t) : Keeps view s t :=
  ⟨first.frame.trans second.frame, second.same.trans first.same⟩

theorem Keeps.foldl {α : Type} {f : State → α → State} (step : ∀ s a, Keeps view s (f s a)) (l : List α) (s : State) :
    Keeps view s (l.foldl f s) :=
  List.foldlRecOn l f (motive := Keeps view s) (Keeps.refl s) fun u so a _ => so.trans (step u a)

theorem Keeps.ite {c : Prop} [Decidable c] {s a b : State} (yes : Keeps view s a) (no : Keeps view s b) :
    Keeps view s (if c then a else b) := by
  split
  · exact yes
  · exact no

/-- What leaves a view leaves what can be seen in it. -/
theorem Keeps.of {s t : State} (h : Keeps view s t) (g : β → γ) : Keeps (fun m => g (view m)) s t := ⟨h.frame, congrArg g h.same⟩

theorem keeps_modMedia {f : Media → Media} (same : ∀ m, view (f m) = view m) (s : State) : Keeps view s (modMedia f s) := ⟨rfl, same s.media⟩

theorem Keeps.part {s t : State} (h : Keeps view s t) : t.part = s.part := (congrArg State.part h.frame :)

end

/-- The media but for the bands and the open journal stripe. -/
def Media.butBands (m : Media) : Media := { m with bands := [], journal := [], journalAt := 0 }
/-- The media but for what a word line that is given up changes. -/
def Media.butLines (m : Media) : Media := { m.butBands with lines := [], slots := [], copies := [], check := none, dies := [] }
/-- The media but for what the erase of a band changes. -/
def Media.butErased (m : Media) : Media := { m.butBands with members := [], flash := [] }
/-- The media but for the map, its cache and the open journal stripe. -/
def Media.butMap (m : Media) : Media := { m with segments := [], map := [], journal := [], journalAt := 0 }
/-- The media but for copies under way and page reads. -/
def Media.butCopies (m : Media) : Media := { m with copies := [], reads := [] }
/-- The media but for what a victim that is taken changes. -/
def Media.butVictims (m : Media) : Media := { m.butBands with segments := [], copies := [], reads := [] }
/-- The media but for the dies. -/
def Media.butDies (m : Media) : Media := { m with dies := [] }

/- Dies -/

theorem keeps_modDie (d : Nat) (f : Die → Die) (s : State) : Keeps Media.butDies s (modDie d f s) := by
  unfold modDie
  exact Keeps.ite (keeps_modMedia (by intro; rfl) s) (Keeps.refl s)

theorem modDie_inside {d : Nat} {s : State} (inside : d < s.part.dies) (f : Die → Die) :
    modDie d f s = { s with media := { s.media with dies := kvSet d (f (s.die d)) s.media.dies } } := if_pos inside

theorem die_congr {s t : State} (part : t.part = s.part) (dies : t.media.dies = s.media.dies) (i : Nat) : t.die i = s.die i := by
  unfold State.die
  rw [part, dies]

theorem Keeps.die {s t : State} (h : Keeps Media.dies s t) (i : Nat) : t.die i = s.die i := die_congr h.part h.same i

theorem die_modDie_same {d : Nat} {s : State} (inside : d < s.part.dies) (f : Die → Die) : (modDie d f s).die d = f (s.die d) := by
  rw [modDie_inside inside]
  unfold State.die
  rw [kvGet_kvSet_same]
  rfl

theorem die_modDie_other {d i : Nat} (other : d ≠ i) (f : Die → Die) (s : State) : (modDie d f s).die i = s.die i := by
  unfold modDie
  split
  · unfold State.die
    dsimp only [modMedia]
    rw [kvGet_kvSet_other _ _ other]
  · rfl

/-- A change of one die leaves of every die what it leaves of a die. -/
theorem die_modDie_view {β : Type} {view : Die → β} {f : Die → Die} (same : ∀ x, view (f x) = view x) (d i : Nat) (s : State) :
    view ((modDie d f s).die i) = view (s.die i) := by
  by_cases inside : d < s.part.dies
  · by_cases own : d = i
    · subst own
      rw [die_modDie_same inside, same]
    · rw [die_modDie_other own]
  · unfold modDie
    rw [if_neg inside]

/- Bands -/

theorem band_congr {s t : State} (bands : t.media.bands = s.media.bands) (k : Nat) : t.band k = s.band k := by
  unfold State.band
  rw [bands]

theorem band_modBand_same (k : Nat) (f : Band → Band) (s : State) : (modBand k f s).band k = f (s.band k) := by
  simp only [State.band, modBand, modMedia_media, kvGet_kvSet_same, Option.getD_some]

theorem band_modBand_other {k i : Nat} (other : k ≠ i) (f : Band → Band) (s : State) : (modBand k f s).band i = s.band i := by
  simp only [State.band, modBand, modMedia_media, kvGet_kvSet_other _ _ other]

theorem keeps_modBand (k : Nat) (f : Band → Band) (s : State) : Keeps Media.butBands s (modBand k f s) := ⟨rfl, rfl⟩
theorem keeps_journal (e : JEntry) (s : State) : Keeps Media.butBands s (journal e s) := ⟨rfl, rfl⟩
theorem keeps_setBand (k : Nat) (st : BandState) (s : State) : Keeps Media.butBands s (setBand k st s) := ⟨rfl, rfl⟩

theorem band_journal (e : JEntry) (s : State) (k : Nat) : (journal e s).band k = s.band k := rfl

theorem band_setBand_same (k : Nat) (st : BandState) (s : State) : (setBand k st s).band k = { s.band k with state := st } :=
  (band_journal _ _ k).trans (band_modBand_same ..)

theorem band_setBand_other {k i : Nat} (other : k ≠ i) (st : BandState) (s : State) : (setBand k st s).band i = s.band i :=
  (band_journal _ _ i).trans (band_modBand_other other ..)

theorem sorted_modBand (k : Nat) (f : Band → Band) (s : State) (sorted : kvSorted s.media.bands = true) :
    kvSorted (modBand k f s).media.bands = true := kvSorted_kvSet _ _ _ sorted

theorem sorted_setBand (k : Nat) (st : BandState) (s : State) (sorted : kvSorted s.media.bands = true) :
    kvSorted (setBand k st s).media.bands = true := sorted_modBand k (fun b => { b with state := st }) s sorted

/- Word lines given up -/

theorem keeps_endPrograms (l : WordLine) (s : State) : Keeps Media.butDies s (endPrograms l s) :=
  Keeps.foldl (fun u d => keeps_modDie d _ u) _ s

/-- The word line gone, with what it held back where it came from. -/
def Media.withoutLine (l : WordLine) (m : Media) : Media :=
  { m with
    lines := m.lines.filter fun x => decide (x.band ≠ l.band) || decide (x.wl ≠ l.wl)
    slots := l.slots.foldl (fun t p => kvMod p.2 (fun x => { x with place := none }) t) m.slots
    copies := l.copies.map (·.2) ++ m.copies
    journal := m.journal ++ l.entries.reverse
    check := if l.items = [] ∨ l.kind = .journal then m.check else m.check.map Checkpoint.again }

/-- The band of a word line that is given up: it goes on at the next, and it closes with its last. -/
def passLine (l : WordLine) (s : State) : State :=
  let s := modBand l.band (fun b => { b with filled := l.wl + 1 }) s
  if l.wl + 1 = 768 then setBand l.band .closed s else s

theorem dropLine_eq (l : WordLine) (s : State) : dropLine l s = passLine l (endPrograms l (modMedia (Media.withoutLine l) s)) := rfl

theorem keeps_passLine (l : WordLine) (s : State) : Keeps Media.butBands s (passLine l s) :=
  Keeps.ite ((keeps_modBand ..).trans (keeps_setBand ..)) (keeps_modBand ..)

theorem keeps_dropLine (l : WordLine) (s : State) : Keeps Media.butLines s (dropLine l s) := by
  rw [dropLine_eq]
  have without : Keeps Media.butLines s (modMedia (Media.withoutLine l) s) := keeps_modMedia (by intro; rfl) s
  have ended := (keeps_endPrograms l (modMedia (Media.withoutLine l) s)).of Media.butLines
  have passed := (keeps_passLine l (endPrograms l (modMedia (Media.withoutLine l) s))).of Media.butLines
  exact (without.trans ended).trans passed

end Sys2Proof.Machine
end

section
/-!
PROOFS. Work on the media that shows beside them (R174, R179): activity counts, what is lost to commands, the parts of a read-around, and the
rebuild of a failed die's block sets.
-/

namespace Sys2Proof.Machine

open Sys2Proof

/- Work that shows beside the media: replies, events and activity counts -/

theorem MediaWork.trans {s u t : State} (first : MediaWork s u) (second : MediaWork u t) : MediaWork s t := by
  unfold MediaWork at first second ⊢
  calc t = _ := second
    _ = _ := by rw [first]

theorem MediaWork.part {s t : State} (h : MediaWork s t) : t.part = s.part := (congrArg State.part h :)

theorem MediaOnly.mediaWork {u t : State} (h : MediaOnly u t) : MediaWork u t := by
  calc t = _ := h
    _ = _ := by rw [h]

theorem MediaOnly.part {u t : State} (h : MediaOnly u t) : t.part = u.part := (congrArg State.part h :)
theorem EventsOnly.part {u t : State} (h : EventsOnly u t) : t.part = u.part := (congrArg State.part h :)
theorem EventsOnly.media {u t : State} (h : EventsOnly u t) : t.media = u.media := (congrArg State.media h :)

theorem EventsOnly.mediaWork {u t : State} (h : EventsOnly u t) : MediaWork u t := by
  calc t = _ := h
    _ = _ := by rw [h]

/-- t is u after work that shows beside the media, which leaves this view of them. -/
structure Works {β : Type} (view : Media → β) (u t : State) : Prop where
  work : MediaWork u t
  same : view t.media = view u.media

section
variable {β γ : Type} {view : Media → β} {s u t : State}

theorem Works.trans (first : Works view s u) (second : Works view u t) : Works view s t :=
  ⟨first.work.trans second.work, second.same.trans first.same⟩

theorem Works.of (h : Works view s t) (g : β → γ) : Works (fun m => g (view m)) s t := ⟨h.work, congrArg g h.same⟩

theorem Keeps.works (h : Keeps view s t) : Works view s t := ⟨h.frame.mediaWork, h.same⟩

theorem MediaWork.works (h : MediaWork s t) (media : t.media = s.media) : Works view s t := ⟨h, congrArg view media⟩

end

theorem mediaWork_cmds (cmds : List Cmd) (s : State) : MediaWork s { s with cmds := cmds } := rfl

theorem account_frame (ctx : Option Nat) (f : AccCounts → AccCounts) (s : State) :
    account ctx f s = { s with acct := (account ctx f s).acct } := by
  unfold account
  dsimp only
  split <;> rfl

theorem mediaWork_account (ctx : Option Nat) (f : AccCounts → AccCounts) (s : State) : MediaWork s (account ctx f s) := by
  calc account ctx f s = _ := account_frame ctx f s
    _ = _ := by rw [account_frame ctx f s]

theorem account_media (ctx : Option Nat) (f : AccCounts → AccCounts) (s : State) : (account ctx f s).media = s.media :=
  (congrArg State.media (account_frame ctx f s) :)

theorem works_account {β : Type} {view : Media → β} (ctx : Option Nat) (f : AccCounts → AccCounts) (s : State) :
    Works view s (account ctx f s) := (mediaWork_account ctx f s).works (account_media ctx f s)

/- What is lost to the commands that wait for it -/

theorem keeps_remap (owner unit : Nat) (e : Option MapEntry) (s : State) : Keeps Media.butMap s (remap owner unit e s) := ⟨rfl, rfl⟩
theorem keeps_poison (owner unit : Nat) (s : State) : Keeps Media.butMap s (poison owner unit s) := keeps_remap ..

/-- A command to which the unit of a place is lost. -/
def Cmd.loses (a : MediaAddr) (u : Nat) (c : Cmd) : Cmd :=
  let hit := match c.phase with
    | .waiting (.pages need) => need.contains a
    | .waiting (.erased bands _) => bands.contains a.bandKey
    | _ => false
  if hit then { c with lost := c.lost ++ [u] } else c

theorem loseUnit_none {a : MediaAddr} {s : State} (h : s.unitAt a = none) : loseUnit a s = s := by
  unfold loseUnit
  rw [h]

theorem loseUnit_some {a : MediaAddr} {s : State} {u : Nat} (h : s.unitAt a = some u) :
    loseUnit a s = poison (u / 2 ^ 40) (u % 2 ^ 40) { s with cmds := s.cmds.map (Cmd.loses a u) } := by
  unfold loseUnit
  rw [h]
  rfl

theorem works_loseUnit (a : MediaAddr) (s : State) : Works Media.butMap s (loseUnit a s) := by
  cases h : s.unitAt a with
  | none =>
    rw [loseUnit_none h]
    exact ⟨rfl, rfl⟩
  | some u =>
    rw [loseUnit_some h]
    exact ((mediaWork_cmds (s.cmds.map (Cmd.loses a u)) s).works rfl).trans (keeps_poison ..).works

/- Counts -/

/-- The media but for the health counters, and but for the counts of read-arounds and of failed rebuilds too. -/
def Media.butHealth (m : Media) : Media := { m with health := Health.shipped }
def Media.butRebuilds (m : Media) : Media := { m.butHealth with readsAround := 0, rebuildFailed := 0 }

theorem keeps_bumpErr (i n : Nat) (s : State) : Keeps Media.butHealth s (bumpErr i n s) := ⟨rfl, rfl⟩
theorem keeps_countFailed (s : State) : Keeps Media.butRebuilds s (countFailed s) := ⟨rfl, rfl⟩

/-- A read-around is counted (Tables 5-10 and 6-14). -/
def countAround (s : State) : State := bumpErr 3 1 (modMedia (fun m => { m with readsAround := satAdd 32 m.readsAround 1 }) s)

theorem keeps_countAround (s : State) : Keeps Media.butRebuilds s (countAround s) := ⟨rfl, rfl⟩

/- The parts of a read-around -/

/-- t is u after work that leaves every die with the block sets that it is still to rebuild. -/
structure KeepsTodo (u t : State) : Prop where
  work : MediaWork u t
  todo : ∀ i, (t.die i).todo = (u.die i).todo

theorem KeepsTodo.refl (s : State) : KeepsTodo s s := ⟨rfl, fun _ => rfl⟩

theorem KeepsTodo.trans {s u t : State} (first : KeepsTodo s u) (second : KeepsTodo u t) : KeepsTodo s t :=
  ⟨first.work.trans second.work, fun i => (second.todo i).trans (first.todo i)⟩

theorem KeepsTodo.foldl {α : Type} {f : State → α → State} (step : ∀ s a, KeepsTodo s (f s a)) (l : List α) (s : State) :
    KeepsTodo s (l.foldl f s) :=
  List.foldlRecOn l f (motive := KeepsTodo s) (KeepsTodo.refl s) fun u so a _ => so.trans (step u a)

theorem Works.keepsTodo {u t : State} (h : Works Media.dies u t) : KeepsTodo u t :=
  ⟨h.work, fun i => congrArg Die.todo (die_congr h.work.part h.same i)⟩

theorem suspend_some (d : Nat) (op : DieOp) (s : State) : suspend d (some op) s =
    if op = .programSuspended then modMedia (fun m => { m with progSuspends := satAdd 32 m.progSuspends 1 }) (modDie d (fun x => { x with op := op }) s)
    else modMedia (fun m => { m with eraseSuspends := satAdd 32 m.eraseSuspends 1 }) (modDie d (fun x => { x with op := op }) s) := rfl

/-- The media but for what the suspension of operations changes. -/
def Media.butSuspends (m : Media) : Media := { m with dies := [], progSuspends := 0, eraseSuspends := 0 }

theorem keeps_suspend (d : Nat) (op : Option DieOp) (s : State) : Keeps Media.butSuspends s (suspend d op s) := by
  cases op with
  | none => exact Keeps.refl s
  | some op =>
    rw [suspend_some]
    have changed : Keeps Media.butSuspends s (modDie d (fun x => { x with op := op }) s) := (keeps_modDie d (fun x => { x with op := op }) s).of Media.butSuspends
    exact Keeps.ite (changed.trans (keeps_modMedia (by intro; rfl) _)) (changed.trans (keeps_modMedia (by intro; rfl) _))

theorem die_suspend_view {β : Type} {view : Die → β} (same : ∀ x op, view { x with op := op } = view x) (d i : Nat) (op : Option DieOp) (s : State) :
    view ((suspend d op s).die i) = view (s.die i) := by
  cases op with
  | none => rfl
  | some op =>
    have changed := die_modDie_view (f := fun x => { x with op := op }) (fun x => same x op) d i s
    rw [suspend_some]
    split <;> exact changed

theorem keepsTodo_suspend (d : Nat) (op : Option DieOp) (s : State) : KeepsTodo s (suspend d op s) :=
  ⟨(keeps_suspend d op s).frame.mediaWork, fun i => die_suspend_view (by intros; rfl) d i op s⟩

/-- The operations that the parts of a read-around suspend, with their dies. -/
def State.partsSuspend (s : State) (a : MediaAddr) (cls : Cls) (pct : Nat) : List (Nat × DieOp) :=
  (s.othersOf a).filterMap fun b => match s.dieAt b, s.partServe a b cls pct with
    | some d, .direct (some op) => some (d, op)
    | _, _ => none

def suspendParts (a : MediaAddr) (cls : Cls) (pct : Nat) (s : State) : State :=
  (s.partsSuspend a cls pct).foldl (fun s x => suspend x.1 (some x.2) s) s

theorem readParts_eq (a : MediaAddr) (cls : Cls) (cws pct : Nat) (ctx : Option Nat) (s : State) : readParts a cls cws pct ctx s =
    (account ctx (fun c => { c with reads := c.reads + (planesOf cws).length * (s.othersOf a).length })
      (countAround (suspendParts a cls pct s)),
      ((s.partsSuspend a cls pct).map fun x => suspendedCode (some x.2)).foldl max 0) := rfl

theorem keepsTodo_readParts (a : MediaAddr) (cls : Cls) (cws pct : Nat) (ctx : Option Nat) (s : State) :
    KeepsTodo s (readParts a cls cws pct ctx s).1 := by
  rw [readParts_eq]
  have suspended : KeepsTodo s (suspendParts a cls pct s) :=
    KeepsTodo.foldl (fun u (x : Nat × DieOp) => keepsTodo_suspend x.1 (some x.2) u) _ s
  have counted := ((keeps_countAround (suspendParts a cls pct s)).of Media.dies).works.keepsTodo
  exact (suspended.trans counted).trans (works_account ..).keepsTodo

/- A failed die's block set rebuilt (R179) -/

/-- The members of a word line that a spare takes, and the rebuild of one of them. -/
def rebuildPlaces (b : Band) (k wl v : Nat) : List MediaAddr :=
  (List.range b.kind.lineStripes).map fun i => ⟨k / 2800, k % 2800, b.kind.lineStripes * wl + i, v⟩
def rebuildMember (s : State) (a : MediaAddr) : State :=
  let s' := (readParts a .housekeeping 0xFFFF s.media.wbHighPct none s).1
  if s.rebuilds a 0xFFFF then s' else countFailed (loseUnit a s')

theorem keepsTodo_rebuildMember (s : State) (a : MediaAddr) : KeepsTodo s (rebuildMember s a) := by
  unfold rebuildMember
  have parts := keepsTodo_readParts a .housekeeping 0xFFFF s.media.wbHighPct none s
  have lost := (works_loseUnit a (readParts a .housekeeping 0xFFFF s.media.wbHighPct none s).1).of Media.dies
  dsimp only
  split
  · exact parts
  · exact (parts.trans lost.keepsTodo).trans ((keeps_countFailed _).of Media.dies).works.keepsTodo

/-- The word line stands on the spare: when it was programmed, and the pages charged to no context (R223, R488). -/
def endRebuild (k wl v pages : Nat) (s : State) : State :=
  account none (fun c => { c with programs := c.programs + 4 * pages })
    (modBand k (fun b => { b with progAt := kvSet (768 * (v + 1) + wl) s.now b.progAt }) s)

theorem keepsTodo_endRebuild (k wl v pages : Nat) (s : State) : KeepsTodo s (endRebuild k wl v pages s) :=
  (((keeps_modBand k _ s).of Media.dies).works.trans (works_account ..)).keepsTodo

/-- The block sets that a spare has left to rebuild when it has this word line. -/
def nextTodo (b : Band) (k wl : Nat) (todo : KV Nat) : KV Nat := if b.filled ≤ wl + 1 then kvDel (k % 2800) todo else kvSet (k % 2800) (wl + 1) todo

theorem rebuildLine_passes {k wl v d : Nat} {s : State} (todo : kvGet (k % 2800) (s.die d).todo = some wl) (runs : s.mediaPaused = false)
    (takes : s.takesOp d true = true) (ready : ∀ a ∈ rebuildPlaces (s.band k) k wl v, s.partsWait a .housekeeping s.media.wbHighPct = false) :
    rebuildLine k wl v d none s = modDie d (fun x => { x with todo := nextTodo (s.band k) k wl x.todo })
      (endRebuild k wl v (rebuildPlaces (s.band k) k wl v).length ((rebuildPlaces (s.band k) k wl v).foldl rebuildMember s)) := by
  have parts : (rebuildPlaces (s.band k) k wl v).any (fun a => s.partsWait a .housekeeping s.media.wbHighPct) = false := by
    simpa using ready
  unfold rebuildPlaces at parts
  unfold rebuildLine
  simp only [todo, runs, takes, parts, Bool.false_eq_true, Bool.not_true, ne_eq, not_true_eq_false, or_self, if_false]
  rfl

theorem programComplete_rebuild {k wl v d : Nat} {s : State} (inside : d < s.part.dies) (serves : s.rowDie (k / 2800) v = some d)
    (todo : kvGet (k % 2800) (s.die d).todo = some wl) (runs : s.mediaPaused = false) (takes : s.takesOp d true = true)
    (ready : ∀ a ∈ rebuildPlaces (s.band k) k wl v, s.partsWait a .housekeeping s.media.wbHighPct = false) :
    ∃ u, exec (.programComplete k wl v .rebuild none) s = .next (settleMedia u) ∧ MediaWork s u ∧
      (u.die d).todo = nextTodo (s.band k) k wl (s.die d).todo := by
  have done : programDone k wl v .rebuild none s = settleMedia (rebuildLine k wl v d none s) := by
    unfold programDone
    rw [serves]
  have kept := (KeepsTodo.foldl keepsTodo_rebuildMember (rebuildPlaces (s.band k) k wl v) s).trans
    (keepsTodo_endRebuild k wl v (rebuildPlaces (s.band k) k wl v).length _)
  refine ⟨_, congrArg Host.Outcome.next done, ?_⟩
  rw [rebuildLine_passes todo runs takes ready]
  refine ⟨kept.work.trans (keeps_modDie ..).frame.mediaWork, ?_⟩
  rw [die_modDie_same (kept.work.part ▸ inside), kept.todo]

end Sys2Proof.Machine
end

section
/-!
PROOFS. Dies that do not answer and spares (R177 to R179, R557): the row of a failed die, and the spare that takes it.
-/

namespace Sys2Proof.Machine

open Sys2Proof

/- Dies that do not answer, and spares (R177, R557) -/

section
variable {s : State} {d : Nat} (inside : d < s.part.dies)
include inside

theorem failSpare_logged : ∃ t u, Host.Outcome.next (failSpare d s) = (.next t : Out) ∧
    u = { s with media := { s.media with dies := kvSet d (Die.fail 255 (s.die d)) s.media.dies } } ∧ EventsOnly u t ∧
    Logged u t ⟨0x0301, 1, 4, s.dieSieve d, s.now, 0xFFFF,
      remapArgs 255 (s.dieChannel d) (s.diePos d) 255 255 (u.sieveSpares (s.dieSieve d))⟩ := by
  unfold failSpare
  rw [modDie_inside inside]
  exact ⟨_, _, rfl, rfl, raise_events ..⟩

theorem spareDieCheck_due (ok : Bool) (spare : (s.die d).role = .spare) (due : (s.die d).began + s.media.tillDays * 86400 * 25000000 ≤ s.now) :
    exec (.spareDieCheck d ok) s =
      .next (if ok then modDie d (fun x => { x with answered := s.now, began := s.now }) s else failSpare d s) :=
  congrArg Host.Outcome.next (if_pos ⟨spare, inside, decide_eq_true due⟩)

theorem spareDieCheck_passes (spare : (s.die d).role = .spare) (due : (s.die d).began + s.media.tillDays * 86400 * 25000000 ≤ s.now) :
    exec (.spareDieCheck d true) s = .next { s with media := { s.media with
      dies := kvSet d { s.die d with answered := s.now, began := s.now } s.media.dies } } := by
  rw [spareDieCheck_due inside true spare due, if_pos rfl, modDie_inside inside]

theorem dieUnresponsive_silent (silent : (s.die d).answered + 25000 ≤ s.now)
    (serves : (s.die d).role = .member ∨ (s.die d).role = .rebuilding ∨ (s.die d).role = .spare) :
    exec (.dieUnresponsive d) s = .next { s with media := { s.media with
      dies := kvSet d { s.die d with role := .unresponsive, was := (s.die d).role } s.media.dies } } := by
  refine (congrArg Host.Outcome.next (if_pos ⟨decide_eq_true silent, serves⟩)).trans ?_
  rw [modDie_inside inside]

theorem diePollAnswered_serves (stands : (s.die d).role ≠ .failed) :
    exec (.diePollAnswered d) s = .next (settleMedia { s with media := { s.media with
      dies := kvSet d { s.die d with
        answered := s.now, role := if (s.die d).role = .unresponsive then (s.die d).was else (s.die d).role } s.media.dies } }) := by
  refine (congrArg Host.Outcome.next (if_neg stands)).trans ?_
  rw [modDie_inside inside]

theorem dieRebuildEnd_member (rebuilding : (s.die d).role = .rebuilding) (done : s.toRebuild d = []) :
    exec (.dieRebuildEnd d) s = .next { s with media := { s.media with
      dies := kvSet d { s.die d with role := .member, was := .member, todo := [] } s.media.dies } } := by
  refine (congrArg Host.Outcome.next (if_pos ⟨rebuilding, done⟩)).trans ?_
  rw [modDie_inside inside]

theorem dieFailed_due (stands : (s.die d).role ≠ .failed)
    (due : ((s.die d).role = .unresponsive ∧ (s.die d).answered + 50 * 25000 ≤ s.now) ∨ (s.die d).goodMin < 2700) :
    exec (.dieFailed d) s = .next (failDie d s) :=
  congrArg Host.Outcome.next (if_pos ⟨stands, inside, due.imp_left fun h => ⟨h.1, decide_eq_true h.2⟩⟩)

end

/- The dies and bands of a row whose word lines are given up -/

/-- A die but for what it programs. -/
def Die.standing (x : Die) : Die := { x with op := .idle, line := none }

theorem standing_endPrograms (l : WordLine) (i : Nat) (s : State) : ((endPrograms l s).die i).standing = (s.die i).standing :=
  foldl_keeps (fun u : State => (u.die i).standing) (fun u d => die_modDie_view (by intro x; split <;> rfl) d i u) _ s

theorem standing_dropLine (l : WordLine) (i : Nat) (s : State) : ((dropLine l s).die i).standing = (s.die i).standing := by
  have passed := ((keeps_passLine l (endPrograms l (modMedia (Media.withoutLine l) s))).of Media.dies).die i
  rw [dropLine_eq, passed, standing_endPrograms]
  rfl

/-- A sieve has a programmed member in a band: it belongs to the band, which is neither free nor erased. -/
def Band.holds (v : Nat) (b : Band) : Prop := b.sieves.contains v = true ∧ (b.state = .opened ∨ b.state = .closed ∨ b.state = .relocating)
def State.bandHolds (s : State) (k v : Nat) : Prop := ∃ b, kvGet k s.media.bands = some b ∧ b.holds v

theorem bandHolds_modBand {k i v : Nat} {f : Band → Band} {s : State} (keeps : ∀ b : Band, b.holds v → (f b).holds v) (h : s.bandHolds i v) :
    (modBand k f s).bandHolds i v := by
  obtain ⟨b, found, holds⟩ := h
  by_cases own : k = i
  · subst own
    refine ⟨f (s.band k), kvGet_kvSet_same .., keeps _ ?_⟩
    rwa [State.band, found]
  · exact ⟨b, (kvGet_kvSet_other _ _ own).trans found, holds⟩

theorem bandHolds_congr {s t : State} (bands : t.media.bands = s.media.bands) {k v : Nat} (h : s.bandHolds k v) : t.bandHolds k v := by
  unfold State.bandHolds
  rwa [bands]

theorem bandHolds_passLine {l : WordLine} {i v : Nat} {s : State} (h : s.bandHolds i v) : (passLine l s).bandHolds i v := by
  have passed : (modBand l.band (fun b => { b with filled := l.wl + 1 }) s).bandHolds i v := bandHolds_modBand (fun _ h => h) h
  unfold passLine
  dsimp only
  split
  · exact bandHolds_congr rfl (bandHolds_modBand (f := fun b => { b with state := .closed }) (fun b h => ⟨h.1, .inr (.inl rfl)⟩) passed)
  · exact passed

theorem bandHolds_dropLine {l : WordLine} {i v : Nat} {s : State} (h : s.bandHolds i v) : (dropLine l s).bandHolds i v := by
  rw [dropLine_eq]
  refine bandHolds_passLine (bandHolds_congr ?_ (bandHolds_congr (t := modMedia (Media.withoutLine l) s) rfl h))
  exact ((keeps_endPrograms l (modMedia (Media.withoutLine l) s)).of Media.bands).same

theorem mem_bandsWith {s : State} {row v : Nat} {b : Nat × Band} :
    b ∈ s.bandsWith row v ↔ b ∈ s.media.bands ∧ b.1 / 2800 = row ∧ b.2.holds v := by
  simp only [State.bandsWith, List.mem_filter, Bool.and_eq_true, Bool.or_eq_true, decide_eq_true_eq, Band.holds, or_assoc, and_assoc]

theorem exists_bandsWith {s : State} {k row v : Nat} (h : s.bandHolds k v) (at_ : k / 2800 = row) : ∃ b ∈ s.bandsWith row v, b.1 = k := by
  obtain ⟨b, found, holds⟩ := h
  exact ⟨(k, b), mem_bandsWith.2 ⟨mem_of_kvGet found, at_, holds⟩, rfl⟩

section
variable (row : Nat) (s : State)

theorem keeps_dropRowLines : Keeps Media.butLines s (dropRowLines row s) := Keeps.foldl (fun u l => keeps_dropLine l u) _ s

theorem standing_dropRowLines (i : Nat) : ((dropRowLines row s).die i).standing = (s.die i).standing :=
  foldl_keeps (fun u : State => (u.die i).standing) (fun u l => standing_dropLine l i u) _ s

theorem bandHolds_dropRowLines {k v : Nat} (h : s.bandHolds k v) : (dropRowLines row s).bandHolds k v :=
  List.foldlRecOn _ _ (motive := fun u : State => u.bandHolds k v) h fun _ so _ _ => bandHolds_dropLine so

end

/- A victim taken (R199) -/

theorem keeps_issueReads (cls : Cls) (f : ReadFor) (need : List (MediaAddr × Nat)) (s : State) : Keeps Media.butCopies s (issueReads cls f need s) :=
  ⟨rfl, rfl⟩
theorem keeps_copyRead (a : MediaAddr) (s : State) : Keeps Media.butCopies s (copyRead a s) := ⟨rfl, rfl⟩

theorem keeps_readSegments (segs : List Nat) (s : State) : Keeps Media.butCopies s (readSegments segs s) :=
  Keeps.foldl (fun u _ => keeps_issueReads _ _ _ u) _ s

theorem keeps_relocate (ready : Bool) (a : MediaAddr) (s : State) : Keeps Media.butCopies s (relocate ready a s) := by
  unfold relocate
  split
  · exact Keeps.refl s
  · next u _ =>
    refine Keeps.ite (Keeps.refl s) (Keeps.ite (Keeps.ite (keeps_copyRead a s) (Keeps.refl s)) ?_)
    have queued : Keeps Media.butCopies s (modMedia (fun m => { m with copies := m.copies ++ [⟨u / 2 ^ 40, u % 2 ^ 40, a, ready⟩] }) s) := ⟨rfl, rfl⟩
    have mapped := queued.trans (keeps_readSegments [segmentOf u] _)
    dsimp only
    split
    · exact mapped
    · exact mapped.trans (keeps_issueReads ..)

/-- The band is a victim, its segments of the map dirty; and some live units copied out of it. -/
def beginVictim (k : Nat) (s : State) : State :=
  setBand k .relocating (modMedia (fun m => { m with segments := (s.segmentsIn k).foldl (fun l n => touch n true l) m.segments }) s)
def copyOut (units : List (Nat × MediaAddr)) (s : State) : State := units.foldl (fun s u => relocate false u.2 s) s

theorem takeVictim_eq (k : Nat) (s : State) : takeVictim k s = copyOut (s.liveIn k) (beginVictim k s) := rfl

theorem keeps_beginVictim (k : Nat) (s : State) : Keeps Media.butVictims s (beginVictim k s) :=
  (keeps_modMedia (by intro; rfl) s).trans ((keeps_setBand k .relocating _).of Media.butVictims)

theorem keeps_copyOut (units : List (Nat × MediaAddr)) (s : State) : Keeps Media.butCopies s (copyOut units s) :=
  Keeps.foldl (fun u (y : Nat × MediaAddr) => keeps_relocate false y.2 u) units s

theorem keeps_takeVictim (k : Nat) (s : State) : Keeps Media.butVictims s (takeVictim k s) :=
  (keeps_beginVictim k s).trans ((keeps_copyOut (s.liveIn k) (beginVictim k s)).of Media.butVictims)

/- A spare takes the row of a failed die (R178, R179) -/

theorem dieSieve_spareFor {s : State} {d i : Nat} (inside : d < s.part.dies) (spare : s.spareFor d = some i) :
    (s.die i).role = .spare ∧ i < s.part.dies := by
  have mem : i ∈ (s.diesOf (s.dieSieve d)).filter fun j => decide ((s.die j).role = .spare) := by
    unfold State.spareFor at spare
    dsimp only at spare
    split at spare
    · next j found =>
      obtain rfl := Option.some.inj spare
      exact List.mem_of_find?_eq_some found
    · exact List.mem_of_mem_head? spare
  obtain ⟨here, role⟩ := List.mem_filter.1 mem
  refine ⟨of_decide_eq_true role, ?_⟩
  obtain ⟨j, low, rfl⟩ := List.mem_map.1 here
  have low := List.mem_range.1 low
  have sieve : s.dieSieve d < 16 := Nat.div_lt_of_lt_mul (by rwa [Nat.mul_comm])
  unfold Part.dies
  nlinarith

theorem spareFor_congr {s t : State} (part : t.part = s.part) (role : ∀ i, (t.die i).role = (s.die i).role) (d : Nat) : t.spareFor d = s.spareFor d := by
  unfold State.spareFor State.diesOf State.dieSieve State.dieChannel
  simp only [part, role]

/-- The spare as it takes the row, with the block sets of some bands to be rebuilt. -/
def Die.takes (row : Nat) (held : List (Nat × Band)) (y : Die) : Die := { y with
  role := .rebuilding, row := row, was := .rebuilding, op := .idle, todo := held.foldl (fun t b => kvSet (b.1 % 2800) 0 t) [] }

theorem takes_todo {row : Nat} {held : List (Nat × Band)} (y : Die) {b : Nat × Band} (h : b ∈ held) :
    kvGet (b.1 % 2800) (y.takes row held).todo = some 0 := by
  have kept : ∀ (l : List (Nat × Band)) (t : KV Nat) (n : Nat), kvGet n t = some 0 ∨ (∃ b ∈ l, b.1 % 2800 = n) →
      kvGet n (l.foldl (fun t b => kvSet (b.1 % 2800) 0 t) t) = some 0 := by
    intro l
    induction l with
    | nil => exact fun t n h => h.resolve_right fun ⟨_, mem, _⟩ => List.not_mem_nil mem
    | cons a l ih =>
      intro t n h
      refine ih _ n ?_
      by_cases own : a.1 % 2800 = n
      · subst own
        exact .inl (kvGet_kvSet_same ..)
      · rw [kvGet_kvSet_other _ _ own]
        refine h.imp_right fun ⟨b, mem, at_⟩ => ⟨b, (List.mem_cons.1 mem).resolve_left ?_, at_⟩
        rintro rfl
        exact own at_
  exact kept held [] _ (.inr ⟨b, h, rfl⟩)

/-- One block set that the spare cannot hold is rewritten elsewhere. -/
def giveBand (s : State) (b : Nat × Band) : State :=
  let s := modBand b.1 (fun x => { x with doomed := true }) s
  let s := if b.2.state = .opened then setBand b.1 .closed s else s
  if (s.band b.1).state = .closed then takeVictim b.1 s else s

theorem keeps_giveBand (s : State) (b : Nat × Band) : Keeps Media.butVictims s (giveBand s b) := by
  unfold giveBand
  have doomed := (keeps_modBand b.1 (fun x => { x with doomed := true }) s).of Media.butVictims
  have closed := doomed.trans (Keeps.ite (c := b.2.state = .opened) ((keeps_setBand b.1 .closed _).of Media.butVictims) (Keeps.refl _))
  exact closed.trans (Keeps.ite (keeps_takeVictim ..) (Keeps.refl _))

/-- The spare in the row, before the block sets that it cannot hold are given away. -/
def placeSpare (i row v : Nat) (s : State) : State :=
  modDie i (Die.takes row (s.bandsWith row v))
    (modMedia (fun m => { m with rowSets := kvSet row (min (s.rowSets row) (s.fewestGood i)) m.rowSets }) s)

theorem takeRow_eq (i row v : Nat) (s : State) : takeRow i row v s =
    ((s.bandsWith row v).filter fun b => (List.range 4).any fun q => ((placeSpare i row v s).blockOf i q (b.1 % 2800)).isNone).foldl giveBand
      (placeSpare i row v s) := rfl

theorem keeps_takeRow (i row v : Nat) (s : State) : Keeps Media.dies (placeSpare i row v s) (takeRow i row v s) := by
  rw [takeRow_eq]
  exact Keeps.foldl (fun u b => (keeps_giveBand u b).of Media.dies) _ _

theorem mediaOnly_placeSpare (i row v : Nat) (s : State) : MediaOnly s (placeSpare i row v s) :=
  (mediaOnly_modMedia _ s).trans (keeps_modDie ..).frame

/-- The die in the row after the spare has taken it: the spare rebuilds, the others are as they were. -/
theorem takeRow_die_same {i : Nat} {s : State} (inside : i < s.part.dies) (row v : Nat) :
    (takeRow i row v s).die i = (s.die i).takes row (s.bandsWith row v) := by
  rw [(keeps_takeRow i row v s).die]
  exact die_modDie_same (s := modMedia _ s) inside _

theorem takeRow_die_other {i d : Nat} (other : i ≠ d) (s : State) (row v : Nat) : (takeRow i row v s).die d = s.die d := by
  rw [(keeps_takeRow i row v s).die]
  exact die_modDie_other other _ _

end Sys2Proof.Machine
end

section
/-!
PROOFS. A die that fails (R178, R180): its row on a spare, or one member short.
-/

namespace Sys2Proof.Machine

open Sys2Proof

/- Bands that no longer wait for an erase -/

theorem keeps_wipeBand (k : Nat) (s : State) : Keeps Media.butErased s (wipeBand k s) := ⟨rfl, rfl⟩

/-- The erase counted, and the members gone. -/
def countErase (k : Nat) (s : State) : State :=
  wipeBand k (modBand k (fun b => { b with erases := b.erases + 1, wear := b.wear + b2n (!(s.band k).kind.slc) }) s)

theorem bandErased_eq (k : Nat) (s : State) : bandErased k s =
    if ((countErase k s).band k).doomed = true then
      setBand k .retired (modBand k (fun b => { b with erased := [], held := [] }) (countErase k s))
    else journal (.band k .free ((countErase k s).band k).erases) (countErase k s) := rfl

theorem keeps_countErase (k : Nat) (s : State) : Keeps Media.butErased s (countErase k s) :=
  ((keeps_modBand k _ s).of Media.butErased).trans (keeps_wipeBand ..)

theorem keeps_bandErased (k : Nat) (s : State) : Keeps Media.butErased s (bandErased k s) := by
  rw [bandErased_eq]
  have counted := keeps_countErase k s
  split
  · exact counted.trans (((keeps_modBand k _ _).trans (keeps_setBand k .retired _)).of Media.butErased)
  · exact counted.trans ((keeps_journal ..).of Media.butErased)

theorem keeps_forgetErase (old s : State) : Keeps Media.butErased s (forgetErase old s) := Keeps.foldl (fun u k => keeps_bandErased k u) _ s

/- A die fails (R178, R180) -/

/-- What the row of a failed die leaves: its word lines are given up, and the die's continuous read ends. -/
def clearRow (d : Nat) (s : State) : State :=
  modMedia (fun m => { m with streams := kvDel d m.streams }) (dropRowLines (s.die d).row s)
/-- A die of row 0 holds a root area. -/
def rootFor (row v : Nat) (copied : Bool) (s : State) : State := if row = 0 then freshRoot v copied s else s
/-- The open bands of a row in which a sieve has a member close. -/
def closeRow (row v : Nat) (s : State) : State :=
  ((s.bandsWith row v).filter fun b => decide (b.2.state = .opened)).foldl (fun s b => setBand b.1 .closed s) s

/-- The role in which a die fails. -/
def Die.served (x : Die) : DieRole := if x.role = .unresponsive then x.was else x.role

section
variable (d : Nat) (s : State)

theorem mediaOnly_clearRow : MediaOnly s (clearRow d s) := (keeps_dropRowLines (s.die d).row s).frame.trans (mediaOnly_modMedia ..)

theorem standing_clearRow (i : Nat) : ((clearRow d s).die i).standing = (s.die i).standing := standing_dropRowLines (s.die d).row s i

theorem bandHolds_clearRow {k v : Nat} (h : s.bandHolds k v) : (clearRow d s).bandHolds k v := bandHolds_dropRowLines (s.die d).row s h

theorem keeps_rootFor (row v : Nat) (copied : Bool) : Keeps Media.dies s (rootFor row v copied s) :=
  Keeps.ite (keeps_modMedia (by intro; rfl) s) (Keeps.refl s)

theorem keeps_closeRow (row v : Nat) : Keeps Media.butBands s (closeRow row v s) :=
  Keeps.foldl (fun u (b : Nat × Band) => keeps_setBand b.1 .closed u) _ s

theorem spareFor_clearRow : (clearRow d s).spareFor d = s.spareFor d :=
  spareFor_congr (mediaOnly_clearRow d s).part (fun i => (congrArg Die.role (standing_clearRow d s i) :)) d

theorem failDie_spare (spare : (s.die d).served = .spare) : failDie d s = failSpare d s := if_pos spare

end

/-- The row on the spare that takes it, before it is reported. -/
def onSpare (d i : Nat) (s : State) : State :=
  rootFor (s.die d).row (s.dieSieve d) true (takeRow i (s.die d).row (s.dieSieve d) (modDie d (Die.fail 255) (clearRow d s)))
/-- The row that stays one member short. -/
def leftShort (d : Nat) (s : State) : State :=
  forgetErase s (closeRow (s.die d).row (s.dieSieve d) (rootFor (s.die d).row (s.dieSieve d) false (modDie d (Die.fail (s.die d).row) (clearRow d s))))

theorem failDie_taken {d i : Nat} {s : State} (role : (s.die d).served ≠ .spare) (spare : s.spareFor d = some i) :
    ∃ args, failDie d s = settleMedia (raise 0x0301 1 4 (s.dieSieve d) 0xFFFF args (onSpare d i s)) := by
  have same : (clearRow d s).spareFor d = some i := (spareFor_clearRow d s).trans spare
  unfold clearRow at same
  unfold Die.served at role
  unfold failDie
  simp only [role, if_false, same]
  exact ⟨_, rfl⟩

theorem failDie_short {d : Nat} {s : State} (role : (s.die d).served ≠ .spare) (none_ : s.spareFor d = none) :
    failDie d s = settleMedia (leftShort d s) := by
  have same : (clearRow d s).spareFor d = none := (spareFor_clearRow d s).trans none_
  unfold clearRow at same
  unfold Die.served at role
  unfold failDie
  simp only [role, if_false, same]
  rfl

/-- A record that goes to the log is in it afterwards. -/
theorem Logged.mem {s t : State} {e : EventRec} (h : Logged s t e) : e ∈ t.events := by
  rw [h.1, List.drop_append_of_le_length (by omega)]
  exact List.mem_append_right _ List.mem_cons_self

theorem clearRow_inside {d : Nat} {s : State} (inside : d < s.part.dies) : d < (clearRow d s).part.dies := by
  rwa [(mediaOnly_clearRow d s).part]

section
variable {d : Nat} {s : State} (inside : d < s.part.dies)
include inside

theorem leftShort_facts : MediaOnly s (leftShort d s) ∧ ((leftShort d s).die d).role = .failed ∧ ((leftShort d s).die d).row = (s.die d).row := by
  have failed := keeps_modDie d (Die.fail (s.die d).row) (clearRow d s)
  have rooted := keeps_rootFor (modDie d (Die.fail (s.die d).row) (clearRow d s)) (s.die d).row (s.dieSieve d) false
  have closed := (keeps_closeRow (rootFor (s.die d).row (s.dieSieve d) false (modDie d (Die.fail (s.die d).row) (clearRow d s)))
    (s.die d).row (s.dieSieve d)).of Media.dies
  have forgot := (keeps_forgetErase s (closeRow (s.die d).row (s.dieSieve d)
    (rootFor (s.die d).row (s.dieSieve d) false (modDie d (Die.fail (s.die d).row) (clearRow d s))))).of Media.dies
  have after := (rooted.trans closed).trans forgot
  have die : (leftShort d s).die d = Die.fail (s.die d).row ((clearRow d s).die d) :=
    (after.die d).trans (die_modDie_same (clearRow_inside inside) _)
  exact ⟨((mediaOnly_clearRow d s).trans failed.frame).trans after.frame, by rw [die]; rfl, by rw [die]; rfl⟩

theorem spare_ne (role : (s.die d).served ≠ .spare) {i : Nat} (spare : s.spareFor d = some i) : i ≠ d := by
  rintro rfl
  have own := (dieSieve_spareFor inside spare).1
  exact role (by rw [Die.served, own]; rfl)

variable (role : (s.die d).served ≠ .spare)
include role

theorem onSpare_facts {i : Nat} (spare : s.spareFor d = some i) : MediaOnly s (onSpare d i s) ∧ ((onSpare d i s).die d).role = .failed ∧
    ((onSpare d i s).die i).role = .rebuilding ∧ ((onSpare d i s).die i).row = (s.die d).row ∧
    (kvSorted s.media.bands = true → ∀ b ∈ s.bandsWith (s.die d).row (s.dieSieve d), kvGet (b.1 % 2800) ((onSpare d i s).die i).todo = some 0) := by
  have other := spare_ne inside role spare
  have failed := keeps_modDie d (Die.fail 255) (clearRow d s)
  have cleared := (mediaOnly_clearRow d s).trans failed.frame
  have reach : i < (modDie d (Die.fail 255) (clearRow d s)).part.dies := by
    rw [cleared.part]
    exact (dieSieve_spareFor inside spare).2
  have rooted := keeps_rootFor (takeRow i (s.die d).row (s.dieSieve d) (modDie d (Die.fail 255) (clearRow d s))) (s.die d).row (s.dieSieve d) true
  have taken := (rooted.die i).trans (takeRow_die_same reach (s.die d).row (s.dieSieve d))
  have gone : (onSpare d i s).die d = Die.fail 255 ((clearRow d s).die d) :=
    ((rooted.die d).trans (takeRow_die_other other _ _ _)).trans (die_modDie_same (clearRow_inside inside) _)
  have frame := (cleared.trans (mediaOnly_placeSpare i (s.die d).row (s.dieSieve d) _)).trans
    ((keeps_takeRow i (s.die d).row (s.dieSieve d) _).frame.trans rooted.frame)
  refine ⟨frame, by rw [gone]; rfl, by rw [onSpare, taken]; rfl, by rw [onSpare, taken]; rfl, fun sorted b mem => ?_⟩
  obtain ⟨here, row, holds⟩ := mem_bandsWith.1 mem
  have left : (clearRow d s).bandHolds b.1 (s.dieSieve d) := bandHolds_clearRow d s ⟨b.2, kvGet_of_mem sorted here, holds⟩
  obtain ⟨c, held, same⟩ := exists_bandsWith (bandHolds_congr (failed.of Media.bands).same left) row
  rw [onSpare, taken, ← same]
  exact takes_todo _ held

/-- A die that fails and is no spare: its row is on a spare, or stays short. -/
theorem failDie_facts : ∃ u, failDie d s = settleMedia u ∧ MediaWork s u ∧ (u.die d).role = .failed ∧
    (s.spareFor d = none → (u.die d).row = (s.die d).row) ∧
    ∀ i, s.spareFor d = some i → (u.die i).role = .rebuilding ∧ (u.die i).row = (s.die d).row ∧
      (kvSorted s.media.bands = true → ∀ b ∈ s.bandsWith (s.die d).row (s.dieSieve d), kvGet (b.1 % 2800) (u.die i).todo = some 0) ∧
      ∃ e ∈ u.events, e.code = 0x0301 ∧ e.kind = 4 ∧ e.source = s.dieSieve d := by
  cases spare : s.spareFor d with
  | none =>
    obtain ⟨frame, failed, row⟩ := leftShort_facts inside
    exact ⟨_, failDie_short role spare, frame.mediaWork, failed, fun _ => row, nofun⟩
  | some i =>
    obtain ⟨frame, failed, rebuilding, row, todo⟩ := onSpare_facts inside role spare
    obtain ⟨args, fails⟩ := failDie_taken role spare
    obtain ⟨events, logged⟩ := raise_events 0x0301 1 4 (s.dieSieve d) 0xFFFF args (onSpare d i s)
    have die : ∀ j, (raise 0x0301 1 4 (s.dieSieve d) 0xFFFF args (onSpare d i s)).die j = (onSpare d i s).die j :=
      fun j => die_congr events.part (congrArg Media.dies events.media) j
    refine ⟨_, fails, frame.mediaWork.trans events.mediaWork, by rw [die]; exact failed, nofun, fun j same => ?_⟩
    obtain rfl := Option.some.inj same
    rw [die]
    exact ⟨rebuilding, row, todo, _, logged.mem, rfl, rfl, rfl⟩

end

end Sys2Proof.Machine
end

section
/-!
PROOFS. Sieves that lose a lane or both, and the end of re-striping (R157, R214 to R216); O57.
-/

namespace Sys2Proof.Machine

open Sys2Proof

/- A sieve is lost (R157, R214 to R216) -/

/-- The sieve out of service, what its dies did stopped. -/
def cutSieve (v : Nat) (s : State) : State :=
  modMedia (fun m => { m with
    sieves := setAt m.sieves v (fun x => { x with lane0 := false, lane1 := false, lost := true }), restriping := m.restriping ++ [v]
    streams := m.streams.filter fun t => decide (s.dieSieve t.1 ≠ v)
    dies := m.dies.map fun d => if s.dieSieve d.1 = v then
      (d.1, { d.2 with op := .idle, erasePrio := false, line := none, erasing := none }) else d }) s
/-- Every word line given up, and every open band closed. -/
def dropLines (s : State) : State := s.media.lines.foldl (fun s l => dropLine l s) s
def closeBands (s : State) : State :=
  (s.media.bands.filter fun b => decide (b.2.state = .opened)).foldl (fun s b => setBand b.1 .closed s) s

/-- Nothing is written on the sieve any more, and then what it held twice lost poisoned: its loss before it is reported. -/
def leaveSieve (v : Nat) (s : State) : State := modMedia (dropBank v) (forgetErase s (closeBands (dropLines (cutSieve v s))))
def sieveGone (v : Nat) (s : State) : State := poisonDouble (leaveSieve v s)

theorem loseSieve_eq {v : Nat} {s : State} (inside : v < 16) (stands : (s.sieve v).lost = false) :
    loseSieve v s = settleMedia (raise 0x0302 2 4 v 0xFFFF (evArgs [(20, 1, 1)]) (sieveGone v s)) := by
  refine if_neg ?_
  rw [stands]
  simpa using inside

theorem keeps_cutSieve (v : Nat) (s : State) : MediaOnly s (cutSieve v s) := rfl

theorem keeps_dropLines (s : State) : Keeps Media.butLines s (dropLines s) := Keeps.foldl (fun u l => keeps_dropLine l u) _ s
theorem keeps_closeBands (s : State) : Keeps Media.butBands s (closeBands s) :=
  Keeps.foldl (fun u (b : Nat × Band) => keeps_setBand b.1 .closed u) _ s

theorem keeps_poisonDouble (s : State) : Keeps Media.butMap s (poisonDouble s) := by
  refine Keeps.foldl (fun u (e : Nat × MapEntry) => ?_) s.media.map s
  split
  · exact Keeps.ite (keeps_poison ..) (Keeps.refl u)
  · exact Keeps.refl u

/-- The sieves, those that are being re-striped, and the word lines. -/
def Media.sieveLines (m : Media) : List Sieve × List Nat × List WordLine := (m.sieves, m.restriping, m.lines)

theorem keeps_sieveGone (v : Nat) (s : State) : Keeps Media.sieveLines (closeBands (dropLines (cutSieve v s))) (sieveGone v s) := by
  have forgot := (keeps_forgetErase s (closeBands (dropLines (cutSieve v s)))).of Media.sieveLines
  have left : Keeps Media.sieveLines _ (leaveSieve v s) := keeps_modMedia (f := dropBank v) (fun _ => rfl) _
  exact (forgot.trans left).trans ((keeps_poisonDouble (leaveSieve v s)).of Media.sieveLines)

/- No word line is left -/

theorem dropLine_lines (l : WordLine) (s : State) :
    (dropLine l s).media.lines = s.media.lines.filter fun x => decide (x.band ≠ l.band) || decide (x.wl ≠ l.wl) := by
  have ended := ((keeps_endPrograms l (modMedia (Media.withoutLine l) s)).of Media.lines).same
  have passed := ((keeps_passLine l (endPrograms l (modMedia (Media.withoutLine l) s))).of Media.lines).same
  rw [dropLine_eq]
  exact passed.trans ended

theorem dropLines_lines (s : State) : (dropLines s).media.lines = [] := by
  have left : ∀ (l : List WordLine) (u : State), (∀ x ∈ u.media.lines, x ∈ l) → (l.foldl (fun s l => dropLine l s) u).media.lines = [] := by
    intro l
    induction l with
    | nil => exact fun u sub => List.eq_nil_iff_forall_not_mem.2 fun x mem => List.not_mem_nil (sub x mem)
    | cons a l ih =>
      refine fun u sub => ih _ fun x mem => ?_
      rw [dropLine_lines] at mem
      obtain ⟨here, other⟩ := List.mem_filter.1 mem
      refine (List.mem_cons.1 (sub x here)).resolve_left ?_
      rintro rfl
      simp at other
  exact left _ s fun _ mem => mem

/- No band is open -/

theorem sorted_dropLine {l : WordLine} {s : State} (sorted : kvSorted s.media.bands = true) : kvSorted (dropLine l s).media.bands = true := by
  rw [dropLine_eq]
  have ended := ((keeps_endPrograms l (modMedia (Media.withoutLine l) s)).of Media.bands).same
  have before : kvSorted (endPrograms l (modMedia (Media.withoutLine l) s)).media.bands = true := by
    rw [show (endPrograms l (modMedia (Media.withoutLine l) s)).media.bands = s.media.bands from ended]
    exact sorted
  unfold passLine
  dsimp only
  split
  · exact sorted_setBand _ _ _ (sorted_modBand _ _ _ before)
  · exact sorted_modBand _ _ _ before

theorem sorted_dropLines {s : State} (sorted : kvSorted s.media.bands = true) : kvSorted (dropLines s).media.bands = true :=
  List.foldlRecOn _ _ (motive := fun u : State => kvSorted u.media.bands = true) sorted fun _ so _ _ => sorted_dropLine so

/-- The bands are sorted and none of them is open. -/
def State.allClosed (s : State) : Prop := kvSorted s.media.bands = true ∧ ∀ k, (s.band k).state ≠ .opened

theorem allClosed_congr {s t : State} (bands : t.media.bands = s.media.bands) (h : s.allClosed) : t.allClosed := by
  unfold State.allClosed
  simp only [bands, band_congr bands]
  exact h

theorem allClosed_modMedia {s : State} (f : Media → Media) (bands : ∀ m, (f m).bands = m.bands) (h : s.allClosed) : (modMedia f s).allClosed :=
  allClosed_congr (bands s.media) h

theorem allClosed_mem {s : State} (h : s.allClosed) : ∀ b ∈ s.media.bands, b.2.state ≠ .opened := by
  intro b mem
  have closed := h.2 b.1
  rwa [State.band, kvGet_of_mem h.1 mem] at closed

theorem allClosed_modBand {k : Nat} {f : Band → Band} {s : State} (keeps : ∀ b : Band, b.state ≠ .opened → (f b).state ≠ .opened)
    (h : s.allClosed) : (modBand k f s).allClosed := by
  refine ⟨sorted_modBand k f s h.1, fun i => ?_⟩
  by_cases own : k = i
  · subst own
    rw [band_modBand_same]
    exact keeps _ (h.2 k)
  · rw [band_modBand_other own]
    exact h.2 i

theorem allClosed_bandErased {k : Nat} {s : State} (h : s.allClosed) : (bandErased k s).allClosed := by
  have counted : (countErase k s).allClosed :=
    allClosed_modMedia _ (fun _ => rfl) (allClosed_modBand (fun _ h => h) h)
  rw [bandErased_eq]
  split
  · exact allClosed_congr (s := modBand k (fun b => { b with state := .retired }) _) rfl
      (allClosed_modBand (fun _ _ => nofun) (allClosed_modBand (fun _ h => h) counted))
  · exact allClosed_congr rfl counted

theorem allClosed_forgetErase {old s : State} (h : s.allClosed) : (forgetErase old s).allClosed :=
  List.foldlRecOn _ _ (motive := State.allClosed) h fun _ so _ _ => allClosed_bandErased so

theorem allClosed_closeBands {s : State} (sorted : kvSorted s.media.bands = true) : (closeBands s).allClosed := by
  have closed : ∀ (l : List (Nat × Band)) (u : State), kvSorted u.media.bands = true → (∀ k, (u.band k).state = .opened → ∃ b ∈ l, b.1 = k) →
      (l.foldl (fun s b => setBand b.1 .closed s) u).allClosed := by
    intro l
    induction l with
    | nil => exact fun u sorted opened => ⟨sorted, fun k h => absurd (opened k h) (by simp)⟩
    | cons a l ih =>
      refine fun u sorted opened => ih _ (sorted_setBand _ _ _ sorted) fun k h => ?_
      by_cases own : a.1 = k
      · subst own
        rw [band_setBand_same] at h
        exact absurd h (by simp)
      · rw [band_setBand_other own] at h
        obtain ⟨b, mem, at_⟩ := opened k h
        refine ⟨b, (List.mem_cons.1 mem).resolve_left ?_, at_⟩
        rintro rfl
        exact own at_
  refine closed _ s sorted fun k h => ?_
  cases found : kvGet k s.media.bands with
  | none =>
    rw [State.band, found] at h
    exact absurd h (by decide)
  | some b =>
    rw [State.band, found] at h
    exact ⟨(k, b), List.mem_filter.2 ⟨mem_of_kvGet found, decide_eq_true h⟩, rfl⟩

section
variable {v : Nat} {s : State} (inside : v < 16) (count : s.media.sieves.length = 16) (sorted : kvSorted s.media.bands = true)
include sorted

theorem allClosed_sieveGone : (sieveGone v s).allClosed := by
  have closed : (closeBands (dropLines (cutSieve v s))).allClosed := allClosed_closeBands (sorted_dropLines sorted)
  have left : (leaveSieve v s).allClosed := allClosed_modMedia (dropBank v) (fun _ => rfl) (allClosed_forgetErase closed)
  have poisoned : Keeps Media.bands (leaveSieve v s) (sieveGone v s) := (keeps_poisonDouble (leaveSieve v s)).of Media.bands
  exact allClosed_congr poisoned.same left

include inside count

/-- A sieve lost: it has no lane and waits for re-striping, which is reported, and no word line is being programmed nor a band open. -/
theorem loseSieve_lost (stands : (s.sieve v).lost = false) : ∃ u, loseSieve v s = settleMedia u ∧ MediaWork s u ∧ (u.sieve v).lost = true ∧
    (u.sieve v).lane0 = false ∧ (u.sieve v).lane1 = false ∧ v ∈ u.media.restriping ∧ u.media.lines = [] ∧
    (∀ b ∈ u.media.bands, b.2.state ≠ .opened) ∧ ∃ e ∈ u.events, e.code = 0x0302 ∧ e.kind = 4 ∧ e.source = v ∧ e.args = evArgs [(20, 1, 1)] := by
  obtain ⟨events, logged⟩ := raise_events 0x0302 2 4 v 0xFFFF (evArgs [(20, 1, 1)]) (sieveGone v s)
  have dropped := keeps_dropLines (cutSieve v s)
  have closed := keeps_closeBands (dropLines (cutSieve v s))
  have gone := keeps_sieveGone v s
  have frame := ((keeps_cutSieve v s).trans dropped.frame).trans (closed.frame.trans gone.frame)
  have sieves : (sieveGone v s).media.sieves = (cutSieve v s).media.sieves :=
    ((gone.of Prod.fst).same.trans (closed.of Media.sieves).same).trans (dropped.of Media.sieves).same
  have waits : (sieveGone v s).media.restriping = (cutSieve v s).media.restriping :=
    ((gone.of (·.2.1)).same.trans (closed.of Media.restriping).same).trans (dropped.of Media.restriping).same
  have lines : (sieveGone v s).media.lines = [] :=
    ((gone.of (·.2.2)).same.trans (closed.of Media.lines).same).trans (dropLines_lines _)
  have sieve : (sieveGone v s).sieve v = { s.sieve v with lane0 := false, lane1 := false, lost := true } := by
    unfold State.sieve
    rw [sieves]
    exact getD_setAt_same _ _ (fun x : Sieve => { x with lane0 := false, lane1 := false, lost := true }) _ (by rw [count]; exact inside)
  refine ⟨_, loseSieve_eq inside stands, frame.mediaWork.trans events.mediaWork, ?_⟩
  have same : ∀ w, (raise 0x0302 2 4 v 0xFFFF (evArgs [(20, 1, 1)]) (sieveGone v s)).sieve w = (sieveGone v s).sieve w :=
    fun w => by rw [State.sieve, events.media, State.sieve]
  rw [same, sieve, events.media, waits, lines]
  exact ⟨rfl, rfl, rfl, List.mem_append_right _ List.mem_cons_self, rfl, allClosed_mem (allClosed_sieveGone sorted), _, logged.mem, rfl, rfl, rfl, rfl⟩

end

/- Lanes of a sieve, and the end of re-striping (R157, R215) -/

/-- The sieve without the lane. -/
def Sieve.without (lane : Nat) (y : Sieve) : Sieve := if lane = 0 then { y with lane0 := false } else { y with lane1 := false }
/-- The other lane works. -/
def Sieve.other (lane : Nat) (y : Sieve) : Bool := if lane = 0 then y.lane1 else y.lane0
def cutLane (v lane : Nat) (s : State) : State := modMedia (fun m => { m with sieves := setAt m.sieves v (Sieve.without lane) }) s

theorem sieveLaneFail_eq (v lane : Nat) (s : State) : exec (.sieveLaneFail v lane) s =
    .next (if (s.sieve v).up = true ∧ (!((cutLane v lane s).sieve v).lane0) = true ∧ (!((cutLane v lane s).sieve v).lane1) = true then
      loseSieve v (cutLane v lane s) else cutLane v lane s) := rfl

theorem cutLane_sieve {v lane : Nat} {s : State} (there : v < s.media.sieves.length) : (cutLane v lane s).sieve v = (s.sieve v).without lane :=
  getD_setAt_same _ _ _ _ there

/-- A lane works on a sieve that is there. -/
theorem sieve_there {v lane : Nat} {s : State} (works : (s.sieve v).other lane = true) : v < s.media.sieves.length := by
  by_contra absent
  have none_ : s.sieve v = Sieve.reset := List.getD_eq_default _ _ (Nat.le_of_not_lt absent)
  rw [none_, Sieve.other] at works
  simp [Sieve.reset] at works

theorem without_lanes (lane : Nat) (y : Sieve) : ((!(y.without lane).lane0) = true ∧ (!(y.without lane).lane1) = true) ↔ y.other lane = false := by
  unfold Sieve.without Sieve.other
  split <;> simp

theorem sieveLaneFail_runsOn {v lane : Nat} {s : State} (works : (s.sieve v).other lane = true) :
    exec (.sieveLaneFail v lane) s = .next (cutLane v lane s) := by
  have lanes := (without_lanes lane (s.sieve v)).not.2 (by simp [works])
  rw [sieveLaneFail_eq, cutLane_sieve (sieve_there works)]
  exact congrArg Host.Outcome.next (if_neg fun h => lanes h.2)

theorem sieveLaneFail_loses {v lane : Nat} {s : State} (there : v < s.media.sieves.length) (up : (s.sieve v).up = true)
    (last : (s.sieve v).other lane = false) : exec (.sieveLaneFail v lane) s = .next (loseSieve v (cutLane v lane s)) := by
  rw [sieveLaneFail_eq, cutLane_sieve there]
  exact congrArg Host.Outcome.next (if_pos ⟨up, (without_lanes lane (s.sieve v)).2 last⟩)

theorem without_lost (lane : Nat) (y : Sieve) : (y.without lane).lost = y.lost := by
  unfold Sieve.without
  split <;> rfl

theorem restripeEnd_logged {v : Nat} {s : State} (waits : v ∈ s.media.restriping)
    (clear : ∀ b ∈ s.media.bands, v ∈ b.2.sieves → s.liveIn b.1 = [] ∧ s.mapIn b.1 = false) : ∃ t u, exec (.restripeEnd v) s = .next t ∧
      u = { s with media := { s.media with restriping := s.media.restriping.filter fun w => decide (w ≠ v) } } ∧ EventsOnly u t ∧
      Logged u t ⟨0x0302, 1, 4, v, s.now, 0xFFFF, evArgs [(20, 1, 2)]⟩ := by
  have left : (s.media.bands.any fun b => b.2.sieves.contains v && (!(s.liveIn b.1).isEmpty || s.mapIn b.1)) = false := by
    simp only [List.any_eq_false, Bool.and_eq_true, Bool.or_eq_true, Bool.not_eq_true', not_and, List.contains_iff_mem]
    intro b mem on
    obtain ⟨live, map⟩ := clear b mem on
    simp [live, map]
  have runs : s.media.restriping.contains v = true ∧ (!(s.media.bands.any fun b =>
      b.2.sieves.contains v && (!(s.liveIn b.1).isEmpty || s.mapIn b.1))) = true := ⟨List.contains_iff_mem.2 waits, by rw [left]; rfl⟩
  exact ⟨_, _, congrArg Host.Outcome.next (if_pos runs), rfl, raise_events ..⟩

end Sys2Proof.Machine

namespace Sys2Proof.Proofs

open Sys2Proof.Machine

/-- Settles O57: a die by what it reports and its role, a sieve by its lanes. The spare that takes a failed die's row passes over one that is
unresponsive (log entry 209). -/
theorem mediaRepair : Obligations.MediaRepair := by
  unfold Obligations.MediaRepair
  intro s m x WithDie SpareFailed Lost
  refine ⟨fun d inside => ⟨fun spare due => ⟨spareDieCheck_passes inside spare due, ?_⟩, dieUnresponsive_silent inside, diePollAnswered_serves inside,
    fun k v wl serves todo runs takes ready => ?_, dieRebuildEnd_member inside, fun stands due => ⟨fun role => ?_, fun role => ?_⟩⟩,
    fun v lane => ⟨sieveLaneFail_runsOn, fun inside count sorted up last => ?_⟩, fun v inside count sorted stands => ?_, fun v waits clear => ?_⟩
  · show SpareFailed d _
    rw [spareDieCheck_due inside false spare due]
    exact failSpare_logged inside
  · refine programComplete_rebuild inside serves todo runs takes fun a mem => ?_
    obtain ⟨i, low, rfl⟩ := List.mem_map.1 mem
    exact ready i (List.mem_range.1 low)
  · show SpareFailed d _
    rw [dieFailed_due inside stands due, failDie_spare d s role]
    exact failSpare_logged inside
  · obtain ⟨u, fails, facts⟩ := failDie_facts inside role
    exact ⟨u, (dieFailed_due inside stands due).trans (congrArg Host.Outcome.next fails), facts⟩
  · have there : v < s.media.sieves.length := count ▸ inside
    have stands : ((cutLane v lane s).sieve v).lost = false := by
      rw [cutLane_sieve there, without_lost]
      simpa using (Bool.and_eq_true_iff.1 up).2
    obtain ⟨u, loses, work, facts⟩ := loseSieve_lost (s := cutLane v lane s) inside (by simpa [cutLane] using count) sorted stands
    exact ⟨u, (sieveLaneFail_loses there up last).trans (congrArg Host.Outcome.next loses), (mediaOnly_modMedia _ s).mediaWork.trans work, facts⟩
  · obtain ⟨u, loses, facts⟩ := loseSieve_lost inside count sorted stands
    exact ⟨u, congrArg Host.Outcome.next loses, facts⟩
  · exact restripeEnd_logged waits clear

end Sys2Proof.Proofs
end

section
/-!
PROOFS. Page reads (R160 to R166, R174, R182): the counts and state words of a read, and its delivery to what waits for it.
-/

namespace Sys2Proof.Machine

open Sys2Proof

/- Deliveries -/

/-- A search but for the records that have been read for it. -/
def Search.unread (q : Search) : Search := { q with read := [] }

/-- t is u after pages were delivered or lost, which charges nothing and raises no event, and leaves this view of the media. -/
structure Serves {β : Type} (view : Media → β) (u t : State) : Prop where
  frame : t = { u with
    media := t.media, cmds := t.cmds, replies := t.replies, nextReply := t.nextReply, landing := { u.landing with faults := t.landing.faults }
    scans := t.scans, trains := t.trains, searches := t.searches }
  searches : t.searches.map Search.unread = u.searches.map Search.unread
  same : view t.media = view u.media

section
variable {β γ : Type} {view : Media → β} {s u t : State}

theorem Serves.refl (s : State) : Serves view s s := ⟨rfl, rfl, rfl⟩

theorem Serves.trans (first : Serves view s u) (second : Serves view u t) : Serves view s t where
  frame := by
    calc t = _ := second.frame
      _ = _ := by rw [first.frame]
  searches := second.searches.trans first.searches
  same := second.same.trans first.same

theorem Serves.ite {c : Prop} [Decidable c] {a b : State} (yes : Serves view s a) (no : Serves view s b) : Serves view s (if c then a else b) := by
  split
  · exact yes
  · exact no

theorem Serves.of (h : Serves view s t) (g : β → γ) : Serves (fun m => g (view m)) s t := ⟨h.frame, h.searches, congrArg g h.same⟩

theorem Serves.acct (h : Serves view s t) : t.acct = s.acct := (congrArg State.acct h.frame :)

theorem Keeps.serves (h : Keeps view s t) : Serves view s t where
  frame := by
    calc t = _ := h.frame
      _ = _ := by rw [h.frame]
  searches := by rw [h.frame]
  same := h.same

theorem Replied.serves (h : Replied s t) : Serves view s t where
  frame := by
    calc t = _ := h
      _ = _ := by rw [h]
  searches := by rw [h]
  same := by rw [h]

theorem serves_cmds (cmds : List Cmd) (s : State) : Serves view s { s with cmds := cmds } := ⟨rfl, rfl, rfl⟩

/-- Work on the media and then a delivery: what the statement of the page reads leaves free. -/
theorem MediaWork.served (work : MediaWork s u) (serves : Serves view u t) :
    MediaWork { s with searches := t.searches } t ∧ t.searches.map Search.unread = s.searches.map Search.unread := by
  have first : MediaWork { s with searches := t.searches } { u with searches := t.searches } :=
    (congrArg (fun x : State => { x with searches := t.searches }) work :)
  have second : MediaWork { u with searches := t.searches } t := by
    calc t = _ := serves.frame
      _ = _ := by rw [serves.frame]
  exact ⟨first.trans second, serves.searches.trans (by rw [show u.searches = s.searches from (congrArg State.searches work :)])⟩

end

/-- The media but for what the delivery of a page changes. -/
def Media.butDelivery (m : Media) : Media := { m.butHealth.butCopies with streams := [], segments := [] }

/-- A command to which a page is delivered. -/
def Cmd.takesPage (k : CmdKey) (a : MediaAddr) (f : Cmd → Cmd) (c : Cmd) : Cmd :=
  match c.phase with
  | .waiting (.pages need) =>
    if c.key = k then
      let c := f { c with pagesIn := if c.pagesIn.contains a then c.pagesIn else a :: c.pagesIn }
      if need.all fun b => c.pagesIn.contains b then { c with phase := .received } else c
    else c
  | _ => c

theorem keeps_dropRead (r : PageReq) (s : State) : Keeps Media.butCopies s (dropRead r s) := ⟨rfl, rfl⟩

/-- A scan goes on, or it pauses. -/
theorem pauseScan_cases (k : CmdKey) (s : State) : pauseScan k s = s ∨ ∃ n, pauseScan k s =
    modCmd k (fun c => { c with phase := .waiting .staging }) (modScan k (fun q => { q with paused := true, staged := n }) s) := by
  unfold pauseScan
  split
  · exact (ite_eq_or_eq _ _ _).symm.imp_right fun h => ⟨_, h⟩
  · exact .inl rfl

theorem serves_pauseScan {β : Type} {view : Media → β} (k : CmdKey) (s : State) : Serves view s (pauseScan k s) := by
  rcases pauseScan_cases k s with same | ⟨n, pauses⟩
  · rw [same]
    exact Serves.refl s
  · rw [pauses]
    exact ⟨rfl, rfl, rfl⟩

theorem serves_segmentIn (n : Nat) (s : State) : Serves Media.butDelivery s (segmentIn n s) := ⟨rfl, rfl, rfl⟩

section
variable (r : PageReq) (ok around : Bool) (f : Cmd → Cmd) (s : State)

theorem pageIn_cmd {k : CmdKey} (for_ : r.for_ = .cmd k) : pageIn r ok around f s =
    pauseScan k { dropRead r s with cmds := s.cmds.map (Cmd.takesPage k r.place f) } := by
  unfold pageIn
  rw [for_]
  rfl

theorem pageIn_search {k : CmdKey} {id : Nat} (for_ : r.for_ = .search k id) : pageIn r ok around f s =
    { dropRead r s with searches := s.searches.map fun q => if q.key = k then { q with read := q.read ++ [(id, ok, around)] } else q } := by
  unfold pageIn
  rw [for_]
  rfl

theorem serves_searches (k : CmdKey) (id : Nat) : Serves Media.butDelivery s
    { s with searches := s.searches.map fun q => if q.key = k then { q with read := q.read ++ [(id, ok, around)] } else q } := by
  refine ⟨rfl, ?_, rfl⟩
  rw [List.map_map]
  refine List.map_congr_left fun q _ => ?_
  dsimp only [Function.comp_apply]
  split <;> rfl

theorem serves_pageIn : Serves Media.butDelivery s (pageIn r ok around f s) := by
  have dropped : Serves Media.butDelivery s (dropRead r s) := ((keeps_dropRead r s).of Media.butDelivery).serves
  cases for_ : r.for_ with
  | cmd k =>
    rw [pageIn_cmd r ok around f s for_]
    exact (dropped.trans (serves_cmds _ _)).trans (serves_pauseScan ..)
  | segment n =>
    unfold pageIn
    rw [for_]
    exact dropped.trans (Serves.ite (Serves.refl _) (serves_segmentIn ..))
  | refetch line =>
    unfold pageIn
    rw [for_]
    exact dropped
  | copy =>
    unfold pageIn
    rw [for_]
    exact dropped.trans ((keeps_copyRead ..).of Media.butDelivery).serves
  | tilling =>
    unfold pageIn
    rw [for_]
    refine dropped.trans (Serves.ite ?_ (Serves.refl _))
    exact (((keeps_relocate true r.place (dropRead r s)).of Media.butDelivery).trans ((keeps_bumpErr 9 1 _).of Media.butDelivery)).serves
  | search k id =>
    rw [pageIn_search r ok around f s for_]
    exact dropped.trans (serves_searches ok around (dropRead r s) k id)

end

/-- The page has come to the command or search that it was read for. -/
def State.got (s u : State) (r : PageReq) (around : Bool) : Prop :=
  (∀ k, r.for_ = .cmd k → ∀ c ∈ s.cmds, c.key = k → c.needs r.place = true → ∃ d ∈ u.cmds, d.key = k ∧ r.place ∈ d.pagesIn) ∧
    ∀ k id, r.for_ = .search k id → ∀ q ∈ s.searches, q.key = k → ∃ x ∈ u.searches, x.key = k ∧ (id, true, around) ∈ x.read

/-- A change that leaves a command's key and its pages. -/
def KeepsPages (f : Cmd → Cmd) : Prop := ∀ c, (f c).key = c.key ∧ (f c).pagesIn = c.pagesIn

theorem takesPage_has {k : CmdKey} {a : MediaAddr} {f : Cmd → Cmd} (keeps : KeepsPages f) {c : Cmd} (own : c.key = k) (needs : c.needs a = true) :
    (c.takesPage k a f).key = k ∧ a ∈ (c.takesPage k a f).pagesIn := by
  have new : a ∈ (if c.pagesIn.contains a = true then c.pagesIn else a :: c.pagesIn) := by
    split
    · next there => exact List.contains_iff_mem.1 there
    · exact List.mem_cons_self
  unfold Cmd.takesPage
  generalize (if c.pagesIn.contains a = true then c.pagesIn else a :: c.pagesIn) = pages at new
  obtain ⟨key, same⟩ := keeps { c with pagesIn := pages }
  split
  · rw [if_pos own]
    dsimp only
    split <;> exact ⟨key.trans own, same ▸ new⟩
  · next waits =>
    unfold Cmd.needs at needs
    split at needs
    · next need phase => exact absurd phase (waits need)
    · exact absurd needs (by decide)

theorem pauseScan_pages {k j : CmdKey} {a : MediaAddr} {s : State} (h : ∃ d ∈ s.cmds, d.key = k ∧ a ∈ d.pagesIn) :
    ∃ d ∈ (pauseScan j s).cmds, d.key = k ∧ a ∈ d.pagesIn := by
  obtain ⟨d, mem, own, there⟩ := h
  rcases pauseScan_cases j s with same | ⟨n, pauses⟩
  · rw [same]
    exact ⟨d, mem, own, there⟩
  · rw [pauses]
    refine ⟨_, List.mem_map_of_mem mem, ?_⟩
    split <;> exact ⟨own, there⟩

theorem pageIn_got {r : PageReq} {around : Bool} {f : Cmd → Cmd} (keeps : KeepsPages f) (s : State) :
    s.got (pageIn r true around f s) r around := by
  refine ⟨fun k for_ c mem own needs => ?_, fun k id for_ q mem own => ?_⟩
  · rw [pageIn_cmd r true around f s for_]
    exact pauseScan_pages ⟨c.takesPage k r.place f, List.mem_map_of_mem mem, takesPage_has keeps own needs⟩
  · rw [pageIn_search r true around f s for_]
    refine ⟨_, List.mem_map_of_mem mem, ?_⟩
    rw [if_pos own]
    exact ⟨own, List.mem_append_right _ List.mem_cons_self⟩

/-- What has come since a state with the same commands and searches has come since this one. -/
theorem got_of_same {s t u : State} {r : PageReq} {around : Bool} (cmds : t.cmds = s.cmds) (searches : t.searches = s.searches)
    (h : t.got u r around) : s.got u r around := by
  unfold State.got at h ⊢
  rwa [cmds, searches] at h

/- Copies under way (R200) -/

/-- A copy of a place is under way: its source waits, or it is being written. -/
def State.copied (u : State) (a : MediaAddr) : Prop := (∃ j ∈ u.media.copies, j.src = a) ∨ ∃ l ∈ u.media.lines, ∃ j ∈ l.copies, j.2.src = a

theorem copied_congr {s t : State} (copies : t.media.copies = s.media.copies) (lines : t.media.lines = s.media.lines) {a : MediaAddr}
    (h : s.copied a) : t.copied a := by
  unfold State.copied
  rwa [copies, lines]

theorem copied_copyRead {a b : MediaAddr} {s : State} (h : s.copied a) : (copyRead b s).copied a := by
  refine h.imp_left fun ⟨j, mem, src⟩ => ⟨_, List.mem_map_of_mem mem, ?_⟩
  split <;> exact src

theorem copied_issueReads {a : MediaAddr} {s : State} {cls : Cls} {f : ReadFor} {need : List (MediaAddr × Nat)} (h : s.copied a) :
    (issueReads cls f need s).copied a := h

theorem copied_readSegments {a : MediaAddr} {s : State} (segs : List Nat) (h : s.copied a) : (readSegments segs s).copied a :=
  List.foldlRecOn _ _ (motive := fun u : State => u.copied a) h fun _ so _ _ => copied_issueReads so

/-- A copy of a unit taken on: queued, its segment read, and its source too unless that has been read. -/
def takeCopy (ready : Bool) (a : MediaAddr) (u : Nat) (s : State) : State :=
  let s := readSegments [segmentOf u] (modMedia (fun m => { m with copies := m.copies ++ [⟨u / 2 ^ 40, u % 2 ^ 40, a, ready⟩] }) s)
  if ready then s else issueReads .housekeeping .copy [(a, 0xFFFF)] s

theorem takeCopy_copied {ready : Bool} {a b : MediaAddr} {u : Nat} {s : State} (h : a = b ∨ s.copied b) : (takeCopy ready a u s).copied b := by
  have queued : (modMedia (fun m => { m with copies := m.copies ++ [⟨u / 2 ^ 40, u % 2 ^ 40, a, ready⟩] }) s).copied b := by
    rcases h with rfl | ⟨j, mem, src⟩ | lines
    · exact .inl ⟨_, List.mem_append_right _ List.mem_cons_self, rfl⟩
    · exact .inl ⟨j, List.mem_append_left _ mem, src⟩
    · exact .inr lines
  have mapped := copied_readSegments [segmentOf u] queued
  unfold takeCopy
  dsimp only
  split
  · exact mapped
  · exact copied_issueReads mapped

/-- A unit at a place is being copied, is queued to be, or is queued now. -/
theorem relocate_some {ready : Bool} {a : MediaAddr} {s : State} {u : Nat} (h : s.unitAt a = some u) : relocate ready a s =
    if s.media.lines.any (fun l => l.copies.any fun c => decide (c.2.src = a)) then s
    else if s.media.copies.any fun j => decide (j.src = a) then (if ready then copyRead a s else s)
    else takeCopy ready a u s := by
  unfold relocate
  rw [h]
  rfl

theorem relocate_none {ready : Bool} {a : MediaAddr} {s : State} (h : s.unitAt a = none) : relocate ready a s = s := by
  unfold relocate
  rw [h]

theorem copied_relocate {ready : Bool} {a b : MediaAddr} {s : State} (h : s.copied b) : (relocate ready a s).copied b := by
  cases unit : s.unitAt a with
  | none => rwa [relocate_none unit]
  | some u =>
    rw [relocate_some unit]
    split
    · exact h
    · split
      · split
        · exact copied_copyRead h
        · exact h
      · exact takeCopy_copied (.inr h)

theorem relocate_copied {ready : Bool} {a : MediaAddr} {s : State} (unit : (s.unitAt a).isSome = true) : (relocate ready a s).copied a := by
  obtain ⟨u, found⟩ := Option.isSome_iff_exists.1 unit
  rw [relocate_some found]
  split
  · next lines => exact .inr (by simpa using lines)
  · split
    · next copies =>
      have there : s.copied a := .inl (by simpa using copies)
      split
      · exact copied_copyRead there
      · exact there
    · exact takeCopy_copied (.inl rfl)

theorem copied_pageIn {r : PageReq} {ok around : Bool} {f : Cmd → Cmd} {a : MediaAddr} {s : State} (h : s.copied a) :
    (pageIn r ok around f s).copied a := by
  have dropped : (dropRead r s).copied a := h
  cases for_ : r.for_ with
  | cmd k =>
    have paused : Serves (fun m => m) _ (pauseScan k { dropRead r s with cmds := s.cmds.map (Cmd.takesPage k r.place f) }) := serves_pauseScan k _
    rw [pageIn_cmd r ok around f s for_]
    exact copied_congr (congrArg Media.copies paused.same) (congrArg Media.lines paused.same) dropped
  | segment n =>
    unfold pageIn
    rw [for_]
    dsimp only
    split
    · exact dropped
    · exact copied_congr rfl rfl dropped
  | refetch line =>
    unfold pageIn
    rw [for_]
    exact dropped
  | copy =>
    unfold pageIn
    rw [for_]
    exact copied_copyRead dropped
  | tilling =>
    unfold pageIn
    rw [for_]
    dsimp only
    split
    · exact copied_congr rfl rfl (copied_relocate (ready := true) (a := r.place) dropped)
    · exact dropped
  | search k id =>
    rw [pageIn_search r ok around f s for_]
    exact dropped

end Sys2Proof.Machine
end

section
/-!
PROOFS. What a page read reports, counts and charges, and where it goes then (R160, R164 to R166, R174, R182, R223).
-/

namespace Sys2Proof.Machine

open Sys2Proof

/- Bad blocks (R186, R204) -/

/-- The media but for what a bad block changes: the grown-bad table, the root sets, dies and bands. -/
def Media.butBad (m : Media) : Media :=
  { m with grownBad := [], rootSeq := 0, bankA := none, rootsLeft := [], bankB := none, dies := [], bands := [] }

theorem butBad_writeRoot (fresh : Bool) (m : Media) : (Media.writeRoot fresh m).butBad = m.butBad := by
  unfold Media.writeRoot
  dsimp only
  split <;> rfl

theorem keeps_writeRoot (s : State) : Keeps Media.butBad s (writeRoot s) := keeps_modMedia (butBad_writeRoot false) s

/-- The entry of a block in the grown-bad table. -/
def State.badEntry (s : State) (d plane block cause : Nat) : GrownBad :=
  ⟨s.dieSieve d, s.dieChannel d, s.diePos d, plane, block, cause, s.now⟩
/-- The block recorded, and the blocks of its die counted again. -/
def listBad (e : GrownBad) (s : State) : State := writeRoot (modMedia (fun m => { m with grownBad := m.grownBad ++ [e] }) s)
def countGood (d : Nat) (s : State) : State := modDie d (fun x => { x with goodMin := s.fewestGood d }) s

/-- The block is in the table. -/
def State.listedBad (s : State) (d plane block : Nat) : Bool := s.media.grownBad.any fun g => s.onPlane d plane g && decide (g.block = block)

/-- The media but for dies and bands. -/
def Media.butDieBands (m : Media) : Media := { m with dies := [], bands := [] }

theorem keeps_modBand_dieBands (k : Nat) (f : Band → Band) (s : State) : Keeps Media.butDieBands s (modBand k f s) := ⟨rfl, rfl⟩

theorem addBad_none {d plane k cause : Nat} {s : State} (h : s.blockOf d plane (k % 2800) = none) : addBad d plane k cause s = s := by
  unfold addBad
  rw [h]

theorem addBad_listed {d plane k cause block : Nat} {s : State} (h : s.blockOf d plane (k % 2800) = some block)
    (listed : s.listedBad d plane block = true) : addBad d plane k cause s = s := by
  unfold addBad
  rw [h]
  exact if_pos listed

/-- A block that has gone bad is recorded; then an unused good block takes its place, or its band is to be retired. -/
theorem addBad_new {d plane k cause block : Nat} {s : State} (h : s.blockOf d plane (k % 2800) = some block)
    (new : ¬ s.listedBad d plane block = true) :
    Keeps Media.butDieBands (countGood d (listBad (s.badEntry d plane block cause) s)) (addBad d plane k cause s) := by
  unfold State.listedBad at new
  unfold addBad
  rw [h]
  dsimp only
  rw [if_neg new]
  split
  · exact (keeps_modDie d _ _).of Media.butDieBands
  · exact keeps_modBand_dieBands k _ _

theorem keeps_listBad (e : GrownBad) (s : State) : Keeps Media.butBad s (listBad e s) :=
  (keeps_modMedia (by intro; rfl) s).trans (keeps_writeRoot _)

theorem keeps_countGood (d : Nat) (s : State) : Keeps Media.butDies s (countGood d s) := keeps_modDie ..

theorem keeps_addBad (d plane k cause : Nat) (s : State) : Keeps Media.butBad s (addBad d plane k cause s) := by
  cases h : s.blockOf d plane (k % 2800) with
  | none =>
    rw [addBad_none h]
    exact Keeps.refl s
  | some block =>
    by_cases listed : s.listedBad d plane block = true
    · rw [addBad_listed h listed]
      exact Keeps.refl s
    · have counted := (keeps_countGood d (listBad (s.badEntry d plane block cause) s)).of Media.butBad
      exact ((keeps_listBad ..).trans counted).trans ((addBad_new h listed).of Media.butBad)

/- The pages of a direct read -/

def countPages (st : PageResult → Nat) (got : List PageResult) (s : State) : State := got.foldl (fun s x => countRead x (st x) s) s
/-- A page that needed soft decoding soon after its program makes its block bad (R223). -/
def markBad (d : Nat) (a : MediaAddr) (got : List PageResult) (s : State) : State :=
  got.foldl (fun s x => if x.soft ∧ s.young a then addBad d x.plane a.bandKey 3 s else s) s
/-- The operation suspended, the pages counted and reported. -/
def reportPages (d : Nat) (op : Option DieOp) (r : PageReq) (got : List PageResult) (s : State) : State :=
  report r.place (pageWords got (suspendedCode op) false (PageResult.state r.corrHigh)) (countPages (PageResult.state r.corrHigh) got (suspend d op s))

theorem readPages_eq (d : Nat) (op : Option DieOp) (r : PageReq) (got : List PageResult) (s : State) : readPages d op r got s =
    markBad d r.place got (account ((reportPages d op r got s).readContext r) (fun c => { c with reads := c.reads + got.length })
      (reportPages d op r got s)) := rfl

/-- The media but for the counts of page results. -/
def Media.butCounts (m : Media) : Media := { m.butHealth with retried := 0, soft := 0, uncorrectable := 0 }
/-- The media but for what the pages of a direct read change. -/
def Media.butPages (m : Media) : Media := { m.butBad.butCounts with progSuspends := 0, eraseSuspends := 0, report := none }
/-- What a direct read reports and counts. -/
def Media.pageCounts (m : Media) : Option (MediaAddr × List (Nat × Nat)) × Nat × Nat × Nat × Nat :=
  (m.report, m.retried, m.soft, m.uncorrectable, m.progSuspends)

theorem keeps_countRead (x : PageResult) (st : Nat) (s : State) : Keeps Media.butCounts s (countRead x st s) := by
  have counted : Keeps Media.butCounts s (modMedia (fun m => { m with
      retried := satAdd 16 m.retried (b2n (decide (0 < x.retry)))
      soft := satAdd 16 m.soft (b2n x.soft)
      uncorrectable := satAdd 16 m.uncorrectable (b2n (decide (st = 4))) }) s) := keeps_modMedia (by intro; rfl) s
  have bumped := fun (i n : Nat) (u : State) => (keeps_bumpErr i n u).of Media.butCounts
  exact (((counted.trans (bumped 0 _ _)).trans (bumped 1 _ _)).trans (bumped 2 _ _)).trans (bumped 14 _ _)

theorem keeps_countPages (st : PageResult → Nat) (got : List PageResult) (s : State) : Keeps Media.butCounts s (countPages st got s) :=
  Keeps.foldl (fun u x => keeps_countRead x (st x) u) got s

theorem keeps_markBad (d : Nat) (a : MediaAddr) (got : List PageResult) (s : State) : Keeps Media.butBad s (markBad d a got s) := by
  refine Keeps.foldl (fun u x => ?_) got s
  exact Keeps.ite (keeps_addBad d x.plane a.bandKey 3 u) (Keeps.refl u)

theorem keeps_report (a : MediaAddr) (words : List (Nat × Nat)) (s : State) :
    Keeps (fun m => ({ m with report := none } : Media)) s (report a words s) := ⟨rfl, rfl⟩

theorem keeps_reportPages (d : Nat) (op : Option DieOp) (r : PageReq) (got : List PageResult) (s : State) :
    Keeps Media.butPages s (reportPages d op r got s) := by
  have suspended := (keeps_suspend d op s).of Media.butPages
  have counted := (keeps_countPages (PageResult.state r.corrHigh) got (suspend d op s)).of Media.butPages
  have reported : Keeps Media.butPages _ (reportPages d op r got s) := (keeps_report ..).of Media.butPages
  exact (suspended.trans counted).trans reported

/-- The live context that pays for a context's work. -/
def State.paidBy (s : State) (ctx : Option Nat) : Option Nat := ctx.bind fun n => (kvGet (s.payer n) s.contexts).map fun _ => s.payer n

theorem account_none {ctx : Option Nat} {s : State} (h : s.paidBy ctx = none) (f : AccCounts → AccCounts) :
    account ctx f s = modInterval (fun i => { i with nobody := AccCounts.charge s.acct.prices f i.nobody }) s := by
  unfold State.paidBy at h
  unfold account
  dsimp only
  rw [h]

theorem account_some {ctx : Option Nat} {s : State} {n : Nat} (h : s.paidBy ctx = some n) (f : AccCounts → AccCounts) :
    account ctx f s = modInterval (fun i => { i with counts := kvSet n (AccCounts.charge s.acct.prices f (s.countsOf n)) i.counts }) s := by
  unfold State.paidBy at h
  unfold account
  dsimp only
  rw [h]

/-- An activity count is charged the same after work on the media only. -/
theorem account_of_mediaOnly {s t : State} (only : MediaOnly s t) (ctx : Option Nat) (f : AccCounts → AccCounts) :
    account ctx f t = { account ctx f s with media := t.media } := by
  have paid : t.paidBy ctx = s.paidBy ctx := by rw [only]; rfl
  have counts : ∀ n, t.countsOf n = s.countsOf n := fun n => by rw [only]; rfl
  have prices : t.acct.prices = s.acct.prices := by rw [only]
  cases h : s.paidBy ctx with
  | none =>
    rw [account_none h, account_none (paid.trans h), prices, only]
    rfl
  | some n =>
    rw [account_some h, account_some (paid.trans h), prices, counts, only]
    rfl

theorem readContext_of_mediaOnly {s t : State} (h : MediaOnly s t) (r : PageReq) : t.readContext r = s.readContext r := by
  rw [h]
  rfl

section
variable (d : Nat) (op : Option DieOp) (r : PageReq) (got : List PageResult) (s : State)

/-- Besides the media, the pages of a read are only charged. -/
theorem readPages_frame : readPages d op r got s =
    { account (s.readContext r) (fun c => { c with reads := c.reads + got.length }) s with media := (readPages d op r got s).media } := by
  have reported := (keeps_reportPages d op r got s).frame
  rw [readPages_eq, readContext_of_mediaOnly reported, account_of_mediaOnly reported]
  exact (keeps_markBad d r.place got _).frame

theorem readPages_view : (readPages d op r got s).media.butPages = s.media.butPages := by
  have marked := ((keeps_markBad d r.place got (account ((reportPages d op r got s).readContext r)
    (fun c => { c with reads := c.reads + got.length }) (reportPages d op r got s))).of Media.butPages).same
  have charged : Works Media.butPages (reportPages d op r got s) _ := works_account ((reportPages d op r got s).readContext r)
    (fun c => { c with reads := c.reads + got.length }) _
  exact (marked.trans charged.same).trans (keeps_reportPages d op r got s).same

theorem countPages_counts (st : PageResult → Nat) :
    (countPages st got s).media.retried = got.foldl (fun n x => satAdd 16 n (b2n (decide (0 < x.retry)))) s.media.retried ∧
    (countPages st got s).media.soft = got.foldl (fun n x => satAdd 16 n (b2n x.soft)) s.media.soft ∧
    (countPages st got s).media.uncorrectable = got.foldl (fun n x => satAdd 16 n (b2n (decide (st x = 4)))) s.media.uncorrectable :=
  ⟨(List.foldl_hom (fun u : State => u.media.retried) (H := fun _ _ => rfl)).symm,
    (List.foldl_hom (fun u : State => u.media.soft) (H := fun _ _ => rfl)).symm,
    (List.foldl_hom (fun u : State => u.media.uncorrectable) (H := fun _ _ => rfl)).symm⟩

theorem suspend_progSuspends : (suspend d op s).media.progSuspends =
    if op = some .programSuspended then satAdd 32 s.media.progSuspends 1 else s.media.progSuspends := by
  cases op with
  | none => rfl
  | some op =>
    have same := ((keeps_modDie d (fun x => { x with op := op }) s).of Media.progSuspends).same
    rw [suspend_some]
    by_cases program : op = .programSuspended
    · rw [if_pos program, if_pos (congrArg some program)]
      exact congrArg (fun n => satAdd 32 n 1) same
    · rw [if_neg program, if_neg fun h => program (Option.some.inj h)]
      exact same

theorem readPages_counts : (readPages d op r got s).media.pageCounts =
    (some (r.place, pageWords got (suspendedCode op) false (PageResult.state r.corrHigh)),
      got.foldl (fun n x => satAdd 16 n (b2n (decide (0 < x.retry)))) s.media.retried,
      got.foldl (fun n x => satAdd 16 n (b2n x.soft)) s.media.soft,
      got.foldl (fun n x => satAdd 16 n (b2n (decide (PageResult.state r.corrHigh x = 4)))) s.media.uncorrectable,
      if op = some .programSuspended then satAdd 32 s.media.progSuspends 1 else s.media.progSuspends) := by
  have marked := ((keeps_markBad d r.place got (account ((reportPages d op r got s).readContext r)
    (fun c => { c with reads := c.reads + got.length }) (reportPages d op r got s))).of Media.pageCounts).same
  have charged : Works Media.pageCounts (reportPages d op r got s) _ := works_account ((reportPages d op r got s).readContext r)
    (fun c => { c with reads := c.reads + got.length }) _
  obtain ⟨retried, soft, uncorrectable⟩ := countPages_counts got (suspend d op s) (PageResult.state r.corrHigh)
  have suspended := keeps_suspend d op s
  have counted := ((keeps_countPages (PageResult.state r.corrHigh) got (suspend d op s)).of Media.progSuspends).same
  refine (marked.trans charged.same).trans ?_
  rw [show s.media.retried = (suspend d op s).media.retried from (congrArg Media.retried suspended.same).symm,
    show s.media.soft = (suspend d op s).media.soft from (congrArg Media.soft suspended.same).symm,
    show s.media.uncorrectable = (suspend d op s).media.uncorrectable from (congrArg Media.uncorrectable suspended.same).symm,
    ← retried, ← soft, ← uncorrectable, ← suspend_progSuspends d op s]
  exact congrArg (fun n => (_, _, _, _, n)) counted

end

end Sys2Proof.Machine
end

section
/-!
PROOFS. The page read whose turn it is on its die (R160, R164 to R166, R174, R182).
-/

namespace Sys2Proof.Machine

open Sys2Proof

/- What a read finds after another has been counted -/

theorem unitAt_congr {s t : State} (map : t.media.map = s.media.map) (slots : t.media.slots = s.media.slots) (a : MediaAddr) :
    t.unitAt a = s.unitAt a := by
  unfold State.unitAt State.liveUnits
  rw [map, slots]

theorem armed_congr {s t : State} (cmds : t.cmds = s.cmds) (r : PageReq) : t.armed r = s.armed r := by
  unfold State.armed
  rw [cmds]

theorem mem_queueOf {s : State} {d : Nat} {r : PageReq} :
    r ∈ s.queueOf d ↔ r ∈ s.media.reads ∧ r.step = .queued ∧ s.wanted r = true ∧ s.dieAt r.place = some d := by
  simp only [State.queueOf, List.mem_filter, Bool.and_eq_true, decide_eq_true_eq, and_assoc]

/-- The read that a die serves next is one of those queued on it. -/
theorem turn_mem {s : State} {d : Nat} {r : PageReq} (turn : s.turn d = some r) : r ∈ s.queueOf d := by
  have pick : ∀ l : List PageReq, ((kvGet d s.media.streams).bind fun t =>
      l.find? fun r => decide (r.place = t.next) && decide (r.cls = t.cls)).or l.head? = some r → r ∈ l := by
    intro l h
    rcases Option.or_eq_some_iff.1 h with found | ⟨-, first⟩
    · obtain ⟨t, -, found⟩ := Option.bind_eq_some_iff.1 found
      exact List.mem_of_find?_eq_some found
    · exact List.mem_of_mem_head? first
  have among : ∀ cs : List Cls, cs.foldr (fun c later => (((kvGet d s.media.streams).bind fun t =>
      (((s.queueOf d).filter s.direct).filter fun r => decide (r.cls = c)).find? fun r => decide (r.place = t.next) && decide (r.cls = t.cls)).or
        (((s.queueOf d).filter s.direct).filter fun r => decide (r.cls = c)).head?).or later) none = some r → r ∈ (s.queueOf d).filter s.direct := by
    intro cs
    induction cs with
    | nil => exact fun h => nomatch h
    | cons c cs ih =>
      intro h
      rcases Option.or_eq_some_iff.1 h with here | ⟨-, later⟩
      · exact (List.mem_filter.1 (pick _ here)).1
      · exact ih later
  exact (List.mem_filter.1 (among _ turn)).1

/- What follows a direct read -/

theorem keeps_nextStream (d : Nat) (r : PageReq) (s : State) : Keeps (fun m => ({ m with streams := [] } : Media)) s (nextStream d r s) := by
  have set_ : ∀ f : Media → Media, (∀ m, ({ f m with streams := [] } : Media) = { m with streams := [] }) →
      Keeps (fun m => ({ m with streams := [] } : Media)) s (modMedia f s) := fun f same => keeps_modMedia same s
  unfold nextStream
  exact Keeps.ite (set_ _ fun _ => rfl) (Keeps.ite (Keeps.refl s) (set_ _ fun _ => rfl))

theorem keeps_stepRead (r : PageReq) (st : ReadStep) (found : List PageResult) (s : State) : Keeps Media.butCopies s (stepRead r st found s) := ⟨rfl, rfl⟩

theorem mem_stepRead {r : PageReq} {s : State} (queued : r ∈ s.media.reads) (st : ReadStep) (found : List PageResult) :
    { r with step := st, found := found } ∈ (stepRead r st found s).media.reads :=
  List.mem_map.2 ⟨r, queued, if_pos rfl⟩

/-- A state word CORRECTED_HIGH on a member of a VERIFY is counted for it (R250). -/
def Cmd.countHigh (high : Bool) (c : Cmd) : Cmd := if high ∧ c.opcode = 0x25 then { c with tally := c.tally + 1 } else c
/-- A member with a page CORRECTED_HIGH is copied elsewhere. -/
def copyHigh (high : Bool) (r : PageReq) (s : State) : State := if high then bumpErr 8 1 (relocate (decide (r.cws = 0xFFFF)) r.place s) else s

theorem keepsPages_countHigh (high : Bool) : KeepsPages (Cmd.countHigh high) := by
  intro c
  unfold Cmd.countHigh
  split <;> exact ⟨rfl, rfl⟩

theorem keeps_copyHigh (high : Bool) (r : PageReq) (s : State) : Keeps Media.butDelivery s (copyHigh high r s) := by
  unfold copyHigh
  have copied := (keeps_relocate (decide (r.cws = 0xFFFF)) r.place s).of Media.butDelivery
  exact Keeps.ite (copied.trans ((keeps_bumpErr 8 1 _).of Media.butDelivery)) (Keeps.refl s)

/-- What a direct read does before its member goes on. -/
def afterPages (d : Nat) (op : Option DieOp) (r : PageReq) (got : List PageResult) (s : State) : State := nextStream d r (readPages d op r got s)
/-- Where a member goes that has been read. -/
def endRead (r : PageReq) (got : List PageResult) (s : State) : State :=
  let st := got.map (PageResult.state r.corrHigh)
  if (st.all fun x => decide (x ≤ 1)) = true then
    if (got.any fun x => x.mismatch) = true ∧ s.armed r = true then stepRead r .recheck got s
    else pageIn r true false (Cmd.countHigh (st.contains 1)) (copyHigh (st.contains 1) r s)
  else stepRead r .rebuild got s

theorem pageRead_turn {d : Nat} {r : PageReq} {op : Option DieOp} {res : List PageResult} {s : State} (turn : s.turn d = some r)
    (at_ : s.dieAt r.place = some d) (serve : s.serve r.place r.cls r.wbHighPct = .direct op) (reports : r.reports res = true) :
    pageRead r.place r.cls res s =
      settleMedia (endRead r (res.map (PageResult.within r.retryMax)) (afterPages d op r (res.map (PageResult.within r.retryMax)) s)) := by
  unfold pageRead endRead
  simp only [at_, turn, serve]
  rw [if_neg (by simp [reports]), apply_ite settleMedia, apply_ite settleMedia]
  rfl

section
variable {r : PageReq} {got : List PageResult} {p : State}

theorem serves_endRead : Serves Media.butDelivery p (endRead r got p) := by
  have waits := fun st : ReadStep => ((keeps_stepRead r st got p).of Media.butDelivery).serves
  unfold endRead
  exact Serves.ite (Serves.ite (waits .recheck) ((keeps_copyHigh ..).serves.trans (serves_pageIn ..))) (waits .rebuild)

theorem states_all : (((got.map (PageResult.state r.corrHigh)).all fun x => decide (x ≤ 1)) = true) ↔ ∀ x ∈ got, PageResult.state r.corrHigh x ≤ 1 := by
  simp

theorem states_contains (n : Nat) : ((got.map (PageResult.state r.corrHigh)).contains n = true) ↔ ∃ x ∈ got, PageResult.state r.corrHigh x = n := by
  simp

/-- A member that decodes goes to what it was read for, and is copied elsewhere when it is CORRECTED_HIGH. -/
theorem endRead_delivers (decodes : ∀ x ∈ got, PageResult.state r.corrHigh x ≤ 1) (checks : (∃ x ∈ got, x.mismatch = true) → p.armed r = false) :
    p.got (endRead r got p) r false ∧
      ((∃ x ∈ got, PageResult.state r.corrHigh x = 1) → (p.unitAt r.place).isSome = true → (endRead r got p).copied r.place) := by
  have passes : ¬ ((got.any fun x => x.mismatch) = true ∧ p.armed r = true) := by
    rintro ⟨some_, armed⟩
    rw [checks (List.any_eq_true.1 some_)] at armed
    exact Bool.noConfusion armed
  unfold endRead
  dsimp only
  rw [if_pos (states_all.2 decodes), if_neg passes]
  have copied := keeps_copyHigh ((got.map (PageResult.state r.corrHigh)).contains 1) r p
  refine ⟨got_of_same (congrArg State.cmds copied.frame :) (congrArg State.searches copied.frame :) (pageIn_got (keepsPages_countHigh _) _),
    fun high unit => copied_pageIn ?_⟩
  unfold copyHigh
  rw [if_pos ((states_contains 1).2 high)]
  exact copied_congr rfl rfl (relocate_copied unit)

theorem endRead_rechecks (queued : r ∈ p.media.reads) (decodes : ∀ x ∈ got, PageResult.state r.corrHigh x ≤ 1)
    (mismatch : ∃ x ∈ got, x.mismatch = true) (armed : p.armed r = true) :
    { r with step := .recheck, found := got } ∈ (endRead r got p).media.reads := by
  unfold endRead
  dsimp only
  rw [if_pos (states_all.2 decodes), if_pos ⟨List.any_eq_true.2 mismatch, armed⟩]
  exact mem_stepRead queued ..

theorem endRead_rebuilds (queued : r ∈ p.media.reads) (fails : ∃ x ∈ got, 2 ≤ PageResult.state r.corrHigh x) :
    { r with step := .rebuild, found := got } ∈ (endRead r got p).media.reads := by
  have undecoded : ¬ (((got.map (PageResult.state r.corrHigh)).all fun x => decide (x ≤ 1)) = true) := by
    obtain ⟨x, mem, high⟩ := fails
    exact fun all => absurd (states_all.1 all x mem) (by omega)
  unfold endRead
  dsimp only
  rw [if_neg undecoded]
  exact mem_stepRead queued ..

end

section
variable (d : Nat) (op : Option DieOp) (r : PageReq) (got : List PageResult) (s : State)

/-- What a direct read leaves of the media until its member goes on. -/
def Media.butRead (m : Media) : Media := { m.butPages with streams := [] }

/-- Besides the media, a direct read is only charged. -/
theorem afterPages_frame :
    MediaOnly (account (s.readContext r) (fun c => { c with reads := c.reads + got.length }) s) (afterPages d op r got s) :=
  MediaOnly.trans (readPages_frame d op r got s) (keeps_nextStream d r (readPages d op r got s)).frame

theorem afterPages_work : MediaWork s (afterPages d op r got s) := (mediaWork_account ..).trans (afterPages_frame d op r got s).mediaWork

theorem afterPages_acct : (afterPages d op r got s).acct = (account (s.readContext r) (fun c => { c with reads := c.reads + got.length }) s).acct :=
  (congrArg State.acct (afterPages_frame d op r got s) :)

theorem afterPages_cmds : (afterPages d op r got s).cmds = s.cmds :=
  (congrArg State.cmds (afterPages_frame d op r got s) :).trans
    (congrArg State.cmds (account_frame (s.readContext r) (fun c => { c with reads := c.reads + got.length }) s) :)

theorem afterPages_searches : (afterPages d op r got s).searches = s.searches :=
  (congrArg State.searches (afterPages_work d op r got s) :)

theorem afterPages_view : (afterPages d op r got s).media.butRead = s.media.butRead := by
  have moved := ((keeps_nextStream d r (readPages d op r got s)).of Media.butRead).same
  exact moved.trans (congrArg Media.butRead (readPages_view d op r got s) :)

theorem afterPages_counts : (afterPages d op r got s).media.pageCounts = (readPages d op r got s).media.pageCounts :=
  ((keeps_nextStream d r (readPages d op r got s)).of Media.pageCounts).same

theorem afterPages_reads : (afterPages d op r got s).media.reads = s.media.reads :=
  (congrArg Media.reads (afterPages_view d op r got s) :)

theorem afterPages_unitAt (a : MediaAddr) : (afterPages d op r got s).unitAt a = s.unitAt a :=
  unitAt_congr (congrArg Media.map (afterPages_view d op r got s) :) (congrArg Media.slots (afterPages_view d op r got s) :) a

end

/-- Work on the media with a delivery: besides the media, replies, events and counts, it is at most records that have come to a search. -/
def State.served (s u : State) : Prop :=
  MediaWork { s with searches := u.searches } u ∧ u.searches.map Search.unread = s.searches.map Search.unread

/-- The page read whose turn it is: what it charges, reports and counts, and where its member goes. -/
theorem pageReadComplete_turn {d : Nat} {r : PageReq} {op : Option DieOp} {res got : List PageResult} {s : State} (turn : s.turn d = some r)
    (at_ : s.dieAt r.place = some d) (serve : s.serve r.place r.cls r.wbHighPct = .direct op) (reports : r.reports res = true)
    (shows : got = res.map (PageResult.within r.retryMax)) :
    exec (.pageReadComplete r.place r.cls res) s = .next (settleMedia (endRead r got (afterPages d op r got s))) ∧
      s.served (endRead r got (afterPages d op r got s)) ∧
      (endRead r got (afterPages d op r got s)).acct = (account (s.readContext r) (fun c => { c with reads := c.reads + res.length }) s).acct ∧
      (endRead r got (afterPages d op r got s)).media.pageCounts = (readPages d op r got s).media.pageCounts := by
  have run : exec (.pageReadComplete r.place r.cls res) s = .next (pageRead r.place r.cls res s) := rfl
  have ends : Serves Media.butDelivery (afterPages d op r got s) (endRead r got (afterPages d op r got s)) := serves_endRead
  have counts : Serves Media.pageCounts _ _ := ends.of Media.pageCounts
  have charged := afterPages_acct d op r got s
  have length : got.length = res.length := by rw [shows, List.length_map]
  rw [length] at charged
  refine ⟨run.trans (congrArg Host.Outcome.next ?_), ?_, ?_, ?_⟩
  · rw [shows]
    exact pageRead_turn turn at_ serve reports
  · exact (afterPages_work ..).served ends
  · exact ends.acct.trans charged
  · exact counts.same.trans (afterPages_counts ..)

section
variable {d : Nat} {r : PageReq} {op : Option DieOp} {got : List PageResult} {s : State}

/-- A member that decodes has come to what it was read for, and is copied elsewhere when it is CORRECTED_HIGH. -/
theorem pageRead_delivers (decodes : ∀ x ∈ got, PageResult.state r.corrHigh x ≤ 1) (checks : (∃ x ∈ got, x.mismatch = true) → s.armed r = false) :
    s.got (endRead r got (afterPages d op r got s)) r false ∧
      ((∃ x ∈ got, PageResult.state r.corrHigh x = 1) → (s.unitAt r.place).isSome = true →
        (endRead r got (afterPages d op r got s)).copied r.place) := by
  have armed := armed_congr (afterPages_cmds d op r got s) r
  have unit := congrArg Option.isSome (afterPages_unitAt d op r got s r.place)
  obtain ⟨got_, copied⟩ := endRead_delivers (p := afterPages d op r got s) decodes fun h => armed.trans (checks h)
  exact ⟨got_of_same (afterPages_cmds ..) (afterPages_searches ..) got_, fun high there => copied high (unit.trans there)⟩

theorem turn_queued (turn : s.turn d = some r) : r ∈ (afterPages d op r got s).media.reads := by
  rw [afterPages_reads]
  exact (mem_queueOf.1 (turn_mem turn)).1

/-- A member whose stream check mismatches waits for its re-check. -/
theorem pageRead_rechecks (turn : s.turn d = some r) (decodes : ∀ x ∈ got, PageResult.state r.corrHigh x ≤ 1)
    (mismatch : ∃ x ∈ got, x.mismatch = true) (armed : s.armed r = true) :
    { r with step := .recheck, found := got } ∈ (endRead r got (afterPages d op r got s)).media.reads :=
  endRead_rechecks (turn_queued turn) decodes mismatch ((armed_congr (afterPages_cmds ..) r).trans armed)

/-- A member with a page that does not decode waits for its read-around. -/
theorem pageRead_rebuilds (turn : s.turn d = some r) (fails : ∃ x ∈ got, 2 ≤ PageResult.state r.corrHigh x) :
    { r with step := .rebuild, found := got } ∈ (endRead r got (afterPages d op r got s)).media.reads :=
  endRead_rebuilds (turn_queued turn) fails

end

end Sys2Proof.Machine
end

section
/-!
PROOFS. The end of a read-around (R174 to R176, R182, R190): a member rebuilt, or lost.
-/

namespace Sys2Proof.Machine

open Sys2Proof

/- A view seen in another -/

/-- What leaves a view leaves what can be seen in it, under its own name. -/
theorem Keeps.sees {β γ : Type} {view : Media → β} {other : Media → γ} {s t : State} (h : Keeps view s t) (g : β → γ)
    (seen : ∀ m, g (view m) = other m) : Keeps other s t :=
  ⟨h.frame, (seen t.media).symm.trans ((congrArg g h.same).trans (seen s.media))⟩

theorem Serves.sees {β γ : Type} {view : Media → β} {other : Media → γ} {s t : State} (h : Serves view s t) (g : β → γ)
    (seen : ∀ m, g (view m) = other m) : Serves other s t :=
  ⟨h.frame, h.searches, (seen t.media).symm.trans ((congrArg g h.same).trans (seen s.media))⟩

/- The parts -/

/-- What a read-around reports of each page: rebuilt, or lost. -/
def aroundWords (r : PageReq) (good : Bool) (susp : Nat) : List (Nat × Nat) :=
  pageWords (if r.found = [] then unread r.cws else r.found) susp true fun _ => if good = true then 5 else 6
/-- The parts of a read-around read for a member, and its pages reported. -/
def afterParts (a : MediaAddr) (r : PageReq) (good : Bool) (s : State) : State :=
  report a (aroundWords r good (readParts a r.cls r.cws r.wbHighPct (s.readContext r) s).2) (readParts a r.cls r.cws r.wbHighPct (s.readContext r) s).1

/-- The media but for what the parts of a read-around change. -/
def Media.butParts (m : Media) : Media := { m.butSuspends.butHealth with readsAround := 0, report := none }
/-- The counts of read-arounds: failed rebuilds, and segments of streams repaired and lost. -/
def Media.rebuildCounts (m : Media) : Nat × Nat × Nat := (m.rebuildFailed, m.chkRepaired, m.chkMismatch)

theorem keeps_suspendParts (a : MediaAddr) (cls : Cls) (pct : Nat) (s : State) : Keeps Media.butSuspends s (suspendParts a cls pct s) :=
  Keeps.foldl (fun u (x : Nat × DieOp) => keeps_suspend x.1 (some x.2) u) _ s

theorem keeps_countAround_parts (s : State) : Keeps Media.butParts s (countAround s) := ⟨rfl, rfl⟩

theorem suspendedCode_le (op : Option DieOp) : suspendedCode op ≤ 2 := by
  unfold suspendedCode
  split <;> decide

theorem readParts_code_le (a : MediaAddr) (cls : Cls) (cws pct : Nat) (ctx : Option Nat) (s : State) : (readParts a cls cws pct ctx s).2 ≤ 2 := by
  rw [readParts_eq]
  refine List.foldlRecOn _ _ (motive := fun n : Nat => n ≤ 2) (Nat.zero_le 2) fun n so code mem => Nat.max_le.2 ⟨so, ?_⟩
  obtain ⟨x, -, rfl⟩ := List.mem_map.1 mem
  exact suspendedCode_le _

theorem mediaOnly_account {s t : State} (only : MediaOnly s t) (ctx : Option Nat) (f : AccCounts → AccCounts) :
    MediaOnly (account ctx f s) (account ctx f t) := by
  unfold MediaOnly
  rw [account_media]
  exact account_of_mediaOnly only ctx f

section
variable (a : MediaAddr) (r : PageReq) (good : Bool) (s : State)

/-- What is charged for a read-around: the pages of the other members. -/
def countParts (a : MediaAddr) (r : PageReq) (s : State) (c : AccCounts) : AccCounts :=
  { c with reads := c.reads + (planesOf r.cws).length * (s.othersOf a).length }

theorem keeps_countedParts : Keeps Media.butParts s (countAround (suspendParts a r.cls r.wbHighPct s)) :=
  ((keeps_suspendParts a r.cls r.wbHighPct s).of Media.butParts).trans (keeps_countAround_parts _)

/-- Besides the media, the parts of a read-around are only charged. -/
theorem afterParts_frame : MediaOnly (account (s.readContext r) (countParts a r s) s) (afterParts a r good s) := by
  have counted := (keeps_countedParts a r s).frame
  unfold afterParts
  rw [readParts_eq]
  dsimp only
  exact (mediaOnly_account counted (s.readContext r) (countParts a r s)).trans (keeps_report ..).frame

theorem afterParts_work : MediaWork s (afterParts a r good s) := (mediaWork_account ..).trans (afterParts_frame a r good s).mediaWork

theorem afterParts_acct : (afterParts a r good s).acct = (account (s.readContext r) (countParts a r s) s).acct :=
  (congrArg State.acct (afterParts_frame a r good s) :)

theorem afterParts_cmds : (afterParts a r good s).cmds = s.cmds :=
  (congrArg State.cmds (afterParts_frame a r good s) :).trans (congrArg State.cmds (account_frame (s.readContext r) (countParts a r s) s) :)

theorem afterParts_searches : (afterParts a r good s).searches = s.searches := (congrArg State.searches (afterParts_work a r good s) :)

theorem readParts_view {β : Type} (view : Media → β) : view (readParts a r.cls r.cws r.wbHighPct (s.readContext r) s).1.media =
    view (countAround (suspendParts a r.cls r.wbHighPct s)).media := by
  rw [readParts_eq]
  exact congrArg view (account_media ..)

theorem afterParts_view : (afterParts a r good s).media.butParts = s.media.butParts := by
  have reported : Keeps Media.butParts _ (afterParts a r good s) := (keeps_report ..).of Media.butParts
  exact (reported.same.trans (readParts_view a r s Media.butParts)).trans (keeps_countedParts a r s).same

theorem afterParts_rebuildCounts : (afterParts a r good s).media.rebuildCounts = s.media.rebuildCounts :=
  (congrArg Media.rebuildCounts (afterParts_view a r good s) :)

theorem afterParts_readsAround : (afterParts a r good s).media.readsAround = satAdd 32 s.media.readsAround 1 := by
  have reported : Keeps Media.readsAround _ (afterParts a r good s) := (keeps_report ..).of Media.readsAround
  have suspended : Keeps Media.readsAround s (suspendParts a r.cls r.wbHighPct s) := (keeps_suspendParts a r.cls r.wbHighPct s).of Media.readsAround
  exact (reported.same.trans (readParts_view a r s Media.readsAround)).trans (congrArg (fun n => satAdd 32 n 1) suspended.same :)

theorem afterParts_report : (afterParts a r good s).media.report =
    some (a, aroundWords r good (readParts a r.cls r.cws r.wbHighPct (s.readContext r) s).2) := rfl

theorem afterParts_unitAt (b : MediaAddr) : (afterParts a r good s).unitAt b = s.unitAt b :=
  unitAt_congr (congrArg Media.map (afterParts_view a r good s) :) (congrArg Media.slots (afterParts_view a r good s) :) b

end

/- What is lost -/

theorem replied_reply (c : Cmd) (status : Nat) (payload : List Byte) (s : State) : Replied s (reply c status payload s) := by
  unfold reply complete
  split
  · exact replied_putReply ..
  · split
    · rfl
    · exact replied_putReply ..

theorem replied_foldl {α : Type} {f : State → α → State} (step : ∀ s a, Replied s (f s a)) (l : List α) (s : State) : Replied s (l.foldl f s) :=
  List.foldlRecOn l f (motive := Replied s) (Replied.refl s) fun u so a _ => so.trans (step u a)

theorem entry_poison (owner unit : Nat) (s : State) : (poison owner unit s).entry owner unit = some .poisoned := kvGet_kvSet_same ..

theorem entry_loseUnit {a : MediaAddr} {s : State} {w : Nat} (unit : s.unitAt a = some w) :
    (loseUnit a s).entry (w / 2 ^ 40) (w % 2 ^ 40) = some .poisoned := by
  rw [loseUnit_some unit]
  exact entry_poison ..

theorem serves_loseUnit (a : MediaAddr) (s : State) : Serves Media.butMap s (loseUnit a s) := by
  cases unit : s.unitAt a with
  | none =>
    rw [loseUnit_none unit]
    exact Serves.refl s
  | some w =>
    rw [loseUnit_some unit]
    exact (serves_cmds (s.cmds.map (Cmd.loses a w)) s).trans (keeps_poison ..).serves

/-- The media but for what a page that is lost changes. -/
def Media.butLost (m : Media) : Media := { m with
  health := Health.shipped, copies := [], reads := [], streams := [], segments := [], map := [], journal := [], journalAt := 0 }

/-- A command whose lookup waits for a segment that is lost ends with it. -/
def loseLookup (n : Nat) (s : State) (c : Cmd) : State :=
  if 0x20 ≤ c.opcode ∧ c.opcode ≤ 0x25 then
    reply c stMediaUncorrectable (badReply 0 ((rangeDesc c.payload).first + (rangeDesc c.payload).blocks) (c.segmentBad n)) s
  else fail c stMediaUncorrectable s

theorem replied_loseLookup (n : Nat) (s : State) (c : Cmd) : Replied s (loseLookup n s c) := by
  unfold loseLookup
  split
  · exact replied_reply ..
  · exact replied_fail ..

theorem serves_loseSegment (n : Nat) (s : State) : Serves Media.butLost s (loseSegment n s) := by
  have dropped : Keeps Media.butLost s (modMedia (fun m => { m with reads := m.reads.filter fun r => decide (r.for_ ≠ .segment n) }) s) :=
    keeps_modMedia (by intro; rfl) s
  have ended : ∀ (l : List Cmd) (u : State), Replied u (l.foldl (loseLookup n) u) := replied_foldl (replied_loseLookup n)
  exact dropped.serves.trans (ended _ _).serves

/-- The copies of a place given up. -/
def dropCopies (a : MediaAddr) (s : State) : State := modMedia (fun m => { m with copies := m.copies.filter fun j => decide (j.src ≠ a) }) s
def Cmd.readAround (c : Cmd) : Cmd := { c with ra := true }

theorem keepsPages_readAround : KeepsPages Cmd.readAround := fun _ => ⟨rfl, rfl⟩

theorem keeps_dropCopies (a : MediaAddr) (s : State) : Keeps Media.butCopies s (dropCopies a s) := ⟨rfl, rfl⟩

/-- What is lost with a page that cannot be rebuilt. -/
def loseRead (r : PageReq) (s : State) : State :=
  match r.for_ with
  | .segment n => loseSegment n s
  | .refetch _ => dropRead r s
  | .search _ _ => pageIn r false true id (loseUnit r.place s)
  | _ => pageIn r false true Cmd.readAround (dropCopies r.place (loseUnit r.place s))

theorem rebuildFails_eq (r : PageReq) (s : State) : rebuildFails r s = loseRead r (countFailed s) := rfl

theorem serves_loseRead (r : PageReq) (s : State) : Serves Media.butLost s (loseRead r s) := by
  have lost : Serves Media.butLost s (loseUnit r.place s) :=
    (serves_loseUnit r.place s).sees Media.butLost fun m => by cases m; rfl
  have dropped : Serves Media.butLost _ (dropCopies r.place (loseUnit r.place s)) :=
    ((keeps_dropCopies ..).sees Media.butLost fun m => by cases m; rfl).serves
  have delivered : ∀ (f : Cmd → Cmd) (u : State), Serves Media.butLost u (pageIn r false true f u) :=
    fun f u => (serves_pageIn r false true f u).sees Media.butLost fun m => by cases m; rfl
  unfold loseRead
  split
  · exact serves_loseSegment ..
  · exact ((keeps_dropRead r s).sees Media.butLost fun m => by cases m; rfl).serves
  · exact lost.trans (delivered id _)
  · exact (lost.trans dropped).trans (delivered Cmd.readAround _)

/-- The unit of a page that a command waits for is poisoned with it. -/
theorem entry_loseRead {r : PageReq} {s : State} {k : CmdKey} {w : Nat} (for_ : r.for_ = .cmd k) (unit : s.unitAt r.place = some w) :
    (loseRead r s).entry (w / 2 ^ 40) (w % 2 ^ 40) = some .poisoned := by
  have delivered : Serves Media.map _ (pageIn r false true Cmd.readAround (dropCopies r.place (loseUnit r.place s))) :=
    (serves_pageIn r false true Cmd.readAround _).of Media.map
  unfold loseRead
  rw [for_]
  exact (congrArg (kvGet (unitKey (w / 2 ^ 40) (w % 2 ^ 40))) delivered.same).trans (entry_loseUnit unit)

/- Where a member goes -/

/-- A segment of a stream that has been repaired is copied elsewhere (R182). -/
def repairRead (a : MediaAddr) (r : PageReq) (s : State) : State :=
  if decide (r.step = .recheck) then
    modMedia (fun m => { m with chkRepaired := satAdd 16 m.chkRepaired 1 }) (relocate (decide (r.cws = 0xFFFF)) a s)
  else s
/-- A segment of a stream that has not ends the command that it was read for (R182). -/
def mismatchRead (r : PageReq) (s : State) : State :=
  bumpErr 7 1 (modMedia (fun m => { m with chkMismatch := satAdd 16 m.chkMismatch 1 }) (dropRead r s))
def failReader (r : PageReq) (s : State) : State :=
  (s.cmds.filter fun c => decide (r.for_ = .cmd c.key)).foldl (fun s c => fail { c with ra := true } stMediaUncorrectable s) s

/-- Where a member goes after its read-around. -/
def endAround (a : MediaAddr) (r : PageReq) (good reach : Bool) (s : State) : State :=
  if good = true then pageIn r true true Cmd.readAround (repairRead a r s)
  else if decide (r.step = .recheck) = true ∧ reach = true then failReader r (mismatchRead r s)
  else rebuildFails r s

/-- Every other member can be read, and a rebuild of one can be used. -/
def State.reaches (s : State) (a : MediaAddr) : Bool := (s.othersOf a).all fun b => !s.unreadable b
def State.goodRead (s : State) (a : MediaAddr) (r : PageReq) (ok : Bool) : Bool :=
  s.reaches a && ok && (decide (r.step = .recheck) || s.rebuildChecks a r.cws)

theorem readAround_found {a : MediaAddr} {ok : Bool} {r : PageReq} {s : State}
    (found : s.media.reads.find? (fun r => decide (r.place = a) && s.wanted r && (decide (r.step ≠ .queued) || decide (s.serveReq r = .around))) = some r)
    (ready : s.partsWait a r.cls r.wbHighPct = false) :
    readAround a ok s = settleMedia (endAround a r (s.goodRead a r ok) (s.reaches a) (afterParts a r (s.goodRead a r ok) s)) := by
  unfold readAround endAround
  simp only [found]
  rw [if_neg (by simp [ready]), apply_ite settleMedia, apply_ite settleMedia]
  rfl

section
variable {a : MediaAddr} {r : PageReq} {good reach : Bool} {p : State}

/-- The media but for the counts of read-arounds and what a delivery changes. -/
def Media.butAround (m : Media) : Media := { m with
  health := Health.shipped, copies := [], reads := [], streams := [], segments := [], map := [], journal := [], journalAt := 0
  rebuildFailed := 0, chkRepaired := 0, chkMismatch := 0 }

theorem keeps_countFailed_around (s : State) : Keeps Media.butAround s (countFailed s) := ⟨rfl, rfl⟩

theorem keeps_repairRead : Keeps (fun m => ({ m.butDelivery with chkRepaired := 0 } : Media)) p (repairRead a r p) := by
  have copied := (keeps_relocate (decide (r.cws = 0xFFFF)) a p).of fun m => ({ m.butDelivery with chkRepaired := 0 } : Media)
  exact Keeps.ite (copied.trans (keeps_modMedia (by intro; rfl) _)) (Keeps.refl p)

theorem keeps_mismatchRead : Keeps Media.butAround p (mismatchRead r p) := by
  have dropped := (keeps_dropRead r p).of Media.butAround
  exact (dropped.trans (keeps_modMedia (by intro; rfl) _)).trans ((keeps_bumpErr 7 1 _).of Media.butAround)

theorem replied_failReader (r : PageReq) (s : State) : Replied s (failReader r s) := replied_foldl (fun u (_ : Cmd) => replied_fail _ _ u) _ s

theorem serves_endAround : Serves Media.butAround p (endAround a r good reach p) := by
  have delivered : ∀ u : State, Serves Media.butAround u (pageIn r true true Cmd.readAround u) :=
    fun u => (serves_pageIn r true true Cmd.readAround u).sees Media.butAround fun m => by cases m; rfl
  have repaired : Serves Media.butAround p (repairRead a r p) := (keeps_repairRead.sees Media.butAround fun m => by cases m; rfl).serves
  have counted : Serves Media.butAround p (countFailed p) := (keeps_countFailed_around p).serves
  have lost : Serves Media.butAround _ (loseRead r (countFailed p)) := (serves_loseRead r (countFailed p)).sees Media.butAround fun m => by cases m; rfl
  unfold endAround
  rw [rebuildFails_eq]
  exact Serves.ite (repaired.trans (delivered _)) (Serves.ite (keeps_mismatchRead.serves.trans (replied_failReader ..).serves) (counted.trans lost))

/-- A member rebuilt has come to what it was read for; no rebuild has failed, and a segment repaired is counted. -/
theorem endAround_rebuilt (rebuilt : good = true) : p.got (endAround a r good reach p) r true ∧
    (endAround a r good reach p).media.rebuildFailed = p.media.rebuildFailed ∧
    (r.step = .recheck → (endAround a r good reach p).media.chkRepaired = satAdd 16 p.media.chkRepaired 1) := by
  have repaired : Keeps Media.rebuildFailed p (repairRead a r p) := keeps_repairRead.of Media.rebuildFailed
  have delivered : Serves Media.rebuildCounts _ (pageIn r true true Cmd.readAround (repairRead a r p)) :=
    (serves_pageIn r true true Cmd.readAround _).of Media.rebuildCounts
  unfold endAround
  rw [if_pos rebuilt]
  refine ⟨got_of_same (congrArg State.cmds repaired.frame :) (congrArg State.searches repaired.frame :) (pageIn_got keepsPages_readAround _),
    (congrArg Prod.fst delivered.same).trans repaired.same, fun recheck => (congrArg (·.2.1) delivered.same).trans ?_⟩
  have copied : Keeps Media.chkRepaired p (relocate (decide (r.cws = 0xFFFF)) a p) := (keeps_relocate ..).of Media.chkRepaired
  unfold repairRead
  rw [if_pos (decide_eq_true recheck)]
  exact congrArg (fun n => satAdd 16 n 1) copied.same

/-- A segment of a stream that does not match when it is rebuilt is counted. -/
theorem endAround_mismatch (bad : good = false) (recheck : r.step = .recheck) (reaches : reach = true) :
    (endAround a r good reach p).media.chkMismatch = satAdd 16 p.media.chkMismatch 1 := by
  have ended : Serves (fun m => m) (mismatchRead r p) (failReader r (mismatchRead r p)) := (replied_failReader ..).serves
  unfold endAround
  rw [if_neg (by simp [bad]), if_pos ⟨decide_eq_true recheck, reaches⟩]
  exact (congrArg Media.chkMismatch ended.same :)

/-- A failed rebuild is counted, and the unit that a command waits for poisoned. -/
theorem endAround_lost (bad : good = false) (lost : r.step = .recheck → reach = false) :
    (endAround a r good reach p).media.rebuildFailed = satAdd 16 p.media.rebuildFailed 1 ∧
    ∀ k w, r.for_ = .cmd k → p.unitAt r.place = some w → (endAround a r good reach p).entry (w / 2 ^ 40) (w % 2 ^ 40) = some .poisoned := by
  have failed : Serves Media.rebuildFailed _ (loseRead r (countFailed p)) := (serves_loseRead r (countFailed p)).of Media.rebuildFailed
  have unmatched : ¬ (decide (r.step = .recheck) = true ∧ reach = true) := by
    rintro ⟨recheck, reaches⟩
    exact absurd (lost (of_decide_eq_true recheck)) (by simp [reaches])
  unfold endAround
  rw [if_neg (by simp [bad]), if_neg unmatched, rebuildFails_eq]
  exact ⟨failed.same, fun k w for_ unit => entry_loseRead for_ unit⟩

end

/-- The state of the read that is going around, after it. -/
def State.aroundEnd (s : State) (r : PageReq) (ok : Bool) : State :=
  endAround r.place r (s.goodRead r.place r ok) (s.reaches r.place) (afterParts r.place r (s.goodRead r.place r ok) s)

section
variable {ok : Bool} {r : PageReq} {s : State}

/-- What the end of a read-around charges, reports and counts. -/
theorem readAroundComplete_found (found : s.media.reads.find? (fun x =>
      decide (x.place = r.place) && s.wanted x && (decide (x.step ≠ .queued) || decide (s.serveReq x = .around))) = some r)
    (ready : s.partsWait r.place r.cls r.wbHighPct = false) :
    exec (.readAroundComplete r.place ok) s = .next (settleMedia (s.aroundEnd r ok)) ∧ s.served (s.aroundEnd r ok) ∧
      (s.aroundEnd r ok).acct = (account (s.readContext r) (countParts r.place r s) s).acct ∧
      (s.aroundEnd r ok).media.readsAround = satAdd 32 s.media.readsAround 1 ∧
      ∃ susp ≤ 2, (s.aroundEnd r ok).media.report = some (r.place, aroundWords r (s.goodRead r.place r ok) susp) := by
  have run : exec (.readAroundComplete r.place ok) s = .next (readAround r.place ok s) := rfl
  have ends : Serves Media.butAround (afterParts r.place r (s.goodRead r.place r ok) s) (s.aroundEnd r ok) := serves_endAround
  have counted : Serves Media.readsAround _ _ := ends.of Media.readsAround
  have reported : Serves Media.report _ _ := ends.of Media.report
  refine ⟨run.trans (congrArg Host.Outcome.next (readAround_found found ready)), ?_, ?_, ?_, ?_⟩
  · exact (afterParts_work ..).served ends
  · exact ends.acct.trans (afterParts_acct ..)
  · exact counted.same.trans (afterParts_readsAround ..)
  · exact ⟨_, readParts_code_le .., reported.same.trans (afterParts_report ..)⟩

/-- The counts of read-arounds stand as they were when a member goes on. -/
theorem afterParts_counts (good : Bool) : (afterParts r.place r good s).media.rebuildFailed = s.media.rebuildFailed ∧
    (afterParts r.place r good s).media.chkRepaired = s.media.chkRepaired ∧ (afterParts r.place r good s).media.chkMismatch = s.media.chkMismatch := by
  obtain ⟨failed, counts⟩ := Prod.mk.inj (afterParts_rebuildCounts r.place r good s)
  exact ⟨failed, Prod.mk.inj counts⟩

theorem readAround_delivers (good : s.goodRead r.place r ok = true) : s.got (s.aroundEnd r ok) r true ∧
    (s.aroundEnd r ok).media.rebuildFailed = s.media.rebuildFailed ∧
    (r.step = .recheck → (s.aroundEnd r ok).media.chkRepaired = satAdd 16 s.media.chkRepaired 1) := by
  obtain ⟨failed, repaired, -⟩ := afterParts_counts (r := r) (s := s) (s.goodRead r.place r ok)
  obtain ⟨got, kept, counted⟩ := endAround_rebuilt (a := r.place) (r := r) (reach := s.reaches r.place)
    (p := afterParts r.place r (s.goodRead r.place r ok) s) good
  rw [failed] at kept
  rw [repaired] at counted
  exact ⟨got_of_same (afterParts_cmds ..) (afterParts_searches ..) got, kept, counted⟩

theorem readAround_mismatch (bad : s.goodRead r.place r ok = false) (recheck : r.step = .recheck) (reaches : s.reaches r.place = true) :
    (s.aroundEnd r ok).media.chkMismatch = satAdd 16 s.media.chkMismatch 1 := by
  obtain ⟨-, -, mismatch⟩ := afterParts_counts (r := r) (s := s) (s.goodRead r.place r ok)
  rw [← mismatch]
  exact endAround_mismatch bad recheck reaches

theorem readAround_loses (bad : s.goodRead r.place r ok = false) (lost : r.step = .recheck → s.reaches r.place = false) :
    (s.aroundEnd r ok).media.rebuildFailed = satAdd 16 s.media.rebuildFailed 1 ∧
    ∀ k w, r.for_ = .cmd k → s.unitAt r.place = some w → (s.aroundEnd r ok).entry (w / 2 ^ 40) (w % 2 ^ 40) = some .poisoned := by
  obtain ⟨failed, -, -⟩ := afterParts_counts (r := r) (s := s) (s.goodRead r.place r ok)
  obtain ⟨count, poisoned⟩ := endAround_lost (a := r.place) (r := r) (reach := s.reaches r.place)
    (p := afterParts r.place r (s.goodRead r.place r ok) s) bad lost
  rw [failed] at count
  exact ⟨count, fun k w for_ unit => poisoned k w for_ ((afterParts_unitAt ..).trans unit)⟩

end

end Sys2Proof.Machine
end

section
/-!
PROOFS. Operations resumed, the journal's timeout, checkpoints and garbage collection (R168, R194, R196, R199).
-/

namespace Sys2Proof.Machine

open Sys2Proof

theorem MediaWork.ofSearches {s u : State} (h : MediaWork s u) : s.served u := h.served (Serves.refl (view := fun m => m) u)
theorem MediaOnly.served {s u : State} (h : MediaOnly s u) : s.served u := h.mediaWork.ofSearches

/- Suspended operations (R168) -/

theorem suspendResume_idle {d : Nat} {s : State} (idle : s.readQueued d = false) : exec (.suspendResume d) s = .next (match (s.die d).op with
    | .programSuspended => modDie d (fun x => { x with op := .program }) s
    | .eraseSuspended => modDie d (fun x => { x with op := .erase }) s
    | _ => s) :=
  congrArg Host.Outcome.next (if_neg (by rw [idle]; exact Bool.false_ne_true))

section
variable {d : Nat} {s : State} (inside : d < s.part.dies) (idle : s.readQueued d = false)
include inside idle

theorem suspendResume_program (op : (s.die d).op = .programSuspended) : exec (.suspendResume d) s =
    .next { s with media := { s.media with dies := kvSet d { s.die d with op := .program } s.media.dies } } := by
  rw [suspendResume_idle idle, op]
  exact congrArg Host.Outcome.next (modDie_inside inside _)

theorem suspendResume_erase (op : (s.die d).op = .eraseSuspended) : exec (.suspendResume d) s =
    .next { s with media := { s.media with dies := kvSet d { s.die d with op := .erase } s.media.dies } } := by
  rw [suspendResume_idle idle, op]
  exact congrArg Host.Outcome.next (modDie_inside inside _)

end

/- Bands that open (R188, R194) -/

/-- The media but for what a band that opens changes. -/
def Media.butOpened (m : Media) : Media := { m with bands := [], journal := [], journalAt := 0, bandSeq := 0 }

theorem keeps_openBand (k : Nat) (kind : StripeKind) (s : State) : Keeps Media.butOpened s (openBand k kind s) := by
  unfold openBand
  have changed := (keeps_modBand k (fun b => { b with
    kind := kind, seq := s.media.bandSeq + 1, sieves := s.rowSieves (k / 2800), filled := 0, progAt := [] }) s).of Media.butOpened
  exact (changed.trans (keeps_modMedia (by intro; rfl) _)).trans ((keeps_setBand k .opened _).of Media.butOpened)

/-- The band of the next journal stripe stands open, or is opened. -/
theorem keeps_journalBand {s v : State} {j : Nat} (h : journalBand s = some (j, v)) : Keeps Media.butOpened s v := by
  unfold journalBand at h
  split at h
  · obtain ⟨-, rfl⟩ := Prod.mk.inj (Option.some.inj h)
    exact Keeps.refl s
  · obtain ⟨k, -, opened⟩ := Option.map_eq_some_iff.1 h
    obtain ⟨-, rfl⟩ := Prod.mk.inj opened
    exact keeps_openBand ..

/- The journal stripe (R194) -/

theorem ceilDiv_covers (n : Nat) : n ≤ 4096 * ceilDiv n 4096 := by
  unfold ceilDiv
  omega

/-- The members of a journal stripe hold its entries. -/
theorem journalItems_entries (first : Nat) (es : List JEntry) :
    ((journalItems first es).flatMap fun x => match x.body with
      | .journal es => es
      | _ => []) = es := by
  have parts : ∀ n : Nat, (List.range n).flatMap (fun i => (es.drop (4096 * i)).take 4096) = es.take (4096 * n) := by
    intro n
    induction n with
    | zero => simp
    | succ n ih => rw [List.range_succ, List.flatMap_append, ih, List.flatMap_singleton, Nat.mul_succ, List.take_add]
  unfold journalItems
  rw [List.flatMap_map]
  exact (parts _).trans (List.take_of_length_le (ceilDiv_covers _))

/-- The word line of the journal stripe that begins in a band. -/
def stripeLine (j : Nat) (v : State) : WordLine :=
  ⟨j, (v.band j).filled, .journal, [], [], journalItems v.media.journalSeq (v.media.journal.reverse.take (v.journalRoom j)), []⟩
def beginStripe (j : Nat) (v : State) : State :=
  modMedia (fun m => { m with
    journal := m.journal.take (m.journal.length - (v.media.journal.reverse.take (v.journalRoom j)).length)
    lines := m.lines ++ [stripeLine j v] }) v

theorem beginJournal_band {s v : State} {j : Nat} (entries : s.media.journal ≠ []) (free : s.journalLine = none) (band : journalBand s = some (j, v)) :
    beginJournal s = beginStripe j v := by
  unfold beginJournal
  rw [if_neg (by simp [entries, free]), band]
  rfl

theorem stripeLine_entries (j : Nat) (v : State) : (stripeLine j v).entries = v.media.journal.reverse.take (v.journalRoom j) := journalItems_entries ..

theorem beginStripe_journal (j : Nat) (v : State) :
    (beginStripe j v).media.journal.reverse = v.media.journal.reverse.drop (v.journalRoom j) := by
  show (v.media.journal.take (v.media.journal.length - (v.media.journal.reverse.take (v.journalRoom j)).length)).reverse = _
  rw [List.reverse_take, List.length_take, List.length_reverse]
  rcases Nat.le_total (v.journalRoom j) v.media.journal.length with fits | short
  · rw [Nat.min_eq_left fits, Nat.sub_sub_self fits]
  · rw [Nat.min_eq_right short, Nat.sub_self, Nat.sub_zero, List.drop_of_length_le (by simp), List.drop_of_length_le (by simpa)]

theorem journalStripeTimeout_due {s v : State} {j : Nat} (entries : s.media.journal ≠ []) (due : s.media.journalAt + 25000 ≤ s.now)
    (free : s.journalLine = none) (band : journalBand s = some (j, v)) : exec .journalStripeTimeout s = .next (settleMedia (beginStripe j v)) :=
  congrArg Host.Outcome.next ((if_pos ⟨entries, decide_eq_true due⟩).trans (congrArg settleMedia (beginJournal_band entries free band)))

theorem beginStripe_served {s v : State} {j : Nat} (band : journalBand s = some (j, v)) : s.served (beginStripe j v) :=
  ((keeps_journalBand band).frame.trans (mediaOnly_modMedia (fun _ => (beginStripe j v).media) v)).served

theorem beginStripe_line (j : Nat) (v : State) : stripeLine j v ∈ (beginStripe j v).media.lines := List.mem_append_right _ List.mem_cons_self

/- Checkpoints (R196) -/

/-- The dirty segments of the map. -/
def State.dirtySegments (s : State) : List Nat :=
  ((s.media.segments.filter (·.dirty)).map (·.num) ++ s.media.delta.map segmentOf).eraseDups
/-- The entries in the journal stripe being programmed. -/
def State.stripeEntries (s : State) : Nat :=
  match s.journalLine with
  | some l => l.entries.length
  | none => 0

/-- A checkpoint begun, with the dirty segments that it is to write and the first journal entry after it. -/
def Media.checkpointFrom (at_ : Nat) (dirty : List Nat) (place : Option MediaAddr) (first : Nat) (m : Media) : Media :=
  { m with checkpointAt := at_, check := some ⟨dirty, 0, [], [], false, m.directory, none, place, first⟩ }

theorem beginCheckpoint_begins (s : State) : ∃ v place, Keeps Media.butOpened s v ∧
    beginCheckpoint s = modMedia (Media.checkpointFrom s.now s.dirtySegments place (s.media.journalSeq + s.stripeEntries)) v := by
  unfold beginCheckpoint State.stripeEntries
  cases line : s.journalLine with
  | some l => exact ⟨s, _, Keeps.refl s, rfl⟩
  | none =>
    cases band : journalBand s with
    | none => exact ⟨s, _, Keeps.refl s, rfl⟩
    | some found =>
      obtain ⟨k, v⟩ := found
      have seq : Keeps Media.journalSeq s v := (keeps_journalBand band).of Media.journalSeq
      refine ⟨v, (v.nextPlaces k).head?, keeps_journalBand band, ?_⟩
      rw [← seq.same]
      rfl

theorem beginCheckpoint_served (s : State) : s.served (beginCheckpoint s) := by
  obtain ⟨v, place, kept, begins⟩ := beginCheckpoint_begins s
  rw [begins]
  exact (kept.frame.trans (mediaOnly_modMedia (Media.checkpointFrom s.now s.dirtySegments place (s.media.journalSeq + s.stripeEntries)) v)).served

/-- The checkpoint under way. -/
theorem beginCheckpoint_check (s : State) : (beginCheckpoint s).media.checkpointAt = s.now ∧ ∃ place,
    (beginCheckpoint s).media.check =
      some ⟨s.dirtySegments, 0, [], [], false, s.media.directory, none, place, s.media.journalSeq + s.stripeEntries⟩ := by
  obtain ⟨v, place, kept, begins⟩ := beginCheckpoint_begins s
  have directory : Keeps Media.directory s v := kept.of Media.directory
  rw [begins, ← directory.same]
  exact ⟨rfl, place, rfl⟩

theorem mem_dirtySegments {s : State} {n : Nat} :
    n ∈ s.dirtySegments ↔ (∃ g ∈ s.media.segments, g.dirty = true ∧ g.num = n) ∨ ∃ x ∈ s.media.delta, segmentOf x = n := by
  simp only [State.dirtySegments, List.mem_eraseDups, List.mem_append, List.mem_map, List.mem_filter, and_assoc]

theorem mapCheckpoint_due {s : State} (due : s.media.checkpointAt + 60 * 25000000 ≤ s.now ∨ 67108864 ≤ s.media.journaled)
    (quiet : s.pressure = false) (idle : s.media.check = none) : exec .mapCheckpoint s = .next (settleMedia (beginCheckpoint s)) :=
  congrArg Host.Outcome.next (if_pos ⟨due.imp_left decide_eq_true, by simp [quiet], by simp [idle]⟩)

/-- The checkpoint recorded as complete. -/
def Media.checkpointed (c : Checkpoint) (m : Media) : Media := { m with
  check := none, delta := [], checkpointSeq := m.checkpointSeq + 1, journaled := m.journalSeq - c.headSeq, directory := c.places, dirPlace := c.dirAt
  headPlace := c.head, headSeq := c.headSeq }

theorem keeps_reuseJournal (s : State) : Keeps Media.butBands s (reuseJournal s) :=
  Keeps.foldl (fun u (b : Nat × Band) => keeps_setBand b.1 .relocating u) _ s

theorem stepCheckpoint_ends {c : Checkpoint} {s : State} (check : s.media.check = some c) (rest : c.rest = []) (items : c.items = [])
    (dir : c.dir = true) (idle : ∀ l ∈ s.media.lines, l.kind = .copy → l.items = []) : stepCheckpoint s = endCheckpoint c s := by
  have none_ : ¬ (s.media.lines.any fun l => decide (l.kind = .copy) && decide (l.items ≠ [])) = true := by
    simpa using idle
  unfold stepCheckpoint
  rw [check]
  dsimp only
  rw [if_neg none_, if_neg (not_not.2 items), if_pos ⟨dir, rest⟩]

/-- A root set stands in a bank, with what the module is then. -/
theorem writeRoot_bank {m : Media} (there : (m.bankSieve (if (m.rootSeq + 1) % 2 = 0 then 0 else 8)).isSome = true) :
    ∃ b, ((Media.writeRoot false m).bankA = some b ∨ (Media.writeRoot false m).bankB = some b) ∧ b.seq = m.rootSeq + 1 ∧
      b.checkpoint = m.checkpointSeq ∧ b.dir = m.dirPlace ∧ b.head = m.headPlace ∧ b.headSeq = m.headSeq := by
  obtain ⟨v, found⟩ := Option.isSome_iff_exists.1 there
  unfold Media.writeRoot
  by_cases even : (m.rootSeq + 1) % 2 = 0
  · rw [if_pos even] at found
    simp only [even, decide_true, if_true, found]
    exact ⟨_, .inl rfl, rfl, rfl, rfl, rfl, rfl⟩
  · rw [if_neg even] at found
    simp only [even, decide_false, Bool.false_eq_true, if_false, found]
    exact ⟨_, .inr rfl, rfl, rfl, rfl, rfl, rfl⟩

/-- The media's banks, and the number of the last root set. -/
def Media.banks (m : Media) : Nat × Option RootSet × Option RootSet := (m.rootSeq, m.bankA, m.bankB)
/-- What a checkpoint that ends records. -/
def Media.checkpointState (m : Media) : Option Checkpoint × Nat × Nat × KV MediaAddr × Nat :=
  (m.check, m.checkpointSeq, m.headSeq, m.directory, m.journaled)

section
variable (c : Checkpoint) (s : State)

theorem endCheckpoint_view : (endCheckpoint c s).media.checkpointState = (s.media.checkpointed c).checkpointState := by
  have reused : Keeps Media.checkpointState _ (endCheckpoint c s) :=
    (keeps_reuseJournal (writeRoot (modMedia (Media.checkpointed c) s))).of Media.checkpointState
  have written : Keeps Media.checkpointState _ (writeRoot (modMedia (Media.checkpointed c) s)) := (keeps_writeRoot _).of Media.checkpointState
  exact reused.same.trans written.same

theorem endCheckpoint_state : (endCheckpoint c s).media.check = none ∧ (endCheckpoint c s).media.checkpointSeq = s.media.checkpointSeq + 1 ∧
    (endCheckpoint c s).media.headSeq = c.headSeq ∧ (endCheckpoint c s).media.directory = c.places ∧
    (endCheckpoint c s).media.journaled = s.media.journalSeq - c.headSeq := by
  obtain ⟨check, view⟩ := Prod.mk.inj (endCheckpoint_view c s)
  obtain ⟨seq, view⟩ := Prod.mk.inj view
  obtain ⟨head, view⟩ := Prod.mk.inj view
  exact ⟨check, seq, head, Prod.mk.inj view⟩

theorem endCheckpoint_banks : (endCheckpoint c s).media.banks = (Media.writeRoot false (s.media.checkpointed c)).banks := by
  have reused : Keeps Media.banks _ (endCheckpoint c s) := (keeps_reuseJournal (writeRoot (modMedia (Media.checkpointed c) s))).of Media.banks
  exact reused.same

theorem endCheckpoint_rootSeq : (endCheckpoint c s).media.rootSeq = s.media.rootSeq + 1 :=
  (congrArg Prod.fst (endCheckpoint_banks c s) :).trans
    (congrArg (fun u : State => u.media.rootSeq) (writeRoot_rootsWritten (modMedia (Media.checkpointed c) s)) :)

theorem endCheckpoint_bank (there : (s.media.bankSieve (if (s.media.rootSeq + 1) % 2 = 0 then 0 else 8)).isSome = true) :
    ∃ b, ((endCheckpoint c s).media.bankA = some b ∨ (endCheckpoint c s).media.bankB = some b) ∧ b.seq = s.media.rootSeq + 1 ∧
      b.checkpoint = s.media.checkpointSeq + 1 ∧ b.dir = c.dirAt ∧ b.head = c.head ∧ b.headSeq = c.headSeq := by
  have banks := endCheckpoint_banks c s
  obtain ⟨b, stands, facts⟩ := writeRoot_bank (m := s.media.checkpointed c) there
  have bankA : (endCheckpoint c s).media.bankA = _ := congrArg (·.2.1) banks
  have bankB : (endCheckpoint c s).media.bankB = _ := congrArg (·.2.2) banks
  exact ⟨b, stands.imp bankA.trans bankB.trans, facts⟩

end

/- Garbage collection (R199) -/

theorem garbageCollection_takes {k : Nat} {s : State} (runs : s.mediaPaused = false) (victim : s.victim = some k) :
    exec .garbageCollection s = .next (settleMedia (takeVictim k s)) := by
  refine congrArg Host.Outcome.next ((if_neg (by simp [runs])).trans ?_)
  rw [victim]

/-- A unit that lives at a place is there. -/
theorem unitAt_isSome {s : State} {y : Nat × MediaAddr} (lives : y ∈ s.liveUnits) : (s.unitAt y.2).isSome = true := by
  unfold State.unitAt
  rw [Option.isSome_map, List.find?_isSome]
  exact ⟨y, lives, decide_eq_true rfl⟩

theorem copied_copyOut {a : MediaAddr} {units : List (Nat × MediaAddr)} {s : State} (h : s.copied a) : (copyOut units s).copied a :=
  List.foldlRecOn _ _ (motive := fun u : State => u.copied a) h fun _ so _ _ => copied_relocate so

/-- What the units of a copy are found by. -/
def Media.units (m : Media) : KV MapEntry × KV Slot := (m.map, m.slots)

theorem Keeps.unitAt {s t : State} (h : Keeps Media.units s t) (a : MediaAddr) : t.unitAt a = s.unitAt a :=
  unitAt_congr (congrArg Prod.fst h.same :) (congrArg Prod.snd h.same :) a

/-- Each unit copied out of a band is being copied. -/
theorem copyOut_copied {y : Nat × MediaAddr} {units : List (Nat × MediaAddr)} {s : State} (mem : y ∈ units) (unit : (s.unitAt y.2).isSome = true) :
    (copyOut units s).copied y.2 := by
  induction units generalizing s with
  | nil => exact absurd mem List.not_mem_nil
  | cons z units ih =>
    rcases List.mem_cons.1 mem with rfl | later
    · exact copied_copyOut (s := relocate false y.2 s) (relocate_copied unit)
    · have kept : Keeps Media.units s (relocate false z.2 s) := (keeps_relocate ..).of Media.units
      exact ih later ((congrArg Option.isSome (kept.unitAt y.2)).trans unit)

theorem takeVictim_copied {k : Nat} {s : State} {y : Nat × MediaAddr} (lives : y ∈ s.liveIn k) : (takeVictim k s).copied y.2 := by
  have begun : Keeps Media.units s (beginVictim k s) := (keeps_beginVictim k s).of Media.units
  rw [takeVictim_eq]
  exact copyOut_copied lives ((congrArg Option.isSome (begun.unitAt y.2)).trans (unitAt_isSome (List.mem_filter.1 lives).1))

theorem takeVictim_band (k : Nat) (s : State) : ((takeVictim k s).band k).state = .relocating := by
  have kept : Keeps Media.bands _ (takeVictim k s) := (keeps_copyOut (s.liveIn k) (beginVictim k s)).of Media.bands
  rw [band_congr kept.same, beginVictim, band_setBand_same]

end Sys2Proof.Machine
end

section
/-!
PROOFS. The tilling pass (R212, R213).
-/

namespace Sys2Proof.Machine

open Sys2Proof

/-- The pages read for the tilling pass. -/
def State.tillRead (s : State) (a : MediaAddr) (found : List PageResult) : PageReq :=
  ⟨a, .housekeeping, .tilling, 0xFFFF, s.media.wbHighPct, s.media.retryMax, s.media.corrHigh, .rebuild, found⟩
/-- What the pass does with the states of a member's pages. -/
def actOn (r : PageReq) (closed : Bool) (got : List PageResult) (s : State) : State :=
  let st := got.map (PageResult.state r.corrHigh)
  if (st.contains 4 || (closed && st.any fun x => decide (x = 2) || decide (x = 3))) = true then
    modMedia (fun m => { m with reads := m.reads ++ [{ r with found := got }] }) s
  else if st.contains 1 = true then bumpErr 9 1 (bumpErr 8 1 (relocate true r.place s))
  else s
/-- The word line of a place has been programmed. -/
def State.lineFull (s : State) (a : MediaAddr) : Bool := decide (a.page / (s.band a.bandKey).kind.lineStripes < (s.band a.bandKey).filled)

/-- What a read of the pass leaves to the settling of the media. -/
def tillState (a : MediaAddr) (op : Option DieOp) (d : Nat) (res : List PageResult) (s : State) : State :=
  actOn (s.tillRead a res) (s.lineFull a) (res.map (PageResult.within s.media.retryMax))
    (readPages d op (s.tillRead a res) (res.map (PageResult.within s.media.retryMax)) s)

theorem tilling_direct {a : MediaAddr} {res : List PageResult} {d : Nat} {op : Option DieOp} {s : State} (quiet : s.pressure = false)
    (due : s.tillDue a = true) (at_ : s.dieAt a = some d) (serve : s.serve a .housekeeping s.media.wbHighPct = .direct op) (idle : s.turn d = none)
    (reports : (s.tillRead a res).reports res = true) : tilling a res s = settleMedia (tilledPlace a (tillState a op d res s)) := by
  unfold State.tillRead at reports
  unfold tilling
  rw [if_neg (by simp [quiet, due])]
  simp only [at_, serve]
  rw [if_neg (by simp [idle, reports])]
  rfl

theorem tilling_around {a : MediaAddr} {res : List PageResult} {s : State} (quiet : s.pressure = false) (due : s.tillDue a = true)
    (serve : s.serve a .housekeeping s.media.wbHighPct = .around) :
    tilling a res s = tilledPlace a (report a (pageWords (unread 0xFFFF) 0 false fun _ => 7) s) := by
  unfold tilling
  rw [if_neg (by simp [quiet, due])]
  simp only [serve]

/- The pass (R212) -/

/-- The count of passes, and the places that the pass has read. -/
def Media.passCounts (m : Media) : List Nat × Nat := (m.tilled, m.health.tillPasses)
/-- The media but for the pass. -/
def Media.butPass (m : Media) : Media := { m with tilled := [], tillLast := 0, tillStart := 0, health := Health.shipped }

section
variable (a : MediaAddr) (s : State)

/-- A place has been read; the next pass begins. -/
def readPlace (a : MediaAddr) (s : State) : State := modMedia (fun m => { m with tilled := a.num :: m.tilled, tillLast := s.now }) s
def nextPass (s : State) : State :=
  modHealth (fun h => { h with tillPasses := satAdd 32 h.tillPasses 1 }) (modMedia (fun m => { m with tilled := [], tillStart := s.now }) s)

theorem tilledPlace_eq : tilledPlace a s =
    if ((readPlace a s).tillPlaces.all fun b => (readPlace a s).media.tilled.contains b.num) = true then nextPass (readPlace a s) else readPlace a s := rfl

theorem keeps_readPlace : Keeps Media.butPass s (readPlace a s) := ⟨rfl, rfl⟩
theorem keeps_nextPass : Keeps Media.butPass s (nextPass s) := by
  have begun : Keeps Media.butPass s (modMedia (fun m => { m with tilled := [], tillStart := s.now }) s) := keeps_modMedia (by intro; rfl) s
  have counted : ∀ u : State, Keeps Media.butPass u (modHealth (fun h => { h with tillPasses := satAdd 32 h.tillPasses 1 }) u) := fun u => ⟨rfl, rfl⟩
  exact begun.trans (counted _)

theorem keeps_tilledPlace : Keeps Media.butPass s (tilledPlace a s) := by
  rw [tilledPlace_eq]
  exact Keeps.ite ((keeps_readPlace a s).trans (keeps_nextPass _)) (keeps_readPlace a s)

theorem tilledPlace_last : (tilledPlace a s).media.tillLast = s.now := by
  rw [tilledPlace_eq]
  split <;> rfl

end

/-- What the places of the pass are found by. -/
def Media.tillView (m : Media) : KV MapEntry × KV MediaAddr × KV Band × List RootSet × List Sieve :=
  (m.map, m.directory, m.bands, m.rootsLeft, m.sieves)

theorem tillPlaces_congr {s t : State} (same : t.media.tillView = s.media.tillView) : t.tillPlaces = s.tillPlaces := by
  obtain ⟨map, same⟩ := Prod.mk.inj same
  obtain ⟨directory, same⟩ := Prod.mk.inj same
  obtain ⟨bands, same⟩ := Prod.mk.inj same
  obtain ⟨roots, sieves⟩ := Prod.mk.inj same
  unfold State.tillPlaces State.rootPlaces State.segmentPlaces State.sieve State.band
  rw [map, directory, bands, roots, sieves]

/-- The pass after a place: it is complete with its last one, and goes on with another. -/
theorem tilledPlace_passes {a : MediaAddr} {s : State} :
    ((∀ b ∈ s.tillPlaces, b.num = a.num ∨ b.num ∈ s.media.tilled) →
      (tilledPlace a s).media.tilled = [] ∧ (tilledPlace a s).media.health.tillPasses = satAdd 32 s.media.health.tillPasses 1) ∧
    ((∃ b ∈ s.tillPlaces, b.num ≠ a.num ∧ b.num ∉ s.media.tilled) →
      (tilledPlace a s).media.tilled = a.num :: s.media.tilled ∧ (tilledPlace a s).media.health.tillPasses = s.media.health.tillPasses) := by
  have places : (readPlace a s).tillPlaces = s.tillPlaces := tillPlaces_congr rfl
  have all : ((readPlace a s).tillPlaces.all fun b => (readPlace a s).media.tilled.contains b.num) = true ↔
      ∀ b ∈ s.tillPlaces, b.num = a.num ∨ b.num ∈ s.media.tilled := by
    rw [places]
    simp [readPlace]
  rw [tilledPlace_eq]
  refine ⟨fun read => ?_, fun ⟨b, mem, other, left⟩ => ?_⟩
  · rw [if_pos (all.2 read)]
    exact ⟨rfl, rfl⟩
  · rw [if_neg fun h => (all.1 h b mem).elim other left]
    exact ⟨rfl, rfl⟩

/- The pages that the pass reads (R213) -/

theorem keeps_bumpErr_pass (i n : Nat) (s : State) : Keeps Media.passCounts s (bumpErr i n s) := ⟨rfl, rfl⟩

theorem keeps_countRead_pass (x : PageResult) (st : Nat) (s : State) : Keeps Media.passCounts s (countRead x st s) := by
  have counted : Keeps Media.passCounts s (modMedia (fun m => { m with
      retried := satAdd 16 m.retried (b2n (decide (0 < x.retry)))
      soft := satAdd 16 m.soft (b2n x.soft)
      uncorrectable := satAdd 16 m.uncorrectable (b2n (decide (st = 4))) }) s) := keeps_modMedia (by intro; rfl) s
  exact (((counted.trans (keeps_bumpErr_pass 0 _ _)).trans (keeps_bumpErr_pass 1 _ _)).trans (keeps_bumpErr_pass 2 _ _)).trans (keeps_bumpErr_pass 14 _ _)

theorem keeps_countPages_pass (st : PageResult → Nat) (got : List PageResult) (s : State) : Keeps Media.passCounts s (countPages st got s) :=
  Keeps.foldl (fun u x => keeps_countRead_pass x (st x) u) got s

section
variable (d : Nat) (op : Option DieOp) (r : PageReq) (got : List PageResult) (s : State)

theorem passCounts_readPages : (readPages d op r got s).media.passCounts = s.media.passCounts := by
  have marked : Keeps Media.passCounts _ (markBad d r.place got (account ((reportPages d op r got s).readContext r)
    (fun c => { c with reads := c.reads + got.length }) (reportPages d op r got s))) := (keeps_markBad ..).of Media.passCounts
  have charged : Works Media.passCounts (reportPages d op r got s) _ := works_account ((reportPages d op r got s).readContext r)
    (fun c => { c with reads := c.reads + got.length }) _
  have reported : Keeps Media.passCounts _ (reportPages d op r got s) := (keeps_report ..).of Media.passCounts
  have suspended : Keeps Media.passCounts s (suspend d op s) := (keeps_suspend d op s).of Media.passCounts
  have counted := keeps_countPages_pass (PageResult.state r.corrHigh) got (suspend d op s)
  exact (marked.same.trans charged.same).trans ((suspended.trans counted).trans reported).same

variable {r got s}

theorem markBad_old {a : MediaAddr} (old : (∃ x ∈ got, x.soft = true) → s.young a = false) : markBad d a got s = s := by
  refine List.foldlRecOn got _ (motive := fun u => u = s) rfl fun u so x mem => ?_
  subst so
  refine if_neg fun ⟨soft, young⟩ => ?_
  rw [old ⟨x, mem, soft⟩] at young
  exact Bool.noConfusion young

theorem young_congr {t : State} (bands : t.media.bands = s.media.bands) (now : t.now = s.now) (a : MediaAddr) : t.young a = s.young a := by
  unfold State.young State.since
  rw [band_congr bands, now]

/-- A read that finds no block bad leaves the places of the pass. -/
theorem tillView_readPages (old : (∃ x ∈ got, x.soft = true) → s.young r.place = false) :
    (readPages d op r got s).media.tillView = s.media.tillView := by
  have reported : Keeps Media.tillView s (reportPages d op r got s) := by
    have suspended : Keeps Media.tillView s (suspend d op s) := (keeps_suspend d op s).of Media.tillView
    have counted : Keeps Media.tillView _ (countPages (PageResult.state r.corrHigh) got (suspend d op s)) := (keeps_countPages ..).of Media.tillView
    have worded : Keeps Media.tillView _ (reportPages d op r got s) := (keeps_report ..).of Media.tillView
    exact (suspended.trans counted).trans worded
  have charged : Works Media.tillView (reportPages d op r got s) _ := works_account ((reportPages d op r got s).readContext r)
    (fun c => { c with reads := c.reads + got.length }) _
  have work := reported.works.trans charged
  rw [readPages_eq, markBad_old]
  · exact work.same
  · intro soft
    rw [young_congr (congrArg (·.2.2.1) work.same :) (congrArg (fun u : State => u.now) work.work :)]
    exact old soft

end

section
variable {r : PageReq} {closed : Bool} {got : List PageResult} {s : State}

/-- The media but for what the pass changes when it acts on pages. -/
theorem keeps_actOn : Keeps Media.butDelivery s (actOn r closed got s) := by
  have copied := (keeps_relocate true r.place s).of Media.butDelivery
  have counted : ∀ (i : Nat) (u : State), Keeps Media.butDelivery u (bumpErr i 1 u) := fun i u => (keeps_bumpErr i 1 u).of Media.butDelivery
  unfold actOn
  exact Keeps.ite (keeps_modMedia (by intro; rfl) s) (Keeps.ite ((copied.trans (counted 8 _)).trans (counted 9 _)) (Keeps.refl s))

theorem keeps_actOn_pass : Keeps Media.passCounts s (actOn r closed got s) := by
  have copied : Keeps Media.passCounts s (relocate true r.place s) := (keeps_relocate ..).of Media.passCounts
  unfold actOn
  exact Keeps.ite (keeps_modMedia (by intro; rfl) s)
    (Keeps.ite ((copied.trans (keeps_bumpErr_pass 8 1 _)).trans (keeps_bumpErr_pass 9 1 _)) (Keeps.refl s))

theorem copied_bumpErr {i n : Nat} {a : MediaAddr} (h : s.copied a) : (bumpErr i n s).copied a := h

/-- A member that decodes with a page CORRECTED_HIGH is copied elsewhere. -/
theorem actOn_copies (decodes : ∀ x ∈ got, PageResult.state r.corrHigh x ≤ 1) (high : ∃ x ∈ got, PageResult.state r.corrHigh x = 1)
    (unit : (s.unitAt r.place).isSome = true) : (actOn r closed got s).copied r.place := by
  have whole : ¬ ((got.map (PageResult.state r.corrHigh)).contains 4 || (closed && (got.map (PageResult.state r.corrHigh)).any fun x =>
      decide (x = 2) || decide (x = 3))) = true := by
    simp only [Bool.or_eq_true, Bool.and_eq_true, states_contains, List.any_map, List.any_eq_true, Function.comp_apply, decide_eq_true_eq]
    rintro (⟨x, mem, state⟩ | ⟨-, x, mem, state⟩)
    · exact absurd (decodes x mem) (by omega)
    · exact absurd (decodes x mem) (by omega)
  unfold actOn
  dsimp only
  rw [if_neg whole, if_pos ((states_contains 1).2 high)]
  exact copied_bumpErr (copied_bumpErr (relocate_copied unit))

/-- A member that does not decode waits for its read-around. -/
theorem actOn_rebuilds (fails : ∃ x ∈ got, PageResult.state r.corrHigh x = 4) : { r with found := got } ∈ (actOn r closed got s).media.reads := by
  unfold actOn
  dsimp only
  rw [if_pos (Bool.or_eq_true_iff.2 (.inl ((states_contains 4).2 fails)))]
  exact List.mem_append_right _ List.mem_cons_self

end

/- A read of the pass -/

section
variable (a : MediaAddr) (op : Option DieOp) (d : Nat) (res : List PageResult) (s : State)

theorem readPages_work (r : PageReq) (got : List PageResult) : MediaWork s (readPages d op r got s) :=
  (mediaWork_account ..).trans (MediaOnly.mediaWork (readPages_frame d op r got s))

theorem tillState_work : MediaWork s (tilledPlace a (tillState a op d res s)) :=
  ((readPages_work ..).trans keeps_actOn.frame.mediaWork).trans (keeps_tilledPlace ..).frame.mediaWork

theorem tillState_now : (tillState a op d res s).now = s.now :=
  (congrArg (fun u : State => u.now) ((readPages_work op d s (s.tillRead a res) _).trans keeps_actOn.frame.mediaWork) :)

theorem tillState_passCounts : (tillState a op d res s).media.passCounts = s.media.passCounts :=
  keeps_actOn_pass.same.trans (passCounts_readPages ..)

variable {a res s}

theorem tillState_tillPlaces
    (old : (∃ x ∈ res.map (PageResult.within s.media.retryMax), x.soft = true) → s.young a = false) :
    (tillState a op d res s).tillPlaces = s.tillPlaces := by
  have acted : Keeps Media.tillView _ (tillState a op d res s) := keeps_actOn.of Media.tillView
  exact tillPlaces_congr (acted.same.trans (tillView_readPages (r := s.tillRead a res) d op old))

/-- The pass after a read that finds no block bad. -/
theorem tillState_passes (old : (∃ x ∈ res.map (PageResult.within s.media.retryMax), x.soft = true) → s.young a = false) :
    ((∀ b ∈ s.tillPlaces, b.num = a.num ∨ b.num ∈ s.media.tilled) → (tilledPlace a (tillState a op d res s)).media.tilled = [] ∧
      (tilledPlace a (tillState a op d res s)).media.health.tillPasses = satAdd 32 s.media.health.tillPasses 1) ∧
    ((∃ b ∈ s.tillPlaces, b.num ≠ a.num ∧ b.num ∉ s.media.tilled) →
      (tilledPlace a (tillState a op d res s)).media.tilled = a.num :: s.media.tilled ∧
      (tilledPlace a (tillState a op d res s)).media.health.tillPasses = s.media.health.tillPasses) := by
  have passes := tilledPlace_passes (a := a) (s := tillState a op d res s)
  obtain ⟨tilled, count⟩ := Prod.mk.inj (tillState_passCounts a op d res s)
  rwa [tillState_tillPlaces op d old, tilled, count] at passes

/-- A member that decodes with a page CORRECTED_HIGH is copied elsewhere. -/
theorem tillingRead_copies (decodes : ∀ x ∈ res.map (PageResult.within s.media.retryMax), PageResult.state s.media.corrHigh x ≤ 1)
    (high : ∃ x ∈ res.map (PageResult.within s.media.retryMax), PageResult.state s.media.corrHigh x = 1) (unit : (s.unitAt a).isSome = true) :
    (tilledPlace a (tillState a op d res s)).copied a := by
  have view := readPages_view d op (s.tillRead a res) (res.map (PageResult.within s.media.retryMax)) s
  have same := unitAt_congr (congrArg Media.map view :) (congrArg Media.slots view :) a
  have kept := keeps_tilledPlace a (tillState a op d res s)
  have copies : Keeps Media.copies _ _ := kept.of Media.copies
  have lines : Keeps Media.lines _ _ := kept.of Media.lines
  exact copied_congr copies.same lines.same (actOn_copies (r := s.tillRead a res) decodes high ((congrArg Option.isSome same).trans unit))

/-- A member that does not decode waits for its read-around. -/
theorem tillingRead_rebuilds (fails : ∃ x ∈ res.map (PageResult.within s.media.retryMax), PageResult.state s.media.corrHigh x = 4) :
    { s.tillRead a res with found := res.map (PageResult.within s.media.retryMax) } ∈ (tilledPlace a (tillState a op d res s)).media.reads := by
  have reads : Keeps Media.reads _ _ := (keeps_tilledPlace a (tillState a op d res s)).of Media.reads
  rw [reads.same]
  exact actOn_rebuilds (r := s.tillRead a res) fails

/-- A die that cannot be read is reported. -/
theorem tillingRead_around : MediaOnly s (tilledPlace a (report a (pageWords (unread 0xFFFF) 0 false fun _ => 7) s)) ∧
    (tilledPlace a (report a (pageWords (unread 0xFFFF) 0 false fun _ => 7) s)).media.report =
      some (a, pageWords (unread 0xFFFF) 0 false fun _ => 7) := by
  have kept := keeps_tilledPlace a (report a (pageWords (unread 0xFFFF) 0 false fun _ => 7) s)
  have reported : Keeps Media.report _ _ := kept.of Media.report
  exact ⟨(keeps_report ..).frame.trans kept.frame, reported.same⟩

end

end Sys2Proof.Machine
end

section
/-!
PROOFS. The end of an erase on a die, and of a band's (R172, R186, R202).
-/

namespace Sys2Proof.Machine

open Sys2Proof

/- Bytes cleared -/

theorem memGet_memClear {m : Mem} {a n i : Nat} (above : a ≤ i) (below : i < a + n) : memGet (memClear m a n) i = 0#8 := by
  have gone : kvGet i (memClear m a n) = none := by
    by_contra there
    obtain ⟨b, found⟩ := Option.ne_none_iff_exists'.1 there
    have kept := (List.mem_filter.1 (mem_of_kvGet found)).2
    simp [above, below] at kept
  unfold memGet
  rw [gone]
  rfl

/- Dies that serve a row -/

theorem rowDie_congr {s t : State} (part : t.part = s.part) (row : ∀ i, (t.die i).row = (s.die i).row) (role : ∀ i, (t.die i).role = (s.die i).role)
    (n v : Nat) : t.rowDie n v = s.rowDie n v := by
  unfold State.rowDie State.diesOf
  simp only [part, row, role]

theorem sieve_congr {s t : State} (sieves : t.media.sieves = s.media.sieves) (v : Nat) : t.sieve v = s.sieve v := by
  unfold State.sieve
  rw [sieves]

/- A band that has been erased -/

theorem countErase_band (k : Nat) (s : State) : (countErase k s).band k =
    { s.band k with erases := (s.band k).erases + 1, wear := (s.band k).wear + b2n (!(s.band k).kind.slc) } :=
  band_modBand_same k (fun b => { b with erases := b.erases + 1, wear := b.wear + b2n (!(s.band k).kind.slc) }) s

/-- What a band that is erased leaves after its members are gone. -/
theorem keeps_bandErased_counted (k : Nat) (s : State) : Keeps Media.butBands (countErase k s) (bandErased k s) := by
  rw [bandErased_eq]
  exact Keeps.ite ((keeps_modBand ..).trans (keeps_setBand ..)) (keeps_journal ..)

section
variable (k : Nat) (s : State)

theorem bandErased_erases : ((bandErased k s).band k).erases = (s.band k).erases + 1 := by
  have counted := congrArg Band.erases (countErase_band k s)
  rw [bandErased_eq]
  split
  · rw [band_setBand_same, band_modBand_same]
    exact counted
  · rw [band_journal]
    exact counted

theorem bandErased_flash {i : Nat} (inside : i < 3072 * 16 * 65536) : memGet (bandErased k s).media.flash (k * (3072 * 16) * 65536 + i) = 0#8 := by
  have kept : Keeps Media.flash _ (bandErased k s) := (keeps_bandErased_counted k s).of Media.flash
  rw [kept.same]
  exact memGet_memClear (Nat.le_add_right ..) (Nat.add_lt_add_left inside _)

theorem bandErased_members : ∀ x ∈ (bandErased k s).media.members, x.1 / (3072 * 16) ≠ k := by
  have kept : Keeps Media.members _ (bandErased k s) := (keeps_bandErased_counted k s).of Media.members
  rw [kept.same]
  intro x mem
  exact of_decide_eq_true (List.mem_filter.1 mem).2

variable {k s}

theorem bandErased_free (keeps : (s.band k).doomed = false) : .band k .free ((s.band k).erases + 1) ∈ (bandErased k s).media.journal := by
  rw [bandErased_eq, countErase_band, if_neg (by simp [keeps])]
  exact List.mem_cons_self

theorem bandErased_retired (doomed : (s.band k).doomed = true) : ((bandErased k s).band k).state = .retired := by
  rw [bandErased_eq, countErase_band, if_pos doomed, band_setBand_same]

end

/- One die's erase -/

/-- A die whose erase has ended. -/
def Die.erased (k : Nat) (x : Die) : Die := { x with op := .idle, erasing := none, erasePrio := false, todo := kvDel (k % 2800) x.todo }
/-- A block set of a band erased. -/
def eraseSet (k v d : Nat) (s : State) : State := modDie d (Die.erased k) (modBand k (fun b => { b with erased := v :: b.erased }) s)
/-- A band with its last block set erased. -/
def endErase (k : Nat) (s : State) : State := if s.erasesPassed k then bandErased k s else s
/-- The media are idle from when the free pool is full. -/
def noteIdle (s : State) : State := if s.freePool ≤ s.part.poolTarget then { s with power := { s.power with idleSince := s.now } } else s

theorem noteIdle_media (s : State) : (noteIdle s).media = s.media := by
  unfold noteIdle
  split <;> rfl

theorem noteIdle_work {s u : State} (work : MediaOnly s u) :
    MediaWork { s with power := { s.power with idleSince := (noteIdle u).power.idleSince } } (noteIdle u) := by
  unfold noteIdle
  split
  · exact MediaOnly.mediaWork (congrArg (fun x : State => { x with power := { x.power with idleSince := u.now } }) work :)
  · have power : u.power = s.power := (congrArg State.power work :)
    rw [power]
    exact work.mediaWork

section
variable {k v d : Nat} {s : State} (erasing : (s.band k).state = .erasing) (serves : s.rowDie (k / 2800) v = some d)
  (op : (s.die d).op = .erase) (own : (s.die d).erasing = some k)
include erasing serves op own

theorem eraseDone_passes : eraseDone k v none s = settleMedia (noteIdle (endErase k (eraseSet k v d s))) := by
  unfold eraseDone
  rw [serves]
  dsimp only
  rw [if_neg (by simp [erasing, op, own])]
  simp only [true_or, if_true]
  rfl

end

section
variable (k v d : Nat) (s : State)

theorem keeps_eraseSet_bands : Keeps Media.bands (modBand k (fun b => { b with erased := v :: b.erased }) s) (eraseSet k v d s) :=
  (keeps_modDie ..).of Media.bands

theorem eraseSet_band : (eraseSet k v d s).band k = { s.band k with erased := v :: (s.band k).erased } :=
  (band_congr (keeps_eraseSet_bands k v d s).same k).trans (band_modBand_same ..)

theorem keeps_eraseSet : Keeps (fun m => m.butBands.butDies) s (eraseSet k v d s) :=
  ((keeps_modBand k (fun b => { b with erased := v :: b.erased }) s).of Media.butDies).trans ((keeps_modDie ..).of fun m => m.butBands.butDies)

theorem keeps_endErase : Keeps Media.butErased s (endErase k s) := Keeps.ite (keeps_bandErased k s) (Keeps.refl s)

theorem eraseSet_die {d : Nat} {s : State} (inside : d < s.part.dies) : ((eraseSet k v d s).die d).op = .idle :=
  congrArg Die.op (die_modDie_same (s := modBand k (fun b => { b with erased := v :: b.erased }) s) inside _)

/-- A block set's erase is still waited for. -/
def State.eraseOut (s : State) (k v w : Nat) : Prop :=
  w ≠ v ∧ w ∉ (s.band k).erased ∧ (s.sieve w).lost = false ∧ (s.rowDie (k / 2800) w).isSome = true

theorem erasesPassed_iff : (eraseSet k v d s).erasesPassed k = true ↔ ∀ w ∈ (s.band k).sieves, ¬ s.eraseOut k v w := by
  have sieves : Keeps Media.sieves s (eraseSet k v d s) := (keeps_eraseSet k v d s).of Media.sieves
  have dies : ∀ {β : Type} {view : Die → β}, (∀ x, view (Die.erased k x) = view x) → ∀ i, view ((eraseSet k v d s).die i) = view (s.die i) :=
    fun same i => die_modDie_view same d i (modBand k (fun b => { b with erased := v :: b.erased }) s)
  have rows : ∀ n w, (eraseSet k v d s).rowDie n w = s.rowDie n w := rowDie_congr sieves.part (dies fun _ => rfl) (dies fun _ => rfl)
  have passed : ∀ w, (((v :: (s.band k).erased).contains w || (s.sieve w).lost || (s.rowDie (k / 2800) w).isNone) = true ↔ ¬ s.eraseOut k v w) := by
    intro w
    unfold State.eraseOut
    cases (s.sieve w).lost <;> cases s.rowDie (k / 2800) w <;> simp
    tauto
  unfold State.erasesPassed
  simp only [eraseSet_band, sieve_congr sieves.same, rows, List.all_eq_true, passed]

end

section
variable {k v d : Nat} {s : State}

theorem endErase_waits (left : ∃ w ∈ (s.band k).sieves, s.eraseOut k v w) : endErase k (eraseSet k v d s) = eraseSet k v d s := by
  refine if_neg fun passed => ?_
  obtain ⟨w, mem, out⟩ := left
  exact (erasesPassed_iff k v d s).1 passed w mem out

theorem endErase_last (last : ∀ w ∈ (s.band k).sieves, ¬ s.eraseOut k v w) : endErase k (eraseSet k v d s) = bandErased k (eraseSet k v d s) :=
  if_pos ((erasesPassed_iff k v d s).2 last)

theorem endErase_die (inside : d < s.part.dies) : ((endErase k (eraseSet k v d s)).die d).op = .idle := by
  have kept : Keeps Media.dies _ (endErase k (eraseSet k v d s)) := (keeps_endErase k (eraseSet k v d s)).of Media.dies
  rw [kept.die]
  exact eraseSet_die k v inside

theorem endErase_frame : MediaOnly s (endErase k (eraseSet k v d s)) := (keeps_eraseSet k v d s).frame.trans (keeps_endErase ..).frame

/-- The band waits for another of its erases. -/
theorem endErase_band (left : ∃ w ∈ (s.band k).sieves, s.eraseOut k v w) :
    ((endErase k (eraseSet k v d s)).band k).erased = v :: (s.band k).erased ∧ (endErase k (eraseSet k v d s)).media.flash = s.media.flash := by
  have kept : Keeps Media.flash s (eraseSet k v d s) := (keeps_eraseSet k v d s).of Media.flash
  rw [endErase_waits left, eraseSet_band]
  exact ⟨rfl, kept.same⟩

/-- The band is erased, and counted; its members are gone. -/
theorem endErase_erased (last : ∀ w ∈ (s.band k).sieves, ¬ s.eraseOut k v w) :
    ((endErase k (eraseSet k v d s)).band k).erases = (s.band k).erases + 1 ∧
    (∀ i < 3072 * 16 * 65536, memGet (endErase k (eraseSet k v d s)).media.flash (k * (3072 * 16) * 65536 + i) = 0#8) ∧
    (∀ x ∈ (endErase k (eraseSet k v d s)).media.members, x.1 / (3072 * 16) ≠ k) ∧
    ((s.band k).doomed = false → .band k .free ((s.band k).erases + 1) ∈ (endErase k (eraseSet k v d s)).media.journal) ∧
    ((s.band k).doomed = true → ((endErase k (eraseSet k v d s)).band k).state = .retired) := by
  have band := eraseSet_band k v d s
  have doomed : ((eraseSet k v d s).band k).doomed = (s.band k).doomed := (congrArg Band.doomed band :)
  have erases : ((eraseSet k v d s).band k).erases = (s.band k).erases := (congrArg Band.erases band :)
  rw [endErase_last last]
  refine ⟨(bandErased_erases k _).trans (congrArg (· + 1) erases), fun i => bandErased_flash k _, bandErased_members k _, fun keeps => ?_,
    fun retires => bandErased_retired (doomed.trans retires)⟩
  rw [← erases]
  exact bandErased_free (doomed.trans keeps)

theorem noteIdle_die {s u : State} (work : MediaOnly s u) (i : Nat) : (noteIdle u).die i = u.die i := by
  have part : (noteIdle u).part = s.part := (congrArg State.part (noteIdle_work work) :)
  exact die_congr (part.trans work.part.symm) (congrArg Media.dies (noteIdle_media u)) i

theorem noteIdle_band (u : State) (i : Nat) : (noteIdle u).band i = u.band i := band_congr (congrArg Media.bands (noteIdle_media u)) i

end

end Sys2Proof.Machine
end

section
/-!
PROOFS. Programs that pass (R188, R194, R195, R200): a word line that closes, and journal entries that become durable.
-/

namespace Sys2Proof.Machine

open Sys2Proof

/- A member die's program -/

theorem wordLine_mem {s : State} {k wl : Nat} {l : WordLine} (h : s.wordLine k wl = some l) : l.band = k ∧ l.wl = wl := by
  simpa using List.find?_some h

/-- A member of the word line programmed: its die is free. -/
def memberDone (k wl v d : Nat) (l : WordLine) (s : State) : State :=
  modMedia (fun m => { m with lines := m.lines.map fun x => if x.band = k ∧ x.wl = wl then { l with done := v :: l.done } else x })
    (modDie d (fun x => { x with op := .idle, line := none }) s)

theorem memberDone_inside {d : Nat} {s : State} (inside : d < s.part.dies) (k wl v : Nat) (l : WordLine) : memberDone k wl v d l s = { s with
    media := { s.media with
      dies := kvSet d { s.die d with op := .idle, line := none } s.media.dies
      lines := s.media.lines.map fun x => if x.band = k ∧ x.wl = wl then { l with done := v :: l.done } else x } } := by
  unfold memberDone
  rw [modDie_inside inside]
  rfl

theorem keeps_memberDone (k wl v d : Nat) (l : WordLine) (s : State) :
    Keeps (fun m => ({ m.butDies with lines := [] } : Media)) s (memberDone k wl v d l s) :=
  ((keeps_modDie d (fun x => { x with op := .idle, line := none }) s).of fun m => ({ m with lines := [] } : Media)).trans
    (keeps_modMedia (by intro; rfl) _)

section
variable {k wl v d : Nat} {kind : StripeKind} {l : WordLine} {s : State} (noReserve : kind ≠ .reserve) (noRebuild : kind ≠ .rebuild)
  (line : s.wordLine k wl = some l) (own : l.kind = kind) (serves : s.rowDie (k / 2800) v = some d)
  (op : (s.die d).op = .program) (programs : (s.die d).line = some (k, wl))
include noReserve noRebuild line own serves op programs

theorem programDone_passed : programDone k wl v kind none s = settleMedia
    (if ((s.band k).sieves.all fun w => (v :: l.done).contains w) = true then closeLine { l with done := v :: l.done } (memberDone k wl v d l s)
      else memberDone k wl v d l s) := by
  have band : (memberDone k wl v d l s).band k = s.band k := band_congr ((keeps_memberDone k wl v d l s).of Media.bands).same k
  rw [← band]
  unfold programDone
  rw [serves]
  cases kind with
  | reserve => exact absurd rfl noReserve
  | rebuild => exact absurd rfl noRebuild
  | _ =>
    simp only [line]
    rw [if_neg (by simp [own, op, programs])]
    rfl

theorem programDone_failed (plane : Nat) : programDone k wl v kind (some plane) s = settleMedia (failLine l d plane s) := by
  unfold programDone
  rw [serves]
  cases kind with
  | reserve => exact absurd rfl noReserve
  | rebuild => exact absurd rfl noRebuild
  | _ =>
    simp only [line]
    rw [if_neg (by simp [own, op, programs])]

end

/- Work that adds to the open journal stripe -/

/-- t is u after work that leaves this view of the media, and the entries of the open journal stripe. -/
structure Lays {β : Type} (view : Media → β) (u t : State) : Prop where
  works : Works view u t
  journal : u.media.journal ⊆ t.media.journal

section
variable {β γ : Type} {view : Media → β} {s u t : State}

theorem Lays.refl (s : State) : Lays view s s := ⟨(Keeps.refl s).works, List.Subset.refl _⟩

theorem Lays.trans (first : Lays view s u) (second : Lays view u t) : Lays view s t :=
  ⟨first.works.trans second.works, List.Subset.trans first.journal second.journal⟩

theorem Lays.of (h : Lays view s t) (g : β → γ) : Lays (fun m => g (view m)) s t := ⟨h.works.of g, h.journal⟩

theorem Lays.foldl {α : Type} {f : State → α → State} (step : ∀ s a, Lays view s (f s a)) (l : List α) (s : State) : Lays view s (l.foldl f s) :=
  List.foldlRecOn l f (motive := Lays view s) (Lays.refl s) fun u so a _ => so.trans (step u a)

theorem Keeps.lays (h : Keeps view s t) (journal : t.media.journal = s.media.journal) : Lays view s t :=
  ⟨h.works, fun _ mem => journal.symm ▸ mem⟩

end

/-- The media but for what a word line that closes lays down. -/
def Media.butLaid (m : Media) : Media := { m with
  bands := [], journal := [], journalAt := 0, members := [], flash := [], health := Health.shipped }

theorem lays_account (ctx : Option Nat) (f : AccCounts → AccCounts) (s : State) : Lays Media.butLaid s (account ctx f s) :=
  ⟨works_account ctx f s, fun _ mem => (congrArg Media.journal (account_media ctx f s) :).symm ▸ mem⟩

theorem lays_journal (e : JEntry) (s : State) : Lays Media.butLaid s (journal e s) :=
  ⟨((keeps_journal e s).of Media.butLaid).works, fun _ mem => List.mem_cons_of_mem e mem⟩

theorem lays_modBand (k : Nat) (f : Band → Band) (s : State) : Lays Media.butLaid s (modBand k f s) :=
  ((keeps_modBand k f s).of Media.butLaid).lays rfl

theorem lays_putMember (a : MediaAddr) (x : Member) (bytes : List Byte) (s : State) : Lays Media.butLaid s (putMember a x bytes s) :=
  Keeps.lays ⟨rfl, rfl⟩ rfl

theorem lays_lineClosed (k wl : Nat) (s : State) : Lays Media.butLaid s (lineClosed k wl s) := by
  have filled := lays_modBand k (fun b => { b with filled := wl + 1, progAt := kvSet wl s.now b.progAt }) s
  unfold lineClosed
  dsimp only
  split
  · exact filled.trans ((lays_modBand k (fun b => { b with state := .closed }) _).trans (lays_journal ..))
  · exact filled

theorem lineClosed_filled (k wl : Nat) (s : State) : ((lineClosed k wl s).band k).filled = wl + 1 := by
  have filled := congrArg Band.filled (band_modBand_same k (fun b => { b with filled := wl + 1, progAt := kvSet wl s.now b.progAt }) s)
  unfold lineClosed
  dsimp only
  split
  · rw [band_setBand_same]
    exact filled
  · exact filled

/-- The members of a word line as they are written. -/
def putMembers (seq : Nat) (places : List MediaAddr) (items : List (Member × List Byte)) (s : State) : State :=
  places.zipIdx.foldl (fun s p =>
    putMember p.1 { (items.getD p.2 (⟨6, 255, 0, seq, .pad, 0⟩, [])).1 with seq := seq } (items.getD p.2 (⟨6, 255, 0, seq, .pad, 0⟩, [])).2 s) s
def countWritten (n : Nat) (s : State) : State := modHealth (fun h => { h with mediaWritten := satAdd 64 h.mediaWritten n }) s

section
variable (k wl : Nat) (items : List (Member × List Byte)) (paid : Nat) (s : State)

theorem writeLine_closes : ∃ u, Lays Media.butLaid s u ∧ writeLine k wl items paid s = lineClosed k wl u := by
  have laid : Lays Media.butLaid s (putMembers (s.band k).seq (linePlaces (s.band k).kind k wl (s.band k).sieves) items s) :=
    Lays.foldl (fun u (p : MediaAddr × Nat) => lays_putMember ..) _ s
  have counted : ∀ (n : Nat) (u : State), Lays Media.butLaid u (countWritten n u) := fun n u => Keeps.lays ⟨rfl, rfl⟩ rfl
  exact ⟨_, (laid.trans (lays_account ..)).trans (counted _ _), rfl⟩

theorem lays_writeLine : Lays Media.butLaid s (writeLine k wl items paid s) := by
  obtain ⟨u, laid, closes⟩ := writeLine_closes k wl items paid s
  rw [closes]
  exact laid.trans (lays_lineClosed ..)

theorem writeLine_filled : ((writeLine k wl items paid s).band k).filled = wl + 1 := by
  obtain ⟨u, -, closes⟩ := writeLine_closes k wl items paid s
  rw [closes]
  exact lineClosed_filled ..

end

end Sys2Proof.Machine
end

section
/-!
PROOFS. A word line that closes, and a journal stripe (R188, R194, R195, R200).
-/

namespace Sys2Proof.Machine

open Sys2Proof

/- Journal entries that become durable -/

/-- The media but for what an entry that becomes durable changes. -/
def Media.butDurable (m : Media) : Media := { m with slots := [], map := [], segments := [], bands := [], reserve := [] }

theorem keeps_entryDurable (e : JEntry) (s : State) : Keeps Media.butDurable s (entryDurable e s) := by
  have change : ∀ (f : Media → Media) (u : State), (∀ m, (f m).butDurable = m.butDurable) → Keeps Media.butDurable u (modMedia f u) :=
    fun f u same => keeps_modMedia same u
  have entry : ∀ o i n (u : State), Keeps Media.butDurable u (modMedia (setEntry o i n) u) := fun o i n u => change _ u fun _ => rfl
  unfold entryDurable
  split
  · exact (change _ _ (by intro; rfl)).trans (Keeps.ite (entry ..) (Keeps.refl _))
  · exact (change _ _ (by intro; rfl)).trans (Keeps.ite (entry ..) (Keeps.refl _))
  · have freed : ∀ k f (u : State), Keeps Media.butDurable u (modBand k f u) := fun k f u => ⟨rfl, rfl⟩
    exact (freed ..).trans (change _ _ (by intro; rfl))
  · exact Keeps.refl s

theorem kvGet_mapSnd {α β : Type} (f : α → β) (k : Nat) (t : KV α) : kvGet k (t.map fun x => (x.1, f x.2)) = (kvGet k t).map f := by
  induction t with
  | nil => rfl
  | cons p t ih =>
    simp only [List.map_cons, kvGet]
    split
    · rfl
    · exact ih

/-- A unit that has become durable is where it was written, and has left the write buffer (R195). -/
theorem entryDurable_unit {o i n : Nat} {new : MapEntry} {old : Option MapEntry} {s : State} (same : s.entry o i = old)
    (sorted : kvSorted s.media.slots = true) : (entryDurable (.map o i (some new) old (some n)) s).entry o i = some new ∧
      kvGet n (entryDurable (.map o i (some new) old (some n)) s).media.slots = none := by
  have freed : (modMedia (freeSlot n (some new)) s).entry o i = old := same
  unfold entryDurable
  dsimp only
  rw [if_pos freed]
  refine ⟨kvGet_kvSet_same .., ?_⟩
  show kvGet n ((kvDel n s.media.slots).map _) = none
  rw [kvGet_mapSnd (fun x : Slot => if x.old = some (.buffer n) then { x with old := some new } else x), kvGet_kvDel_same n _ sorted]
  rfl

/-- The stripe counted as journal written. -/
def Media.journalWritten (k n : Nat) (m : Media) : Media := { m with
  journaled := m.journaled + n, journalSeq := m.journalSeq + n, journalEnd := kvSet k (m.journalSeq + n - 1) m.journalEnd }
def durable (es : List JEntry) (s : State) : State := es.foldl (fun s e => entryDurable e s) s

theorem journalClosed_eq (k : Nat) (es : List JEntry) (s : State) : ∃ cmds,
    journalClosed k es s = { durable es (modMedia (Media.journalWritten k es.length) s) with cmds := cmds } := ⟨_, rfl⟩

theorem keeps_durable (es : List JEntry) (s : State) : Keeps Media.butDurable s (durable es s) := Keeps.foldl (fun u e => keeps_entryDurable e u) es s

/-- What a journal stripe that closes counts, and what it leaves. -/
def Media.journalState (m : Media) : Nat × Nat × List WordLine × List JEntry := (m.journalSeq, m.journaled, m.lines, m.journal)

theorem journalClosed_state (k : Nat) (es : List JEntry) (s : State) : (journalClosed k es s).media.journalState =
    (s.media.journalSeq + es.length, s.media.journaled + es.length, s.media.lines, s.media.journal) := by
  obtain ⟨cmds, closed⟩ := journalClosed_eq k es s
  have kept : Keeps Media.journalState _ (durable es (modMedia (Media.journalWritten k es.length) s)) := (keeps_durable ..).of Media.journalState
  rw [closed]
  exact kept.same

theorem journalClosed_work (k : Nat) (es : List JEntry) (s : State) : MediaWork s (journalClosed k es s) := by
  obtain ⟨cmds, closed⟩ := journalClosed_eq k es s
  have kept := (mediaOnly_modMedia (Media.journalWritten k es.length) s).trans (keeps_durable es _).frame
  rw [closed]
  exact kept.mediaWork.trans (mediaWork_cmds cmds _)

theorem journalClosed_unit {k o i n : Nat} {new : MapEntry} {old : Option MapEntry} {s : State} (same : s.entry o i = old)
    (sorted : kvSorted s.media.slots = true) : (journalClosed k [.map o i (some new) old (some n)] s).entry o i = some new ∧
      kvGet n (journalClosed k [.map o i (some new) old (some n)] s).media.slots = none := by
  obtain ⟨cmds, closed⟩ := journalClosed_eq k [.map o i (some new) old (some n)] s
  rw [closed]
  exact entryDurable_unit (s := modMedia (Media.journalWritten k 1) s) same sorted

/- A word line that closes -/

/-- The word line is no longer being programmed. -/
def endLine (l : WordLine) (s : State) : State :=
  modMedia (fun m => { m with lines := m.lines.filter fun x => decide (x.band ≠ l.band) || decide (x.wl ≠ l.wl) }) (endPrograms l s)
/-- What fills each member of a word line that closes. -/
def lineItems (l : WordLine) (s : State) : List (Member × List Byte) :=
  (linePlaces (s.band l.band).kind l.band l.wl (s.band l.band).sieves).zipIdx.map fun a =>
    (l.item s a.1).getD ((l.items[a.2]?).elim (⟨6, 255, 0, 0, .pad, 0⟩, []) fun x => (x, []))
/-- One unit of the write buffer stands on the media: it is charged and journaled. -/
def closeUnit (p : MediaAddr × Nat) (x : Slot) (s : State) : State :=
  account (some x.ctx) (fun c => { c with programs := c.programs + 4 })
    (journal (.map x.vol x.unit (some (.media p.1)) (some (.buffer p.2)) (some p.2))
      (modMedia (fun m => { m with slots := kvSet p.2 { x with closed := true } m.slots }) s))
def closeSlot (s : State) (p : MediaAddr × Nat) : State := ((kvGet p.2 s.media.slots).map fun x => closeUnit p x s).getD s
/-- Copies wait to flip. -/
def journalCopies (l : WordLine) (s : State) : State :=
  l.copies.foldl (fun s p => journal (.map p.2.vol p.2.unit (some (.media p.1)) (some (.media p.2.src)) none) s) s
/-- A word line as it stands on the media. -/
def layLine (l : WordLine) (s : State) : State :=
  writeLine l.band l.wl (lineItems l s) l.slots.length (journalCopies l (l.slots.foldl closeSlot (endLine l s)))

theorem closeLine_eq (l : WordLine) (s : State) :
    closeLine l s = if l.kind = .journal then journalClosed l.band l.entries (layLine l s) else layLine l s := by
  have slots : closeSlot = fun (s : State) (p : MediaAddr × Nat) =>
    match kvGet p.2 s.media.slots with
    | none => s
    | some x => closeUnit p x s := by
    funext s p
    unfold closeSlot
    cases kvGet p.2 s.media.slots <;> rfl
  unfold layLine
  rw [slots]
  rfl

theorem keeps_endLine (l : WordLine) (s : State) : Keeps (fun m => ({ m.butDies with lines := [] } : Media)) s (endLine l s) :=
  ((keeps_endPrograms l s).of fun m => ({ m with lines := [] } : Media)).trans (keeps_modMedia (by intro; rfl) _)

theorem endLine_lines (l : WordLine) (s : State) : ∀ x ∈ (endLine l s).media.lines, ¬ (x.band = l.band ∧ x.wl = l.wl) := by
  intro x mem
  have other := (List.mem_filter.1 mem).2
  simp only [Bool.or_eq_true, decide_eq_true_eq] at other
  exact fun ⟨band, wl⟩ => other.elim (· band) (· wl)

/-- The media but for what a word line that closes lays down, and the write buffer. -/
def Media.butPlaced (m : Media) : Media := { m.butLaid with slots := [] }

section
variable (p : MediaAddr × Nat) (x : Slot) (s : State)

theorem lays_closeUnit : Lays Media.butPlaced s (closeUnit p x s) := by
  have closed : Lays Media.butPlaced s (modMedia (fun m => { m with slots := kvSet p.2 { x with closed := true } m.slots }) s) :=
    Keeps.lays (keeps_modMedia (by intro; rfl) s) rfl
  exact (closed.trans ((lays_journal ..).of fun m => ({ m with slots := [] } : Media))).trans
    ((lays_account ..).of fun m => ({ m with slots := [] } : Media))

theorem closeUnit_slots : (closeUnit p x s).media.slots = kvSet p.2 { x with closed := true } s.media.slots :=
  (congrArg Media.slots (account_media ..) :)

theorem closeUnit_journal :
    .map x.vol x.unit (some (.media p.1)) (some (.buffer p.2)) (some p.2) ∈ (closeUnit p x s).media.journal := by
  unfold closeUnit
  rw [account_media]
  exact List.mem_cons_self

theorem closeSlot_none {p : MediaAddr × Nat} {s : State} (h : kvGet p.2 s.media.slots = none) : closeSlot s p = s := by
  unfold closeSlot
  rw [h]
  rfl

theorem closeSlot_some {p : MediaAddr × Nat} {x : Slot} {s : State} (h : kvGet p.2 s.media.slots = some x) : closeSlot s p = closeUnit p x s := by
  unfold closeSlot
  rw [h]
  rfl

theorem lays_closeSlot : Lays Media.butPlaced s (closeSlot s p) := by
  cases h : kvGet p.2 s.media.slots with
  | none =>
    rw [closeSlot_none h]
    exact Lays.refl s
  | some x =>
    rw [closeSlot_some h]
    exact lays_closeUnit ..

/-- The unit of a slot. -/
def Slot.owner (x : Slot) : Nat × Nat := (x.vol, x.unit)

theorem closeSlot_owner (n : Nat) : (kvGet n (closeSlot s p).media.slots).map Slot.owner = (kvGet n s.media.slots).map Slot.owner := by
  cases h : kvGet p.2 s.media.slots with
  | none => rw [closeSlot_none h]
  | some x =>
    rw [closeSlot_some h, closeUnit_slots]
    by_cases own : p.2 = n
    · subst own
      rw [kvGet_kvSet_same, h]
      rfl
    · rw [kvGet_kvSet_other _ _ own]

theorem sorted_closeSlot (sorted : kvSorted s.media.slots = true) : kvSorted (closeSlot s p).media.slots = true := by
  cases h : kvGet p.2 s.media.slots with
  | none =>
    rw [closeSlot_none h]
    exact sorted
  | some x =>
    rw [closeSlot_some h, closeUnit_slots]
    exact kvSorted_kvSet _ _ _ sorted

end

theorem lays_closeSlots (l : List (MediaAddr × Nat)) (s : State) : Lays Media.butPlaced s (l.foldl closeSlot s) :=
  Lays.foldl (fun u p => lays_closeSlot p u) l s

/-- Each unit of the word line is journaled at its place. -/
theorem closeSlots_journal {p : MediaAddr × Nat} {l : List (MediaAddr × Nat)} {s : State} {vol unit : Nat} (mem : p ∈ l)
    (slot : (kvGet p.2 s.media.slots).map Slot.owner = some (vol, unit)) :
    .map vol unit (some (.media p.1)) (some (.buffer p.2)) (some p.2) ∈ (l.foldl closeSlot s).media.journal := by
  induction l generalizing s with
  | nil => exact absurd mem List.not_mem_nil
  | cons q l ih =>
    rcases List.mem_cons.1 mem with rfl | later
    · obtain ⟨x, found, owner⟩ := Option.map_eq_some_iff.1 slot
      obtain ⟨rfl, rfl⟩ := Prod.mk.inj owner
      refine (lays_closeSlots l (closeSlot s p)).journal ?_
      rw [closeSlot_some found]
      exact closeUnit_journal ..
    · exact ih later ((closeSlot_owner q s p.2).trans slot)

theorem lays_journalCopies (l : WordLine) (s : State) : Lays Media.butLaid s (journalCopies l s) :=
  Lays.foldl (fun u (_ : MediaAddr × CopyJob) => lays_journal _ u) _ s

section
variable (l : WordLine) (s : State)

theorem lays_written : Lays Media.butLaid (l.slots.foldl closeSlot (endLine l s)) (layLine l s) :=
  (lays_journalCopies l _).trans (lays_writeLine ..)

theorem lays_layLine : Lays Media.butPlaced (endLine l s) (layLine l s) :=
  (lays_closeSlots l.slots _).trans ((lays_written l s).of fun m => ({ m with slots := [] } : Media))

theorem layLine_journal {p : MediaAddr × Nat} {x : Slot} (mem : p ∈ l.slots) (slot : kvGet p.2 s.media.slots = some x) :
    .map x.vol x.unit (some (.media p.1)) (some (.buffer p.2)) (some p.2) ∈ (layLine l s).media.journal := by
  have ended : Keeps Media.slots s (endLine l s) := (keeps_endLine l s).of Media.slots
  refine (lays_written l s).journal (closeSlots_journal mem ?_)
  rw [ended.same, slot]
  rfl

theorem sorted_layLine (sorted : kvSorted s.media.slots = true) : kvSorted (layLine l s).media.slots = true := by
  have ended : Keeps Media.slots s (endLine l s) := (keeps_endLine l s).of Media.slots
  have closed : kvSorted (l.slots.foldl closeSlot (endLine l s)).media.slots = true :=
    List.foldlRecOn _ _ (motive := fun u : State => kvSorted u.media.slots = true) (ended.same.symm ▸ sorted) fun u so p _ => sorted_closeSlot p u so
  have written : (layLine l s).media.slots = (l.slots.foldl closeSlot (endLine l s)).media.slots := (congrArg Media.slots (lays_written l s).works.same :)
  rw [written]
  exact closed

theorem layLine_work : MediaWork s (layLine l s) := (keeps_endLine l s).frame.mediaWork.trans (lays_layLine l s).works.work

/-- What a word line leaves until its journal stripe closes. -/
theorem layLine_state : (layLine l s).media.map = s.media.map ∧ (layLine l s).media.journalSeq = s.media.journalSeq ∧
    (layLine l s).media.journaled = s.media.journaled ∧ (layLine l s).media.lines = (endLine l s).media.lines := by
  have ended := (keeps_endLine l s).same
  have laid := (lays_layLine l s).works.same
  exact ⟨(congrArg Media.map laid :).trans (congrArg Media.map ended :), (congrArg Media.journalSeq laid :).trans (congrArg Media.journalSeq ended :),
    (congrArg Media.journaled laid :).trans (congrArg Media.journaled ended :), (congrArg Media.lines laid :)⟩

theorem closeLine_work : MediaWork s (closeLine l s) := by
  rw [closeLine_eq]
  split
  · exact (layLine_work l s).trans (journalClosed_work ..)
  · exact layLine_work l s

/-- A word line that closes leaves the lines and the entries of the open journal stripe that it lays down. -/
theorem closeLine_lay : (closeLine l s).media.lines = (layLine l s).media.lines ∧ (closeLine l s).media.journal = (layLine l s).media.journal := by
  rw [closeLine_eq]
  split
  · have closed := journalClosed_state l.band l.entries (layLine l s)
    exact ⟨(congrArg (·.2.2.1) closed :), (congrArg (·.2.2.2) closed :)⟩
  · exact ⟨rfl, rfl⟩

theorem closeLine_lines : ∀ x ∈ (closeLine l s).media.lines, ¬ (x.band = l.band ∧ x.wl = l.wl) := by
  obtain ⟨-, -, -, lines⟩ := layLine_state l s
  rw [(closeLine_lay l s).1, lines]
  exact endLine_lines l s

theorem closeLine_journal {p : MediaAddr × Nat} {x : Slot} (mem : p ∈ l.slots) (slot : kvGet p.2 s.media.slots = some x) :
    .map x.vol x.unit (some (.media p.1)) (some (.buffer p.2)) (some p.2) ∈ (closeLine l s).media.journal := by
  rw [(closeLine_lay l s).2]
  exact layLine_journal l s mem slot

variable {l s}

theorem closeLine_filled (other : l.kind ≠ .journal) : ((closeLine l s).band l.band).filled = l.wl + 1 := by
  rw [closeLine_eq, if_neg other]
  exact writeLine_filled ..

/-- The entries of a journal stripe are durable (R194). -/
theorem closeLine_stripe (stripe : l.kind = .journal) : (closeLine l s).media.journalSeq = s.media.journalSeq + l.entries.length ∧
    (closeLine l s).media.journaled = s.media.journaled + l.entries.length := by
  obtain ⟨-, seq, journaled, -⟩ := layLine_state l s
  have closed := journalClosed_state l.band l.entries (layLine l s)
  rw [closeLine_eq, if_pos stripe, ← seq, ← journaled]
  exact ⟨(congrArg Prod.fst closed :), (congrArg (·.2.1) closed :)⟩

theorem closeLine_unit (stripe : l.kind = .journal) {o i n : Nat} {new : MapEntry} {old : Option MapEntry}
    (entries : l.entries = [.map o i (some new) old (some n)]) (same : s.entry o i = old) (sorted : kvSorted s.media.slots = true) :
    (closeLine l s).entry o i = some new ∧ kvGet n (closeLine l s).media.slots = none := by
  obtain ⟨map, -, -, -⟩ := layLine_state l s
  have stands : (layLine l s).entry o i = old := (congrArg (kvGet (unitKey o i)) map).trans same
  rw [closeLine_eq, if_pos stripe, entries]
  exact journalClosed_unit stands (sorted_layLine l s sorted)

end

/- The last member of a word line -/

section
variable (v d : Nat) (l : WordLine) (s : State)

/-- The word line closed with a member. -/
def closeLast (v d : Nat) (l : WordLine) (s : State) : State :=
  closeLine { l with done := v :: l.done } (memberDone l.band l.wl v d l s)

theorem closeLast_work : MediaWork s (closeLast v d l s) := (keeps_memberDone l.band l.wl v d l s).frame.mediaWork.trans (closeLine_work ..)

theorem closeLast_lines : ∀ x ∈ (closeLast v d l s).media.lines, ¬ (x.band = l.band ∧ x.wl = l.wl) := closeLine_lines { l with done := v :: l.done } _

variable {l s}

theorem closeLast_filled (other : l.kind ≠ .journal) : ((closeLast v d l s).band l.band).filled = l.wl + 1 :=
  closeLine_filled (l := { l with done := v :: l.done }) other

theorem closeLast_journal {p : MediaAddr × Nat} {x : Slot} (mem : p ∈ l.slots) (slot : kvGet p.2 s.media.slots = some x) :
    .map x.vol x.unit (some (.media p.1)) (some (.buffer p.2)) (some p.2) ∈ (closeLast v d l s).media.journal := by
  have slots : Keeps Media.slots s _ := (keeps_memberDone l.band l.wl v d l s).of Media.slots
  exact closeLine_journal { l with done := v :: l.done } _ mem ((congrArg (kvGet p.2) slots.same).trans slot)

section
variable (stripe : l.kind = .journal)
include stripe

theorem closeLast_stripe : (closeLast v d l s).media.journalSeq = s.media.journalSeq + l.entries.length ∧
    (closeLast v d l s).media.journaled = s.media.journaled + l.entries.length := by
  have done := keeps_memberDone l.band l.wl v d l s
  have seq : Keeps Media.journalSeq s _ := done.of Media.journalSeq
  have journaled : Keeps Media.journaled s _ := done.of Media.journaled
  rw [← seq.same, ← journaled.same]
  exact closeLine_stripe (l := { l with done := v :: l.done }) stripe

theorem closeLast_unit {o i n : Nat} {new : MapEntry} {old : Option MapEntry} (entries : l.entries = [.map o i (some new) old (some n)])
    (same : s.entry o i = old) (sorted : kvSorted s.media.slots = true) :
    (closeLast v d l s).entry o i = some new ∧ kvGet n (closeLast v d l s).media.slots = none := by
  have units : Keeps Media.units s _ := (keeps_memberDone l.band l.wl v d l s).of Media.units
  obtain ⟨map, slots⟩ := Prod.mk.inj units.same
  exact closeLine_unit (l := { l with done := v :: l.done }) stripe entries ((congrArg (kvGet (unitKey o i)) map).trans same) (slots ▸ sorted)

end

end

end Sys2Proof.Machine
end

section
/-!
PROOFS. A program that fails (R201, R231, R241): the block recorded, the word line given up, and what is lost with it.
-/

namespace Sys2Proof.Machine

open Sys2Proof

/-- t is u after units were lost and commands ended, which leaves this view of the media. -/
structure Drops {β : Type} (view : Media → β) (u t : State) : Prop where
  frame : t = { u with
    media := t.media, cmds := t.cmds, replies := t.replies, nextReply := t.nextReply, landing := { u.landing with faults := t.landing.faults }
    scans := t.scans, trains := t.trains, events := t.events, newEvents := t.newEvents, alert := t.alert, sessions := t.sessions
    ports := t.ports, wire := t.wire, acct := t.acct, free := t.free, indexes := t.indexes, sec := { u.sec with vault := t.sec.vault }
    links := { u.links with incoming := t.links.incoming } }
  same : view t.media = view u.media

section
variable {β : Type} {view : Media → β} {s u t : State}

theorem Drops.refl (s : State) : Drops view s s := ⟨rfl, rfl⟩

theorem Drops.trans (first : Drops view s u) (second : Drops view u t) : Drops view s t where
  frame := by
    calc t = _ := second.frame
      _ = _ := by rw [first.frame]
  same := second.same.trans first.same

theorem Drops.foldl {α : Type} {f : State → α → State} (step : ∀ s a, Drops view s (f s a)) (l : List α) (s : State) : Drops view s (l.foldl f s) :=
  List.foldlRecOn l f (motive := Drops view s) (Drops.refl s) fun u so a _ => so.trans (step u a)

theorem Drops.ite {c : Prop} [Decidable c] {a b : State} (yes : Drops view s a) (no : Drops view s b) : Drops view s (if c then a else b) := by
  split
  · exact yes
  · exact no

/-- What a failed program leaves outside the media, replies and events. -/
theorem Drops.work (h : Drops view s u) : MediaWork { s with
    free := u.free, indexes := u.indexes, sec := { s.sec with vault := u.sec.vault }
    links := { s.links with incoming := u.links.incoming } } u := h.frame

theorem Works.drops (h : Works view s t) : Drops view s t where
  frame := by
    calc t = _ := h.work
      _ = _ := by rw [h.work]
  same := h.same

theorem Works.foldl {α : Type} {f : State → α → State} (step : ∀ s a, Works view s (f s a)) (l : List α) (s : State) : Works view s (l.foldl f s) :=
  List.foldlRecOn l f (motive := Works view s) ⟨rfl, rfl⟩ fun u so a _ => so.trans (step u a)

theorem Ended.drops (h : Ended s t) (same : view t.media = view s.media) : Drops view s t where
  frame := by
    calc t = _ := h.frame
      _ = _ := by rw [h.frame]
  same := same

end

/-- The word lines being programmed, and the grown-bad table. -/
def Media.badLines (m : Media) : List WordLine × List GrownBad := (m.lines, m.grownBad)

/- Slots dropped, and commands ended -/

theorem keeps_freeSlot (n : Nat) (e : Option MapEntry) (s : State) : Keeps Media.badLines s (modMedia (freeSlot n e) s) := ⟨rfl, rfl⟩

theorem keeps_dropSlot (n : Nat) (s : State) : Keeps Media.badLines s (dropSlot n s) := by
  unfold dropSlot
  split
  · exact Keeps.refl s
  · next x _ =>
    exact (keeps_freeSlot n x.old s).trans (Keeps.ite ((keeps_remap ..).of Media.badLines) (Keeps.refl _))

theorem keeps_dropPlaced (k : CmdKey) (s : State) : Keeps Media.badLines s (dropPlaced k s) :=
  Keeps.foldl (fun u (x : Nat × Slot) => Keeps.ite (keeps_dropSlot x.1 u) (Keeps.refl u)) _ s

theorem badLines_writeRoot (s : State) : (writeRoot s).media.badLines = s.media.badLines :=
  (congrArg (fun u : State => u.media.badLines) (writeRoot_rootsWritten s) :)

theorem badLines_makeVolume (p : List Byte) (s : State) : (makeVolume p s).media.badLines = s.media.badLines := by
  unfold makeVolume writeRoots
  exact (badLines_writeRoot _).trans (badLines_writeRoot _)

theorem badLines_carryCreate (c : Cmd) (s : State) : (carryCreate c s).media.badLines = s.media.badLines := by
  rcases carryCreate_cases c s with made | same
  · rw [made]
    exact badLines_makeVolume ..
  · rw [same]

theorem badLines_giveUp (c : Cmd) (s : State) : (giveUp c s).media.badLines = s.media.badLines := by
  have undone : (giveUp c s).media = (dropPlaced c.key (carryCreate c s)).media := (congrArg State.media (undoInsert_frame ..) :)
  rw [undone]
  exact (keeps_dropPlaced c.key (carryCreate c s)).same.trans (badLines_carryCreate c s)

theorem drops_endCmd (status : Nat) (s : State) (c : Cmd) : Drops Media.badLines s (endCmd status s c) := by
  refine (ended_endCmd status s c).drops ?_
  rcases endCmd_cases status s c with ⟨_, same⟩ | ends
  · rw [same]
  · have replied : (fail (c.stalledLate s) status (giveUp c s)).media = (giveUp c s).media := (congrArg State.media (replied_fail ..) :)
    rw [ends, replied]
    exact badLines_giveUp c s

/- Deferred errors (R98, R108) -/

/-- Lost units recorded in the deferred-error log. -/
def Media.deferred_ (l : List Deferred) (n : Nat) (m : Media) : Media :=
  { m with deferred := if l.length ≤ 4096 then l else mergeDeferred l, nextDeferred := m.nextDeferred + n }

theorem keeps_recordDeferred (vol ctx cause : Nat) (units : List Nat) (atStart : Bool) (s : State) :
    Keeps Media.badLines s (recordDeferred vol ctx cause units atStart s) := by
  have poisoned : Keeps Media.badLines s (units.foldl (fun s u => poison vol u s) s) :=
    Keeps.foldl (fun u n => (keeps_poison vol n u).of Media.badLines) units s
  have recorded : ∀ l n (u : State), Keeps Media.badLines u (modMedia (Media.deferred_ l n) u) := fun l n u => ⟨rfl, rfl⟩
  have counted : ∀ i n (u : State), Keeps Media.badLines u (bumpErr i n u) := fun i n u => (keeps_bumpErr i n u).of Media.badLines
  exact (poisoned.trans (recorded _ _ _)).trans (counted 11 _ _)

theorem deliver_foldl_events (e : State → Nat → EventRec) (l : List Nat) (s : State) : EventsOnly s (l.foldl (fun s n => deliver (e s n) s n) s) :=
  List.foldlRecOn l _ (motive := EventsOnly s) (EventsOnly.refl s) fun _ so _ _ => so.trans (deliver_events ..).1

theorem raiseDeferred_events (d : Deferred) (s : State) : EventsOnly s (raiseDeferred d s) :=
  (logEvent_events _ s).1.trans (deliver_foldl_events (fun u n => ⟨0x0005, 2, 0, 0, s.now, d.ctx, deferredArgs (u.deferredOf n).length d⟩) _ _)

theorem works_deferInService (vol ctx cause : Nat) (units : List Nat) (s : State) : Works Media.badLines s (deferInService vol ctx cause units s) := by
  have raised : ∀ (u : State) (d : Deferred), Works Media.badLines u (raiseDeferred d u) :=
    fun u d => ((raiseDeferred_events d u).mediaWork).works (raiseDeferred_events d u).media
  exact (keeps_recordDeferred vol ctx cause units false s).works.trans (Works.foldl raised _ _)

/- What is lost with a word line (R201) -/

/-- What has been acknowledged is a deferred error. -/
def loseAcked (n : Nat) (x : Slot) (s : State) : State :=
  let s := modMedia (freeSlot n (some .poisoned)) s
  if s.entry x.vol x.unit = some (.buffer n) then
    deferInService x.vol (if (kvGet x.ctx s.contexts).isSome then x.ctx else 0xFFFF) 3 [x.unit] s
  else s
/-- A write that has not been, or a peer's copy, ends with an error. -/
def loseWrite (n : Nat) (x : Slot) (s : State) : State :=
  match findCmd x.writer s with
  | some c => endCmd (if c.opcode = 0x42 then stSpareExhausted else stMediaUncorrectable) s c
  | none => modLinks (fun y => { y with incoming := y.incoming.map fun i =>
      if i.slot = n then { i with status := stMediaUncorrectable } else i }) (dropSlot n s)
def failSlot (s : State) (p : MediaAddr × Nat) : State :=
  match kvGet p.2 s.media.slots with
  | none => s
  | some x => if x.acked then loseAcked p.2 x s else loseWrite p.2 x s

theorem drops_loseAcked (n : Nat) (x : Slot) (s : State) : Drops Media.badLines s (loseAcked n x s) :=
  (keeps_freeSlot n (some .poisoned) s).works.drops.trans (Drops.ite (works_deferInService ..).drops (Drops.refl _))

theorem drops_incoming (f : List _ → List _) (s : State) : Drops Media.badLines s (modLinks (fun y => { y with incoming := f y.incoming }) s) := ⟨rfl, rfl⟩

theorem drops_loseWrite (n : Nat) (x : Slot) (s : State) : Drops Media.badLines s (loseWrite n x s) := by
  unfold loseWrite
  split
  · exact drops_endCmd ..
  · exact (keeps_dropSlot n s).works.drops.trans (drops_incoming _ _)

theorem drops_failSlot (s : State) (p : MediaAddr × Nat) : Drops Media.badLines s (failSlot s p) := by
  unfold failSlot
  split
  · exact Drops.refl s
  · exact Drops.ite (drops_loseAcked ..) (drops_loseWrite ..)

/-- The block recorded, and the word line given up. -/
def failBlock (l : WordLine) (d plane : Nat) (s : State) : State := bumpErr 5 1 (addBad d plane l.band 1 (dropLine l s))

theorem failLine_drops (l : WordLine) (d plane : Nat) (s : State) : Drops Media.badLines (failBlock l d plane s) (failLine l d plane s) := by
  have lost : ∀ slots : List (MediaAddr × Nat), Drops Media.badLines (failBlock l d plane s) (slots.foldl failSlot (failBlock l d plane s)) :=
    fun slots => Drops.foldl drops_failSlot slots _
  exact Drops.ite (lost l.slots) (Drops.refl _)

/- The block (R186) -/

theorem listBad_mem (e : GrownBad) (s : State) : e ∈ (listBad e s).media.grownBad := by
  have written := congrArg Prod.snd (badLines_writeRoot (modMedia (fun m => { m with grownBad := m.grownBad ++ [e] }) s))
  have listed : (listBad e s).media.grownBad = s.media.grownBad ++ [e] := written
  rw [listed]
  exact List.mem_append_right _ List.mem_cons_self

/-- The grown-bad table names a block of a plane. -/
def State.recordsBad (s : State) (sieve channel position plane block : Nat) : Prop :=
  ∃ g ∈ s.media.grownBad, g.sieve = sieve ∧ g.channel = channel ∧ g.position = position ∧ g.plane = plane ∧ g.block = block

theorem addBad_records {d plane k cause block : Nat} {s : State} (at_ : s.blockOf d plane (k % 2800) = some block) :
    (addBad d plane k cause s).recordsBad (s.dieSieve d) (s.dieChannel d) (s.diePos d) plane block := by
  by_cases listed : s.listedBad d plane block = true
  · rw [addBad_listed at_ listed]
    obtain ⟨g, mem, stands⟩ := List.any_eq_true.1 listed
    simp only [State.onPlane, Bool.and_eq_true, decide_eq_true_eq] at stands
    obtain ⟨⟨⟨⟨sieve, channel⟩, position⟩, onPlane⟩, own⟩ := stands
    exact ⟨g, mem, sieve, channel, position, onPlane, own⟩
  · have counted : Keeps Media.grownBad _ (countGood d (listBad (s.badEntry d plane block cause) s)) := (keeps_countGood ..).of Media.grownBad
    have added : Keeps Media.grownBad _ (addBad d plane k cause s) := (addBad_new at_ listed).of Media.grownBad
    refine ⟨s.badEntry d plane block cause, ?_, rfl, rfl, rfl, rfl, rfl⟩
    rw [added.same, counted.same]
    exact listBad_mem ..

theorem blockOf_congr {s t : State} {d : Nat} (replaced : (t.die d).replaced = (s.die d).replaced)
    (bad : t.media.factoryBad = s.media.factoryBad) (plane b : Nat) : t.blockOf d plane b = s.blockOf d plane b := by
  unfold State.blockOf State.factoryBadOn
  rw [replaced, bad]

section
variable {l : WordLine} {d plane : Nat} {s : State}

theorem keeps_failBlock : MediaOnly s (failBlock l d plane s) :=
  ((keeps_dropLine l s).frame.trans (keeps_addBad ..).frame).trans (keeps_bumpErr ..).frame

theorem failBlock_lines : ∀ x ∈ (failBlock l d plane s).media.lines, ¬ (x.band = l.band ∧ x.wl = l.wl) := by
  have added : Keeps Media.lines _ (addBad d plane l.band 1 (dropLine l s)) := (keeps_addBad ..).of Media.lines
  have counted : Keeps Media.lines _ (failBlock l d plane s) := (keeps_bumpErr ..).of Media.lines
  rw [counted.same, added.same, dropLine_lines]
  intro x mem
  have other := (List.mem_filter.1 mem).2
  simp only [Bool.or_eq_true, decide_eq_true_eq] at other
  exact fun ⟨band, wl⟩ => other.elim (· band) (· wl)

theorem failBlock_records {block : Nat} (at_ : s.blockOf d plane (l.band % 2800) = some block) :
    (failBlock l d plane s).recordsBad (s.dieSieve d) (s.dieChannel d) (s.diePos d) plane block := by
  have dropped : Keeps Media.factoryBad s (dropLine l s) := (keeps_dropLine l s).of Media.factoryBad
  have replaced : ((dropLine l s).die d).replaced = (s.die d).replaced := (congrArg Die.replaced (standing_dropLine l d s) :)
  have records := addBad_records (cause := 1) ((blockOf_congr replaced dropped.same plane (l.band % 2800)).trans at_)
  have sieve : (dropLine l s).dieSieve d = s.dieSieve d := by unfold State.dieSieve; rw [dropped.part]
  have channel : (dropLine l s).dieChannel d = s.dieChannel d := by unfold State.dieChannel; rw [dropped.part]
  have position : (dropLine l s).diePos d = s.diePos d := by unfold State.diePos; rw [dropped.part]
  have counted : Keeps Media.grownBad _ (failBlock l d plane s) := (keeps_bumpErr ..).of Media.grownBad
  unfold State.recordsBad at records ⊢
  rw [counted.same]
  rwa [sieve, channel, position] at records

/-- A word line whose program fails: it is gone, and the block is grown-bad. -/
theorem failLine_facts {block : Nat} (at_ : s.blockOf d plane (l.band % 2800) = some block) :
    Drops (fun _ => ()) s (failLine l d plane s) ∧ (∀ x ∈ (failLine l d plane s).media.lines, ¬ (x.band = l.band ∧ x.wl = l.wl)) ∧
      (failLine l d plane s).recordsBad (s.dieSieve d) (s.dieChannel d) (s.diePos d) plane block := by
  have lost := failLine_drops l d plane s
  have lines : (failLine l d plane s).media.lines = (failBlock l d plane s).media.lines := congrArg Prod.fst lost.same
  have bad : (failLine l d plane s).media.grownBad = (failBlock l d plane s).media.grownBad := congrArg Prod.snd lost.same
  have block_ : Drops (fun _ => ()) s (failBlock l d plane s) := Works.drops ⟨keeps_failBlock.mediaWork, rfl⟩
  refine ⟨block_.trans ⟨lost.frame, rfl⟩, ?_, ?_⟩
  · rw [lines]
    exact failBlock_lines
  · unfold State.recordsBad
    rw [bad]
    exact failBlock_records at_

end

end Sys2Proof.Machine
end

section
/-!
PROOFS. What the media engine does (R160 to R213): O56, clause by clause.
-/

namespace Sys2Proof.Proofs

open Sys2Proof Sys2Proof.Machine

/-- Settles O56: each event by the state that it leaves to the settling of the media. A word line's kind is that of the program (log entry 170), and the
journal stripe that begins is the only one (log entry 200). -/
theorem mediaEngine : Obligations.MediaEngine := by
  unfold Obligations.MediaEngine
  intro s m Work Then Copied Got Charged
  refine ⟨fun d r op res turn at_ serve reports => ?pageRead, fun a ok r found ready => ?readAround,
    fun k wl v kind l d noReserve noRebuild line own serves inside op programs => ?program,
    fun k v d erasing serves inside op own => ?erase,
    fun d inside idle => ⟨suspendResume_program inside idle, suspendResume_erase inside idle⟩,
    fun j v entries due free band => ?journal, fun due quiet idle => ?checkpoint, fun c check rest items dir idle => ?checkpointEnd,
    fun k runs victim => ?collection,
    fun a res quiet due => ⟨fun d op at_ serve idle planes => ?tilling, fun serve => ?unreadable⟩⟩
  case pageRead =>
    intro got state
    obtain ⟨ends, served, charged, counts⟩ := pageReadComplete_turn (got := got) turn at_ serve reports rfl
    obtain ⟨report, counts⟩ := Prod.mk.inj (counts.trans (readPages_counts d op r got s))
    obtain ⟨retried, counts⟩ := Prod.mk.inj counts
    obtain ⟨soft, counts⟩ := Prod.mk.inj counts
    obtain ⟨uncorrectable, suspends⟩ := Prod.mk.inj counts
    exact ⟨_, ends, served, charged, report, retried, soft, uncorrectable, suspends, pageRead_delivers, pageRead_rechecks turn, pageRead_rebuilds turn⟩
  case readAround =>
    intro reach good
    have held := List.find?_some found
    simp only [Bool.and_eq_true, decide_eq_true_eq] at held
    obtain ⟨⟨rfl, -⟩, -⟩ := held
    obtain ⟨ends, served, charged, counted, report⟩ := readAroundComplete_found (ok := ok) found ready
    exact ⟨_, ends, served, charged, counted, report, readAround_delivers, readAround_mismatch, readAround_loses⟩
  case program =>
    intro dies lines
    have passed := programDone_passed noReserve noRebuild line own serves op programs
    have failed := programDone_failed noReserve noRebuild line own serves op programs
    obtain ⟨rfl, rfl⟩ := wordLine_mem line
    subst own
    refine ⟨fun ⟨w, mem, other, left⟩ => ?_, fun last => ?_, fun plane block at_ => ?_⟩
    · rw [if_neg fun all => by simpa [other, left] using List.all_eq_true.1 all w mem, memberDone_inside inside] at passed
      exact congrArg Host.Outcome.next passed
    · rw [if_pos (List.all_eq_true.2 fun w mem => by simpa using last w mem)] at passed
      refine ⟨_, congrArg Host.Outcome.next passed, (closeLast_work v d l s).ofSearches, closeLast_lines v d l s, closeLast_filled v d,
        fun p mem x => closeLast_journal v d mem, fun stripe => ?_⟩
      obtain ⟨next, written⟩ := closeLast_stripe v d (s := s) stripe
      exact ⟨next, written, fun o i new old n => closeLast_unit v d stripe⟩
    · obtain ⟨dropped, gone, records⟩ := failLine_facts at_
      exact ⟨_, congrArg Host.Outcome.next (failed plane), dropped.work, gone, records⟩
  case erase =>
    intro Out_
    have frame : MediaOnly s (endErase k (eraseSet k v d s)) := endErase_frame
    refine ⟨_, congrArg Host.Outcome.next (eraseDone_passes erasing serves op own), noteIdle_work frame, ?_⟩
    rw [noteIdle_die frame, noteIdle_band, noteIdle_media]
    exact ⟨endErase_die inside, endErase_band, endErase_erased⟩
  case journal =>
    exact ⟨_, journalStripeTimeout_due entries due free band, beginStripe_served band, stripeLine j v, beginStripe_line j v, rfl, rfl, rfl, rfl,
      stripeLine_entries j v, beginStripe_journal j v⟩
  case checkpoint =>
    obtain ⟨at_, place, begun⟩ := beginCheckpoint_check s
    exact ⟨_, mapCheckpoint_due due quiet idle, beginCheckpoint_served s, at_, _, begun, rfl, rfl, rfl, rfl,
      fun g mem dirty => mem_dirtySegments.2 (.inl ⟨g, mem, dirty, rfl⟩), fun x mem => mem_dirtySegments.2 (.inr ⟨x, mem, rfl⟩), rfl⟩
  case checkpointEnd =>
    obtain ⟨none_, seq, head, directory, journaled⟩ := endCheckpoint_state c s
    rw [stepCheckpoint_ends check rest items dir idle]
    exact ⟨none_, seq, endCheckpoint_rootSeq c s, head, directory, journaled, endCheckpoint_bank c s⟩
  case collection =>
    exact ⟨_, garbageCollection_takes runs victim, (keeps_takeVictim k s).frame.served, takeVictim_band k s, fun y => takeVictim_copied⟩
  case tilling =>
    intro got state
    have reports : (s.tillRead a res).reports res = true := decide_eq_true (planes.trans (by decide : [0, 1, 2, 3] = planesOf 0xFFFF))
    exact ⟨_, congrArg Host.Outcome.next (tilling_direct quiet due at_ serve idle reports), (tillState_work a op d res s).ofSearches,
      (tilledPlace_last ..).trans (tillState_now ..), tillState_passes op d, tillingRead_copies op d,
      fun fails => ⟨_, tillingRead_rebuilds op d fails, rfl, rfl, rfl, rfl⟩⟩
  case unreadable =>
    obtain ⟨only, reported⟩ := tillingRead_around (a := a) (s := s)
    exact ⟨_, congrArg Host.Outcome.next (tilling_around quiet due serve), only.served, tilledPlace_last .., reported⟩

end Sys2Proof.Proofs
end

section
/-!
PROOFS. SET_FEATURE (R204, R212, R470, Tables 3-17 and 3-18): the feature that a payload in order names is set, and O6.
-/

namespace Sys2Proof.Machine

open Sys2Proof

section
variable {feature : Nat} {ok : Nat → Bool} {set_ : Cmd → Nat → State → State} {s : State} {k : CmdKey} {c : Cmd}
  (payload : featureOk c.payload = true) (named : fieldAt c.payload 0 2 = feature) (inside : ok (fieldAt c.payload 8 8) = true)
include payload named inside

/-- A value within the feature's range is set and answered. -/
theorem setFeature_inside (s : State) : setFeature feature ok set_ c s =
    reply c stOk (leBytes 8 (fieldAt c.payload 8 8)) (set_ c (fieldAt c.payload 8 8) s) := by
  simp [setFeature, payload, named, inside]

theorem setFeature_answered (h : ReadyAdmin s k 0x04 c) : ∃ t, (.next (withCmd 0x04 k (setFeature feature ok set_) s) : Out) = .next t ∧
    Answered (set_ c (fieldAt c.payload 8 8) s) t c stOk (leBytes 8 (fieldAt c.payload 8 8)) [] := by
  refine ⟨_, congrArg Host.Outcome.next (withCmd_ready _ h.toReady), ?_⟩
  rw [setFeature_inside payload named inside]
  exact reply_answered _ _ _ h.key_queue

end

end Sys2Proof.Machine

namespace Sys2Proof.Proofs

open Sys2Proof.Machine

/-- Settles O6: each feature is one row of Table 3-18, whose range lets the value through; a feature of the module is written with a root set. -/
theorem featureSet : Obligations.FeatureSet := by
  unfold Obligations.FeatureSet
  intro s k c h len reserved
  obtain rfl := h.toReady.key
  have payload : ∀ n ∈ [1, 2, 3, 4], fieldAt c.payload 0 2 = n → featureOk c.payload = true := by
    rintro n known rfl
    simpa [featureOk, len, reserved] using known
  refine ⟨fun mask => ?_, fun till low high => ?_, fun interval low high => ?_, fun throttle high => ?_⟩
  · exact setFeature_answered (payload 1 (by decide) mask) mask rfl h
  · exact setFeature_answered (payload 2 (by decide) till) till (by simp [low, high]) h
  · exact setFeature_answered (payload 3 (by decide) interval) interval (by simp [low, high]) h
  · exact setFeature_answered (payload 4 (by decide) throttle) throttle (by simp [high]) h

end Sys2Proof.Proofs
end

section
/-!
PROOFS. Units unmapped (R191, R245): the keys of units, the mapped units of a range, and the map after a range of it is unmapped.
-/

namespace Sys2Proof.Machine

open Sys2Proof

/- Units and their keys -/

theorem unitKey_inj {o w i j : Nat} (hi : i < 2 ^ 40) (hj : j < 2 ^ 40) (same : unitKey o i = unitKey w j) : o = w ∧ i = j := by
  unfold unitKey at same
  omega

theorem mem_mappedIn {s : State} {o first end_ u : Nat} (h : u ∈ s.mappedIn o first end_) : first ≤ u ∧ u < end_ ∧ u < 2 ^ 40 := by
  obtain ⟨e, mem, rfl⟩ := List.mem_map.1 h
  have bounds := (List.mem_filter.1 mem).2
  simp only [Bool.and_eq_true, decide_eq_true_eq] at bounds
  unfold unitKey at bounds
  omega

theorem mappedIn_of_entry {s : State} {o first end_ i : Nat} (mapped : s.entry o i ≠ none) (low : first ≤ i) (high : i < end_)
    (small : i < 2 ^ 40) : i ∈ s.mappedIn o first end_ := by
  obtain ⟨e, found⟩ := Option.ne_none_iff_exists'.1 mapped
  refine List.mem_map.2 ⟨(unitKey o i, e), List.mem_filter.2 ⟨mem_of_kvGet found, ?_⟩, ?_⟩
  · simp only [Bool.and_eq_true, decide_eq_true_eq]
    unfold unitKey
    omega
  · show unitKey o i % 2 ^ 40 = i
    unfold unitKey
    omega

theorem kvDel_absent {α : Type} {k : Nat} {t : KV α} (absent : kvGet k t = none) : kvDel k t = t := by
  induction t with
  | nil => rfl
  | cons p t ih =>
    obtain ⟨j, w⟩ := p
    simp only [kvGet] at absent
    split at absent
    · exact absurd absent nofun
    · next other => simp only [kvDel, other, if_false, ih absent]

/- One unit unmapped -/

/-- An unmapped unit stays so, another is mapped to nothing. -/
theorem unmap_cases (owner unit : Nat) (s : State) :
    (s.entry owner unit = none ∧ unmap owner unit s = s) ∨ unmap owner unit s = remap owner unit none s := by
  unfold unmap
  split
  · next absent => exact .inl ⟨absent, rfl⟩
  · exact .inr rfl

theorem keeps_unmap (owner unit : Nat) (s : State) : Keeps Media.butMap s (unmap owner unit s) := by
  rcases unmap_cases owner unit s with ⟨_, same⟩ | unmaps
  · rw [same]
    exact Keeps.refl s
  · rw [unmaps]
    exact keeps_remap ..

theorem unmap_map (owner unit : Nat) (s : State) : (unmap owner unit s).media.map = kvDel (unitKey owner unit) s.media.map := by
  rcases unmap_cases owner unit s with ⟨absent, same⟩ | unmaps
  · rw [same, kvDel_absent absent]
  · rw [unmaps]
    rfl

theorem sorted_unmap (owner unit : Nat) {s : State} (sorted : kvSorted s.media.map = true) : kvSorted (unmap owner unit s).media.map = true := by
  rw [unmap_map]
  exact kvSorted_kvDel _ _ sorted

theorem entry_unmap {owner unit : Nat} {s : State} (sorted : kvSorted s.media.map = true) (w i : Nat) :
    (unmap owner unit s).entry w i = if unitKey owner unit = unitKey w i then none else s.entry w i := by
  unfold State.entry
  rw [unmap_map]
  split
  · next own => rw [own, kvGet_kvDel_same _ _ sorted]
  · next other => exact kvGet_kvDel_other _ other

/- A range unmapped -/

/-- Some units of an owner unmapped, and those of a range. -/
def unmapAll (owner : Nat) (us : List Nat) (s : State) : State := us.foldl (fun s u => unmap owner u s) s
def unmapRange (owner first end_ : Nat) (s : State) : State := unmapAll owner (s.mappedIn owner first end_) s

theorem keeps_unmapAll (owner : Nat) (us : List Nat) (s : State) : Keeps Media.butMap s (unmapAll owner us s) :=
  Keeps.foldl (fun u i => keeps_unmap owner i u) us s

theorem keeps_unmapRange (owner first end_ : Nat) (s : State) : Keeps Media.butMap s (unmapRange owner first end_ s) := keeps_unmapAll ..

/-- Besides the media's map, its cache and the open journal stripe nothing has changed. -/
theorem Keeps.mapOnly {s u : State} (h : Keeps Media.butMap s u) : u = { s with media := { s.media with
    map := u.media.map, segments := u.media.segments, journal := u.media.journal, journalAt := u.media.journalAt } } := by
  have media : u.media = { s.media with
      map := u.media.map, segments := u.media.segments, journal := u.media.journal, journalAt := u.media.journalAt } :=
    (congrArg (fun m : Media => { m with
      map := u.media.map, segments := u.media.segments, journal := u.media.journal, journalAt := u.media.journalAt }) h.same :)
  calc u = { s with media := u.media } := h.frame
    _ = _ := congrArg (fun m : Media => { s with media := m }) media

theorem entry_unmapAll (owner : Nat) (us : List Nat) {s : State} (sorted : kvSorted s.media.map = true) (w i : Nat) :
    (unmapAll owner us s).entry w i = if ∃ u ∈ us, unitKey owner u = unitKey w i then none else s.entry w i := by
  induction us generalizing s with
  | nil => exact (if_neg (by simp)).symm
  | cons u us ih =>
    refine (ih (sorted_unmap owner u sorted)).trans ?_
    rw [entry_unmap sorted]
    by_cases own : unitKey owner u = unitKey w i <;> simp [own]

section
variable {owner first end_ : Nat} {s : State} (sorted : kvSorted s.media.map = true)
include sorted

/-- Of the range no unit is mapped. -/
theorem entry_unmapRange_inside {i : Nat} (low : first ≤ i) (high : i < end_) (small : i < 2 ^ 40) :
    (unmapRange owner first end_ s).entry owner i = none := by
  rw [unmapRange, entry_unmapAll _ _ sorted]
  split
  · rfl
  · next left =>
    by_contra mapped
    exact left ⟨i, mappedIn_of_entry mapped low high small, rfl⟩

/-- Every other unit keeps its entry. -/
theorem entry_unmapRange_outside {w i : Nat} (small : i < 2 ^ 40) (outside : ¬ (w = owner ∧ first ≤ i ∧ i < end_)) :
    (unmapRange owner first end_ s).entry w i = s.entry w i := by
  rw [unmapRange, entry_unmapAll _ _ sorted, if_neg]
  rintro ⟨u, mem, same⟩
  obtain ⟨low, high, small_⟩ := mem_mappedIn mem
  obtain ⟨rfl, rfl⟩ := unitKey_inj small_ small same
  exact outside ⟨rfl, low, high⟩

end

end Sys2Proof.Machine
end

section
/-!
PROOFS. Settling the media (R188, R194, R196, R199, R244, R246): what `settleMedia` leaves as it was, before the waits that have ended complete.
-/

namespace Sys2Proof.Machine

open Sys2Proof

/- Turns: work on the media that gives no band up -/

/-- The band holds data, or is opened to: it is neither FREE nor RETIRED (Table 6-6). -/
def Band.inUse (b : Band) : Prop := b.state ≠ .free ∧ b.state ≠ .retired

/-- t is u after work on the media only, which leaves this view of them and every band in use. -/
structure Turns {β : Type} (view : Media → β) (u t : State) : Prop extends Keeps view u t where
  inUse : ∀ k, (u.band k).inUse → (t.band k).inUse

section
variable {β γ : Type} {view : Media → β} {s u t : State}

theorem Turns.refl (s : State) : Turns view s s := ⟨Keeps.refl s, fun _ h => h⟩

theorem Turns.trans (first : Turns view s u) (second : Turns view u t) : Turns view s t :=
  ⟨first.toKeeps.trans second.toKeeps, fun k h => second.inUse k (first.inUse k h)⟩

theorem Turns.foldl {α : Type} {f : State → α → State} (step : ∀ s a, Turns view s (f s a)) (l : List α) (s : State) : Turns view s (l.foldl f s) :=
  List.foldlRecOn l f (motive := Turns view s) (Turns.refl s) fun u so a _ => so.trans (step u a)

theorem Turns.ite {c : Prop} [Decidable c] {a b : State} (yes : Turns view s a) (no : Turns view s b) : Turns view s (if c then a else b) := by
  split
  · exact yes
  · exact no

theorem Turns.of (h : Turns view s t) (g : β → γ) : Turns (fun m => g (view m)) s t := ⟨h.toKeeps.of g, h.inUse⟩

theorem Keeps.turns (h : Keeps view s t) (bands : t.media.bands = s.media.bands) : Turns view s t :=
  ⟨h, fun k used => (band_congr bands k).symm ▸ used⟩

end

/-- The media but for what settling them changes while no checkpoint is under way, and but for what a checkpoint changes too. -/
def Media.butSettled (m : Media) : Media := { m with
  bands := [], journal := [], journalAt := 0, bandSeq := 0, segments := [], copies := [], reads := [], lines := [], dies := []
  flushAll := false, spareOut := false }
def Media.butCheckpoint (m : Media) : Media := { m.butSettled with
  check := none, delta := [], checkpointSeq := 0, journaled := 0, directory := [], dirPlace := none, headPlace := none, headSeq := 0
  rootSeq := 0, bankA := none, rootsLeft := [], bankB := none }

/- Bands -/

theorem turns_modBand {f : Band → Band} (same : ∀ b, (f b).state = b.state) (k : Nat) (s : State) : Turns Media.butBands s (modBand k f s) := by
  refine ⟨keeps_modBand k f s, fun i used => ?_⟩
  by_cases own : k = i
  · subst own
    rw [band_modBand_same]
    unfold Band.inUse
    rwa [same]
  · rwa [band_modBand_other own]

theorem turns_setBand {st : BandState} (free : st ≠ .free) (retired : st ≠ .retired) (k : Nat) (s : State) :
    Turns Media.butBands s (setBand k st s) := by
  refine ⟨keeps_setBand k st s, fun i used => ?_⟩
  by_cases own : k = i
  · subst own
    rw [band_setBand_same]
    exact ⟨free, retired⟩
  · rwa [band_setBand_other own]

theorem turns_openBand (k : Nat) (kind : StripeKind) (s : State) : Turns Media.butOpened s (openBand k kind s) := by
  have laid : Turns Media.butOpened s (modBand k (fun b => { b with
      kind := kind, seq := s.media.bandSeq + 1, sieves := s.rowSieves (k / 2800), filled := 0, progAt := [] }) s) :=
    (turns_modBand (by intro; rfl) k s).of Media.butOpened
  have numbered : ∀ u : State, Turns Media.butOpened u (modMedia (fun m => { m with bandSeq := s.media.bandSeq + 1 }) u) :=
    fun u => (keeps_modMedia (by intro; rfl) u).turns rfl
  exact (laid.trans (numbered _)).trans ((turns_setBand (by decide) (by decide) k _).of Media.butOpened)

theorem turns_journalBand {s v : State} {j : Nat} (h : journalBand s = some (j, v)) : Turns Media.butOpened s v := by
  unfold journalBand at h
  split at h
  · obtain ⟨-, rfl⟩ := Prod.mk.inj (Option.some.inj h)
    exact Turns.refl s
  · obtain ⟨k, -, opened⟩ := Option.map_eq_some_iff.1 h
    obtain ⟨-, rfl⟩ := Prod.mk.inj opened
    exact turns_openBand ..

theorem turns_mapBand {s v : State} {k n : Nat} (h : mapBand s = some (k, n, v)) : Turns Media.butOpened s v := by
  unfold mapBand at h
  dsimp only at h
  split at h
  · obtain ⟨-, -, rfl⟩ := Option.some.inj h
    exact Turns.refl s
  · obtain ⟨j, -, opened⟩ := Option.bind_eq_some_iff.1 h
    split at opened
    · obtain ⟨-, -, rfl⟩ := Option.some.inj opened
      exact turns_openBand ..
    · exact absurd opened nofun

theorem turns_takeVictim (k : Nat) (s : State) : Turns Media.butVictims s (takeVictim k s) := by
  have dirty : Turns Media.butVictims s (modMedia (fun m => { m with
      segments := (s.segmentsIn k).foldl (fun l n => touch n true l) m.segments }) s) := (keeps_modMedia (by intro; rfl) s).turns rfl
  have copied := keeps_copyOut (s.liveIn k) (beginVictim k s)
  rw [takeVictim_eq]
  exact (dirty.trans ((turns_setBand (by decide) (by decide) k _).of Media.butVictims)).trans
    ((copied.of Media.butVictims).turns (congrArg Media.bands copied.same :))

/- The steps of settling -/

/-- The copies whose units still stand at their sources. -/
def dropDeadCopies (s : State) : State := modMedia (fun m => { m with copies := m.copies.filter fun j => s.copyLives j }) s

theorem turns_settleBands (s : State) : Turns Media.butSettled s (settleBands s) := by
  have left : Turns Media.butSettled s (dropDeadCopies s) := (keeps_modMedia (by intro; rfl) s).turns rfl
  exact left.trans (Turns.foldl (fun u (b : Nat × Band) =>
    Turns.ite ((turns_setBand (by decide) (by decide) b.1 u).of Media.butSettled) (Turns.refl u)) _ _)

theorem turns_beginStripe (j : Nat) (v : State) : Turns Media.butSettled v (beginStripe j v) := by
  unfold beginStripe
  exact (keeps_modMedia (by intro; rfl) v).turns rfl

theorem turns_beginJournal (s : State) : Turns Media.butSettled s (beginJournal s) := by
  unfold beginJournal
  split
  · exact Turns.refl s
  · split
    · exact Turns.refl s
    · next j v band => exact ((turns_journalBand band).of Media.butSettled).trans (turns_beginStripe j v)

theorem turns_settleJournal (s : State) : Turns Media.butSettled s (settleJournal s) := Turns.ite (turns_beginJournal s) (Turns.refl s)

theorem turns_settlePads (s : State) : Turns Media.butSettled s (settlePads s) := by
  refine Turns.foldl (fun u (b : Nat × Band) => Turns.ite ?_ (Turns.ite ((turns_takeVictim b.1 u).of Media.butSettled) (Turns.refl u))) _ s
  exact (keeps_modMedia (by intro; rfl) u).turns rfl

theorem turns_reuseJournal (s : State) : Turns Media.butBands s (reuseJournal s) :=
  Turns.foldl (fun u (b : Nat × Band) => turns_setBand (by decide) (by decide) b.1 u) _ s

theorem bands_writeRoot (fresh : Bool) (m : Media) : (Media.writeRoot fresh m).bands = m.bands := by
  unfold Media.writeRoot
  dsimp only
  split <;> rfl

theorem butCheckpoint_writeRoot (fresh : Bool) (m : Media) : (Media.writeRoot fresh m).butCheckpoint = m.butCheckpoint := by
  unfold Media.writeRoot
  dsimp only
  split <;> rfl

theorem turns_endCheckpoint (c : Checkpoint) (s : State) : Turns Media.butCheckpoint s (endCheckpoint c s) := by
  have recorded : Turns Media.butCheckpoint s (modMedia (Media.checkpointed c) s) := (keeps_modMedia (by intro; rfl) s).turns rfl
  have written : ∀ u : State, Turns Media.butCheckpoint u (writeRoot u) :=
    fun u => (keeps_modMedia (butCheckpoint_writeRoot false) u).turns (bands_writeRoot ..)
  exact (recorded.trans (written _)).trans ((turns_reuseJournal _).of Media.butCheckpoint)

theorem stepCheckpoint_idle {s : State} (idle : s.media.check = none) : stepCheckpoint s = s := by
  unfold stepCheckpoint
  rw [idle]

theorem turns_stepCheckpoint (s : State) : Turns Media.butCheckpoint s (stepCheckpoint s) := by
  have begun : ∀ (f : Media → Media) (u : State), (∀ m, (f m).butCheckpoint = m.butCheckpoint) → (∀ m, (f m).bands = m.bands) →
      Turns Media.butCheckpoint u (modMedia f u) := fun f u same bands => (keeps_modMedia same u).turns (bands u.media)
  unfold stepCheckpoint
  split
  · exact Turns.refl s
  · dsimp only
    refine Turns.ite (Turns.refl s) (Turns.ite (begun _ s (by intro; rfl) (by intro; rfl)) (Turns.ite (turns_endCheckpoint ..) ?_))
    split
    · exact Turns.refl s
    · next k n v band =>
      have opened : Turns Media.butCheckpoint s v := (turns_mapBand band).of Media.butCheckpoint
      refine opened.trans (Turns.ite ?_ (begun _ v (by intro; rfl) (by intro; rfl)))
      exact (begun _ v (by intro; rfl) (by intro; rfl)).trans (begun _ _ (by intro; rfl) (by intro; rfl))

theorem turns_modDie (d : Nat) (f : Die → Die) (s : State) : Turns Media.butSettled s (modDie d f s) := by
  have kept := keeps_modDie d f s
  exact (kept.of Media.butSettled).turns (congrArg Media.bands kept.same :)

theorem turns_settleDies (s : State) : Turns Media.butSettled s (settleDies s) := by
  refine Turns.trans (u := s.media.lines.foldl _ s) (Turns.foldl (fun u l => Turns.foldl (fun w v => ?_) _ u) _ s)
    (Turns.foldl (fun u b => Turns.foldl (fun w v => ?_) _ u) _ _) <;>
  · split
    · exact Turns.refl w
    · exact Turns.ite (turns_modDie ..) (Turns.refl w)

theorem turns_settlePrio (s : State) : Turns Media.butSettled s (settlePrio s) := by
  refine Turns.ite (Turns.foldl (fun u b => Turns.foldl (fun w v => ?_) _ u) _ s) (Turns.refl s)
  split
  · exact Turns.refl w
  · exact turns_modDie ..

/-- A warning flush ends when nothing acknowledged is left in the write buffer. -/
def endFlush (s : State) : State :=
  if s.media.flushAll ∧ !(s.media.slots.any fun x => x.2.acked) then modMedia (fun m => { m with flushAll := false }) s else s
/-- The media settled before the waits that have ended complete, and after. -/
def settleFirst (s : State) : State := settleBands (endFlush (settlePads (stepCheckpoint (settleJournal (settleBands s)))))
def settleLast (s : State) : State := settleMargin (settlePrio (settleDies s))

theorem settleMedia_eq (s : State) : settleMedia s = settleLast (settleWaits (settleFirst s)) := rfl

theorem turns_endFlush (s : State) : Turns Media.butSettled s (endFlush s) := by
  unfold endFlush
  exact Turns.ite ((keeps_modMedia (by intro; rfl) s).turns rfl) (Turns.refl s)

/-- What the checkpoint's next step leaves, settling leaves. -/
theorem turns_settleFirst_of {β : Type} {g : Media → β} {s : State} (step : ∀ u : State, u.media.check = s.media.check →
    Turns (fun m => g m.butSettled) u (stepCheckpoint u)) : Turns (fun m => g m.butSettled) s (settleFirst s) := by
  have begun := (turns_settleBands s).trans (turns_settleJournal (settleBands s))
  have ended : ∀ u, Turns Media.butSettled u (settleBands (endFlush (settlePads u))) :=
    fun u => ((turns_settlePads u).trans (turns_endFlush _)).trans (turns_settleBands _)
  exact ((begun.of g).trans (step _ (congrArg Media.check begun.same :))).trans ((ended _).of g)

theorem turns_settleFirst (s : State) : Turns Media.butCheckpoint s (settleFirst s) :=
  turns_settleFirst_of (g := Media.butCheckpoint) fun u _ => turns_stepCheckpoint u

theorem turns_settleFirst_idle {s : State} (idle : s.media.check = none) : Turns Media.butSettled s (settleFirst s) := by
  refine turns_settleFirst_of (g := fun m => m) fun u same => ?_
  rw [stepCheckpoint_idle (same.trans idle)]
  exact Turns.refl u

end Sys2Proof.Machine
end

section
/-!
PROOFS. Waits that have ended (R241, R244, R246): what completing them leaves, the wait for erases, and settling as a whole.
-/

namespace Sys2Proof.Machine

open Sys2Proof

/- One command answered or put in another phase -/

/-- The outstanding commands under a key. -/
def State.cmdsOf (s : State) (k : CmdKey) : List Cmd := s.cmds.filter fun d => decide (d.key = k)

theorem mem_cmdsOf {s : State} {k : CmdKey} {d : Cmd} : d ∈ s.cmdsOf k ↔ d ∈ s.cmds ∧ d.key = k := by
  simp [State.cmdsOf]

theorem cmdsOf_congr {s t : State} (same : t.cmds = s.cmds) (k : CmdKey) : t.cmdsOf k = s.cmdsOf k := by
  unfold State.cmdsOf
  rw [same]

/-- t is u after a reply was made to the command of this key, or the phase of the command changed: the replies made before stand, and
so do the other commands. -/
structure Moves (k : CmdKey) (u t : State) : Prop where
  replied : Replied u t
  replies : u.replies ⊆ t.replies
  others : ∀ j, j ≠ k → t.cmdsOf j = u.cmdsOf j

theorem Moves.refl (k : CmdKey) (s : State) : Moves k s s := ⟨Replied.refl s, List.Subset.refl _, fun _ _ => rfl⟩

theorem Moves.ite {c : Prop} [Decidable c] {k : CmdKey} {s a b : State} (yes : Moves k s a) (no : Moves k s b) :
    Moves k s (if c then a else b) := by
  split
  · exact yes
  · exact no

theorem Replied.media {u t : State} (h : Replied u t) : t.media = u.media := (congrArg State.media h :)
theorem Replied.sessions {u t : State} (h : Replied u t) : t.sessions = u.sessions := (congrArg State.sessions h :)

theorem Replied.mediaWork {u t : State} (h : Replied u t) : MediaWork u t := by
  calc t = _ := h
    _ = _ := by rw [h]

/-- Commands of other keys are not among those that a change of one key's commands touches. -/
theorem cmdsOf_map {k j : CmdKey} (other : j ≠ k) {f : Cmd → Cmd} (key : ∀ d, (f d).key = d.key) (l : List Cmd) :
    (l.map fun d => if d.key = k then f d else d).filter (fun d => decide (d.key = j)) = l.filter fun d => decide (d.key = j) := by
  induction l with
  | nil => rfl
  | cons d l ih =>
    by_cases own : d.key = k
    · have left : d.key ≠ j := fun same => other (same.symm.trans own)
      simp only [List.map_cons, if_pos own, List.filter_cons, key, left, decide_false, Bool.false_eq_true, if_false, ih]
    · simp only [List.map_cons, if_neg own, List.filter_cons, ih]

theorem moves_modCmd (k : CmdKey) {f : Cmd → Cmd} (key : ∀ d, (f d).key = d.key) (s : State) : Moves k s (modCmd k f s) :=
  ⟨rfl, List.Subset.refl _, fun _ other => cmdsOf_map other key s.cmds⟩

theorem moves_putReply (c : Cmd) (status : Nat) (sh : Bool) (payload : List Byte) (kib : Nat) (acts : List Act) (s : State) :
    Moves c.key s (putReply c status sh payload kib acts s) :=
  ⟨rfl, List.subset_append_left _ _, fun _ other => cmdsOf_map (f := fun d => { d with phase := .replied, parts := [], stagedKib := 0 }) other
    (fun _ => rfl) s.cmds⟩

theorem moves_reply (c : Cmd) (status : Nat) (payload : List Byte) (s : State) : Moves c.key s (reply c status payload s) := by
  unfold reply complete
  split
  · exact moves_putReply ..
  · exact Moves.ite (moves_modCmd c.key (by intro; rfl) s) (moves_putReply ..)

/- The waits -/

/-- A command whose units are durable completes (R241, R244, R302, R304, R444). -/
def endDurable (c : Cmd) (slots : List Nat) (s : State) : State :=
  if slots.any fun n => (kvGet n s.media.slots).isSome then s
  else match c.opcode with
    | 0x22 => reply c stOk (leBytes 8 c.tally) s
    | 0x42 => reply c stOk (c.ids.flatMap (leBytes 8)) s
    | 0x64 => reply c stOk (leBytes 8 c.tally ++ zeros 8) s
    | _ => reply c stOk [] s

/-- Of the bands whose erases a command waits for, those that have not been erased. -/
def State.unerased (s : State) (bands : List Nat) : List Nat :=
  bands.filter fun k => decide ((s.band k).state ≠ .free) && decide ((s.band k).state ≠ .retired)
/-- The units of its volume that a command lost while it waited. -/
def Cmd.lostUnits (c : Cmd) : List Nat := (c.lost.filter fun u => decide (u / 2 ^ 40 = fieldAt c.payload 0 1)).map (· % 2 ^ 40)

/-- A SECURE_DISCARD waits on for the erases that are left, or completes (R246). -/
def endErased (c : Cmd) (bands : List Nat) (all : Nat) (s : State) : State :=
  if s.unerased bands ≠ [] then modCmd c.key (fun c => { c with phase := .waiting (.erased (s.unerased bands) all) }) s
  else if c.lostUnits = [] then reply c stOk (leBytes 4 c.tally ++ leBytes 4 all) s
  else reply c stMediaUncorrectable (badReply c.tally (fieldAt c.payload 4 8 + fieldAt c.payload 12 4)
    ((unitRuns (sortNats c.lostUnits)).map fun r => (16 * r.1, 16 * r.2, 1))) s

/-- What a wait of one command comes to. -/
def settleWait (s : State) (c : Cmd) : State :=
  match c.phase with
  | .waiting (.durable slots) => endDurable c slots s
  | .waiting (.journaled n) =>
    if n ≤ s.media.journalSeq then reply c stOk (leBytes 8 c.tally ++ leBytes 8 (fieldAt c.payload 4 4 - c.tally)) s else s
  | .waiting (.erased bands all) => endErased c bands all s
  | _ => s

theorem settleWaits_eq (s : State) : settleWaits s = s.cmds.foldl settleWait s := rfl

theorem settleWait_erased {c : Cmd} {bands : List Nat} {all : Nat} (phase : c.phase = .waiting (.erased bands all)) (s : State) :
    settleWait s c = endErased c bands all s := by
  unfold settleWait
  rw [phase]

theorem moves_endDurable (c : Cmd) (slots : List Nat) (s : State) : Moves c.key s (endDurable c slots s) := by
  unfold endDurable
  refine Moves.ite (Moves.refl ..) ?_
  split <;> exact moves_reply ..

theorem moves_endErased (c : Cmd) (bands : List Nat) (all : Nat) (s : State) : Moves c.key s (endErased c bands all s) :=
  Moves.ite (moves_modCmd c.key (by intro; rfl) s) (Moves.ite (moves_reply ..) (moves_reply ..))

theorem moves_settleWait (s : State) (c : Cmd) : Moves c.key s (settleWait s c) := by
  unfold settleWait
  split
  · exact moves_endDurable ..
  · exact Moves.ite (moves_reply ..) (Moves.refl ..)
  · exact moves_endErased ..
  · exact Moves.refl ..

/- Some commands -/

/-- The reply to a command is among those made. -/
theorem Answered.made {u t : State} {c : Cmd} {status : Nat} {payload : List Byte} {acts : List Act} (h : Answered u t c status payload acts) :
    ∃ q ∈ t.replies, q.key = c.key ∧ q.status = status ∧ q.payload = payload := by
  obtain ⟨q, key, -, -, -, st, pay, -, -, -, rfl⟩ := h
  exact ⟨q, List.mem_append_right _ List.mem_cons_self, key, st, pay⟩

theorem replied_settleWaits (l : List Cmd) (s : State) : Replied s (l.foldl settleWait s) := replied_foldl (fun u c => (moves_settleWait u c).replied) l s

/-- The replies made stand. -/
theorem subset_foldl {f : State → Cmd → State} (step : ∀ s c, s.replies ⊆ (f s c).replies) (l : List Cmd) (s : State) :
    s.replies ⊆ (l.foldl f s).replies :=
  List.foldlRecOn l f (motive := fun u : State => s.replies ⊆ u.replies) (List.Subset.refl _) fun u so c _ => List.Subset.trans so (step u c)

/-- A command that waits for no band that is not erased, and has lost nothing, completes. -/
theorem settleWaits_completes {c : Cmd} {all : Nat} {s : State} (mem : c ∈ s.cmds) (phase : c.phase = .waiting (.erased [] all))
    (whole : c.lost = []) (open_ : (s.session c.key.session).phase ≠ .held) : ∃ q ∈ (settleWaits s).replies, q.key = c.key ∧ q.status = stOk ∧
      q.payload = leBytes 4 c.tally ++ leBytes 4 all := by
  obtain ⟨before, after, list⟩ := List.append_of_mem mem
  have sessions := (replied_settleWaits before s).sessions
  have ends : settleWait (before.foldl settleWait s) c = reply c stOk (leBytes 4 c.tally ++ leBytes 4 all) (before.foldl settleWait s) := by
    rw [settleWait_erased phase, endErased, if_neg (by simp [State.unerased]), if_pos (by simp [Cmd.lostUnits, whole])]
  have answered : Answered (before.foldl settleWait s) (settleWait (before.foldl settleWait s) c) c stOk (leBytes 4 c.tally ++ leBytes 4 all) [] := by
    rw [ends]
    refine complete_answered _ _ _ 0 [] _ (.inr ?_)
    rwa [State.session, sessions]
  obtain ⟨q, made, answers⟩ := answered.made
  refine ⟨q, ?_, answers⟩
  rw [settleWaits_eq, list, List.foldl_append, List.foldl_cons]
  exact subset_foldl (fun u d => (moves_settleWait u d).replies) after _ made

/-- The command of this key waits for erases, that of this band among them. -/
def State.awaitsErase (s : State) (k : CmdKey) (b : Nat) : Prop :=
  s.cmdsOf k ≠ [] ∧ ∀ d ∈ s.cmdsOf k, ∃ left all, d.phase = .waiting (.erased left all) ∧ b ∈ left

theorem awaitsErase_congr {s t : State} {k : CmdKey} {b : Nat} (same : t.cmdsOf k = s.cmdsOf k) (h : s.awaitsErase k b) : t.awaitsErase k b := by
  unfold State.awaitsErase
  rwa [same]

theorem mem_unerased {s : State} {b : Nat} {bands : List Nat} (mem : b ∈ bands) (used : (s.band b).inUse) : b ∈ s.unerased bands :=
  List.mem_filter.2 ⟨mem, by simpa [Band.inUse] using used⟩

/-- The command waits on while the band has not been erased. -/
theorem awaitsErase_settleWait {u : State} {c : Cmd} {k : CmdKey} {b : Nat} (used : (u.band b).inUse) (h : u.awaitsErase k b)
    (own : c.key = k → ∃ left all, c.phase = .waiting (.erased left all) ∧ b ∈ left) : (settleWait u c).awaitsErase k b := by
  by_cases other : k = c.key
  · subst other
    obtain ⟨left, all, phase, mem⟩ := own rfl
    have left_ := mem_unerased mem used
    rw [settleWait_erased phase, endErased, if_pos (List.ne_nil_of_mem left_)]
    obtain ⟨some_, -⟩ := h
    obtain ⟨d, there⟩ := List.exists_mem_of_ne_nil _ some_
    obtain ⟨mem, key⟩ := mem_cmdsOf.1 there
    refine ⟨List.ne_nil_of_mem (mem_cmdsOf.2 ⟨List.mem_map_of_mem mem, ?_⟩), fun e there => ?_⟩
    · rw [if_pos key]
      exact key
    · obtain ⟨mem, key⟩ := mem_cmdsOf.1 there
      obtain ⟨e, -, rfl⟩ := List.mem_map.1 mem
      by_cases own : e.key = c.key
      · rw [if_pos own]
        exact ⟨_, all, rfl, left_⟩
      · rw [if_neg own] at key
        exact absurd key own
  · exact awaitsErase_congr ((moves_settleWait u c).others k other) h

theorem awaitsErase_settleWaits {s : State} {k : CmdKey} {b : Nat} (used : (s.band b).inUse) (h : s.awaitsErase k b) :
    (settleWaits s).awaitsErase k b := by
  rw [settleWaits_eq]
  refine (List.foldlRecOn s.cmds settleWait (motive := fun u : State => Replied s u ∧ u.awaitsErase k b) ⟨Replied.refl s, h⟩
    fun u so c mem => ⟨so.1.trans (moves_settleWait u c).replied, awaitsErase_settleWait ?_ so.2 fun own => h.2 c (mem_cmdsOf.2 ⟨mem, own⟩)⟩).2
  rwa [band_congr (congrArg Media.bands so.1.media)]

/- The margin (R217, R218, R243) -/

/-- The module runs out of margin: held WRITEs end. -/
def refuseHeld (s : State) : State :=
  (s.cmds.filter fun c => decide (c.phase = .waiting .hold)).foldl (fun s c => fail c stSpareExhausted s) s
def markSpare (out : Bool) (s : State) : State := modMedia (fun m => { m with spareOut := out }) s

theorem settleMargin_cases (s : State) : settleMargin s = s ∨ ∃ u code sev args, (u = refuseHeld (markSpare true s) ∨ u = markSpare false s) ∧
    settleMargin s = raise code sev 0 0 0xFFFF args u := by
  unfold settleMargin
  split
  · exact .inr ⟨_, _, _, _, .inl rfl, rfl⟩
  · split
    · exact .inr ⟨_, _, _, _, .inr rfl, rfl⟩
    · exact .inl rfl

/-- t is u after work that shows beside the media: it leaves this view of them and the replies made. -/
structure Settles {β : Type} (view : Media → β) (u t : State) : Prop extends Works view u t where
  replies : u.replies ⊆ t.replies

section
variable {β : Type} {view : Media → β} {s u t : State}

theorem Settles.trans (first : Settles view s u) (second : Settles view u t) : Settles view s t :=
  ⟨first.toWorks.trans second.toWorks, List.Subset.trans first.replies second.replies⟩

theorem Keeps.settles (h : Keeps view s t) : Settles view s t := ⟨h.works, fun _ mem => (congrArg State.replies h.frame :).symm ▸ mem⟩

theorem Replied.settles (h : Replied s t) (replies : s.replies ⊆ t.replies) : Settles view s t := ⟨h.mediaWork.works h.media, replies⟩

theorem EventsOnly.settles (h : EventsOnly s t) : Settles view s t :=
  ⟨h.mediaWork.works h.media, fun _ mem => (congrArg State.replies h :).symm ▸ mem⟩

end

theorem replied_refuseHeld (s : State) : Replied s (refuseHeld s) := replied_foldl (fun u (_ : Cmd) => replied_fail _ _ u) _ s

theorem settles_refuseHeld {β : Type} {view : Media → β} (s : State) : Settles view s (refuseHeld s) :=
  (replied_refuseHeld s).settles (subset_foldl (fun u c => (moves_reply c stSpareExhausted [] u).replies) _ s)

theorem settles_settleMargin (s : State) : Settles Media.butSettled s (settleMargin s) := by
  have marked : ∀ out, Settles Media.butSettled s (markSpare out s) := fun out => Keeps.settles (keeps_modMedia (by intro; rfl) s)
  rcases settleMargin_cases s with same | ⟨u, code, sev, args, rfl | rfl, raises⟩
  · rw [same]
    exact (Keeps.refl s).settles
  · rw [raises]
    exact ((marked true).trans (settles_refuseHeld _)).trans (raise_events ..).1.settles
  · rw [raises]
    exact (marked false).trans (raise_events ..).1.settles

theorem cmdsOf_raise (code sev kind source ctx : Nat) (args : List Byte) (s : State) (k : CmdKey) :
    (raise code sev kind source ctx args s).cmdsOf k = s.cmdsOf k :=
  cmdsOf_congr (congrArg State.cmds (raise_events code sev kind source ctx args s).1 :) k

/-- A command that waits for erases is no held WRITE. -/
theorem awaitsErase_refuseHeld {s : State} {k : CmdKey} {b : Nat} (h : s.awaitsErase k b) : (refuseHeld s).awaitsErase k b := by
  refine List.foldlRecOn _ _ (motive := fun u : State => u.awaitsErase k b) h fun u so c mem => ?_
  obtain ⟨there, held⟩ := List.mem_filter.1 mem
  have held := of_decide_eq_true held
  refine awaitsErase_congr ((moves_reply c stSpareExhausted [] u).others k ?_) so
  rintro rfl
  obtain ⟨left, all, phase, -⟩ := h.2 c (mem_cmdsOf.2 ⟨there, rfl⟩)
  rw [held] at phase
  exact absurd phase nofun

theorem awaitsErase_settleMargin {s : State} {k : CmdKey} {b : Nat} (h : s.awaitsErase k b) : (settleMargin s).awaitsErase k b := by
  have marked : ∀ out, (markSpare out s).awaitsErase k b := fun out => h
  rcases settleMargin_cases s with same | ⟨u, code, sev, args, rfl | rfl, raises⟩
  · rwa [same]
  · rw [raises]
    exact awaitsErase_congr (cmdsOf_raise ..) (awaitsErase_refuseHeld (marked true))
  · rw [raises]
    exact awaitsErase_congr (cmdsOf_raise ..) (marked false)

/- Settling as a whole -/

theorem MediaOnly.cmdsOf {u t : State} (h : MediaOnly u t) (k : CmdKey) : t.cmdsOf k = u.cmdsOf k := cmdsOf_congr (congrArg State.cmds h :) k

theorem turns_settleOps (s : State) : Turns Media.butSettled s (settlePrio (settleDies s)) := (turns_settleDies s).trans (turns_settlePrio _)

theorem settles_settleWaits {β : Type} {view : Media → β} (s : State) : Settles view s (settleWaits s) :=
  Replied.settles (replied_settleWaits s.cmds s) (subset_foldl (fun u d => (moves_settleWait u d).replies) s.cmds s)

theorem settles_settleLast (s : State) : Settles Media.butSettled s (settleLast s) := (turns_settleOps s).toKeeps.settles.trans (settles_settleMargin _)

theorem Settles.of {β γ : Type} {view : Media → β} {s t : State} (h : Settles view s t) (g : β → γ) : Settles (fun m => g (view m)) s t :=
  ⟨h.toWorks.of g, h.replies⟩

theorem settles_settleMedia (s : State) : Settles Media.butCheckpoint s (settleMedia s) := by
  rw [settleMedia_eq]
  exact ((turns_settleFirst s).toKeeps.settles.trans (settles_settleWaits _)).trans ((settles_settleLast _).of Media.butCheckpoint)

/-- While no checkpoint is under way, settling writes no root set. -/
theorem settles_settleMedia_idle {s : State} (idle : s.media.check = none) : Settles Media.butSettled s (settleMedia s) := by
  rw [settleMedia_eq]
  exact ((turns_settleFirst_idle idle).toKeeps.settles.trans (settles_settleWaits _)).trans (settles_settleLast _)

/-- A command that waits for the erase of a band in use waits on. -/
theorem settleMedia_awaitsErase {s : State} {k : CmdKey} {b : Nat} (h : s.awaitsErase k b) (used : (s.band b).inUse) :
    (settleMedia s).awaitsErase k b := by
  have first := turns_settleFirst s
  have waits := awaitsErase_settleWaits (first.inUse b used) (awaitsErase_congr (first.frame.cmdsOf k) h)
  rw [settleMedia_eq]
  exact awaitsErase_settleMargin (awaitsErase_congr ((turns_settleOps _).frame.cmdsOf k) waits)

/-- A command that waits for no band, and has lost nothing, completes. -/
theorem settleMedia_completes {c : Cmd} {all : Nat} {s : State} (mem : c ∈ s.cmds) (phase : c.phase = .waiting (.erased [] all))
    (whole : c.lost = []) (open_ : (s.session c.key.session).phase ≠ .held) : ∃ q ∈ (settleMedia s).replies, q.key = c.key ∧ q.status = stOk ∧
      q.payload = leBytes 4 c.tally ++ leBytes 4 all := by
  have first := (turns_settleFirst s).frame
  have cmds : (settleFirst s).cmds = s.cmds := (congrArg State.cmds first :)
  have sessions : (settleFirst s).sessions = s.sessions := (congrArg State.sessions first :)
  obtain ⟨q, made, answers⟩ := settleWaits_completes (s := settleFirst s) (cmds.symm ▸ mem) phase whole (by rwa [State.session, sessions])
  rw [settleMedia_eq]
  exact ⟨q, (settles_settleLast _).replies made, answers⟩

end Sys2Proof.Machine
end

section
/-!
PROOFS. DISCARD, SECURE_DISCARD and VOLUME_DELETE (R221, R245, R246, R249): what each leaves to its reply or to the settling of the media, and O34.
-/

namespace Sys2Proof.Machine

open Sys2Proof

/- The checks of storage commands -/

theorem volumeFor_allowed {s : State} {vol session : Nat} {v : Volume} (found : kvGet vol s.media.volumes = some v)
    (allowed : bit v.sessions session = true) : s.volumeFor vol session = some v := by
  simp [State.volumeFor, found, maskAllows, allowed]

/-- With the media keys in place and WRITE_PROTECTED not in force, a storage command in order goes on. -/
theorem stored_passes {c : Cmd} {ok : Bool} {s : State} (order : ok = true) (keys : s.keysPresent = true) (f : State → State) :
    stored c ok f s = f s := by
  simp [stored, order, keys]

theorem protectedBy_passes {s : State} (open_ : s.keeper.writeProtect = false) (c : Cmd) (f : State → State) : protectedBy c f s = f s := by
  simp [protectedBy, open_]

/-- Segments of the map used. -/
def lookUp (segs : List Nat) (s : State) : State :=
  modMedia (fun m => { m with segments := segs.eraseDups.foldl (fun l n => touch n false l) m.segments }) s

theorem keeps_lookUp (segs : List Nat) (s : State) : Keeps Media.butMap s (lookUp segs s) := keeps_modMedia (by intro; rfl) s

theorem withLookups_known {s : State} {c : Cmd} {segs : List Nat} (known : Known s c segs) (f : State → State) :
    withLookups c segs f s = f (lookUp segs s) := by
  have hit : (s.missing segs).filter (fun n => !c.segsIn.contains n) = [] := by
    simpa [Known] using known
  exact if_pos hit

/- The range of a DISCARD -/

/-- The segments of the map that hold the units of a range that it covers whole. -/
def RangeDesc.segments (r : RangeDesc) : List Nat := segmentRange r.vol r.whole.1 r.whole.2
/-- The range covers the unit whole. -/
def RangeDesc.covers (r : RangeDesc) (i : Nat) : Prop := ceilDiv r.first 16 ≤ i ∧ i < (r.first + r.blocks) / 16
/-- The units of a range looked up and unmapped. -/
def unmapWhole (r : RangeDesc) (s : State) : State := unmapRange r.vol r.whole.1 r.whole.2 (lookUp r.segments s)

theorem keeps_unmapWhole (r : RangeDesc) (s : State) : Keeps Media.butMap s (unmapWhole r s) := (keeps_lookUp ..).trans (keeps_unmapRange ..)

section
variable {r : RangeDesc} {s : State} (sorted : kvSorted s.media.map = true)
include sorted

theorem entry_unmapWhole_covered {v : Volume} (inside : r.first + r.blocks ≤ 16 * v.units) (units : v.units ≤ 2 ^ 40) {i : Nat} (h : r.covers i) :
    (unmapWhole r s).entry r.vol i = none := by
  obtain ⟨low, high⟩ := h
  exact entry_unmapRange_inside (s := lookUp r.segments s) sorted low high (by omega)

theorem entry_unmapWhole_other {w i : Nat} (small : i < 2 ^ 40) (other : ¬ (w = r.vol ∧ r.covers i)) : (unmapWhole r s).entry w i = s.entry w i :=
  entry_unmapRange_outside (s := lookUp r.segments s) sorted small other

end

/- DISCARD (R245) -/

/-- What a payload must be in order for a DISCARD. -/
structure DiscardOk (p : List Byte) (v : Volume) : Prop where
  length : p.length = 32
  reserved2 : fieldAt p 2 2 = 0
  reserved16 : fieldAt p 16 16 = 0
  opts : (rangeDesc p).opts = 0
  some_ : 1 ≤ (rangeDesc p).blocks
  inside : (rangeDesc p).first + (rangeDesc p).blocks ≤ 16 * v.units

theorem DiscardOk.descOk {p : List Byte} {v : Volume} (h : DiscardOk p v) : descOk p = true := by
  simp [Machine.descOk, h.length, h.reserved2, h.reserved16]

theorem DiscardOk.insideVolume {p : List Byte} {v : Volume} (h : DiscardOk p v) : (rangeDesc p).inside v = true := by
  simp [RangeDesc.inside, h.some_, h.inside]

/-- The SECURE_DISCARD's write-buffer copies and copies under way gone (R246). -/
def dropCovered (r : RangeDesc) (s : State) : State :=
  modMedia (fun m => { m with
    slots := m.slots.filter fun x => !(decide (x.2.vol = r.vol) && decide (r.whole.1 ≤ x.2.unit) && decide (x.2.unit < r.whole.2))
    copies := m.copies.filter fun j => !(decide (j.vol = r.vol) && decide (r.whole.1 ≤ j.unit) && decide (j.unit < r.whole.2)) }) s
/-- The bands that have held a volume and are not erased (R221). -/
def State.heldBands (s : State) (vol : Nat) : List Nat :=
  (s.media.bands.filter fun b => b.2.held.contains vol && decide (b.2.state ≠ .free) && decide (b.2.state ≠ .retired)).map (·.1)
/-- The command waits for the erases of bands, and will answer the number of its units. -/
def Cmd.awaiting (bands : List Nat) (n : Nat) (c : Cmd) : Cmd := { c with phase := .waiting (.erased bands bands.length), tally := n }
/-- A SECURE_DISCARD, before the media are settled. -/
def secureWhole (c : Cmd) (s : State) : State :=
  let r := rangeDesc c.payload
  let u := dropCovered r (unmapWhole r s)
  modCmd c.key (Cmd.awaiting (u.heldBands r.vol) (s.mappedIn r.vol r.whole.1 r.whole.2).length) u

theorem mem_heldBands {s : State} {vol : Nat} {b : Nat × Band} (mem : b ∈ s.media.bands) (held : vol ∈ b.2.held) (used : b.2.inUse) :
    b.1 ∈ s.heldBands vol :=
  List.mem_map_of_mem (List.mem_filter.2 ⟨mem, by simpa [held, Band.inUse] using used⟩)

theorem heldBands_none {s : State} {vol : Nat} (none_ : ∀ b ∈ s.media.bands, vol ∉ b.2.held) : s.heldBands vol = [] := by
  unfold State.heldBands
  rw [List.map_eq_nil_iff, List.filter_eq_nil_iff]
  intro b mem
  simp [none_ b mem]

section
variable {s : State} {k : CmdKey} {c : Cmd} {x : Ctx} {v : Volume} (keys : s.keysPresent = true) (open_ : s.keeper.writeProtect = false)
  (found : kvGet (rangeDesc c.payload).vol s.media.volumes = some v) (allowed : bit v.sessions c.key.session = true)
include keys open_ found allowed

theorem exec_discard (h : ReadyCtx s k 0x23 c x) (order : DiscardOk c.payload v) (known : Known s c (rangeDesc c.payload).segments) :
    let r := rangeDesc c.payload
    exec (.discard k) s = .next (reply c stOk (leBytes 8 (s.mappedIn r.vol r.whole.1 r.whole.2).length) (unmapWhole r s)) := by
  refine congrArg Host.Outcome.next ((withCtx_ready discardBlocks h).trans ?_)
  unfold discardBlocks
  dsimp only
  rw [volumeFor_allowed found allowed]
  have ok : (descOk c.payload && decide (c.payload.length = 32) && decide ((rangeDesc c.payload).opts = 0) &&
      (rangeDesc c.payload).inside v) = true := by simp [order.descOk, order.length, order.opts, order.insideVolume]
  exact (stored_passes ok keys _).trans ((protectedBy_passes open_ c _).trans (withLookups_known known _))

theorem exec_secureDiscard (h : ReadyCtx s k 0x24 c x) (order : DiscardOk c.payload v) (first : (rangeDesc c.payload).first % 16 = 0)
    (blocks : (rangeDesc c.payload).blocks % 16 = 0) (known : Known s c (rangeDesc c.payload).segments) :
    exec (.secureDiscard k) s = .next (settleMedia (secureWhole c s)) := by
  refine congrArg Host.Outcome.next ((withCtx_ready secureDiscard h).trans ?_)
  unfold secureDiscard
  dsimp only
  rw [volumeFor_allowed found allowed]
  have ok : (descOk c.payload && decide (c.payload.length = 32) && decide ((rangeDesc c.payload).opts = 0) && (rangeDesc c.payload).inside v &&
      decide ((rangeDesc c.payload).first % 16 = 0) && decide ((rangeDesc c.payload).blocks % 16 = 0)) = true := by
    simp [order.descOk, order.length, order.opts, order.insideVolume, first, blocks]
  exact (stored_passes ok keys _).trans ((protectedBy_passes open_ c _).trans (withLookups_known known _))

end

/- SECURE_DISCARD, settled (R221, R246) -/

theorem keeps_dropCovered (r : RangeDesc) (s : State) : Keeps (fun m => ({ m with slots := [], copies := [] } : Media)) s (dropCovered r s) :=
  keeps_modMedia (by intro; rfl) s

theorem band_dropCovered (r : RangeDesc) (s : State) : (dropCovered r (unmapWhole r s)).media.bands = s.media.bands :=
  (congrArg Media.bands (keeps_unmapWhole r s).same :)

/-- No copy of a covered unit is left in the write buffer. -/
theorem dropCovered_slots {r : RangeDesc} {s : State} : ∀ y ∈ (dropCovered r s).media.slots, ¬ (y.2.vol = r.vol ∧ r.covers y.2.unit) := by
  rintro y mem ⟨vol, low, high⟩
  have kept := (List.mem_filter.1 mem).2
  simp [vol, RangeDesc.whole, low, high] at kept

section
variable (c : Cmd) (s : State)

theorem secureWhole_work : MediaWork s (secureWhole c s) :=
  ((keeps_unmapWhole (rangeDesc c.payload) s).frame.trans (keeps_dropCovered ..).frame).mediaWork.trans (mediaWork_cmds ..)

/-- What is mapped, the write buffer and the volumes of the media. -/
def Media.stored (m : Media) : KV MapEntry × KV Slot × KV Volume := (m.map, m.slots, m.volumes)

theorem secureWhole_stored : (settleMedia (secureWhole c s)).media.stored =
    ((unmapWhole (rangeDesc c.payload) s).media.map, (dropCovered (rangeDesc c.payload) (unmapWhole (rangeDesc c.payload) s)).media.slots,
      s.media.volumes) := by
  have settled : Settles Media.stored (secureWhole c s) (settleMedia (secureWhole c s)) := (settles_settleMedia (secureWhole c s)).of Media.stored
  have volumes : (secureWhole c s).media.volumes = s.media.volumes := (congrArg Media.volumes (keeps_unmapWhole (rangeDesc c.payload) s).same :)
  exact settled.same.trans (congrArg (fun x => ((unmapWhole (rangeDesc c.payload) s).media.map,
    (dropCovered (rangeDesc c.payload) (unmapWhole (rangeDesc c.payload) s)).media.slots, x)) volumes)

variable {c s} (there : c ∈ s.cmds)
include there

theorem secureWhole_awaits {b : Nat} (held : b ∈ s.heldBands (rangeDesc c.payload).vol) : (secureWhole c s).awaitsErase c.key b := by
  have list : (dropCovered (rangeDesc c.payload) (unmapWhole (rangeDesc c.payload) s)).heldBands (rangeDesc c.payload).vol =
      s.heldBands (rangeDesc c.payload).vol := by
    unfold State.heldBands
    rw [band_dropCovered]
  have cmds : (dropCovered (rangeDesc c.payload) (unmapWhole (rangeDesc c.payload) s)).cmds = s.cmds :=
    (congrArg State.cmds (keeps_unmapWhole (rangeDesc c.payload) s).frame :)
  have own : ∀ d ∈ (secureWhole c s).cmdsOf c.key, ∃ left all, d.phase = .waiting (.erased left all) ∧ b ∈ left := by
    intro d mem
    obtain ⟨mem, key⟩ := mem_cmdsOf.1 mem
    obtain ⟨e, -, rfl⟩ := List.mem_map.1 mem
    by_cases own : e.key = c.key
    · rw [if_pos own]
      exact ⟨_, _, rfl, list.symm ▸ held⟩
    · rw [if_neg own] at key
      exact absurd key own
  refine ⟨List.ne_nil_of_mem (mem_cmdsOf.2 ⟨List.mem_map_of_mem (cmds.symm ▸ there), ?_⟩), own⟩
  rw [if_pos rfl]
  rfl

theorem secureWhole_completes (none_ : ∀ b ∈ s.media.bands, (rangeDesc c.payload).vol ∉ b.2.held) (whole : c.lost = [])
    (open_ : (s.session c.key.session).phase ≠ .held) : ∃ q ∈ (settleMedia (secureWhole c s)).replies, q.key = c.key ∧ q.status = stOk ∧ q.payload =
      leBytes 4 (s.mappedIn (rangeDesc c.payload).vol (rangeDesc c.payload).whole.1 (rangeDesc c.payload).whole.2).length ++ leBytes 4 0 := by
  have list : (dropCovered (rangeDesc c.payload) (unmapWhole (rangeDesc c.payload) s)).heldBands (rangeDesc c.payload).vol = [] :=
    heldBands_none (by rwa [band_dropCovered])
  have frame := (keeps_unmapWhole (rangeDesc c.payload) s).frame
  have cmds : (dropCovered (rangeDesc c.payload) (unmapWhole (rangeDesc c.payload) s)).cmds = s.cmds := (congrArg State.cmds frame :)
  have sessions : (secureWhole c s).sessions = s.sessions := (congrArg State.sessions frame :)
  have waits : c.awaiting [] (s.mappedIn (rangeDesc c.payload).vol (rangeDesc c.payload).whole.1 (rangeDesc c.payload).whole.2).length ∈
      (secureWhole c s).cmds := by
    refine List.mem_map.2 ⟨c, cmds.symm ▸ there, ?_⟩
    rw [if_pos rfl, list]
  exact settleMedia_completes waits rfl whole (by rwa [State.session, sessions])

end

/- VOLUME_DELETE (R249) -/

theorem writeRoot_rootSeq (fresh : Bool) (m : Media) : (Media.writeRoot fresh m).rootSeq = m.rootSeq + 1 := by
  unfold Media.writeRoot
  dsimp only
  split <;> rfl

theorem keeps_renewRoots (s : State) : Keeps Media.butBad s (renewRoots s) := by
  have written : Keeps Media.butBad s (modMedia (fun m => Media.writeRoot true (Media.writeRoot true m)) s) :=
    keeps_modMedia (fun m => (butBad_writeRoot ..).trans (butBad_writeRoot ..)) s
  have erased : ∀ u : State, Keeps Media.butBad u (modMedia (fun m => { m with
      rootsLeft := m.rootsLeft.filter fun r => decide (m.rootSeq < r.seq + 2) }) u) := fun u => keeps_modMedia (by intro; rfl) u
  exact written.trans (erased _)

theorem renewRoots_rootSeq (s : State) : (renewRoots s).media.rootSeq = s.media.rootSeq + 2 :=
  (writeRoot_rootSeq ..).trans (congrArg (· + 1) (writeRoot_rootSeq ..))

/-- The media without a volume, its key and what the write buffer, copies under way and the deferred-error log hold of it; and the vault
without the key. -/
def Media.withoutVolume (vol key : Nat) (m : Media) : Media := { m with
  slots := m.slots.filter fun x => decide (x.2.vol ≠ vol), copies := m.copies.filter fun j => decide (j.vol ≠ vol)
  sieves := m.sieves.map fun v => { v with keys := v.keys.filter fun k => decide (k ≠ key) }
  deferred := m.deferred.filter fun d => decide (d.vol ≠ vol), volumes := kvDel vol m.volumes }
def Security.withoutKey (key : Nat) (x : Security) : Security := { x with vault := x.vault.filter fun k => decide (k ≠ key) }

/-- A volume deleted, before its root sets are written; and with them. -/
def cutVolume (vol key : Nat) (s : State) : State :=
  modMedia (fun m => { m with deferred := m.deferred.filter fun d => decide (d.vol ≠ vol), volumes := kvDel vol m.volumes })
    (dropKey key (dropUnits vol s))
def eraseVolume (vol key : Nat) (s : State) : State := renewRoots (cutVolume vol key s)
/-- The segments of a volume's map that are written on flash. -/
def State.volumeSegments (s : State) (vol : Nat) : List Nat := (s.media.directory.map (·.1)).filter fun n => decide (n / 2 ^ 21 = vol)

theorem MediaOnly.modSec {s u : State} (h : MediaOnly s u) (f : Security → Security) : MediaOnly { s with sec := f s.sec } (modSec f u) :=
  congrArg (Machine.modSec f) h

section
variable (vol key : Nat) (s : State)

/-- Besides the media only the vault changes. -/
theorem cutVolume_frame : MediaOnly { s with sec := s.sec.withoutKey key } (cutVolume vol key s) := by
  have dropped : MediaOnly s (dropUnits vol s) := (keeps_unmapRange vol 0 (2 ^ 40) s).frame.trans (mediaOnly_modMedia _ _)
  exact (dropped.modSec (Security.withoutKey key)).trans ((mediaOnly_modMedia _ _).trans (mediaOnly_modMedia _ _))

theorem eraseVolume_frame : MediaOnly { s with sec := s.sec.withoutKey key } (eraseVolume vol key s) :=
  (cutVolume_frame vol key s).trans (keeps_renewRoots _).frame

theorem cutVolume_media : (cutVolume vol key s).media = Media.withoutVolume vol key (unmapRange vol 0 (2 ^ 40) s).media := by
  simp only [cutVolume, dropKey, dropUnits, modMedia_media, modSec_media]
  rfl

theorem eraseVolume_media : (eraseVolume vol key s).media.butBad = (Media.withoutVolume vol key (unmapRange vol 0 (2 ^ 40) s).media).butBad := by
  rw [← cutVolume_media]
  exact (keeps_renewRoots (cutVolume vol key s)).same

theorem eraseVolume_rootSeq : (eraseVolume vol key s).media.rootSeq = s.media.rootSeq + 2 := by
  have unmapped : Keeps Media.rootSeq s (unmapRange vol 0 (2 ^ 40) s) := (keeps_unmapRange vol 0 (2 ^ 40) s).of Media.rootSeq
  rw [eraseVolume, renewRoots_rootSeq, cutVolume_media, ← unmapped.same]
  rfl

end

section
variable {s : State} {k : CmdKey} {c : Cmd} {x : Ctx} {v : Volume} (keys : s.keysPresent = true) (open_ : s.keeper.writeProtect = false)
  (found : kvGet (rangeDesc c.payload).vol s.media.volumes = some v) (allowed : bit v.sessions c.key.session = true)
include keys open_ found allowed

theorem exec_volumeDelete (h : ReadyCtx s k 0x28 c x) (length : c.payload.length = 16) (reserved : fieldAt c.payload 1 15 = 0)
    (turn : s.volumeBusy (rangeDesc c.payload).vol c.order = false) (known : Known s c (s.volumeSegments (rangeDesc c.payload).vol)) :
    exec (.volumeDelete k) s = .next (settleMedia (reply c stOk (leBytes 8 (s.mappedIn (rangeDesc c.payload).vol 0 (2 ^ 40)).length)
      (eraseVolume (rangeDesc c.payload).vol v.key (lookUp (s.volumeSegments (rangeDesc c.payload).vol) s)))) := by
  have ok : (decide (c.payload.length = 16) && decide (fieldAt c.payload 1 15 = 0) &&
      (s.volumeFor (rangeDesc c.payload).vol c.key.session).isSome) = true := by
    simp [length, reserved, volumeFor_allowed found allowed]
  have volume : kvGet (rangeDesc c.payload).vol
      (dropUnits (rangeDesc c.payload).vol (lookUp (s.volumeSegments (rangeDesc c.payload).vol) s)).media.volumes = some v := by
    have same : (unmapRange (rangeDesc c.payload).vol 0 (2 ^ 40) (lookUp (s.volumeSegments (rangeDesc c.payload).vol) s)).media.volumes =
      s.media.volumes := (congrArg Media.volumes (keeps_unmapRange ..).same :)
    rw [← found, ← same]
    rfl
  refine congrArg Host.Outcome.next ((withCtx_ready volumeDelete h).trans ((if_neg fun busy => ?_).trans
    ((stored_passes ok keys _).trans ((protectedBy_passes open_ c _).trans ((withLookups_known known _).trans ?_)))))
  · exact absurd (busy.2.2.symm.trans turn) (by decide)
  · dsimp only
    rw [show fieldAt c.payload 0 1 = (rangeDesc c.payload).vol from rfl, volume]
    rfl

end

/- VOLUME_DELETE, settled -/

/-- t is s after a volume with this key was deleted, its root sets written and the media settled, with no checkpoint under way. -/
structure VolumeGone (vol key : Nat) (s t : State) : Prop where
  media : t.media.butSettled.butBad = (Media.withoutVolume vol key (unmapRange vol 0 (2 ^ 40) s).media).butSettled.butBad
  rootSeq : t.media.rootSeq = s.media.rootSeq + 2
  work : MediaWork { s with sec := s.sec.withoutKey key } t

section
variable {vol key : Nat} {s t : State}

theorem butSettled_of_butBad {m n : Media} (h : m.butBad = n.butBad) : m.butSettled.butBad = n.butSettled.butBad := (congrArg Media.butSettled h :)
theorem check_of_butBad {m n : Media} (h : m.butBad = n.butBad) : m.check = n.check := (congrArg Media.check h :)

theorem Settles.volumeGone (h : Settles Media.butSettled (eraseVolume vol key s) t) : VolumeGone vol key s t where
  media := (h.of Media.butBad).same.trans (butSettled_of_butBad (eraseVolume_media vol key s))
  rootSeq := (h.of Media.rootSeq : Settles Media.rootSeq _ _).same.trans (eraseVolume_rootSeq vol key s)
  work := (eraseVolume_frame vol key s).mediaWork.trans h.work

/-- No checkpoint is under way, so that settling writes no third root set. -/
theorem settles_eraseVolume (c : Cmd) (payload : List Byte) (idle : s.media.check = none) :
    Settles Media.butSettled (eraseVolume vol key s) (settleMedia (reply c stOk payload (eraseVolume vol key s))) := by
  have replied := replied_reply c stOk payload (eraseVolume vol key s)
  have unmapped : Keeps Media.check s (unmapRange vol 0 (2 ^ 40) s) := (keeps_unmapRange vol 0 (2 ^ 40) s).of Media.check
  have check : (reply c stOk payload (eraseVolume vol key s)).media.check = none := by
    rw [replied.media, check_of_butBad (eraseVolume_media vol key s)]
    exact unmapped.same.trans idle
  exact (replied.settles (moves_reply ..).replies).trans (settles_settleMedia_idle check)

namespace VolumeGone
variable (gone : VolumeGone vol key s t)
include gone

theorem entry (sorted : kvSorted s.media.map = true) {i : Nat} (small : i < 2 ^ 40) : t.entry vol i = none := by
  have map : t.media.map = (unmapRange vol 0 (2 ^ 40) s).media.map := (congrArg Media.map gone.media :)
  unfold State.entry
  rw [map]
  exact entry_unmapRange_inside sorted (Nat.zero_le i) small small

theorem volumes : t.media.volumes = kvDel vol s.media.volumes := by
  have left : t.media.volumes = kvDel vol (unmapRange vol 0 (2 ^ 40) s).media.volumes := (congrArg Media.volumes gone.media :)
  have same : (unmapRange vol 0 (2 ^ 40) s).media.volumes = s.media.volumes := (congrArg Media.volumes (keeps_unmapRange vol 0 (2 ^ 40) s).same :)
  rw [left, same]

/-- Nothing of the volume is left in the write buffer. -/
theorem slots : ∀ y ∈ t.media.slots, y.2.vol ≠ vol := by
  have left : t.media.slots = (unmapRange vol 0 (2 ^ 40) s).media.slots.filter fun x => decide (x.2.vol ≠ vol) := (congrArg Media.slots gone.media :)
  rw [left]
  exact fun y mem => of_decide_eq_true (List.mem_filter.1 mem).2

theorem deferred : ∀ d ∈ t.media.deferred, d.vol ≠ vol := by
  have left : t.media.deferred = (unmapRange vol 0 (2 ^ 40) s).media.deferred.filter fun d => decide (d.vol ≠ vol) :=
    (congrArg Media.deferred gone.media :)
  rw [left]
  exact fun d mem => of_decide_eq_true (List.mem_filter.1 mem).2

/-- The volume's key is in no sieve, and not in the vault. -/
theorem sieves : ∀ y ∈ t.media.sieves, key ∉ y.keys := by
  have left : t.media.sieves = (unmapRange vol 0 (2 ^ 40) s).media.sieves.map fun v => { v with keys := v.keys.filter fun k => decide (k ≠ key) } :=
    (congrArg Media.sieves gone.media :)
  rw [left]
  intro y mem own
  obtain ⟨z, -, rfl⟩ := List.mem_map.1 mem
  exact of_decide_eq_true (List.mem_filter.1 own).2 rfl

theorem sec : t.sec = s.sec.withoutKey key := (congrArg State.sec gone.work :)

theorem vault : key ∉ t.sec.vault := by
  rw [gone.sec]
  exact fun own => of_decide_eq_true (List.mem_filter.1 own).2 rfl

end VolumeGone

end

theorem volumeDelete_answers {s : State} {k : CmdKey} {c : Cmd} {x : Ctx} {v : Volume} (keys : s.keysPresent = true)
    (open_ : s.keeper.writeProtect = false) (found : kvGet (rangeDesc c.payload).vol s.media.volumes = some v)
    (allowed : bit v.sessions c.key.session = true) (h : ReadyCtx s k 0x28 c x) (length : c.payload.length = 16)
    (reserved : fieldAt c.payload 1 15 = 0) (turn : s.volumeBusy (rangeDesc c.payload).vol c.order = false) (idle : s.media.check = none)
    (known : Known s c (s.volumeSegments (rangeDesc c.payload).vol)) :
    ∃ t, exec (.volumeDelete k) s = .next t ∧
      VolumeGone (rangeDesc c.payload).vol v.key (lookUp (s.volumeSegments (rangeDesc c.payload).vol) s) t ∧
      ∃ q ∈ t.replies, q.key = c.key ∧ q.status = stOk ∧ q.payload = leBytes 8 (s.mappedIn (rangeDesc c.payload).vol 0 (2 ^ 40)).length := by
  have answered := h.answered h.toReady.key stOk (leBytes 8 (s.mappedIn (rangeDesc c.payload).vol 0 (2 ^ 40)).length)
    (u := eraseVolume (rangeDesc c.payload).vol v.key (lookUp (s.volumeSegments (rangeDesc c.payload).vol) s))
    (congrArg State.sessions (eraseVolume_frame ..) :)
  obtain ⟨q, made, answers⟩ := answered.made
  have quiet : (lookUp (s.volumeSegments (rangeDesc c.payload).vol) s).media.check = none := idle
  exact ⟨_, exec_volumeDelete keys open_ found allowed h length reserved turn known, (settles_eraseVolume c _ quiet).volumeGone,
    q, (settles_settleMedia _).replies made, answers⟩

end Sys2Proof.Machine

namespace Sys2Proof.Proofs

open Sys2Proof Sys2Proof.Machine

/-- Settles O34: the units of the range, or of the volume, are unmapped one by one, and settling the media moves no entry. Every closed band
that has held the volume is waited for, whichever range is named (log entry 36). -/
theorem unitsUnmapped : Obligations.UnitsUnmapped := by
  unfold Obligations.UnitsUnmapped
  intro s k c x v keys open_ sorted volumes r found allowed units inRange segs
  refine ⟨fun h length zero2 zero16 opts some_ inside known => ?discard,
    fun h length zero2 zero16 opts some_ inside first blocks known own => ?secure, fun h length reserved turn idle known => ?delete⟩
  case discard =>
    obtain rfl := h.toReady.key
    exact ⟨unmapWhole r s, _, exec_discard keys open_ found allowed h ⟨length, zero2, zero16, opts, some_, inside⟩ known,
      h.answered rfl stOk _ (congrArg State.sessions (keeps_unmapWhole r s).frame :), (keeps_unmapWhole r s).mapOnly,
      fun i => entry_unmapWhole_covered sorted inside units, fun w i => entry_unmapWhole_other sorted⟩
  case secure =>
    obtain rfl := h.toReady.key
    obtain ⟨map, view⟩ := Prod.mk.inj (secureWhole_stored c s)
    obtain ⟨slots, kept⟩ := Prod.mk.inj view
    have there : c ∈ s.cmds := List.mem_of_find?_eq_some h.found
    refine ⟨_, exec_secureDiscard keys open_ found allowed h ⟨length, zero2, zero16, opts, some_, inside⟩ first blocks known,
      (secureWhole_work c s).trans (settles_settleMedia _).work, fun i covered => ?_, ?_, kept,
      fun none_ whole => secureWhole_completes there none_ whole (by simp [h.opened]), fun b mem at_ held closed => ?_⟩
    · exact (congrArg (kvGet (unitKey r.vol i)) map :).trans (entry_unmapWhole_covered sorted inside units covered)
    · rw [slots]
      exact dropCovered_slots
    · have used : b.2.inUse := by simp [Band.inUse, closed]
      have band : (secureWhole c s).band b.1 = b.2 := by
        rw [State.band, show (secureWhole c s).media.bands = s.media.bands from band_dropCovered r s, at_]
        rfl
      obtain ⟨some_, waits⟩ := settleMedia_awaitsErase (secureWhole_awaits there (mem_heldBands mem held used)) (band.symm ▸ used)
      obtain ⟨d, there⟩ := List.exists_mem_of_ne_nil _ some_
      obtain ⟨mem, key⟩ := mem_cmdsOf.1 there
      obtain ⟨left, all, phase, among⟩ := waits d there
      exact ⟨d, mem, left, all, key, phase, among⟩
  case delete =>
    obtain rfl := h.toReady.key
    obtain ⟨t, runs, gone, q, made, key, status, payload⟩ := volumeDelete_answers keys open_ found allowed h length reserved turn idle known
    refine ⟨t, q, runs, made, key, status, payload, fun i => gone.entry sorted, ?_, fun w other => ?_,
      gone.slots, gone.deferred, gone.rootSeq, gone.vault, gone.sieves, ?_, ?_⟩
    · rw [gone.volumes]
      exact kvGet_kvDel_same r.vol s.media.volumes volumes
    · rw [gone.volumes]
      exact kvGet_kvDel_other s.media.volumes other.symm
    · rw [gone.sec]
      rfl
    · rw [gone.sec]
      exact gone.work

end Sys2Proof.Proofs
end

section
/-!
PROOFS. READ (R160, R193, R232, R236, R239): what a command that looks up and reads units waits for, the blocks of a range, and O32.
-/

namespace Sys2Proof.Machine

open Sys2Proof

/- Lookups that miss (R193) -/

/-- The media but for page reads. -/
def Media.butReads (m : Media) : Media := { m with reads := [] }

theorem keeps_issueReads_butReads (cls : Cls) (f : ReadFor) (need : List (MediaAddr × Nat)) (s : State) :
    Keeps Media.butReads s (issueReads cls f need s) := ⟨rfl, rfl⟩

/-- Besides the page reads nothing has changed. -/
theorem Keeps.readsOnly {s u : State} (h : Keeps Media.butReads s u) : u = { s with media := { s.media with reads := u.media.reads } } := by
  have media : u.media = { s.media with reads := u.media.reads } := (congrArg (fun m : Media => { m with reads := u.media.reads }) h.same :)
  calc u = { s with media := u.media } := h.frame
    _ = _ := congrArg (fun m : Media => { s with media := m }) media

/-- The segments that these lookups of a command miss and that have not been read for it. -/
def State.missedBy (s : State) (c : Cmd) (segs : List Nat) : List Nat := (s.missing segs).filter fun n => !c.segsIn.contains n

theorem missedBy_eq_nil {s : State} {c : Cmd} {segs : List Nat} : s.missedBy c segs = [] ↔ Known s c segs := by
  simp [State.missedBy, Known]

/-- The command waits for segments of the map, whose reads are issued. -/
def awaitSegments (c : Cmd) (miss : List Nat) (s : State) : State :=
  miss.foldl (fun s n => issueReads c.readCls (.segment n) ((s.segmentPlaces n).map fun a => (a, 0xFFFF)) s)
    (modCmd c.key (fun c => { c with phase := .waiting (.segments miss) }) s)

theorem awaitSegments_frame (c : Cmd) (miss : List Nat) (s : State) : awaitSegments c miss s = { s with
    cmds := withPhase s c.key (.waiting (.segments miss)), media := { s.media with reads := (awaitSegments c miss s).media.reads } } :=
  (Keeps.foldl (fun u n => keeps_issueReads_butReads c.readCls (.segment n) _ u) miss _).readsOnly

theorem withLookups_missed {s : State} {c : Cmd} {segs : List Nat} (missed : ¬ Known s c segs) (f : State → State) :
    withLookups c segs f s = awaitSegments c (s.missedBy c segs) s := if_neg fun none_ => missed (missedBy_eq_nil.1 none_)

/-- Segments used change the order of the map cache alone. -/
theorem lookedUp_lookUp (segs : List Nat) (s : State) : LookedUp s (lookUp segs s) := rfl

/- Pages that a command lacks (R160, R166) -/

/-- The command waits for pages, and reads of those that it lacks are issued. -/
def awaitPages (c : Cmd) (need : List (MediaAddr × Nat)) (s : State) : State :=
  issueReads c.readCls (.cmd c.key) (need.filter fun a => !c.pagesIn.contains a.1)
    (modCmd c.key (fun c => { c with phase := .waiting (.pages (need.map (·.1))) }) s)

section
variable {c : Cmd} {need : List (MediaAddr × Nat)}

theorem withPages_in (in_ : ∀ a ∈ need.map (·.1), a ∈ c.pagesIn) (f : State → State) (s : State) : withPages c need f s = f s :=
  if_pos (List.all_eq_true.2 fun a mem => List.contains_iff_mem.2 (in_ a.1 (List.mem_map_of_mem mem)))

theorem withPages_lacking (lacks : ∃ a ∈ need.map (·.1), a ∉ c.pagesIn) (f : State → State) (s : State) :
    withPages c need f s = awaitPages c need s := by
  obtain ⟨a, mem, lacks⟩ := lacks
  obtain ⟨b, there, rfl⟩ := List.mem_map.1 mem
  exact if_neg fun all => lacks (List.contains_iff_mem.1 (List.all_eq_true.1 all b there))

theorem awaitPages_frame (c : Cmd) (need : List (MediaAddr × Nat)) (s : State) : awaitPages c need s = { s with
    cmds := withPhase s c.key (.waiting (.pages (need.map (·.1)))), media := { s.media with reads := (awaitPages c need s).media.reads } } :=
  (keeps_issueReads_butReads ..).readsOnly

/-- Every read that was to be issued is queued for its purpose. -/
theorem issueReads_queued {a : MediaAddr × Nat} (mem : a ∈ need) (cls : Cls) (f : ReadFor) (s : State) :
    ∃ q ∈ (issueReads cls f need s).media.reads, q.place = a.1 ∧ q.for_ = f := by
  by_cases queued : ((s.media.reads.filter s.wanted).any fun r => decide (r.place = a.1) && decide (r.for_ = f)) = true
  · obtain ⟨q, there, same⟩ := List.any_eq_true.1 queued
    rw [Bool.and_eq_true, decide_eq_true_eq, decide_eq_true_eq] at same
    exact ⟨q, List.mem_append_left _ there, same⟩
  · refine ⟨_, List.mem_append_right _ (List.mem_map_of_mem (List.mem_filter.2 ⟨mem, ?_⟩)), rfl, rfl⟩
    rw [Bool.not_eq_true] at queued
    rw [queued]
    rfl

theorem awaitPages_queued {a : MediaAddr} (mem : a ∈ need.map (·.1)) (lacks : a ∉ c.pagesIn) (s : State) :
    ∃ q ∈ (awaitPages c need s).media.reads, q.place = a ∧ q.for_ = .cmd c.key := by
  obtain ⟨b, there, rfl⟩ := List.mem_map.1 mem
  exact issueReads_queued (List.mem_filter.2 ⟨there, by simp [lacks]⟩) ..

end

/- Units looked up (Table 6-10) -/

/-- The segments in which a command looks up units that the delta table does not have. -/
def State.unitSegments (s : State) (us : List (Nat × Nat × Nat)) : List Nat :=
  ((us.map fun u => unitKey u.1 u.2.1).filter fun n => !s.media.delta.contains n).map segmentOf
/-- The places of those on the media, with the codewords needed. -/
def State.unitPages (s : State) (us : List (Nat × Nat × Nat)) : List (MediaAddr × Nat) :=
  us.filterMap fun u => match s.entry u.1 u.2.1 with
    | some (.media a) => some (a, u.2.2)
    | _ => none

section
variable {s : State} {c : Cmd} {us : List (Nat × Nat × Nat)}

theorem withUnits_missed (missed : ¬ Known s c (s.unitSegments us)) (f : State → State) :
    withUnits c us f s = awaitSegments c (s.missedBy c (s.unitSegments us)) s := withLookups_missed missed _

variable (known : Known s c (s.unitSegments us))
include known

theorem withUnits_in (in_ : ∀ a ∈ (s.unitPages us).map (·.1), a ∈ c.pagesIn) (f : State → State) :
    withUnits c us f s = f (lookUp (s.unitSegments us) s) := (withLookups_known known _).trans (withPages_in in_ f _)

theorem withUnits_lacking (lacks : ∃ a ∈ (s.unitPages us).map (·.1), a ∉ c.pagesIn) (f : State → State) :
    withUnits c us f s = awaitPages c (s.unitPages us) (lookUp (s.unitSegments us) s) :=
  (withLookups_known known _).trans (withPages_lacking lacks f _)

end

/- The bytes of a range (R232, R239) -/

theorem slice_slice (p : List Byte) {a n b m : Nat} (inside : b + m ≤ n) : slice (slice p a n) b m = slice p (a + b) m := by
  rw [slice, slice, slice, List.drop_take, List.take_take, List.drop_drop, Nat.min_eq_left (by omega)]

section
variable {α : Type} {f : α → List Byte} {n : Nat} {l : List α} (size : ∀ a ∈ l, (f a).length = n)
include size

theorem length_flatMap_const : (l.flatMap f).length = n * l.length := by
  rw [List.length_flatMap, List.map_congr_left size, List.map_const', List.sum_replicate, Nat.mul_comm]
  rfl

/-- The bytes inside entry i of a table of entries of one size. -/
theorem slice_flatMap_const {i off m : Nat} (h : i < l.length) (inside : off + m ≤ n) :
    slice (l.flatMap f) (n * i + off) m = slice (f l[i]) off m := by
  induction l generalizing i with
  | nil => exact absurd h (Nat.not_lt_zero i)
  | cons a l ih =>
    have own : (f a).length = n := size a List.mem_cons_self
    cases i with
    | zero =>
      rw [Nat.mul_zero, Nat.zero_add, List.flatMap_cons, slice, List.drop_append_of_le_length (by omega),
        List.take_append_of_le_length (by rw [List.length_drop]; omega)]
      rfl
    | succ i =>
      have next : n * (i + 1) + off = (f a).length + (n * i + off) := by rw [own, Nat.mul_succ]; omega
      rw [next, List.flatMap_cons, slice, List.drop_length_add_append]
      exact ih (fun b mem => size b (List.mem_cons_of_mem a mem)) (Nat.lt_of_succ_lt_succ h)

end

theorem length_touched (r : RangeDesc) : r.touched.length = r.units := by simp [RangeDesc.touched]

theorem getElem_touched {r : RangeDesc} {i : Nat} (h : i < r.touched.length) : r.touched[i] = r.firstUnit + i := by simp [RangeDesc.touched]

/-- Every unit that the range touches has its 65,536 bytes. -/
def State.unitsWhole (s : State) (r : RangeDesc) : Prop := ∀ u ∈ r.touched, ∃ d, s.unitData r.vol u = some d ∧ d.length = 65536

section
variable {s : State} {r : RangeDesc} (whole : s.unitsWhole r) (some_ : 1 ≤ r.blocks)
include whole

theorem unitsWhole_size : ∀ u ∈ r.touched, ((s.unitData r.vol u).getD (zeros 65536)).length = 65536 := by
  intro u mem
  obtain ⟨d, data, length⟩ := whole u mem
  rw [data]
  exact length

/-- None of them is poisoned. -/
theorem unitsWhole_good (c : Cmd) : s.badUnits c r.vol r.touched = [] := by
  rw [State.badUnits, List.filterMap_eq_nil_iff]
  intro u mem
  obtain ⟨d, data, -⟩ := whole u mem
  refine if_neg fun bad => ?_
  rw [State.unitData, bad] at data
  exact absurd data nofun

include some_

theorem length_rangeData : (s.rangeData r).length = 4096 * r.blocks := by
  refine slice_length ?_
  rw [length_flatMap_const (unitsWhole_size whole), length_touched, RangeDesc.units]
  omega

/-- Each block of the range is the block of its unit. -/
theorem slice_rangeData {b : Nat} (inside : b < r.blocks) {d : List Byte} (data : s.unitData r.vol ((r.first + b) / 16) = some d) :
    slice (s.rangeData r) (4096 * b) 4096 = slice d (4096 * ((r.first + b) % 16)) 4096 := by
  have place : (r.first + b) / 16 - r.first / 16 < r.touched.length := by
    rw [length_touched, RangeDesc.units]
    omega
  have unit : r.touched[(r.first + b) / 16 - r.first / 16] = (r.first + b) / 16 := by
    rw [getElem_touched, RangeDesc.firstUnit]
    omega
  have start : 4096 * (r.first % 16) + 4096 * b = 65536 * ((r.first + b) / 16 - r.first / 16) + 4096 * ((r.first + b) % 16) := by omega
  rw [State.rangeData, slice_slice _ (by omega), start, slice_flatMap_const (unitsWhole_size whole) place (by omega), unit, data]
  rfl

end

/- READ (R232, R236, R240) -/

/-- The units that a READ looks up, each with the codewords that it needs. -/
def RangeDesc.readUnits (r : RangeDesc) : List (Nat × Nat × Nat) := r.touched.map fun u => (r.vol, u, r.cws u)
/-- The segments of their entries, where the delta table does not have them. -/
def State.readSegs (s : State) (r : RangeDesc) : List Nat :=
  ((r.touched.map fun u => unitKey r.vol u).filter fun n => !s.media.delta.contains n).map segmentOf

theorem unitSegments_readUnits (s : State) (r : RangeDesc) : s.unitSegments r.readUnits = s.readSegs r := by
  rw [State.unitSegments, RangeDesc.readUnits, List.map_map]
  rfl

theorem unitPages_readUnits (s : State) (r : RangeDesc) : (s.unitPages r.readUnits).map (·.1) = s.placesOf r.vol r.touched := by
  rw [State.unitPages, RangeDesc.readUnits, State.placesOf, List.filterMap_map, List.map_filterMap]
  refine List.filterMap_congr fun u _ => ?_
  dsimp only [Function.comp]
  cases s.entry r.vol u with
  | none => rfl
  | some e => cases e <;> rfl

/-- A READ's reply with its blocks, and in a protected volume their protection fields. -/
def readBody (v : Volume) (r : RangeDesc) (data : List Byte) : List Byte := if v.protect then data ++ guards v r data else data
/-- The units read are counted. -/
def countUnits (r : RangeDesc) (s : State) : State := modHealth (fun h => { h with hostRead := satAdd 64 h.hostRead r.units }) s
/-- The KiB of a READ's results. -/
def RangeDesc.readKib (r : RangeDesc) (v : Volume) : Nat :=
  kib4 (r.blocks * (if v.protect then 4104 else 4096) + 32 * trainLen (r.blocks * (if v.protect then 4104 else 4096)))
/-- The reply that names poisoned units of a range (R238). -/
def RangeDesc.badReply (r : RangeDesc) (bad : List (Nat × Nat)) : List Byte :=
  Machine.badReply 0 (r.first + r.blocks) (bad.map fun b => r.clip b.1 b.2)
/-- A READ that lacks no page. -/
def finishRead (c : Cmd) (v : Volume) (s : State) : State :=
  let r := rangeDesc c.payload
  if s.badUnits c r.vol r.touched ≠ [] then reply c stMediaUncorrectable (r.badReply (s.badUnits c r.vol r.touched)) s
  else complete c stOk false (readBody v r (s.rangeData r)) (r.readKib v) [] (countUnits r s)

section
variable {s : State} {k : CmdKey} {c : Cmd} {x : Ctx} {v : Volume} (h : ReadyCtx s k 0x20 c x)
include h

theorem exec_read (keys : s.keysPresent = true) (order : DiscardOk c.payload v) (most : (rangeDesc c.payload).blocks ≤ 4080)
    (found : kvGet (rangeDesc c.payload).vol s.media.volumes = some v) (allowed : bit v.sessions c.key.session = true)
    (fits : s.resultsFit c ((rangeDesc c.payload).readKib v) = true) :
    exec (.read k) s = .next (withUnits c (rangeDesc c.payload).readUnits (finishRead c v) s) := by
  refine congrArg Host.Outcome.next ((withCtx_ready readBlocks h).trans ?_)
  unfold readBlocks
  dsimp only
  rw [volumeFor_allowed found allowed]
  have ok : (descOk c.payload && decide (c.payload.length = 32) && decide ((rangeDesc c.payload).opts = 0) &&
      decide ((rangeDesc c.payload).blocks ≤ 4080) && (rangeDesc c.payload).inside v) = true := by
    simp [order.descOk, order.length, order.opts, most, order.insideVolume]
  refine (stored_passes ok keys _).trans (if_neg ?_)
  rw [Bool.not_eq_true, Bool.not_eq_false']
  exact fits

variable {segs : List Nat}

theorem finishRead_good (whole : s.unitsWhole (rangeDesc c.payload)) :
    Answered (countUnits (rangeDesc c.payload) (lookUp segs s)) (finishRead c v (lookUp segs s)) c stOk
      (readBody v (rangeDesc c.payload) (s.rangeData (rangeDesc c.payload))) [] := by
  have good : (lookUp segs s).badUnits c (rangeDesc c.payload).vol (rangeDesc c.payload).touched = [] := unitsWhole_good (s := s) whole c
  have finish : finishRead c v (lookUp segs s) = complete c stOk false (readBody v (rangeDesc c.payload) (s.rangeData (rangeDesc c.payload)))
      ((rangeDesc c.payload).readKib v) [] (countUnits (rangeDesc c.payload) (lookUp segs s)) := if_neg (not_not.2 good)
  rw [finish]
  refine complete_answered _ _ _ _ _ _ (.inr ?_)
  rw [h.toReady.key, show (countUnits (rangeDesc c.payload) (lookUp segs s)).session k.session = s.session k.session from rfl, h.opened]
  exact nofun

theorem finishRead_poisoned (poisoned : ∃ u ∈ (rangeDesc c.payload).touched, s.entry (rangeDesc c.payload).vol u = some .poisoned) :
    Answered (lookUp segs s) (finishRead c v (lookUp segs s)) c stMediaUncorrectable
      ((rangeDesc c.payload).badReply (s.badUnits c (rangeDesc c.payload).vol (rangeDesc c.payload).touched)) [] := by
  obtain ⟨u, mem, bad⟩ := poisoned
  have some_ : (lookUp segs s).badUnits c (rangeDesc c.payload).vol (rangeDesc c.payload).touched ≠ [] :=
    List.ne_nil_of_mem (List.mem_filterMap.2 ⟨u, mem, if_pos bad⟩)
  have finish : finishRead c v (lookUp segs s) = reply c stMediaUncorrectable
      ((rangeDesc c.payload).badReply (s.badUnits c (rangeDesc c.payload).vol (rangeDesc c.payload).touched)) (lookUp segs s) := if_pos some_
  rw [finish]
  exact h.answered h.toReady.key stMediaUncorrectable _ rfl

end

end Sys2Proof.Machine

namespace Sys2Proof.Proofs

open Sys2Proof Sys2Proof.Machine

/-- Settles O32: a READ in order looks up its units, then has them read, and then answers their blocks or names the poisoned ones. -/
theorem readReturnsUnits : Obligations.ReadReturnsUnits := by
  unfold Obligations.ReadReturnsUnits
  intro s k c x v h keys length r n segs zero2 zero16 opts some_ most found allowed inside fits
  obtain rfl := h.toReady.key
  have run := exec_read h keys ⟨length, zero2, zero16, opts, some_, inside⟩ most found allowed fits
  have lookups : s.unitSegments r.readUnits = segs := unitSegments_readUnits s r
  have pages : (s.unitPages r.readUnits).map (·.1) = s.placesOf r.vol r.touched := unitPages_readUnits s r
  refine ⟨fun missed => ?misses, fun known lacks => ?lacks, fun known in_ whole => ?good, fun known in_ poisoned => ?poisoned⟩
  case misses =>
    refine ⟨awaitSegments c (s.missedBy c segs) s, s.missedBy c segs, ?_, fun none_ => missed (missedBy_eq_nil.1 none_), awaitSegments_frame ..⟩
    rw [run, withUnits_missed (lookups ▸ missed), lookups]
  case lacks =>
    refine ⟨awaitPages c (s.unitPages r.readUnits) (lookUp segs s), ?_, ?_, fun a mem => awaitPages_queued (pages ▸ mem) (s := lookUp segs s)⟩
    · rw [run, withUnits_lacking (lookups ▸ known) (pages ▸ lacks), lookups]
    · rw [← pages]
      exact awaitPages_frame c (s.unitPages r.readUnits) (lookUp segs s)
  case good =>
    refine ⟨lookUp segs s, finishRead c v (lookUp segs s), s.rangeData r, ?_, lookedUp_lookUp segs s, length_rangeData whole some_,
      fun b below d => slice_rangeData whole some_ below, finishRead_good h whole⟩
    rw [run, withUnits_in (lookups ▸ known) (pages ▸ in_), lookups]
  case poisoned =>
    refine ⟨lookUp segs s, finishRead c v (lookUp segs s), ?_, lookedUp_lookUp segs s, finishRead_poisoned h poisoned⟩
    rw [run, withUnits_in (lookups ▸ known) (pages ▸ in_), lookups]

end Sys2Proof.Proofs
end

section
/-!
PROOFS. Lookups that push out of the map cache what the same command has just found there, against O33 and O35.

Both statements take the lookups of a command as answered when each segment of its range is in the cache, unwritten, or has been read for it
(R193). The model looks up the range and then once more the units it needs: a WRITE those that it covers in part, a VERIFY the mapped ones.
In a cache of 6,144 segments of which one only is clean, the lookup of a range across two segments leaves the second segment in place of the
first, since a full cache gives up its least recently used clean segment; the command then misses the first and waits for it.
-/

namespace Sys2Proof.Machine

open Sys2Proof

/- The cache (R193) -/

/-- In a full cache whose other segments are dirty, the segment used next takes the place of the one used before. -/
theorem touch_pushesOut {a b : Nat} {dirty : List Segment} (full : dirty.length = 6143) (dirt : ∀ g ∈ dirty, g.dirty = true)
    (others : ∀ g ∈ dirty, g.num ≠ a ∧ g.num ≠ b) (apart : a ≠ b) :
    touch b false (touch a false (⟨a, false⟩ :: dirty)) = ⟨b, false⟩ :: dirty := by
  have clean : ∀ n, (∀ g ∈ dirty, g.num ≠ n) → (dirty.any fun g => decide (g.num = n) && g.dirty) = false := by simp +contextual
  have kept : ∀ n, (∀ g ∈ dirty, g.num ≠ n) → dirty.filter (fun g => !decide (g.num = n)) = dirty := by simp
  have notA := fun g mem => (others g mem).1
  have notB := fun g mem => (others g mem).2
  have none_ : dirty.reverse.find? (fun g => !g.dirty) = none := by simpa using dirt
  have first : touch a false (⟨a, false⟩ :: dirty) = ⟨a, false⟩ :: dirty := by
    simp [touch, clean a notA, kept a notA, full]
  rw [first]
  simp [touch, clean b notB, kept a notA, kept b notB, full, apart, none_]

/-- A lookup misses a segment that is written on flash and not in the cache. -/
theorem mem_missing {s : State} {segs : List Nat} {n : Nat} :
    n ∈ s.missing segs ↔ n ∈ segs ∧ (∀ g ∈ s.media.segments, g.num ≠ n) ∧ (kvGet n s.media.directory).isSome = true := by
  unfold State.missing
  split
  · next none_ => simp [none_, kvGet]
  · simp

theorem lookUp_segments (segs : List Nat) (s : State) :
    (lookUp segs s).media.segments = segs.eraseDups.foldl (fun l n => touch n false l) s.media.segments := rfl

/- WRITE and VERIFY once the lookups of their ranges are answered (R231, R247) -/

/-- The segments in which a WRITE or a VERIFY looks up its range. -/
def RangeDesc.lookups (r : RangeDesc) : List Nat := segmentRange r.vol r.firstUnit (r.firstUnit + r.units)
/-- The mapped units of a range. -/
def State.mapped (s : State) (r : RangeDesc) : List Nat := s.mappedIn r.vol r.firstUnit (r.firstUnit + r.units)

/-- What a payload must be in order for a WRITE of an unprotected volume. -/
structure WriteOk (p : List Byte) (v : Volume) : Prop where
  desc : descOk p = true
  opts : (rangeDesc p).opts ≤ 1
  most : (rangeDesc p).blocks ≤ 4080
  inside : (rangeDesc p).inside v = true
  length : p.length = 32 + (rangeDesc p).blocks * 4096
  plain : v.protect = false

/-- A WRITE whose pages are in is held, placed or refused. -/
def settleWrite (c : Cmd) (s : State) : State :=
  let r := rangeDesc c.payload
  if s.badUnits c r.vol r.partly = [] ∧ s.holdsWrite r.units then modCmd c.key (fun c => { c with phase := .waiting .hold }) s
  else placeOrRefuse c s
/-- A VERIFY of these units whose pages are in is answered. -/
def answerVerify (c : Cmd) (us : List Nat) (s : State) : State :=
  let r := rangeDesc c.payload
  let bad := s.badUnits c r.vol us
  if bad = [] then reply c stOk (leBytes 8 r.units ++ leBytes 8 c.tally) s
  else reply c stMediaUncorrectable (badReply (r.units - bad.length) (r.first + r.blocks) (bad.map fun b => r.clip b.1 b.2)) s

section
variable {s : State} {k : CmdKey} {c : Cmd} {x : Ctx} {v : Volume}

theorem exec_write_lookups (h : ReadyCtx s k 0x21 c x) (keys : s.keysPresent = true) (order : WriteOk c.payload v)
    (found : kvGet (rangeDesc c.payload).vol s.media.volumes = some v) (allowed : bit v.sessions c.key.session = true)
    (released : s.keeper.writeProtect = false) (room : s.deferredFull = false) (spare : s.media.spareOut = false)
    (known : Known s c (rangeDesc c.payload).lookups) :
    exec (.write k) s = .next (withUnits c (wholeUnits (rangeDesc c.payload).vol (rangeDesc c.payload).partly) (settleWrite c)
      (lookUp (rangeDesc c.payload).lookups s)) := by
  refine congrArg Host.Outcome.next ((withCtx_ready writeBlocks h).trans ?_)
  unfold writeBlocks
  dsimp only
  rw [volumeFor_allowed found allowed]
  simp only [order.plain, Bool.false_eq_true, if_false]
  have ok : (descOk c.payload && decide ((rangeDesc c.payload).opts ≤ 1) && decide ((rangeDesc c.payload).blocks ≤ 4080) &&
      (rangeDesc c.payload).inside v && decide (c.payload.length = 32 + (rangeDesc c.payload).blocks * 4096)) = true := by
    simp [order.desc, order.opts, order.most, order.inside, order.length]
  refine (stored_passes ok keys _).trans ((if_neg ?_).trans ((if_neg ?_).trans ((if_neg (not_not.2 rfl)).trans (withLookups_known known _))))
  · simp [released, room]
  · simp [spare]

theorem exec_verify_lookups (h : ReadyCtx s k 0x25 c x) (keys : s.keysPresent = true) (order : DiscardOk c.payload v)
    (found : kvGet (rangeDesc c.payload).vol s.media.volumes = some v) (allowed : bit v.sessions c.key.session = true)
    (known : Known s c (rangeDesc c.payload).lookups) :
    exec (.verify k) s = .next (withUnits c (wholeUnits (rangeDesc c.payload).vol (s.mapped (rangeDesc c.payload)))
      (answerVerify c (s.mapped (rangeDesc c.payload))) (lookUp (rangeDesc c.payload).lookups s)) := by
  refine congrArg Host.Outcome.next ((withCtx_ready verifyBlocks h).trans ?_)
  unfold verifyBlocks
  dsimp only
  rw [volumeFor_allowed found allowed]
  have ok : (descOk c.payload && decide (c.payload.length = 32) && decide ((rangeDesc c.payload).opts = 0) &&
      (rangeDesc c.payload).inside v) = true := by simp [order.descOk, order.length, order.opts, order.insideVolume]
  exact (stored_passes ok keys _).trans (withLookups_known known _)

end

/- The module -/

/-- Blocks 13,421,759 and 13,421,760 of volume 1: the last of unit 838,859 and the first of unit 838,860, whose map entries stand in segments
2,097,152 and 2,097,153. -/
def acrossSegments : List Byte := leBytes 1 1 ++ zeros 3 ++ leBytes 8 13421759 ++ leBytes 4 2 ++ zeros 16
def acrossSegs : List Nat := [2097152, 2097153]
/-- A command on the data queue of context 0; a WRITE of these blocks, and a VERIFY. -/
def dataCmd (op : Nat) (payload : List Byte) : Cmd := { receivedRun with key := ⟨0, 0, .data, 0⟩, opcode := op, parts := [(0, payload)] }
def acrossWrite : Cmd := dataCmd 0x21 (acrossSegments ++ zeros 8192)
def acrossVerify : Cmd := dataCmd 0x25 acrossSegments
def acrossVolume : Volume := ⟨838861, false, false, 0, 15, 0, []⟩

/-- The segments of volume 0's first units, all dirty. -/
def dirtySegments : List Segment := (List.range 6143).map fun n => ⟨n, true⟩

/-- An owned module in service with one command. Unit 838,859 of volume 1 is in the write buffer; its segment is clean in the cache and written
on flash. The next segment has never been written. -/
def crowded (c : Cmd) : State :=
  { State.reset with
    keeper := { Keeper.reset with stage := 5, holdupWeak := false }
    sec := { Security.reset with life := .owned, unlocked := true }
    sessions := [inPhase .opened, Session.free, Session.free, Session.free]
    contexts := [(0, batchCtx 64 0)]
    cmds := [c]
    media := { State.reset.media with
      volumes := [(1, acrossVolume)]
      slots := [(0, ⟨1, 838859, 0, zeros 65536, true, ⟨0, 0, .data, 1⟩, none, none, false, true⟩)]
      nextSlot := 1
      map := [(unitKey 1 838859, .buffer 0)]
      directory := [(2097152, ⟨0, 8, 0, 1⟩)]
      segments := ⟨2097152, false⟩ :: dirtySegments } }

section
variable {c : Cmd}

theorem crowded_known : Known (crowded c) c acrossSegs := by
  intro n mem
  obtain ⟨-, uncached, written⟩ := mem_missing.1 mem
  have own : n = 2097152 := by
    by_contra other
    rw [show (crowded c).media.directory = [(2097152, ⟨0, 8, 0, 1⟩)] from rfl, kvGet, if_neg (Ne.symm other)] at written
    exact absurd written nofun
  exact absurd own.symm (uncached ⟨2097152, false⟩ List.mem_cons_self)

/-- The cache after both segments of the range have been looked up. -/
theorem crowded_segments : (lookUp acrossSegs (crowded c)).media.segments = ⟨2097153, false⟩ :: dirtySegments := by
  have small : ∀ g ∈ dirtySegments, g.num < 6143 ∧ g.dirty = true := by
    intro g mem
    obtain ⟨n, below, rfl⟩ := List.mem_map.1 mem
    exact ⟨List.mem_range.1 below, rfl⟩
  have each : acrossSegs.eraseDups = [2097152, 2097153] := by decide +kernel
  rw [lookUp_segments, each, List.foldl_cons, List.foldl_cons, List.foldl_nil]
  refine touch_pushesOut ?_ (fun g mem => (small g mem).2) (fun g mem => ?_) (by decide)
  · rw [dirtySegments, List.length_map, List.length_range]
  · have := (small g mem).1
    omega

theorem crowded_misses (unread : c.segsIn = []) {segs : List Nat} (mem : 2097152 ∈ segs) : ¬ Known (lookUp acrossSegs (crowded c)) c segs := by
  intro known
  have missed : 2097152 ∈ (lookUp acrossSegs (crowded c)).missing segs := by
    refine mem_missing.2 ⟨mem, fun g cached => ?_, rfl⟩
    rw [crowded_segments] at cached
    rcases List.mem_cons.1 cached with rfl | cached
    · decide
    · obtain ⟨n, below, rfl⟩ := List.mem_map.1 cached
      have := List.mem_range.1 below
      show n ≠ 2097152
      omega
  exact absurd (known _ missed) (unread ▸ List.not_mem_nil)

end

theorem crowded_ready {op : Nat} {payload : List Byte} (turn : isTurn (dataCmd op payload) (crowded (dataCmd op payload)) = true)
    (serves : (crowded (dataCmd op payload)).serves op = true) (volumes : (crowded (dataCmd op payload)).deleteAhead (dataCmd op payload) = false) :
    ReadyCtx (crowded (dataCmd op payload)) ⟨0, 0, .data, 0⟩ op (dataCmd op payload) (batchCtx 64 0) where
  found := rfl
  opcode := rfl
  received := rfl
  turn := turn
  serving := rfl
  serves := serves
  running := rfl
  work := by decide
  context := rfl
  opened := rfl
  volumes := volumes

theorem acrossWrite_order : WriteOk acrossWrite.payload acrossVolume where
  desc := by decide +kernel
  opts := by decide +kernel
  most := by decide +kernel
  inside := by decide +kernel
  length := by decide +kernel
  plain := rfl

theorem acrossVerify_order : DiscardOk acrossVerify.payload acrossVolume where
  length := by decide +kernel
  reserved2 := by decide +kernel
  reserved16 := by decide +kernel
  opts := by decide +kernel
  some_ := by decide +kernel
  inside := by decide +kernel

theorem acrossWrite_ready : ReadyCtx (crowded acrossWrite) acrossWrite.key 0x21 acrossWrite (batchCtx 64 0) :=
  crowded_ready (by decide +kernel) rfl rfl
theorem acrossVerify_ready : ReadyCtx (crowded acrossVerify) acrossVerify.key 0x25 acrossVerify (batchCtx 64 0) :=
  crowded_ready (by decide +kernel) rfl rfl

/- The commands wait (R193) -/

theorem awaitSegments_replies (c : Cmd) (miss : List Nat) (s : State) : (awaitSegments c miss s).replies = s.replies :=
  (congrArg State.replies (awaitSegments_frame c miss s) :)

theorem acrossWrite_segments : (rangeDesc acrossWrite.payload).lookups = acrossSegs := by decide +kernel
theorem acrossVerify_segments : (rangeDesc acrossVerify.payload).lookups = acrossSegs := by decide +kernel

/-- The WRITE waits for the segment of the first unit that it covers in part. -/
theorem acrossWrite_unanswered {t : State} (run : exec (.write acrossWrite.key) (crowded acrossWrite) = .next t) : t.replies = [] := by
  have again : 2097152 ∈ (crowded acrossWrite).unitSegments
      (wholeUnits (rangeDesc acrossWrite.payload).vol (rangeDesc acrossWrite.payload).partly) := by decide +kernel
  have known : Known (crowded acrossWrite) acrossWrite (rangeDesc acrossWrite.payload).lookups := acrossWrite_segments ▸ crowded_known
  rw [exec_write_lookups acrossWrite_ready rfl acrossWrite_order rfl (by decide) rfl (by decide) rfl known, acrossWrite_segments,
    withUnits_missed (crowded_misses rfl again)] at run
  rw [← Host.Outcome.next.inj run, awaitSegments_replies]
  rfl

/-- The VERIFY waits for the segment of the mapped unit. -/
theorem acrossVerify_unanswered {t : State} (run : exec (.verify acrossVerify.key) (crowded acrossVerify) = .next t) : t.replies = [] := by
  have again : 2097152 ∈ (crowded acrossVerify).unitSegments (wholeUnits (rangeDesc acrossVerify.payload).vol
      ((crowded acrossVerify).mapped (rangeDesc acrossVerify.payload))) := by decide +kernel
  have known : Known (crowded acrossVerify) acrossVerify (rangeDesc acrossVerify.payload).lookups := acrossVerify_segments ▸ crowded_known
  rw [exec_verify_lookups acrossVerify_ready rfl acrossVerify_order rfl (by decide) known, acrossVerify_segments,
    withUnits_missed (crowded_misses rfl again)] at run
  rw [← Host.Outcome.next.inj run, awaitSegments_replies]
  rfl

end Sys2Proof.Machine

namespace Sys2Proof.Proofs

open Sys2Proof Sys2Proof.Machine

/-- Refutes O33: the WRITE of `acrossWrite`, whose range is in the map cache and which nothing holds, misses the segment that its own lookup
pushed out, and is not acknowledged. -/
theorem not_writeEntersBuffer : ¬ Obligations.WriteEntersBuffer := by
  unfold Obligations.WriteEntersBuffer
  intro claim
  obtain ⟨fresh, -⟩ := claim (crowded acrossWrite) acrossWrite.key acrossWrite (batchCtx 64 0) acrossVolume
    (by decide +kernel) (by decide +kernel) (by decide +kernel) (by decide) (by decide +kernel) (by simp [crowded])
  obtain ⟨places, -⟩ := fresh acrossWrite_ready rfl (by decide +kernel) (by decide +kernel) (by decide +kernel) rfl (by decide)
    rfl rfl (by decide) rfl (show Known _ _ (rangeDesc acrossWrite.payload).lookups from acrossWrite_segments ▸ crowded_known)
    (by decide +kernel) (by decide +kernel)
  obtain ⟨t, run, answered, -⟩ := places (by decide +kernel) (by decide +kernel)
  obtain ⟨q, made, -⟩ := answered.made
  rw [acrossWrite_unanswered run] at made
  exact absurd made List.not_mem_nil

/-- Refutes O35: the VERIFY of `acrossVerify`, whose range is in the map cache and whose one mapped unit is in the write buffer, misses the
segment that its own lookup pushed out, and is not answered. -/
theorem not_volumesAndCapacity : ¬ Obligations.VolumesAndCapacity := by
  unfold Obligations.VolumesAndCapacity
  intro claim
  obtain ⟨-, -, verify, -⟩ := claim (crowded acrossVerify) acrossVerify.key acrossVerify (batchCtx 64 0) rfl rfl
  have buffered : ∀ i ∈ (crowded acrossVerify).mapped (rangeDesc acrossVerify.payload),
      (crowded acrossVerify).entry (rangeDesc acrossVerify.payload).vol i = some (.buffer 0) := by decide +kernel
  have order := acrossVerify_order
  obtain ⟨u, t, run, -, answered⟩ := verify acrossVerify_ready order.length order.reserved2 order.reserved16 order.opts order.some_
    ⟨acrossVolume, rfl, by decide, order.inside, by decide⟩
    (.inr ⟨show Known _ _ (rangeDesc acrossVerify.payload).lookups from acrossVerify_segments ▸ crowded_known, by decide +kernel⟩)
    (fun i mem => by simp [buffered i mem])
  obtain ⟨q, made, -⟩ := answered.made
  rw [acrossVerify_unanswered run] at made
  exact absurd made List.not_mem_nil

end Sys2Proof.Proofs
end

section
/-!
PROOFS. LOAD_PREDICATE (R259, R262 to R264, R267): the tables that a payload obeys, and O36.
-/

namespace Sys2Proof.Machine

open Sys2Proof

/-- The fields that a LOAD_PREDICATE projects: offset and length (Table 8-2). -/
def predicateProj (p : List Byte) : List (Nat × Nat) :=
  (List.range (fieldAt p 2 1)).map fun i => (fieldAt p (48 + 4 * i) 2, fieldAt p (50 + 4 * i) 2)
/-- Its predicate program. -/
def predicateProgram (p : List Byte) : List Byte := p.drop (48 + 4 * fieldAt p 2 1)

/-- The target of a LOAD_PREDICATE, with the layout and the projection that it takes: records of a layout, or vectors of an index (R259, R263). -/
def targetOk (p : List Byte) : Bool :=
  match fieldAt p 1 1 with
  | 1 => (layoutAt p 16).ok (fieldAt p 24 8) && projOk (layoutAt p 16) (predicateProj p)
  | 2 => decide (fieldAt p 2 1 = 0) && allZero (slice p 16 32)
  | _ => false

/-- A LOAD_PREDICATE payload obeys its tables. -/
def predicateOk (p : List Byte) : Bool :=
  decide (80 ≤ p.length) && decide (fieldAt p 0 1 < 32) && decide (fieldAt p 3 13 = 0) && decide (fieldAt p 2 1 ≤ 16) && targetOk p &&
    programOk (predicateProgram p) (layoutAt p 16)

/-- The predicate that it loads. -/
def loadedPred (p : List Byte) : Pred :=
  ⟨fieldAt p 1 1, layoutAt p 16, predicateProj p, fieldAt (predicateProgram p) 2 1, programTerms (predicateProgram p)⟩

/-- The reply names the program's length and RATE_PCT (log entry 65). -/
def loadReply (p : List Byte) : List Byte :=
  leBytes 4 (predicateProgram p).length ++ leBytes 1 (ratePct (layoutAt p 16) (programTerms (predicateProgram p))) ++ zeros 3

theorem targetOk_iff {p : List Byte} : targetOk p = true ↔
    (fieldAt p 1 1 = 1 ∧ (layoutAt p 16).ok (fieldAt p 24 8) = true ∧ projOk (layoutAt p 16) (predicateProj p) = true) ∨
      (fieldAt p 1 1 = 2 ∧ fieldAt p 2 1 = 0 ∧ allZero (slice p 16 32) = true) := by
  unfold targetOk
  split
  · next records => simp [records]
  · next vectors => simp [vectors]
  · next records vectors => exact ⟨nofun, fun ok => ok.elim (fun h => (records h.1).elim) fun h => (vectors h.1).elim⟩

variable {c : Cmd} {x : Ctx} {s : State}

theorem loadPredicate_stores (ok : predicateOk c.payload = true) : loadPredicate c x s = reply c stOk (loadReply c.payload)
    { s with preds := kvSet (32 * c.key.ctx + fieldAt c.payload 0 1) (loadedPred c.payload) s.preds } := by
  have kept : ¬ ((!predicateOk c.payload) = true) := by simp [ok]
  rw [Nat.mul_comm 32]
  exact if_neg kept

theorem loadPredicate_refuses (bad : ¬ predicateOk c.payload = true) : loadPredicate c x s = fail c stInvalid s := by
  have refused : (!predicateOk c.payload) = true := by simpa using bad
  exact if_pos refused

end Sys2Proof.Machine

namespace Sys2Proof.Proofs

open Sys2Proof Sys2Proof.Machine

/-- Settles O36: the payload passes the check of its tables, or it does not. -/
theorem predicateLoaded : Obligations.PredicateLoaded := by
  unfold Obligations.PredicateLoaded
  intro s k c x h p n l g proj good
  obtain rfl := h.toReady.key
  have ran : exec (.loadPredicate c.key) s = .next (loadPredicate c x s) := congrArg Host.Outcome.next (withCtx_ready loadPredicate h)
  have checked : predicateOk p = true ↔ good := by
    have target := targetOk_iff (p := p)
    simp only [predicateOk, Bool.and_eq_true, decide_eq_true_eq, target]
    exact ⟨fun ⟨⟨⟨⟨⟨long, handle⟩, reserved⟩, fields⟩, target⟩, program⟩ => ⟨long, handle, reserved, fields, program, target⟩,
      fun ⟨long, handle, reserved, fields, program, target⟩ => ⟨⟨⟨⟨⟨long, handle⟩, reserved⟩, fields⟩, target⟩, program⟩⟩
  refine ⟨fun holds => ⟨_, ran, ?_⟩, fun fails => ⟨_, ran, ?_⟩⟩
  · rw [loadPredicate_stores (checked.2 holds)]
    exact h.answered rfl stOk (loadReply p) rfl
  · rw [loadPredicate_refuses fun ok => fails (checked.1 ok)]
    exact h.answered rfl stInvalid [] rfl

end Sys2Proof.Proofs
end

section
/-!
PROOFS. Scans (R258, R265 to R271): where a scan is cut, when it pauses, and what it looks up and reads before its reply is made.
-/

namespace Sys2Proof.Machine

open Sys2Proof

/- A completion of a command that may run -/

/-- A completion in the session of a command that may run waits to depart, whatever it is charged. -/
theorem ReadyCtx.completes {s : State} {k : CmdKey} {op : Nat} {c : Cmd} {x : Ctx} (h : ReadyCtx s k op c x) (status : Nat) (sh : Bool)
    (payload : List Byte) (kib : Nat) (acts : List Act) {u : State} (sessions : u.sessions = s.sessions) :
    Answered u (complete c status sh payload kib acts u) c status payload acts := by
  refine complete_answered status sh payload kib acts u (.inr ?_)
  rw [State.session, sessions, h.toReady.key, ← State.session, h.opened]
  exact nofun

/-- With its completion the scan of a command goes: how its entry stood does not show. -/
theorem Answered.ofScans {u t : State} {l : List Scan} {c : Cmd} {status : Nat} {payload : List Byte} {acts : List Act}
    (others : l.filter (fun q => decide (q.key ≠ c.key)) = u.scans.filter fun q => decide (q.key ≠ c.key))
    (h : Answered { u with scans := l } t c status payload acts) : Answered u t c status payload acts := by
  obtain ⟨r, key, opcode, seq, port, st, pay, act, reject, id, frame⟩ := h
  refine ⟨r, key, opcode, seq, port, st, pay, act, reject, id, frame.trans ?_⟩
  dsimp only
  rw [others]

/-- A change of one scan leaves the others. -/
theorem modScan_others (k : CmdKey) {f : Scan → Scan} (key : ∀ q, (f q).key = q.key) (s : State) :
    (modScan k f s).scans.filter (fun q => decide (q.key ≠ k)) = s.scans.filter fun q => decide (q.key ≠ k) := by
  show (s.scans.map fun q => if q.key = k then f q else q).filter (fun q => decide (q.key ≠ k)) = _
  induction s.scans with
  | nil => rfl
  | cons q l ih =>
    by_cases own : q.key = k
    · simp [own, key]
      simpa using ih
    · simp [own]
      simpa using ih

/- Units looked up and read (R193, R266) -/

theorem known_mono {s : State} {c : Cmd} {segs more : List Nat} (sub : segs ⊆ more) (known : Known s c more) : Known s c segs := by
  intro n missed
  obtain ⟨mem, uncached, written⟩ := mem_missing.1 missed
  exact known n (mem_missing.2 ⟨sub mem, uncached, written⟩)

section
variable {s : State} {c : Cmd} {us : List (Nat × Nat)} {l : List (Nat × Nat × Nat)} (in_ : UnitsIn s c us) (among : ∀ u ∈ l, (u.1, u.2.1) ∈ us)
include in_ among

theorem unitsIn_known : Known s c (s.unitSegments l) := by
  refine known_mono (List.map_subset _ fun n mem => ?_) in_.1
  obtain ⟨key, unheld⟩ := List.mem_filter.1 mem
  obtain ⟨u, there, rfl⟩ := List.mem_map.1 key
  exact List.mem_filter.2 ⟨List.mem_map.2 ⟨_, among u there, rfl⟩, unheld⟩

theorem unitsIn_pages : ∀ a ∈ (s.unitPages l).map (·.1), a ∈ c.pagesIn := by
  intro a mem
  obtain ⟨b, found, rfl⟩ := List.mem_map.1 mem
  obtain ⟨u, there, place⟩ := List.mem_filterMap.1 found
  refine in_.2 _ (among u there) b.1 (List.mem_filterMap.2 ⟨u.2.1, List.mem_singleton_self _, ?_⟩)
  split at place
  · next a at_ =>
    rw [at_, ← Option.some.inj place]
  · exact absurd place nofun

/-- With the lookups of some units answered and their pages in, a command that needs no other units goes on. -/
theorem unitsIn_goesOn (f : State → State) : withUnits c l f s = f (lookUp (s.unitSegments l) s) := withUnits_in (unitsIn_known in_ among) (unitsIn_pages in_ among) f

end

theorem unitRead_of_unitsIn {s : State} {c : Cmd} {us : List (Nat × Nat × Nat)} (in_ : UnitsIn s c (us.map (·.2))) {u : Nat × Nat × Nat} (mem : u ∈ us) :
    s.unitRead c u = true := by
  unfold State.unitRead
  split
  · next a at_ =>
    refine List.contains_iff_mem.2 (in_.2 _ (List.mem_map_of_mem mem) a (List.mem_filterMap.2 ⟨u.2.2, List.mem_singleton_self _, ?_⟩))
    rw [at_]
  · rfl

theorem takeWhile_unitRead {s : State} {c : Cmd} {us : List (Nat × Nat × Nat)} (in_ : UnitsIn s c (us.map (·.2))) : us.takeWhile (s.unitRead c) = us :=
  List.takeWhile_eq_self_iff.2 fun _ mem => unitRead_of_unitsIn in_ mem

/-- The windows of a scan whose units have all been read hold them all. -/
theorem windows_all {s : State} {c : Cmd} {us : List (Nat × Nat × Nat)} (in_ : UnitsIn s c (us.map (·.2))) : s.windows c us = us := by
  unfold State.windows
  rw [takeWhile_unitRead in_]
  exact List.take_of_length_le (by omega)

theorem mem_byPlace {s : State} {us : List (Nat × Nat × Nat)} {u : Nat × Nat × Nat} (mem : u ∈ s.byPlace us) : u ∈ us := by
  obtain ⟨i, -, at_⟩ := List.mem_filterMap.1 mem
  exact List.mem_of_getElem? at_

/- Where a scan is cut (R269, R271) -/

/-- The units that can be read, and those that cannot, each with the cause. -/
def seenUnits (us : List UnitScan) : List UnitScan := us.filter (·.bad.isNone)
def lostUnits (us : List UnitScan) : List (Nat × Nat) := us.filterMap fun u => u.bad.map fun cause => (u.unit, cause)

section
variable {es : List Extent} {skip : Bool} {size : UnitScan → Nat} {us : List UnitScan}

theorem seenUnits_whole (whole : ∀ u ∈ us, u.bad = none) : seenUnits us = us := List.filter_eq_self.2 fun u mem => by rw [whole u mem]; rfl

theorem lostUnits_whole (whole : ∀ u ∈ us, u.bad = none) : lostUnits us = [] :=
  List.filterMap_eq_nil_iff.2 fun u mem => by rw [whole u mem]; rfl

theorem lostUnits_some (lost : ∃ u ∈ us, u.bad ≠ none) : lostUnits us ≠ [] := by
  obtain ⟨u, mem, bad⟩ := lost
  obtain ⟨cause, bad⟩ := Option.ne_none_iff_exists'.1 bad
  exact List.ne_nil_of_mem (List.mem_filterMap.2 ⟨u, mem, by rw [bad]; rfl⟩)

/-- Results that fit are not cut: a scan that no unreadable unit stops takes the others. -/
theorem cutScan_fits {max_ : Nat} (fits : (us.map size).sum ≤ max_) (goesOn : (∀ u ∈ us, u.bad = none) ∨ skip = true) :
    cutScan es skip size max_ us = ⟨none, seenUnits us, lostUnits us, false⟩ := by
  induction us generalizing max_ with
  | nil => rfl
  | cons u us ih =>
    rw [List.map_cons, List.sum_cons] at fits
    have rest := ih (max_ := max_ - size u) (by omega) (goesOn.imp_left fun whole v mem => whole v (List.mem_cons_of_mem u mem))
    have left := ih (max_ := max_) (by omega) (goesOn.imp_left fun whole v mem => whole v (List.mem_cons_of_mem u mem))
    cases bad : u.bad with
    | none =>
      have room : ¬ max_ < size u := by omega
      simp [cutScan, bad, room, rest, seenUnits, lostUnits]
    | some cause =>
      have skips : skip = true := goesOn.resolve_left fun whole => by simp [bad] at whole
      simp [cutScan, bad, skips, skips ▸ left, seenUnits, lostUnits]

/-- An unreadable unit stops a scan without SKIP whose results fit. -/
theorem cutScan_stops {max_ : Nat} (fits : (us.map size).sum ≤ max_) (lost : ∃ u ∈ us, u.bad ≠ none) :
    (cutScan es false size max_ us).stopped = true := by
  induction us generalizing max_ with
  | nil => exact absurd lost (by simp)
  | cons u us ih =>
    rw [List.map_cons, List.sum_cons] at fits
    cases bad : u.bad with
    | none =>
      have room : ¬ max_ < size u := by omega
      have later : ∃ v ∈ us, v.bad ≠ none := by simpa [bad] using lost
      simp [cutScan, bad, room, ih (max_ := max_ - size u) (by omega) later]
    | some cause => simp [cutScan, bad]

end

/- Running a scan (R266, R269, R270) -/

/-- What a scan finds in its units. -/
def State.scanned (s : State) (c : Cmd) (q : Pred) (es : List Extent) : List UnitScan :=
  (s.scanUnits es).map fun u => scanUnit q c s u.2.1 u.1 u.2.2

/-- The scan holds these predicate engines. -/
def holdEngines (k : CmdKey) (sieves : List Nat) (s : State) : State := modScan k (fun q => { q with sieves := sieves }) s

theorem holdEngines_others (k : CmdKey) (sieves : List Nat) (s : State) :
    (holdEngines k sieves s).scans.filter (fun q => decide (q.key ≠ k)) = s.scans.filter fun q => decide (q.key ≠ k) :=
  modScan_others k (f := fun q => { q with sieves := sieves }) (fun _ => rfl) s

/-- Its units in the order of their places, whole, and the segments in which it looks them up. -/
def State.scanReads (s : State) (es : List Extent) : List (Nat × Nat × Nat) := (s.byPlace (s.scanUnits es)).map fun u => (u.2.1, u.2.2, 0xFFFF)
def State.scanSegs (s : State) (es : List Extent) : List Nat := s.unitSegments (s.scanReads es)

/-- The state in which a scan that goes on has looked up its units and holds its engines. -/
def State.scanning (s : State) (k : CmdKey) (es : List Extent) : State :=
  holdEngines k (s.scanSieves (s.scanUnits es)) (lookUp (s.scanSegs es) s)

@[simp] theorem lookUp_scans (segs : List Nat) (s : State) : (lookUp segs s).scans = s.scans := modMedia_scans ..
@[simp] theorem hostReads_scans (n : Nat) (s : State) : (hostReads n s).scans = s.scans := modMedia_scans ..

@[simp] theorem lookUp_sessions (segs : List Nat) (s : State) : (lookUp segs s).sessions = s.sessions := modMedia_sessions ..
@[simp] theorem hostReads_sessions (n : Nat) (s : State) : (hostReads n s).sessions = s.sessions := modMedia_sessions ..

theorem scanning_sessions (s : State) (k : CmdKey) (es : List Extent) : (s.scanning k es).sessions = s.sessions := lookUp_sessions (s.scanSegs es) s

/-- But for the scan's entry it is the state after its lookups. -/
theorem hostReads_scanning (s : State) (k : CmdKey) (es : List Extent) (n : Nat) :
    hostReads n (s.scanning k es) = { hostReads n (lookUp (s.scanSegs es) s) with scans := (s.scanning k es).scans } := rfl

theorem scanning_others (s : State) (k : CmdKey) (es : List Extent) (n : Nat) : (s.scanning k es).scans.filter (fun q => decide (q.key ≠ k)) =
    (hostReads n (lookUp (s.scanSegs es) s)).scans.filter fun q => decide (q.key ≠ k) := by
  rw [hostReads_scans]
  exact holdEngines_others k (s.scanSieves (s.scanUnits es)) (lookUp (s.scanSegs es) s)

/-- The units are as they were. -/
theorem scanned_scanning (s : State) (k : CmdKey) (c : Cmd) (q : Pred) (es : List Extent) :
    (s.scanUnits es).map (fun u => scanUnit q c (s.scanning k es) u.2.1 u.1 u.2.2) = s.scanned c q es := rfl

section
variable {s : State} {c : Cmd} {es : List Extent} {q : Scan} {skip : Bool} {max_ : Nat} {size : UnitScan → Nat}
  {go : ScanCut → Nat → State → State} (charged : q.kib ≠ 0) (place : q.sieves ≠ [] ∨ s.enginePlace c.key (s.scanSieves (s.scanUnits es)) = true)
  (in_ : UnitsIn s c ((s.scanUnits es).map (·.2))) (fits : ((s.scanned c q.pred es).map size).sum ≤ max_)
include charged place in_ fits

/-- While no unreadable unit stops it, a scan whose survivors staged have reached its amount pauses. -/
theorem runScan_pauses (goesOn : (∀ u ∈ s.scanned c q.pred es, u.bad = none) ∨ skip = true) (full : q.kib ≤ s.stagedKib c q) :
    Paused s (runScan c es q skip max_ (fun s u => scanUnit q.pred c s u.2.1 u.1 u.2.2) size go s) c.key (s.scanSieves (s.scanUnits es)) (s.stagedKib c q) := by
  have cut := cutScan_fits (es := es) fits goesOn
  unfold State.scanned at cut
  unfold runScan
  dsimp only
  rw [takeWhile_unitRead in_, cut, if_neg charged, if_neg (by rintro ⟨none_, full⟩; rcases place with some_ | free; exacts [some_ none_, by simp [free] at full]),
    if_pos ⟨rfl, full⟩]
  unfold Paused withPhase modScan modCmd
  dsimp only
  rw [List.map_map]
  congr 1
  refine List.map_congr_left fun r _ => ?_
  dsimp only [Function.comp]
  split <;> simp_all

/-- A scan that is stopped, or whose survivors staged are below its amount, looks up its units and goes on. -/
theorem runScan_finishes (goes : ((∃ u ∈ s.scanned c q.pred es, u.bad ≠ none) ∧ skip = false) ∨ s.stagedKib c q < q.kib) :
    runScan c es q skip max_ (fun s u => scanUnit q.pred c s u.2.1 u.1 u.2.2) size go s =
      go (cutScan es skip size max_ (s.scanned c q.pred es)) (s.scanned c q.pred es).length (s.scanning c.key es) := by
  have goesOn : ¬ ((!((cutScan es skip size max_ (s.scanned c q.pred es)).stopped || (cutScan es skip size max_ (s.scanned c q.pred es)).next.isSome)) = true ∧
      q.kib ≤ s.stagedKib c q) := by
    rintro ⟨open_, full⟩
    rcases goes with ⟨lost, rfl⟩ | below
    · rw [cutScan_stops fits lost] at open_
      exact absurd open_ nofun
    · omega
  unfold State.scanned at goesOn
  unfold runScan
  dsimp only
  rw [takeWhile_unitRead in_, windows_all in_, ite_self, if_neg charged,
    if_neg (by rintro ⟨none_, full⟩; rcases place with some_ | free; exacts [some_ none_, by simp [free] at full]), if_neg goesOn]
  have held : UnitsIn (holdEngines c.key (s.scanSieves (s.scanUnits es)) s) c ((s.scanUnits es).map (·.2)) := in_
  have among : ∀ u ∈ s.scanReads es, (u.1, u.2.1) ∈ (s.scanUnits es).map (·.2) := by
    intro u mem
    obtain ⟨v, there, rfl⟩ := List.mem_map.1 mem
    exact List.mem_map_of_mem (mem_byPlace there)
  refine (unitsIn_goesOn held among _).trans ?_
  show go (cutScan es skip size max_ ((s.scanUnits es).map fun u => scanUnit q.pred c (s.scanning c.key es) u.2.1 u.1 u.2.2)) (s.scanUnits es).length
    (s.scanning c.key es) = _
  rw [scanned_scanning, State.scanned, List.length_map]

end

end Sys2Proof.Machine
end

section
/-!
PROOFS. SCAN and SCAN_READ_RESUME (R258, R265, R268 to R271): the reply of a scan by where it was cut, and O37.
-/

namespace Sys2Proof.Machine

open Sys2Proof

/- The reply (Table 8-9) -/

theorem scanHead_whole {cut : ScanCut} (whole : cut.next = none) (ranges results bytes : Nat) :
    scanHead cut ranges results bytes = scanReplyHead cut.units ranges results bytes := by
  unfold scanHead
  rw [whole]
  rfl

theorem length_scanReplyHead (us : List UnitScan) (ranges results bytes : Nat) : (scanReplyHead us ranges results bytes).length = 32 := by
  simp [scanReplyHead]

/-- The survivors of some units as a SCAN returns them. -/
def survivorsBody (q : Pred) (us : List UnitScan) : List Byte := (us.flatMap (unitSurvivors q)).flatMap fun v => v.bytes (b2n v.cut)

/-- The payload of a SCAN's reply. -/
def scanPayload (q : Pred) (cut : ScanCut) : List Byte :=
  scanHead cut (badRanges cut.bad).length (cut.units.flatMap (unitSurvivors q)).length (survivorsBody q cut.units).length ++
    survivorsBody q cut.units ++ (badRanges cut.bad).flatMap badBytes

/-- The end of a SCAN that has read so many units. -/
def answerScan (c : Cmd) (q : Pred) (max_ : Nat) (cut : ScanCut) (read : Nat) (s : State) : State :=
  complete c cut.status (decide (cut.bad ≠ [])) (scanPayload q cut) (2 * max_ / 1024) [] (hostReads read s)

section
variable {q : Pred} {us : List UnitScan}

theorem scanPayload_whole (whole : ∀ u ∈ us, u.bad = none) : scanPayload q ⟨none, seenUnits us, lostUnits us, false⟩ =
    scanReplyHead us 0 (us.flatMap (unitSurvivors q)).length (survivorsBody q us).length ++ survivorsBody q us := by
  rw [seenUnits_whole whole, lostUnits_whole whole, scanPayload, scanHead_whole rfl]
  exact List.append_nil _

/-- Before the range entries of unreadable units stand the head and the survivors of the others. -/
theorem take_scanPayload : (scanPayload q ⟨none, seenUnits us, lostUnits us, false⟩).take (32 + (survivorsBody q (seenUnits us)).length) =
    scanReplyHead (seenUnits us) (badRanges (lostUnits us)).length ((seenUnits us).flatMap (unitSurvivors q)).length
      (survivorsBody q (seenUnits us)).length ++ survivorsBody q (seenUnits us) := by
  rw [scanPayload, scanHead_whole rfl]
  refine List.take_left' ?_
  rw [List.length_append, length_scanReplyHead]

end

theorem status_whole : (⟨none, us, [], false⟩ : ScanCut).status = stOk := rfl

theorem status_skipped {us : List UnitScan} {lost : List (Nat × Nat)} (some_ : lost ≠ []) : (⟨none, us, lost, false⟩ : ScanCut).status = stOkShort :=
  if_neg some_

theorem status_stopped {cut : ScanCut} (stopped : cut.stopped = true) : cut.status = stMediaUncorrectable := if_pos stopped

/- SCAN -/

/-- The extents of a scan. -/
def scanExtents (p : List Byte) : List (Extent × Bool) := extentsAt p 16 (fieldAt p 1 1)

def extentsOf (c : Cmd) : List Extent := (scanExtents c.payload).map (·.1)

/-- Where a SCAN of these units is cut. -/
def State.recordsCut (s : State) (c : Cmd) (q : Pred) : ScanCut :=
  cutScan (extentsOf c) (bit (fieldAt c.payload 2 1) 0) (survivorBytes q) (fieldAt c.payload 4 4) (s.scanned c q (extentsOf c))

theorem recordsCut_stops {s : State} {c : Cmd} {q : Pred} (fits : ((s.scanned c q (extentsOf c)).map (survivorBytes q)).sum ≤ fieldAt c.payload 4 4)
    (noSkip : bit (fieldAt c.payload 2 1) 0 = false) (lost : ∃ u ∈ s.scanned c q (extentsOf c), u.bad ≠ none) : (s.recordsCut c q).stopped = true := by
  unfold State.recordsCut
  rw [noSkip]
  exact cutScan_stops fits lost

/-- A SCAN payload is in order (Table 8-8). -/
structure ScanOk (s : State) (session : Nat) (p : List Byte) : Prop where
  head : scanHeadOk p = true
  length : p.length = 16 + 16 * fieldAt p 1 1
  reserved3 : fieldAt p 3 1 = 0
  most : outputMaxOk (fieldAt p 4 4) = true
  reserved8 : fieldAt p 8 4 = 0
  extents : s.extentsOk session (scanExtents p) = true

/-- A SCAN in order runs. -/
def runRecords (c : Cmd) (q : Scan) (s : State) : State :=
  runScan c (extentsOf c) q (bit (fieldAt c.payload 2 1) 0) (fieldAt c.payload 4 4)
    (fun s u => scanUnit q.pred c s u.2.1 u.1 u.2.2) (survivorBytes q.pred) (answerScan c q.pred (fieldAt c.payload 4 4)) s

section
variable {s : State} {c : Cmd} {x : Ctx} {q : Scan} (h : ReadyCtx s c.key 0x31 c x)
include h

theorem exec_scan (keys : s.keysPresent = true) (found : s.scanOf c.key = some q) (target : q.pred.target = 1)
    (order : ScanOk s c.key.session c.payload) : exec (.scan c.key) s = .next (runRecords c q s) := by
  refine congrArg Host.Outcome.next ((withCtx_ready scanRecords h).trans ?_)
  unfold scanRecords
  dsimp only
  rw [found]
  refine stored_passes ?_ keys _
  have extents : s.extentsOk c.key.session (extentsAt c.payload 16 (fieldAt c.payload 1 1)) = true := order.extents
  simp [order.head, ← order.length, order.reserved3, order.most, order.reserved8, extents, target]

/-- Received without room for its amount it completes QUOTA_EXCEEDED. -/
theorem runRecords_uncharged (none_ : q.kib = 0) : Answered s (runRecords c q s) c stQuota [] [] := by
  have refused : runRecords c q s = fail c stQuota s := if_pos none_
  rw [refused]
  exact h.answered rfl stQuota [] rfl

variable (charged : q.kib ≠ 0) (place : q.sieves ≠ [] ∨ s.enginePlace c.key (s.scanSieves (s.scanUnits (extentsOf c))) = true)
  (in_ : UnitsIn s c ((s.scanUnits (extentsOf c)).map (·.2)))
  (fits : ((s.scanned c q.pred (extentsOf c)).map (survivorBytes q.pred)).sum ≤ fieldAt c.payload 4 4)
include charged place in_ fits

/-- One that does not pause completes as it is cut. -/
theorem runRecords_answered
    (goes : ((∃ u ∈ s.scanned c q.pred (extentsOf c), u.bad ≠ none) ∧ bit (fieldAt c.payload 2 1) 0 = false) ∨ s.stagedKib c q < q.kib)
    {cut : ScanCut} (cuts : s.recordsCut c q.pred = cut) :
    Answered (hostReads (s.scanned c q.pred (extentsOf c)).length (lookUp (s.scanSegs (extentsOf c)) s)) (runRecords c q s) c cut.status
      (scanPayload q.pred cut) [] := by
  have finished : runRecords c q s = answerScan c q.pred (fieldAt c.payload 4 4) (s.recordsCut c q.pred) (s.scanned c q.pred (extentsOf c)).length
      (s.scanning c.key (extentsOf c)) := runScan_finishes charged place in_ fits goes
  rw [finished, cuts]
  refine Answered.ofScans (scanning_others s c.key (extentsOf c) _) ?_
  rw [← hostReads_scanning]
  exact h.completes cut.status _ (scanPayload q.pred cut) _ [] ((hostReads_sessions ..).trans (scanning_sessions ..))

theorem runRecords_stopped (lost : ∃ u ∈ s.scanned c q.pred (extentsOf c), u.bad ≠ none) (noSkip : bit (fieldAt c.payload 2 1) 0 = false) :
    Answered (hostReads (s.scanned c q.pred (extentsOf c)).length (lookUp (s.scanSegs (extentsOf c)) s)) (runRecords c q s) c stMediaUncorrectable
      (scanPayload q.pred (s.recordsCut c q.pred)) [] := by
  have answered := runRecords_answered h charged place in_ fits (.inl ⟨lost, noSkip⟩) rfl
  rwa [status_stopped (recordsCut_stops fits noSkip lost)] at answered

theorem runRecords_whole (whole : ∀ u ∈ s.scanned c q.pred (extentsOf c), u.bad = none) (below : s.stagedKib c q < q.kib) :
    Answered (hostReads (s.scanned c q.pred (extentsOf c)).length (lookUp (s.scanSegs (extentsOf c)) s)) (runRecords c q s) c stOk
      (scanReplyHead (s.scanned c q.pred (extentsOf c)) 0 ((s.scanned c q.pred (extentsOf c)).flatMap (unitSurvivors q.pred)).length
        (survivorsBody q.pred (s.scanned c q.pred (extentsOf c))).length ++ survivorsBody q.pred (s.scanned c q.pred (extentsOf c))) [] := by
  have answered := runRecords_answered h charged place in_ fits (.inr below) (cutScan_fits fits (.inl whole))
  rwa [scanPayload_whole whole, lostUnits_whole whole, status_whole] at answered

theorem runRecords_skipped (lost : ∃ u ∈ s.scanned c q.pred (extentsOf c), u.bad ≠ none) (skip : bit (fieldAt c.payload 2 1) 0 = true)
    (below : s.stagedKib c q < q.kib) :
    Answered (hostReads (s.scanned c q.pred (extentsOf c)).length (lookUp (s.scanSegs (extentsOf c)) s)) (runRecords c q s) c stOkShort
      (scanPayload q.pred ⟨none, seenUnits (s.scanned c q.pred (extentsOf c)), lostUnits (s.scanned c q.pred (extentsOf c)), false⟩) [] := by
  have answered := runRecords_answered h charged place in_ fits (.inr below) (cutScan_fits fits (.inr skip))
  rwa [status_skipped (lostUnits_some lost)] at answered

end

/- SCAN_READ_RESUME (R270) -/

/-- A paused scan of which so many KiB have been drained. -/
def Scan.drain (kib : Nat) (r : Scan) : Scan :=
  { r with staged := r.staged - kib, drained := r.drained + kib, paused := decide (r.kib ≤ r.staged - kib) }

theorem exec_scanReadResume {s : State} {k : CmdKey} {c : Cmd} {q : Scan} (found : findCmd k s = some c) (paused : c.phase = .waiting .staging)
    (scan : s.scanOf k = some q) (kib : Nat) : exec (.scanReadResume k kib) s = .next { s with
      scans := s.scans.map fun r => if r.key = k then r.drain kib else r
      cmds := if q.staged - kib < q.kib then withPhase s k .received else s.cmds } := by
  show Host.Outcome.next _ = _
  rw [found, scan]
  dsimp only
  rw [if_pos paused]
  split <;> rfl

end Sys2Proof.Machine

namespace Sys2Proof.Proofs

open Sys2Proof Sys2Proof.Machine

/-- Settles O37: a SCAN in order is not charged, or pauses, or goes on to the reply that its cut makes; a paused one is drained. What a staged
survivor counts is log entry 211. -/
theorem scanReturnsSurvivors : Obligations.ScanReturnsSurvivors := by
  unfold Obligations.ScanReturnsSurvivors
  intro s k c q scan
  refine ⟨?scan, fun kib found paused => exec_scanReadResume found paused scan kib⟩
  intro x h keys target p n most es units seen vs body staged head length zero3 most_ zero8 extents
  obtain rfl := h.toReady.key
  have run := exec_scan h keys scan target ⟨head, length, zero3, most_, zero8, extents⟩
  refine ⟨fun none_ => ⟨_, run, runRecords_uncharged h none_⟩, fun charged place in_ fits => ?_⟩
  by_cases pauses : ((∀ v ∈ units, v.bad = none) ∨ bit (fieldAt p 2 1) 0 = true) ∧ q.kib ≤ staged
  · obtain ⟨goesOn, full⟩ := pauses
    refine ⟨s, _, rfl, run, fun _ _ => runScan_pauses charged place in_ fits goesOn full, fun ⟨v, mem, bad⟩ noSkip => ?_, fun below => ?_⟩
    · rcases goesOn with whole | skip
      · exact absurd (whole v mem) bad
      · exact absurd (skip.symm.trans noSkip) nofun
    · exact absurd full (Nat.not_le.2 below)
  · refine ⟨lookUp (s.scanSegs es) s, _, lookedUp_lookUp _ s, run, fun goesOn full => absurd ⟨goesOn, full⟩ pauses,
      fun lost noSkip => ⟨_, runRecords_stopped h charged place in_ fits lost noSkip⟩, fun below => ⟨fun whole => ?_, fun lost skip => ?_⟩⟩
    · have seen_ : seen = units := seenUnits_whole whole
      have answered := runRecords_whole h charged place in_ fits whole below
      dsimp only [body, vs]
      rw [seen_]
      exact answered
    · exact ⟨_, _, take_scanPayload, runRecords_skipped h charged place in_ fits lost skip below⟩

end Sys2Proof.Proofs
end

section
/-!
PROOFS. The placement engine (R123, R131 to R141): what a context's seat on plots leaves as it was, which contexts run at it, and that it looks at
scans for nothing but what they are charged.
-/

namespace Sys2Proof.Machine

open Sys2Proof

/- What the engine does not look at -/

/-- The state with other scans and with another order of the map cache. -/
def State.withScans (s : State) (scans : List Scan) (segs : List Segment) : State :=
  { s with scans := scans, media := { s.media with segments := segs } }

/-- These scans are charged as those of the state are. -/
def Charged (scans : List Scan) (s : State) : Prop := scans.map (fun q => (q.key, q.kib)) = s.scans.map fun q => (q.key, q.kib)

/-- A step of the engine: it leaves a settled state, a context ran when it did before or runs now, and how scans stand makes no difference. -/
structure Engine (scans : List Scan) (segs : List Segment) (f : State → State) : Prop where
  settled : ∀ s, Settled s (f s)
  ran : ∀ s n x, kvGet n (f s).contexts = some x → x.lastRun = s.now ∨ ∃ y, kvGet n s.contexts = some y ∧ x.lastRun = y.lastRun
  blind : ∀ s, Charged scans s → f (s.withScans scans segs) = (f s).withScans scans segs

theorem Settled.scans {u t : State} (h : Settled u t) : t.scans = u.scans := (congrArg State.scans h.1 :)
theorem Settled.now {u t : State} (h : Settled u t) : t.now = u.now := (congrArg State.now h.1 :)

theorem Charged.ofSettled {scans : List Scan} {u t : State} (h : Settled u t) (charged : Charged scans u) : Charged scans t := by
  unfold Charged
  rw [h.scans]
  exact charged

section
variable {scans : List Scan} {segs : List Segment} {f g : State → State}

/- Reads -/

theorem victims_withScans (s : State) (p kib fuel : Nat) (rs : List Resident) :
    (s.withScans scans segs).victims p kib fuel rs = s.victims p kib fuel rs := by
  induction fuel generalizing rs with
  | zero => rfl
  | succ fuel ih =>
    unfold State.victims
    simp only [ih]
    rfl

theorem takePlots_withScans (s : State) (ps : List Nat) (k fresh : Nat) : (s.withScans scans segs).takePlots ps k fresh = s.takePlots ps k fresh := by
  induction ps generalizing k fresh with
  | nil => cases k <;> rfl
  | cons p ps ih =>
    cases k with
    | zero => rfl
    | succ k =>
      unfold State.takePlots
      simp only [ih]
      rfl

theorem plotLimit_withScans {s : State} (charged : Charged scans s) (n : Nat) (x : Ctx) : (s.withScans scans segs).plotLimit n x = s.plotLimit n x := by
  have sums : ∀ l : List Scan, (l.map fun q => if q.key.context = some n then q.kib else 0) =
      (l.map fun q => (q.key, q.kib)).map fun q => if q.1.context = some n then q.2 else 0 := fun l => by rw [List.map_map]; rfl
  have kib : (s.withScans scans segs).chargedKib n = s.chargedKib n := by
    unfold State.chargedKib
    rw [sums, sums]
    show _ + ((scans.map fun q => (q.key, q.kib)).map fun q => if q.1.context = some n then q.2 else 0).sum + _ = _
    rw [charged]
    rfl
  have room : (s.withScans scans segs).headroomKib n = s.headroomKib n := by
    unfold State.headroomKib
    rw [kib]
    rfl
  unfold State.plotLimit
  rw [room]
  rfl

/- Steps put together -/

theorem Engine.id : Engine scans segs fun s => s := ⟨Settled.refl, fun _ _ x found => .inr ⟨x, found, rfl⟩, fun _ _ => rfl⟩

theorem Engine.comp (second : Engine scans segs g) (first : Engine scans segs f) : Engine scans segs fun s => g (f s) where
  settled s := (first.settled s).trans (second.settled _)
  ran s n x found := by
    rcases second.ran _ n x found with runs | ⟨y, before, same⟩
    · exact .inl (runs.trans (first.settled s).now)
    · rcases first.ran s n y before with runs | ⟨z, before, same'⟩
      · exact .inl (same.trans runs)
      · exact .inr ⟨z, before, same.trans same'⟩
  blind s charged := by
    show g (f (s.withScans scans segs)) = _
    rw [first.blind s charged, second.blind _ (charged.ofSettled (first.settled s))]

/-- What is a step of the engine on each state, and the same one on the state with other scans, is one. -/
theorem Engine.of (h : ∀ s, ∃ g, Engine scans segs g ∧ f s = g s ∧ (Charged scans s → f (s.withScans scans segs) = g (s.withScans scans segs))) :
    Engine scans segs f where
  settled s := by
    obtain ⟨g, step, same, -⟩ := h s
    rw [same]
    exact step.settled s
  ran s n x found := by
    obtain ⟨g, step, same, -⟩ := h s
    rw [same] at found
    exact step.ran s n x found
  blind s charged := by
    obtain ⟨g, step, same, other⟩ := h s
    rw [same, other charged, step.blind s charged]

theorem Engine.ite {c : State → Prop} [DecidablePred c] (same : ∀ s, Charged scans s → (c (s.withScans scans segs) ↔ c s)) (yes : Engine scans segs f)
    (no : Engine scans segs g) : Engine scans segs fun s => if c s then f s else g s := by
  refine Engine.of fun s => ?_
  by_cases h : c s
  · exact ⟨f, yes, if_pos h, fun charged => if_pos ((same s charged).2 h)⟩
  · exact ⟨g, no, if_neg h, fun charged => if_neg fun there => h ((same s charged).1 there)⟩

/-- A step that turns on something the engine looks up, and does one step without it and another with it. -/
theorem Engine.option {β : Type} {F : State → State} (o : State → Option β) (g : β → State → State) (none_ : Engine scans segs f)
    (some_ : ∀ b, Engine scans segs (g b)) (isNone : ∀ s, o s = none → F s = f s) (isSome : ∀ s b, o s = some b → F s = g b s)
    (same : ∀ s, Charged scans s → o (s.withScans scans segs) = o s) : Engine scans segs F := by
  refine Engine.of fun s => ?_
  cases h : o s with
  | none => exact ⟨f, none_, isNone s h, fun charged => isNone _ ((same s charged).trans h)⟩
  | some b => exact ⟨g b, some_ b, isSome s b h, fun charged => isSome _ b ((same s charged).trans h)⟩

theorem Engine.foldl {α : Type} {f : State → α → State} (step : ∀ a, Engine scans segs fun s => f s a) (l : List α) :
    Engine scans segs fun s => l.foldl f s := by
  induction l with
  | nil => exact Engine.id
  | cons a l ih => exact ih.comp (step a)

/- One part changed -/

theorem engine_modPlots {f : State → Plots → Plots} (blind : ∀ s, f (s.withScans scans segs) = f s) : Engine scans segs fun s => modPlots (f s) s where
  settled s := settled_modPlots ..
  ran s n x found := .inr ⟨x, found, rfl⟩
  blind s _ := by
    rw [blind]
    rfl

theorem engine_modPlot (p : Nat) {f : State → Plot → Plot} (blind : ∀ s, f (s.withScans scans segs) = f s) :
    Engine scans segs fun s => modPlot p (f s) s :=
  Engine.ite (fun _ _ => Iff.rfl) (engine_modPlots (f := fun s x => { x with list := kvSet p (f s (s.plot p)) x.list }) fun s => by rw [blind]; rfl) Engine.id

theorem engine_setPlot (p : Nat) (f : Plot → Plot) : Engine scans segs (modPlot p f) := engine_modPlot p (f := fun _ => f) fun _ => rfl

theorem engine_modResident (p n : Nat) (f : Resident → Resident) : Engine scans segs (modResident p n f) := engine_modPlot p fun _ => rfl

/-- The context runs now, or as it did, and wants some plots. -/
theorem engine_modCtx (n : Nat) {f : Nat → Ctx → Ctx} (same : ∀ r x, { f r x with lastRun := 0, want := 0 } = { x with lastRun := 0, want := 0 })
    (ran : ∀ r x, (f r x).lastRun = r ∨ (f r x).lastRun = x.lastRun) : Engine scans segs fun s => modCtx n (f s.now) s where
  settled s := settled_modCtx n (same s.now) s
  ran s m x found := by
    change kvGet m (kvMod n (f s.now) s.contexts) = some x at found
    by_cases own : n = m
    · subst own
      rw [kvGet_kvMod_same] at found
      obtain ⟨y, before, rfl⟩ := Option.map_eq_some_iff.1 found
      exact (ran s.now y).imp_right fun kept => ⟨y, before, kept⟩
    · rw [kvGet_kvMod_other _ _ own] at found
      exact .inr ⟨x, found, rfl⟩
  blind _ _ := rfl

theorem engine_chargeLanding (n bytes : Nat) : Engine scans segs (chargeLanding n bytes) where
  settled s := settled_chargeLanding n bytes s
  ran s m x found := .inr ⟨x, (congrArg (fun t : State => kvGet m t.contexts) (account_frame _ _ s) :).symm.trans found, rfl⟩
  blind s _ := by
    unfold chargeLanding
    cases paid : s.paidBy (some n) with
    | none => rw [account_none paid, account_none (s := s.withScans scans segs) paid]; rfl
    | some m => rw [account_some paid, account_some (s := s.withScans scans segs) paid]; rfl

/- Residents come and go -/

/-- A context off the plot, with its tiles. -/
def Plot.without (n : Nat) (q : Plot) : Plot := { q with
  residents := q.residents.filter fun r => decide (r.ctx ≠ n)
  tiles := q.tiles.filter fun t => decide (t.ctx ≠ n)
  running := if q.running = some n then none else q.running }

theorem engine_leavePlot (p n : Nat) : Engine scans segs (leavePlot p n) :=
  Engine.of fun s => ⟨fun t => modPlot p (Plot.without n) (chargeLanding n ((s.plot p).modifiedBytes n) t),
    (engine_setPlot ..).comp (engine_chargeLanding ..), rfl, fun _ => rfl⟩

/-- The plot given to a context, these residents marked to make place. -/
def Plot.give (n : Nat) (out : List Nat) (q : Plot) : Plot := { q with
  claims := q.claims ++ [n]
  residents := q.residents.map fun r => if out.contains r.ctx then { r with out := some (some n) } else r }

theorem engine_claim (n kib p : Nat) : Engine scans segs fun s => claim n kib s p :=
  engine_modPlot p (f := fun s => Plot.give n ((s.victims p kib 5 (s.plot p).staying).getD [])) fun s => by
    rw [victims_withScans]
    rfl

theorem engine_refresh (p : Nat) : Engine scans segs (refresh p) := engine_modPlot p fun _ => rfl

theorem engine_refreshImages : Engine scans segs refreshImages := engine_modPlots fun _ => rfl

theorem engine_join (p : Nat) (r : Resident) : Engine scans segs (join p r) := engine_modPlot p fun _ => rfl

theorem engine_beginSwapOut (p ctx : Nat) (cause : Option Nat) : Engine scans segs (beginSwapOut p ctx cause) := engine_modPlot p fun _ => rfl

/-- The hand-on blocks for members that stand on the plot, and one that moves there. -/
def State.blocksFor (s : State) (n p : Nat) (h : HandOn) : Bool := (s.runs.filter fun r => decide (r.ctx = n)).any fun r => (r.sent ++ r.landed).any fun x =>
  decide (x.2.2 = h) && (s.memberSeq r x.1 x.2.1).any fun i => decide (((r.seqs[i]?).map (·.plot)) = some p)

def Plot.clear (h : HandOn) (q : Plot) : Plot := { q with window := q.window.map fun w => if w = some h then none else w }

def putBlock (from_ p : Nat) (h : HandOn) (win : List (Option HandOn)) (s : State) : State :=
  modPlot p (fun q => { q with window := win }) (modPlot from_ (Plot.clear h) s)

def moveBlock (mine : HandOn → Bool) (from_ p : Nat) (s : State) (h : HandOn) : State :=
  if !mine h then s
  else match (s.plot p).accept h with
    | none => s
    | some win => putBlock from_ p h win s

theorem engine_putBlock (from_ p : Nat) (h : HandOn) (win : List (Option HandOn)) : Engine scans segs (putBlock from_ p h win) :=
  (engine_setPlot p fun q => { q with window := win }).comp (engine_setPlot from_ (Plot.clear h))

theorem engine_moveBlock (mine : HandOn → Bool) (from_ p : Nat) (h : HandOn) : Engine scans segs fun s => moveBlock mine from_ p s h :=
  Engine.ite (c := fun _ => (!mine h) = true) (fun _ _ => Iff.rfl) Engine.id
    (Engine.option (fun s => (s.plot p).accept h) (putBlock from_ p h) Engine.id (engine_putBlock from_ p h)
      (fun _ h => by simp only [h]) (fun _ _ h => by simp only [h]) fun _ _ => rfl)

theorem engine_moveBlocks (n from_ p : Nat) : Engine scans segs (moveBlocks n from_ p) :=
  Engine.ite (c := fun _ => from_ = p) (fun _ _ => Iff.rfl) Engine.id (Engine.of fun s =>
    ⟨_, Engine.foldl (engine_moveBlock (s.blocksFor n p) from_ p) ((s.plot from_).window.filterMap id), rfl, fun _ => rfl⟩)

/-- What of a context stood on a plot, or stands on none, stands on this one. -/
def restand (n p : Nat) (from_ : Option Nat) (s : State) : State :=
  let lost := fun (q : Nat) => decide (some q = from_) || (decide (from_ = none) && !s.hasPlace n q)
  { s with
    runs := s.runs.map fun r => if r.ctx = n then { r with seqs := r.seqs.map fun q => if lost q.plot then { q with plot := p } else q } else r
    searches := s.searches.map fun q => if q.key.context = some n ∧ lost q.plot then { q with plot := p } else q }

theorem rehome_eq (n p : Nat) (from_ : Option Nat) (s : State) : rehome n p from_ s = moveBlocks n (from_.getD p) p (restand n p from_ s) := rfl

theorem engine_rehome (n p : Nat) (from_ : Option Nat) : Engine scans segs (rehome n p from_) where
  settled := settled_rehome n p from_
  ran s := (engine_moveBlocks (scans := scans) (segs := segs) n (from_.getD p) p).ran (restand n p from_ s)
  blind s charged := by
    rw [rehome_eq, rehome_eq]
    exact (engine_moveBlocks n (from_.getD p) p).blind (restand n p from_ s) charged

/- The parts of a boundary -/

/-- A resident that has ended, has no work, or is one too many goes. -/
def dropResident (p : Nat) (busy : Option Nat) (s : State) (r : Resident) : State :=
  if busy = some r.ctx ∨ (s.plot p).swap.any (fun w => decide (w.ctx = r.ctx)) then s
  else if !s.hasWork r.ctx then modCtx r.ctx (fun x => { x with want := 0 }) (leavePlot p r.ctx s)
  else if (kvGet r.ctx s.contexts).any fun x => decide (s.plotLimit r.ctx x < s.plotsHeld r.ctx) && decide (1 < s.plotsHeld r.ctx) then leavePlot p r.ctx s
  else s

theorem engine_dropResident (p : Nat) (busy : Option Nat) (r : Resident) : Engine scans segs fun s => dropResident p busy s r := by
  have wanted : Engine scans segs fun s => modCtx r.ctx (fun x => { x with want := 0 }) s :=
    engine_modCtx r.ctx (f := fun _ x => { x with want := 0 }) (fun _ _ => rfl) fun _ _ => .inr rfl
  refine Engine.ite (fun _ _ => Iff.rfl) Engine.id (Engine.ite (fun _ _ => Iff.rfl) (wanted.comp (engine_leavePlot ..))
    (Engine.ite (fun s charged => ?_) (engine_leavePlot ..) Engine.id))
  simp only [plotLimit_withScans charged]
  exact Iff.rfl

theorem engine_dropGone (p : Nat) (busy : Option Nat) : Engine scans segs (dropGone p busy) :=
  Engine.of fun s => ⟨_, Engine.foldl (engine_dropResident p busy) (s.plot p).residents, rfl, fun _ => rfl⟩

/-- A resident of a parked plot leaves it with its image. -/
def Plot.imageOf (q : Plot) (p now : Nat) (r : Resident) : Image :=
  ⟨r.ctx, p, now, r.blocked, none, true, r.leftUs, r.remainder, r.owedUs, q.tiles.filter fun t => decide (t.ctx = r.ctx)⟩

def vacateOne (p : Nat) (busy : Option Nat) (s : State) (r : Resident) : State :=
  if busy = some r.ctx ∨ (s.sectionOn p r.ctx ∧ !(s.blockedOn p r.ctx).any (·.outside)) then s
  else leavePlot p r.ctx (modPlots (fun x => { x with
    images := if s.hasWork r.ctx then x.images ++ [(s.plot p).imageOf p s.now r] else x.images }) s)

theorem engine_vacateOne (p : Nat) (busy : Option Nat) (r : Resident) : Engine scans segs fun s => vacateOne p busy s r :=
  Engine.ite (fun _ _ => Iff.rfl) Engine.id ((engine_leavePlot ..).comp (engine_modPlots
    (f := fun s x => { x with images := if s.hasWork r.ctx then x.images ++ [(s.plot p).imageOf p s.now r] else x.images }) fun _ => rfl))

theorem engine_vacate (p : Nat) (busy : Option Nat) : Engine scans segs (vacate p busy) :=
  Engine.ite (fun _ _ => Iff.rfl) Engine.id (Engine.of fun s =>
    ⟨_, (Engine.foldl (engine_vacateOne p busy) (s.plot p).residents).comp (engine_setPlot p fun q => { q with claims := [], swap := none }), rfl, fun _ => rfl⟩)

/-- A changed SRAM quota takes effect, or residents are marked for swap-out, or the context moves. -/
def fitSram (p : Nat) (r : Resident) (x : Ctx) (others : List Resident) (s : State) : State :=
  if sramSum others + x.sramKib ≤ 2944 then modResident p r.ctx (fun r => { r with sramKib := x.sramKib }) s
  else if x.cls = .batch then modResident p r.ctx (fun r => { r with out := r.out.or (some none) }) s
  else match s.victims p x.sramKib 5 ((s.plot p).staying.filter fun q => decide (q.ctx ≠ r.ctx)) with
    | some vs => vs.foldl (fun s v => modResident p v (fun v => { v with out := v.out.or (some (some r.ctx)) }) s) s
    | none => match s.workPlots.find? fun q => s.roomOn q x.sramKib && !s.hasPlace r.ctx q with
      | none => s
      | some q => claim r.ctx x.sramKib (leavePlot p r.ctx s) q

theorem engine_fitSram (p : Nat) (r : Resident) (x : Ctx) (others : List Resident) : Engine scans segs (fitSram p r x others) := by
  have move : Engine scans segs fun s => match s.workPlots.find? fun q => s.roomOn q x.sramKib && !s.hasPlace r.ctx q with
      | none => s
      | some q => claim r.ctx x.sramKib (leavePlot p r.ctx s) q :=
    Engine.option (fun s => s.workPlots.find? fun q => s.roomOn q x.sramKib && !s.hasPlace r.ctx q)
      (fun q s => claim r.ctx x.sramKib (leavePlot p r.ctx s) q) Engine.id (fun q => (engine_claim r.ctx x.sramKib q).comp (engine_leavePlot ..))
      (fun _ h => by simp only [h]) (fun _ _ h => by simp only [h]) fun _ _ => rfl
  refine Engine.ite (c := fun _ => sramSum others + x.sramKib ≤ 2944) (fun _ _ => Iff.rfl) (engine_modResident ..)
    (Engine.ite (c := fun _ => x.cls = .batch) (fun _ _ => Iff.rfl) (engine_modResident ..) (Engine.of fun s => ?_))
  have same := victims_withScans (scans := scans) (segs := segs) s p x.sramKib 5 ((s.plot p).staying.filter fun q => decide (q.ctx ≠ r.ctx))
  cases found : s.victims p x.sramKib 5 ((s.plot p).staying.filter fun q => decide (q.ctx ≠ r.ctx)) with
  | none => exact ⟨_, move, rfl, fun _ => by rw [show (s.withScans scans segs).plot p = s.plot p from rfl, same, found]⟩
  | some vs =>
    exact ⟨_, Engine.foldl (fun v => engine_modResident p v fun v => { v with out := v.out.or (some (some r.ctx)) }) vs, rfl,
      fun _ => by rw [show (s.withScans scans segs).plot p = s.plot p from rfl, same, found]⟩

/-- The quotas of one resident, whose context is given, take effect at its boundary. -/
def applyQuota (p : Nat) (busy : Option Nat) (r : Resident) (x : Ctx) (s : State) : State :=
  if busy = some r.ctx then s
  else if x.cls = .interactive ∧ r.cls ≠ .interactive ∧ 128 ≤ s.interactivePlots ∧ !s.heldInteractive (s.plot p) then
    if 1 < s.plotsHeld r.ctx then leavePlot p r.ctx s else s
  else fitSram p r x ((s.plot p).residents.filter fun q => decide (q.ctx ≠ r.ctx))
    (modResident p r.ctx (fun r => { r with cls := x.cls, sliceUs := x.sliceUs }) s)

theorem engine_applyQuota (p : Nat) (busy : Option Nat) (r : Resident) (x : Ctx) : Engine scans segs (applyQuota p busy r x) := by
  refine Engine.ite (c := fun _ => busy = some r.ctx) (fun _ _ => Iff.rfl) Engine.id (Engine.ite (fun _ _ => Iff.rfl)
    (Engine.ite (fun _ _ => Iff.rfl) (engine_leavePlot ..) Engine.id) (Engine.of fun s => ?_))
  exact ⟨_, (engine_fitSram p r x ((s.plot p).residents.filter fun q => decide (q.ctx ≠ r.ctx))).comp
    (engine_modResident p r.ctx fun r => { r with cls := x.cls, sliceUs := x.sliceUs }), rfl, fun _ => rfl⟩

/-- The quotas of one resident take effect. -/
def applyQuotaOf (p : Nat) (busy : Option Nat) (s : State) (r : Resident) : State :=
  match kvGet r.ctx s.contexts with
  | none => s
  | some x => applyQuota p busy r x s

theorem engine_applyQuotaOf (p : Nat) (busy : Option Nat) (r : Resident) : Engine scans segs fun s => applyQuotaOf p busy s r :=
  Engine.option (fun s => kvGet r.ctx s.contexts) (applyQuota p busy r) Engine.id (engine_applyQuota p busy r)
    (fun _ h => by simp only [applyQuotaOf, h]) (fun _ _ h => by simp only [applyQuotaOf, h]) fun _ _ => rfl

theorem engine_applyQuotas (p : Nat) (busy : Option Nat) : Engine scans segs (applyQuotas p busy) :=
  Engine.of fun s => ⟨_, Engine.foldl (engine_applyQuotaOf p busy) (s.plot p).residents, rfl, fun _ => rfl⟩

theorem engine_startOut (p : Nat) (busy : Option Nat) : Engine scans segs (startOut p busy) :=
  Engine.ite (fun _ _ => Iff.rfl) Engine.id (Engine.option
    (fun s => (s.plot p).residents.find? fun r => r.out.isSome && decide (busy ≠ some r.ctx) && (!s.sectionOn p r.ctx || (s.blockedOn p r.ctx).any (·.outside)))
    (fun r => beginSwapOut p r.ctx (r.out.getD none)) Engine.id (fun r => engine_beginSwapOut p r.ctx (r.out.getD none))
    (fun _ h => by simp only [h]) (fun _ _ h => by simp only [h]) fun _ _ => rfl)

/-- The context wants another plot, which is not this one. -/
def State.wantsPlot (s : State) (p n : Nat) (x : Ctx) : Bool :=
  let placed := (s.workPlots.filter (s.hasPlace n)).length
  s.hasWork n && s.runnable n && decide (0 < placed) && decide (placed < min x.want (s.plotLimit n x)) && !s.hasPlace n p &&
    (decide (x.cls ≠ .interactive) || decide (s.interactivePlots < 128))

theorem wantsPlot_withScans {s : State} (charged : Charged scans s) (p : Nat) : (s.withScans scans segs).wantsPlot p = s.wantsPlot p := by
  funext n x
  unfold State.wantsPlot
  rw [plotLimit_withScans charged]
  rfl

/-- A plot with nobody on it goes to a context that wants another. -/
def offerFree (p : Nat) (s : State) : State :=
  match s.contexts.find? fun c => s.wantsPlot p c.1 c.2 with
  | none => s
  | some c => claim c.1 c.2.sramKib s p

theorem engine_offerFree (p : Nat) : Engine scans segs (offerFree p) :=
  Engine.option (fun s => s.contexts.find? fun c => s.wantsPlot p c.1 c.2) (fun c s => claim c.1 c.2.sramKib s p) Engine.id
    (fun c => engine_claim c.1 c.2.sramKib p) (fun _ h => by simp only [offerFree, h]) (fun _ _ h => by simp only [offerFree, h])
    fun s charged => by rw [wantsPlot_withScans charged]; rfl

theorem engine_offer (p : Nat) : Engine scans segs (offer p) := Engine.ite (fun _ _ => Iff.rfl) Engine.id (engine_offerFree p)

/-- A plot is not given to a context any more. -/
def Plot.unclaim (n : Nat) (q : Plot) : Plot := { q with claims := q.claims.filter fun m => decide (m ≠ n) }

/-- A context that a plot has been given joins it. -/
def admitClaim (p n : Nat) (x : Ctx) (s : State) : State :=
  if !s.hasWork n ∨ (s.plot p).holds n then modPlot p (Plot.unclaim n) s
  else if (s.plot p).room x.sramKib then rehome n p none (join p (x.resident n s.now) s)
  else s

/-- A context joins a plot as it stands now. -/
theorem engine_enter (p n : Nat) (x : Ctx) (from_ : Option Nat) {f : State → State} (before : Engine scans segs f) :
    Engine scans segs fun s => rehome n p from_ (join p (x.resident n s.now) (f s)) :=
  Engine.of fun s => ⟨_, (engine_rehome n p from_).comp ((engine_join p (x.resident n s.now)).comp before), rfl, fun _ => rfl⟩

theorem engine_admitClaim (p n : Nat) (x : Ctx) : Engine scans segs (admitClaim p n x) :=
  Engine.ite (fun _ _ => Iff.rfl) (engine_setPlot ..) (Engine.ite (fun _ _ => Iff.rfl) (engine_enter p n x none Engine.id) Engine.id)

/-- A context that a plot has been given joins it, or its claim goes. -/
def admitOne (p : Nat) (s : State) (n : Nat) : State :=
  match kvGet n s.contexts with
  | none => modPlot p (Plot.unclaim n) s
  | some x => admitClaim p n x s

theorem engine_admitOne (p n : Nat) : Engine scans segs fun s => admitOne p s n :=
  Engine.option (fun s => kvGet n s.contexts) (admitClaim p n) (engine_setPlot p (Plot.unclaim n)) (engine_admitClaim p n)
    (fun _ h => by simp only [admitOne, h]) (fun _ _ h => by simp only [admitOne, h]) fun _ _ => rfl

theorem engine_admitClaims (p : Nat) : Engine scans segs (admitClaims p) :=
  Engine.of fun s => ⟨_, Engine.foldl (engine_admitOne p) (s.plot p).claims, rfl, fun _ => rfl⟩

/-- What waits outside comes in. -/
def swapIn (p : Nat) (i : Image) (s : State) : State :=
  if i.saved then modPlot p (fun q => { q with swap := some ⟨i.ctx, false, i.cause, s.now, i.plot⟩ }) s
  else match kvGet i.ctx s.contexts with
    | none => s
    | some x => rehome i.ctx p (some i.plot) (join p (x.resident i.ctx s.now) (modPlots (fun y => { y with images := y.images.erase i }) s))

theorem engine_swapIn (p : Nat) (i : Image) : Engine scans segs (swapIn p i) :=
  Engine.ite (c := fun _ => i.saved = true) (fun _ _ => Iff.rfl)
    (engine_modPlot p (f := fun s q => { q with swap := some ⟨i.ctx, false, i.cause, s.now, i.plot⟩ }) fun _ => rfl)
    (Engine.option (fun s => kvGet i.ctx s.contexts)
      (fun x s => rehome i.ctx p (some i.plot) (join p (x.resident i.ctx s.now) (modPlots (fun y => { y with images := y.images.erase i }) s)))
      Engine.id (fun x => engine_enter p i.ctx x (some i.plot) (engine_modPlots (f := fun _ y => { y with images := y.images.erase i }) fun _ => rfl))
      (fun _ h => by simp only [h]) (fun _ _ h => by simp only [h]) fun _ _ => rfl)

theorem engine_startIn (p : Nat) : Engine scans segs (startIn p) :=
  Engine.ite (fun _ _ => Iff.rfl) Engine.id (Engine.option (fun s => s.nextIn p) (swapIn p) Engine.id (engine_swapIn p) (fun _ h => by simp only [h])
    (fun _ _ h => by simp only [h]; rfl) fun _ _ => rfl)

/-- A settling pass of an index comes onto a plot that has room for it. -/
def passIn (p : Nat) (x : Nat × Index) (s : State) : State :=
  let busy := (s.plots.list.filter fun q => q.2.residents.any fun r => decide (r.cls = .housekeeping)).length
  if 8 ≤ busy ∨ s.heldInteractive (s.plot p) ∨ (s.plot p).role ≠ .active ∨ (s.plot p).parked ∨ !(s.plot p).room 0 then s
  else join p ⟨1024 + x.1, .housekeeping, 0, 2000, 2000, false, 0, s.now, false, none⟩ s

theorem engine_passIn (p : Nat) (x : Nat × Index) : Engine scans segs (passIn p x) :=
  Engine.ite (fun _ _ => Iff.rfl) Engine.id (Engine.of fun s =>
    ⟨_, engine_join p ⟨1024 + x.1, .housekeeping, 0, 2000, 2000, false, 0, s.now, false, none⟩, rfl, fun _ => rfl⟩)

theorem engine_takePass (p : Nat) : Engine scans segs (takePass p) :=
  Engine.option (fun s => s.indexes.find? fun x => x.2.pass.isSome && decide (s.plotsHeld (1024 + x.1) = 0) && (!s.pressure || s.insertHeld x.1))
    (passIn p) Engine.id (engine_passIn p) (fun _ h => by simp only [takePass, h]) (fun _ _ h => by simp only [takePass, h, passIn]) fun _ _ => rfl

theorem engine_settleResidents (p : Nat) (busy : Option Nat) : Engine scans segs (settleResidents p busy) :=
  (engine_refresh p).comp <| (engine_takePass p).comp <| (engine_startIn p).comp <| (engine_admitClaims p).comp <| (engine_offer p).comp <|
    (engine_startOut p busy).comp <| (engine_refresh p).comp <| (engine_applyQuotas p busy).comp <| (engine_vacate p busy).comp <|
    (engine_dropGone p busy).comp <| engine_refreshImages.comp <|
    engine_modPlots (f := fun s x => { x with images := x.images.filter fun i => s.hasWork i.ctx }) fun _ => rfl

/-- The plot runs a context from now on. -/
def Plot.run (n now : Nat) (q : Plot) : Plot := { q with
  running := some n, moverAt := now
  shadow := q.shadow.map fun x => if x.any fun y => decide (y.key.context ≠ some n) then none else x }

/-- With no context to run, a blocked resident may make room for one outside. -/
def idlePlot (p : Nat) (s : State) : State :=
  if (s.plot p).swap.isSome ∨ !(s.plots.images.any fun i => (s.blockedOn i.plot i.ctx).isNone) then s
  else match s.waitVictim p with
    | none => s
    | some v => beginSwapOut p v.ctx none s

theorem choose_some {s : State} {p n : Nat} (next : (s.plot p).nextRun = some n) :
    choose p s = modCtx n (fun x => { x with lastRun := s.now }) (modPlot p (Plot.run n s.now) s) := by
  unfold choose
  rw [next]
  rfl

theorem choose_none {s : State} {p : Nat} (none_ : (s.plot p).nextRun = none) :
    choose p s = idlePlot p (modPlot p (fun q => { q with running := none }) s) := by
  unfold choose
  rw [none_]
  rfl

theorem engine_idlePlot (p : Nat) : Engine scans segs (idlePlot p) :=
  Engine.ite (fun _ _ => Iff.rfl) Engine.id (Engine.option (fun s => s.waitVictim p) (fun v => beginSwapOut p v.ctx none) Engine.id
    (fun v => engine_beginSwapOut p v.ctx none) (fun _ h => by simp only [h]) (fun _ _ h => by simp only [h]) fun _ _ => rfl)

theorem engine_runOn (p n : Nat) : Engine scans segs fun s => modCtx n (fun x => { x with lastRun := s.now }) (modPlot p (Plot.run n s.now) s) := by
  have run : Engine scans segs fun s => modPlot p (Plot.run n s.now) s := engine_modPlot p (f := fun s => Plot.run n s.now) fun _ => rfl
  refine Engine.of fun s => ⟨_, (engine_modCtx n (f := fun r x => { x with lastRun := r }) (fun _ _ => rfl) fun _ _ => .inl rfl).comp run, ?_, fun _ => ?_⟩
  · rw [(settled_modPlot p (Plot.run n s.now) s).now]
  · rw [(settled_modPlot p (Plot.run n (s.withScans scans segs).now) (s.withScans scans segs)).now]

theorem engine_choose (p : Nat) : Engine scans segs (choose p) := by
  refine Engine.of fun s => ?_
  cases next : (s.plot p).nextRun with
  | some n => exact ⟨_, engine_runOn p n, choose_some next, fun _ => choose_some (s := s.withScans scans segs) next⟩
  | none => exact ⟨_, (engine_idlePlot p).comp (engine_setPlot p fun q => { q with running := none }), choose_none next,
      fun _ => choose_none (s := s.withScans scans segs) next⟩

theorem engine_settleIdle (p : Nat) : Engine scans segs (settleIdle p) :=
  Engine.ite (fun _ _ => Iff.rfl) ((engine_choose p).comp (engine_settleResidents p none)) Engine.id

/- A context is given plots -/

/-- The plots that a context has a place on, and those that the engine takes for it. -/
def State.placed (s : State) (n : Nat) : Nat := (s.workPlots.filter (s.hasPlace n)).length

def State.plotsFor (s : State) (n want : Nat) (x : Ctx) : List Nat :=
  let open_ := s.workPlots.filter fun p => !s.hasPlace n p && s.roomOn p x.sramKib
  let full := if x.cls = .interactive then
      s.workPlots.filter fun p => !s.hasPlace n p && !s.roomOn p x.sramKib && (s.victims p x.sramKib 5 (s.plot p).staying).isSome
    else []
  let order := (open_.filter fun p => decide ((s.plot p).residents = [])) ++ (open_.filter fun p => decide ((s.plot p).residents ≠ [])) ++ full
  s.takePlots order (min want (s.plotLimit n x) - s.placed n) (if x.cls = .interactive then 128 - s.interactivePlots else 272)

/-- It is given them; without one a batch context waits outside. -/
def waitOutside (n : Nat) (x : Ctx) (mine : List Nat) (placed first : Nat) (s : State) : State :=
  if mine = [] ∧ placed = 0 ∧ x.cls = .batch ∧ !(s.plots.images.any fun i => decide (i.ctx = n)) then
    modPlots (fun q => { q with images := q.images ++ [⟨n, first, s.now, false, none, false, x.sliceUs, false, 0, []⟩] }) s
  else s

def takeSeats (n : Nat) (x : Ctx) (mine : List Nat) (placed first : Nat) (s : State) : State :=
  waitOutside n x mine placed first (mine.foldl (fun s p => settleIdle p (claim n x.sramKib s p)) s)

def seatOn (n want : Nat) (x : Ctx) (s : State) : State := takeSeats n x (s.plotsFor n want x) (s.placed n) (s.workPlots.headD 0) s

/-- The context runs now, and wants so many plots. -/
def Ctx.wants (want now : Nat) (x : Ctx) : Ctx := { x with lastRun := now, want := max x.want want }

theorem seat_some {s : State} {n want : Nat} {x : Ctx} (found : kvGet n s.contexts = some x) :
    seat n want s = seatOn n want { x with want := max x.want want } (modCtx n (Ctx.wants want s.now) s) := by
  unfold seat
  rw [found]
  rfl

theorem seat_none {s : State} {n want : Nat} (none_ : kvGet n s.contexts = none) : seat n want s = s := by
  unfold seat
  rw [none_]

theorem plotsFor_withScans {s : State} (charged : Charged scans s) (n want : Nat) (x : Ctx) :
    (s.withScans scans segs).plotsFor n want x = s.plotsFor n want x := by
  unfold State.plotsFor
  simp only [takePlots_withScans, victims_withScans, plotLimit_withScans charged]
  rfl

theorem engine_waitOutside (n : Nat) (x : Ctx) (mine : List Nat) (placed first : Nat) : Engine scans segs (waitOutside n x mine placed first) :=
  Engine.ite (fun _ _ => Iff.rfl) (engine_modPlots (f := fun s q => { q with
    images := q.images ++ [⟨n, first, s.now, false, none, false, x.sliceUs, false, 0, []⟩] }) fun _ => rfl) Engine.id

theorem engine_takeSeats (n : Nat) (x : Ctx) (mine : List Nat) (placed first : Nat) : Engine scans segs (takeSeats n x mine placed first) :=
  (engine_waitOutside n x mine placed first).comp (Engine.foldl (fun p => (engine_settleIdle p).comp (engine_claim n x.sramKib p)) mine)

theorem engine_seatOn (n want : Nat) (x : Ctx) : Engine scans segs (seatOn n want x) :=
  Engine.of fun s => ⟨_, engine_takeSeats n x (s.plotsFor n want x) (s.placed n) (s.workPlots.headD 0), rfl, fun charged => by
    rw [seatOn, plotsFor_withScans charged]
    rfl⟩

theorem engine_wants (n want : Nat) : Engine scans segs fun s => modCtx n (Ctx.wants want s.now) s :=
  engine_modCtx n (f := fun r => Ctx.wants want r) (fun _ _ => rfl) fun _ _ => .inl rfl

/-- Looking for plots, the engine sees of scans only what they are charged. -/
theorem seat_withScans {s : State} (charged : Charged scans s) (n want : Nat) :
    seat n want (s.withScans scans segs) = (seat n want s).withScans scans segs := by
  cases found : kvGet n s.contexts with
  | none => rw [seat_none found, seat_none (s := s.withScans scans segs) found]
  | some x =>
    rw [seat_some found, seat_some (s := s.withScans scans segs) found]
    exact ((engine_seatOn n want { x with want := max x.want want }).comp (engine_wants n want)).blind s charged

end

theorem seat_seated (n want : Nat) (s : State) : Seated s (seat n want s) n := by
  cases found : kvGet n s.contexts with
  | none =>
    rw [seat_none found]
    exact ⟨Settled.refl s, fun x there => absurd (found.symm.trans there) nofun⟩
  | some x =>
    rw [seat_some found]
    have placing : Engine [] [] (seatOn n want { x with want := max x.want want }) := engine_seatOn ..
    refine ⟨(placing.comp (engine_wants n want)).settled s, fun y there => ?_⟩
    rcases placing.ran _ n y there with runs | ⟨z, before, same⟩
    · exact runs
    · change kvGet n (kvMod n (Ctx.wants want s.now) s.contexts) = some z at before
      rw [kvGet_kvMod_same, found] at before
      rw [same, ← Option.some.inj before]
      rfl

end Sys2Proof.Machine
end

section
/-!
PROOFS. SCAN_AGGREGATE (R265, R271, R273 to R276): its results from its context's plots, and O38.
-/

namespace Sys2Proof.Machine

open Sys2Proof

/- What a scan sees does not change at boundaries -/

section
variable {u t : State} (h : Settled u t)
include h

/-- What looks at none of the parts that boundaries change reads the same. -/
theorem Settled.reads {β : Type} (f : State → β)
    (same : ∀ plots contexts runs searches acct,
      f { u with plots := plots, contexts := contexts, runs := runs, searches := searches, acct := acct } = f u) : f t = f u := by
  rw [h.1]
  exact same ..

theorem Settled.scanUnits (es : List Extent) : t.scanUnits es = u.scanUnits es := h.reads (fun s => s.scanUnits es) fun _ _ _ _ _ => rfl

theorem Settled.scanned (c : Cmd) (q : Pred) (es : List Extent) : t.scanned c q es = u.scanned c q es := h.reads (fun s => s.scanned c q es) fun _ _ _ _ _ => rfl

theorem Settled.stagedKib (c : Cmd) (q : Scan) : t.stagedKib c q = u.stagedKib c q := h.reads (fun s => s.stagedKib c q) fun _ _ _ _ _ => rfl

theorem Settled.scanSieves (es : List (Nat × Nat × Nat)) : t.scanSieves es = u.scanSieves es := h.reads (fun s => s.scanSieves es) fun _ _ _ _ _ => rfl

theorem Settled.unitsIn {c : Cmd} {us : List (Nat × Nat)} (in_ : UnitsIn u c us) : UnitsIn t c us :=
  (h.reads (fun s => UnitsIn s c us) fun _ _ _ _ _ => rfl).mpr in_

theorem Settled.sessions : t.sessions = u.sessions := (congrArg State.sessions h.1 :)
theorem Settled.free : t.free = u.free := (congrArg State.free h.1 :)

/-- Searches hold the predicate engines that they held. -/
theorem Settled.enginePlace (k : CmdKey) (sieves : List Nat) : t.enginePlace k sieves = u.enginePlace k sieves := by
  have holds : ∀ (l : List Search) (v : Nat), (l.filter fun q => decide (q.key ≠ k) && q.sieves.contains v).length =
      ((l.map fun q => { q with plot := 0 }).filter fun q => decide (q.key ≠ k) && q.sieves.contains v).length := fun l v => by
    rw [List.filter_map, List.length_map]
    rfl
  unfold State.enginePlace
  simp only [holds t.searches, holds u.searches, h.2.2.2.1, h.scans]

end

/- The reply -/

/-- The specifications of a SCAN_AGGREGATE. -/
def aggSpecs (p : List Byte) : List (AggSpec × Bool) := (List.range (fieldAt p 3 1)).map fun i => aggAt p (16 + 16 * fieldAt p 1 1 + 32 * i)

/-- The results over some records, of which each takes one free value. -/
def aggBody (p : List Byte) (q : Pred) (free : Nat) (rs : List Rec) : List Byte :=
  (aggSpecs p).zipIdx.flatMap fun a => a.1.1.result q.layout (free + a.2) rs

/-- The end of a SCAN_AGGREGATE that has read so many units. -/
def answerAggregates (c : Cmd) (q : Pred) (cut : ScanCut) (read : Nat) (s : State) : State :=
  let bad := badRanges cut.bad
  let s := hostReads read s
  if cut.stopped then
    complete c stMediaUncorrectable true (scanHead { cut with units := [], next := none } bad.length 0 0 ++ bad.flatMap badBytes) 65536 [] s
  else
    let body := aggBody c.payload q s.free (cut.units.flatMap (·.survivors))
    complete c cut.status (decide (cut.bad ≠ []))
      (scanHead { cut with next := none } bad.length (fieldAt c.payload 3 1) body.length ++ body ++ bad.flatMap badBytes) 65536 []
      { s with free := s.free + fieldAt c.payload 3 1 }

/-- A SCAN_AGGREGATE payload is in order (Table 8-10). -/
structure AggregateOk (s : State) (session : Nat) (p : List Byte) : Prop where
  head : scanHeadOk p = true
  some_ : 1 ≤ fieldAt p 3 1
  most : fieldAt p 3 1 ≤ 8
  length : p.length = 16 + 16 * fieldAt p 1 1 + 32 * fieldAt p 3 1
  reserved : fieldAt p 4 8 = 0
  specs : ∀ a ∈ aggSpecs p, a.2 = true
  bins : ((aggSpecs p).map fun a => a.1.bins).sum ≤ 16384
  extents : s.extentsOk session (scanExtents p) = true

/-- A SCAN_AGGREGATE in order runs, once its context has looked for a plot. -/
def runAggregates (c : Cmd) (q : Scan) (s : State) : State :=
  runScan c (extentsOf c) q (bit (fieldAt c.payload 2 1) 0) 0 (fun s u => scanUnit q.pred c s u.2.1 u.1 u.2.2) (fun _ => 0) (answerAggregates c q.pred) s

/-- So many free values have been taken. -/
def State.take (n : Nat) (s : State) : State := { s with free := s.free + n }

theorem take_scans (n : Nat) (s : State) : (s.take n).scans = s.scans := rfl
theorem take_sessions (n : Nat) (s : State) : (s.take n).sessions = s.sessions := rfl

theorem take_reads (s : State) (segs : List Nat) (read n : Nat) : (hostReads read (lookUp segs s)).take n =
    { hostReads read (lookUp segs s) with free := s.free + n } := rfl

/-- A read count and free values taken after a scan do not turn on its entry. -/
theorem take_scanning (s : State) (k : CmdKey) (es : List Extent) (read n : Nat) : (hostReads read (s.scanning k es)).take n =
    { (hostReads read (lookUp (s.scanSegs es) s)).take n with scans := (s.scanning k es).scans } := rfl

theorem badRanges_nil : badRanges [] = [] := rfl

theorem answerAggregates_whole (c : Cmd) (q : Pred) (us : List UnitScan) (read : Nat) (s : State) : answerAggregates c q ⟨none, us, [], false⟩ read s =
    complete c stOk false (scanReplyHead us 0 (fieldAt c.payload 3 1) (aggBody c.payload q s.free (us.flatMap (·.survivors))).length ++
      aggBody c.payload q s.free (us.flatMap (·.survivors))) 65536 [] ((hostReads read s).take (fieldAt c.payload 3 1)) := by
  unfold answerAggregates
  dsimp only
  rw [if_neg nofun, scanHead_whole rfl, badRanges_nil, List.flatMap_nil, List.append_nil]
  rfl

/-- The payload of one that an unreadable unit stops: no results, and the ranges of such units. -/
def stoppedPayload (cut : ScanCut) : List Byte :=
  scanHead { cut with units := [], next := none } (badRanges cut.bad).length 0 0 ++ (badRanges cut.bad).flatMap badBytes

theorem answerAggregates_stopped {cut : ScanCut} (stopped : cut.stopped = true) (c : Cmd) (q : Pred) (read : Nat) (s : State) :
    answerAggregates c q cut read s = complete c stMediaUncorrectable true (stoppedPayload cut) 65536 [] (hostReads read s) :=
  if_pos stopped

/-- Survivors that are not returned take no room in the reply. -/
theorem fits_zero (us : List UnitScan) : (us.map fun _ => 0).sum ≤ 0 := by simp

theorem scanning_free (s : State) (k : CmdKey) (es : List Extent) : (s.scanning k es).free = s.free := rfl

section
variable {s : State} {c : Cmd} {x : Ctx} {q : Scan} (h : ReadyCtx s c.key 0x33 c x)
include h

theorem exec_scanAggregate (keys : s.keysPresent = true) (found : s.scanOf c.key = some q) (target : q.pred.target = 1)
    (order : AggregateOk s c.key.session c.payload) : exec (.scanAggregate c.key) s = .next (runAggregates c q (seat c.key.ctx 1 s)) := by
  refine congrArg Host.Outcome.next ((withCtx_ready scanAggregate h).trans ?_)
  unfold scanAggregate
  dsimp only
  rw [found]
  refine stored_passes ?_ keys _
  have extents : s.extentsOk c.key.session (extentsAt c.payload 16 (fieldAt c.payload 1 1)) = true := order.extents
  have specs := List.all_eq_true.2 order.specs
  have bins := order.bins
  unfold aggSpecs at specs bins
  simp only [order.head, order.some_, order.most, ← order.length, order.reserved, specs, bins, extents, target, decide_true, Bool.and_self]

variable {w : State} (sessions : w.sessions = s.sessions) (charged : q.kib ≠ 0)
  (place : q.sieves ≠ [] ∨ w.enginePlace c.key (w.scanSieves (w.scanUnits (extentsOf c))) = true)
  (in_ : UnitsIn w c ((w.scanUnits (extentsOf c)).map (·.2)))
include sessions charged place in_

/-- With every unit readable, and its survivors staged below its amount, it completes OK with the result of every specification. -/
theorem runAggregates_whole (whole : ∀ u ∈ w.scanned c q.pred (extentsOf c), u.bad = none) (below : w.stagedKib c q < q.kib)
    {body : List Byte} (results : aggBody c.payload q.pred w.free ((w.scanned c q.pred (extentsOf c)).flatMap (·.survivors)) = body) :
    Answered ((hostReads (w.scanned c q.pred (extentsOf c)).length (lookUp (w.scanSegs (extentsOf c)) w)).take (fieldAt c.payload 3 1))
      (runAggregates c q w) c stOk
      (scanReplyHead (w.scanned c q.pred (extentsOf c)) 0 (fieldAt c.payload 3 1) body.length ++ body) [] := by
  have finished := runScan_finishes (skip := bit (fieldAt c.payload 2 1) 0) (max_ := 0) (go := answerAggregates c q.pred) charged place in_
    (fits_zero _) (.inr below)
  rw [cutScan_fits (fits_zero _) (.inl whole), seenUnits_whole whole, lostUnits_whole whole, answerAggregates_whole, scanning_free, results] at finished
  unfold runAggregates
  rw [finished]
  have others := scanning_others w c.key (extentsOf c) (w.scanned c q.pred (extentsOf c)).length
  rw [← take_scans (fieldAt c.payload 3 1) (hostReads _ _)] at others
  refine Answered.ofScans others ?_
  rw [← take_scanning]
  have kept : ((hostReads (w.scanned c q.pred (extentsOf c)).length (w.scanning c.key (extentsOf c))).take (fieldAt c.payload 3 1)).sessions = s.sessions := by
    rw [take_sessions, hostReads_sessions, scanning_sessions, sessions]
  exact h.completes stOk false _ 65536 [] kept

/-- An unreadable unit stops it, whatever is staged. -/
theorem runAggregates_stopped (lost : ∃ u ∈ w.scanned c q.pred (extentsOf c), u.bad ≠ none) (noSkip : bit (fieldAt c.payload 2 1) 0 = false) :
    ∃ payload, Answered (hostReads (w.scanned c q.pred (extentsOf c)).length (lookUp (w.scanSegs (extentsOf c)) w)) (runAggregates c q w) c
      stMediaUncorrectable payload [] := by
  have finished := runScan_finishes (skip := false) (max_ := 0) (go := answerAggregates c q.pred) charged place in_ (fits_zero _) (.inl ⟨lost, rfl⟩)
  rw [answerAggregates_stopped (cutScan_stops (fits_zero _) lost)] at finished
  unfold runAggregates
  have kept : (hostReads (w.scanned c q.pred (extentsOf c)).length (w.scanning c.key (extentsOf c))).sessions = s.sessions := by
    rw [hostReads_sessions, scanning_sessions, sessions]
  rw [noSkip, finished]
  have answered := h.completes stMediaUncorrectable true (stoppedPayload (cutScan (extentsOf c) false (fun _ => 0) 0 (w.scanned c q.pred (extentsOf c))))
    65536 [] kept
  rw [hostReads_scanning] at answered
  exact ⟨_, answered.ofScans (scanning_others w c.key (extentsOf c) (w.scanned c q.pred (extentsOf c)).length)⟩

end

end Sys2Proof.Machine

namespace Sys2Proof.Proofs

open Sys2Proof Sys2Proof.Machine

/-- Settles O38: a SCAN_AGGREGATE in order looks for a plot, by which it sees the units that it saw, and pauses, or goes on to its results.
What a staged survivor counts is log entry 211. -/
theorem scanAggregates : Obligations.ScanAggregates := by
  unfold Obligations.ScanAggregates
  intro s k c x q h keys scan target p n m es specs units recs body staged head some_ most length reserved specs_ bins extents charged place in_
  obtain rfl := h.toReady.key
  have run := exec_scanAggregate h keys scan target ⟨head, some_, most, length, reserved, specs_, bins, extents⟩
  have seated := seat_seated c.key.ctx 1 s
  set w := seat c.key.ctx 1 s
  have settled : Settled s w := seated.1
  have sees : w.scanned c q.pred (extentsOf c) = units := settled.scanned c q.pred (extentsOf c)
  have kib := settled.stagedKib c q
  rw [← settled.scanUnits] at place in_
  rw [← settled.enginePlace, ← settled.scanSieves] at place
  replace in_ := settled.unitsIn in_
  have sessions := settled.sessions
  have free := settled.free
  by_cases pauses : ((∀ v ∈ units, v.bad = none) ∨ bit (fieldAt p 2 1) 0 = true) ∧ q.kib ≤ staged
  · obtain ⟨goesOn, full⟩ := pauses
    refine ⟨w, w, _, seated, (rfl : LookedUp w w), run, fun _ _ => ?_, fun below _ => absurd full (Nat.not_le.2 below), fun ⟨v, mem, bad⟩ noSkip => ?_⟩
    · have paused := runScan_pauses (go := answerAggregates c q.pred) charged place in_ (fits_zero _) (sees ▸ goesOn) (kib ▸ full)
      rw [kib, settled.scanUnits, settled.scanSieves] at paused
      exact paused
    · rcases goesOn with whole | skip
      · exact absurd (whole v mem) bad
      · exact absurd (skip.symm.trans noSkip) nofun
  · refine ⟨w, lookUp (w.scanSegs es) w, _, seated, lookedUp_lookUp _ w, run, fun goesOn full => absurd ⟨goesOn, full⟩ pauses, fun below whole => ?_,
      fun lost noSkip => ?_⟩
    · have answered := runAggregates_whole h sessions charged place in_ (sees ▸ whole) (kib ▸ below) (body := body) (by rw [free, sees]; rfl)
      rw [sees, take_reads, free] at answered
      exact answered
    · have answered := runAggregates_stopped h sessions charged place in_ (sees ▸ lost) noSkip
      rw [sees] at answered
      exact answered

end Sys2Proof.Proofs
end

section
/-!
PROOFS. The steps of a model through its layers (R32, R45 to R49, R72, R182): what is ferried, when a step goes on, and when it stalls.
-/

namespace Sys2Proof.Machine

open Sys2Proof

/- Ferries of a model's tiles -/

/-- t is u after tiles came to plots and left them: the list of plots, and what of their bytes is accounted. -/
structure TilesMoved (u t : State) : Prop where
  frame  : t = { u with plots := { u.plots with list := t.plots.list }, acct := t.acct }
  counts : ∀ n, (t.countsOf n).noLanding = (u.countsOf n).noLanding

theorem TilesMoved.refl (s : State) : TilesMoved s s := ⟨rfl, fun _ => rfl⟩

theorem TilesMoved.trans {s u t : State} (first : TilesMoved s u) (second : TilesMoved u t) : TilesMoved s t where
  frame := by
    calc t = _ := second.frame
      _ = _ := by rw [first.frame]
  counts n := (second.counts n).trans (first.counts n)

theorem TilesMoved.ite {c : Prop} [Decidable c] {s u t : State} (yes : TilesMoved s u) (no : TilesMoved s t) : TilesMoved s (if c then u else t) := by
  split
  · exact yes
  · exact no

theorem TilesMoved.foldl {α : Type} {f : State → α → State} (step : ∀ s a, TilesMoved s (f s a)) (l : List α) (s : State) :
    TilesMoved s (l.foldl f s) :=
  List.foldlRecOn l f (motive := TilesMoved s) (TilesMoved.refl s) fun u so a _ => so.trans (step u a)

theorem TilesMoved.settled {u t : State} (h : TilesMoved u t) : Settled u t := by
  refine ⟨?_, ?_, h.counts, ?_, ?_⟩
  · calc t = _ := h.frame
      _ = _ := by rw [h.frame]
  all_goals rw [h.frame]
  exact fun _ => rfl

theorem tilesMoved_chargeLanding (n bytes : Nat) (s : State) : TilesMoved s (chargeLanding n bytes s) where
  frame := by
    calc chargeLanding n bytes s = _ := account_frame ..
      _ = _ := by rw [chargeLanding, account_frame]
  counts := (settled_chargeLanding n bytes s).2.2.1

theorem tilesMoved_modPlot (p : Nat) (f : Plot → Plot) (s : State) : TilesMoved s (modPlot p f s) where
  frame := by
    unfold modPlot
    split <;> rfl
  counts := (settled_modPlot p f s).2.2.1

theorem tilesMoved_evict (p : Nat) (t : Held) (s : State) : TilesMoved s (evict p t s) :=
  (TilesMoved.ite (tilesMoved_chargeLanding ..) (TilesMoved.refl s)).trans (tilesMoved_modPlot ..)

theorem tilesMoved_makeRoom (p n bytes : Nat) (keep : Nat → Nat → Bool) (fuel : Nat) (s : State) : TilesMoved s (makeRoom p n bytes keep fuel s) := by
  induction fuel generalizing s with
  | zero => exact TilesMoved.refl s
  | succ fuel ih =>
    refine TilesMoved.ite (TilesMoved.refl s) ?_
    split
    · exact TilesMoved.refl s
    · exact (tilesMoved_evict ..).trans (ih _)

theorem tilesMoved_shareLanding (ctxs : List Nat) (bytes : Nat) (s : State) : TilesMoved s (shareLanding ctxs bytes s) :=
  TilesMoved.foldl (fun _ _ => tilesMoved_chargeLanding ..) _ s

theorem tilesMoved_ferryLayer (slot : Nat) (m : Model) (p n : Nat) (ctxs keep : List Nat) (s : State) (tile : Nat) :
    TilesMoved s (ferryLayer slot m p n ctxs keep s tile) := by
  unfold ferryLayer
  exact TilesMoved.ite (TilesMoved.refl s) ((tilesMoved_makeRoom ..).trans (TilesMoved.ite (TilesMoved.refl _)
    ((tilesMoved_shareLanding ..).trans (tilesMoved_modPlot ..))))

theorem tilesMoved_ferryLayers (slot : Nat) (m : Model) (p n : Nat) (ctxs : List Nat) (tile : Nat) (s : State) :
    TilesMoved s (ferryLayers slot m p n ctxs tile s) :=
  (tilesMoved_ferryLayer ..).trans (TilesMoved.foldl (fun _ _ => tilesMoved_ferryLayer ..) _ _)

/- A step of a model -/

theorem stepOf_keys {s : State} {slot : Nat} {m : Model} {batch : Bool} {keys : List CmdKey} {x : ModelStep}
    (step : s.stepOf slot m batch keys = some x) : x.keys = keys := by
  unfold State.stepOf at step
  rcases Option.or_eq_some_iff.1 step with stands | ⟨-, begins⟩
  · simpa using List.find?_some stands
  · obtain ⟨k, -, rfl⟩ := Option.map_eq_some_iff.1 begins
    rfl

/-- The step of some commands has gone, its layers read, and the first layers are ferried for the next. -/
def readLayers (slot : Nat) (m : Model) (x : ModelStep) (p : Nat) (s : State) : State :=
  ferryLayers slot m p x.ctx (x.keys.map (·.ctx)) m.firstTile
    (modLanding (fun l => { l with schedules := l.schedules.map fun y => if y.owner = .model slot then { y with layer := none } else y })
      { layerBoundary (.model slot) s with steps := s.steps.filter fun y => decide (y.keys ≠ x.keys) })

theorem layersRead_readLayers {slot : Nat} {m : Model} {batch : Bool} {keys : List CmdKey} {x : ModelStep} (p : Nat) {s : State}
    (step : s.stepOf slot m batch keys = some x) : LayersRead s (readLayers slot m x p s) keys := by
  have moved := (tilesMoved_ferryLayers slot m p x.ctx (x.keys.map (·.ctx)) m.firstTile
    (modLanding (fun l => { l with schedules := l.schedules.map fun y => if y.owner = .model slot then { y with layer := none } else y })
      { layerBoundary (.model slot) s with steps := s.steps.filter fun y => decide (y.keys ≠ x.keys) })).frame
  rw [← stepOf_keys step]
  calc readLayers slot m x p s = _ := moved
    _ = _ := by rw [readLayers, moved]; rfl

/-- Commands whose stream from flash did not pass the stream checks end. -/
def endStreamed (keys : List CmdKey) (s : State) : State := keys.foldl (fun s k => match findCmd k s with
  | some c => settleEnds (endCmd stMediaUncorrectable s { c with ra := true })
  | none => s) s

section
variable {s : State} {slot : Nat} {m : Model} {batch : Bool} {keys : List CmdKey}

/-- A step whose tiles stand ready reads all layers, and is done. -/
theorem throughLayers_reads (ready : StepReady s slot m batch keys none) : ∃ r, LayersRead s r keys ∧ ∀ done, throughLayers slot m batch keys done s =
    if s.streams_ slot then streamCheck (endStreamed keys) done r else done r := by
  obtain ⟨x, p, step, runs, found⟩ := ready
  have read := layersRead_readLayers p step
  refine ⟨_, read, fun done => ?_⟩
  have mode : (readLayers slot m x p s).streams_ slot = s.streams_ slot := by
    rw [read]
    rfl
  have same : (layerBoundary (.model slot) s).firstMissing x m p = none := found
  unfold throughLayers
  rw [step]
  dsimp only
  rw [runs]
  dsimp only
  rw [same, ← mode]
  rfl

/-- While a tile is missing it stalls. -/
theorem throughLayers_stalls {tile : Nat} (ready : StepReady s slot m batch keys (some tile)) : ∃ x p, x.keys = keys ∧ ∀ done,
    throughLayers slot m batch keys done s = stallLayer x m p tile (layerBoundary (.model slot) s) := by
  obtain ⟨x, p, step, runs, found⟩ := ready
  refine ⟨x, p, stepOf_keys step, fun done => ?_⟩
  have same : (layerBoundary (.model slot) s).firstMissing x m p = some tile := found
  unfold throughLayers
  rw [step]
  dsimp only
  rw [runs]
  dsimp only
  rw [same]

end

/- A stall -/

/-- The commands but for their LT flags. -/
def State.besideLate (s : State) : List Cmd := s.cmds.map fun d => { d with lt := false }

/-- t is u after a step stalled: tiles, steps and schedules changed, late arrivals were counted, and commands may be late. -/
structure StallFrame (u t : State) : Prop where
  frame : t = { u with
    plots := t.plots, acct := t.acct, steps := t.steps, cmds := t.cmds
    landing := { u.landing with schedules := t.landing.schedules, lateArrivals := t.landing.lateArrivals, leadCapped := t.landing.leadCapped } }
  cmds : t.besideLate = u.besideLate

theorem StallFrame.trans {s u t : State} (first : StallFrame s u) (second : StallFrame u t) : StallFrame s t where
  frame := by
    calc t = _ := second.frame
      _ = _ := by rw [first.frame]
  cmds := second.cmds.trans first.cmds

/-- A late arrival at the start of a layer. -/
def countLate (x : ModelStep) (layer : Option Nat) (counted : Bool) (s : State) : State :=
  let o := SchedOwner.model x.slot
  let s := if counted then s else lateArrival o (s.leadRoom o) s
  let s := modLanding (fun l => { l with schedules := l.schedules.map fun y => if y.owner = o then { y with layer := layer } else y }) s
  { s with cmds := s.cmds.map fun c => if x.keys.contains c.key then { c with lt := true } else c }

theorem countLate_steps (x : ModelStep) (layer : Option Nat) (counted : Bool) (s : State) : (countLate x layer counted s).steps = s.steps := by
  cases counted <;> rfl

theorem besideLate_mark (keys : List CmdKey) (l : List Cmd) :
    (l.map fun c => if keys.contains c.key then { c with lt := true } else c).map (fun d => { d with lt := false }) = l.map fun d => { d with lt := false } := by
  rw [List.map_map]
  refine List.map_congr_left fun c _ => ?_
  dsimp only [Function.comp]
  split <;> rfl

theorem stallFrame_countLate (x : ModelStep) (layer : Option Nat) (counted : Bool) (s : State) : StallFrame s (countLate x layer counted s) := by
  cases counted <;> exact ⟨rfl, besideLate_mark x.keys s.cmds⟩

theorem TilesMoved.stallFrame {u t : State} (h : TilesMoved u t) : StallFrame u t where
  frame := by
    calc t = _ := h.frame
      _ = _ := by rw [h.frame]
  cmds := by rw [h.frame]; rfl

/-- The step waits for the tile, whose layers are ferried. -/
def awaitTile (x : ModelStep) (m : Model) (p tile : Nat) (s : State) : State :=
  ferryLayers x.slot m p x.ctx (x.keys.map (·.ctx)) tile { s with steps := s.steps.filter (fun y => decide (y.keys ≠ x.keys)) ++ [{ x with next := tile }] }

theorem stallLayer_cases (x : ModelStep) (m : Model) (p tile : Nat) (s : State) : stallLayer x m p tile s = awaitTile x m p tile s ∨
    ∃ layer counted, stallLayer x m p tile s = countLate x layer counted (awaitTile x m p tile s) := by
  unfold stallLayer
  dsimp only
  split
  · exact .inl rfl
  · exact .inr ⟨_, _, rfl⟩

/-- A step that stalls stands at its tile. -/
theorem stallLayer_steps (x : ModelStep) (m : Model) (p tile : Nat) (s : State) :
    (stallLayer x m p tile s).steps = s.steps.filter (fun y => decide (y.keys ≠ x.keys)) ++ [{ x with next := tile }] := by
  have moved := (congrArg State.steps (tilesMoved_ferryLayers x.slot m p x.ctx (x.keys.map (·.ctx)) tile
    { s with steps := s.steps.filter (fun y => decide (y.keys ≠ x.keys)) ++ [{ x with next := tile }] }).frame :)
  rcases stallLayer_cases x m p tile s with same | ⟨layer, counted, late⟩
  · rw [same]
    exact moved
  · rw [late, countLate_steps]
    exact moved

theorem stallFrame_stallLayer (x : ModelStep) (m : Model) (p tile : Nat) (s : State) : StallFrame s (stallLayer x m p tile s) := by
  have stands : StallFrame s { s with steps := s.steps.filter (fun y => decide (y.keys ≠ x.keys)) ++ [{ x with next := tile }] } := ⟨rfl, rfl⟩
  have waits : StallFrame s (awaitTile x m p tile s) := stands.trans (tilesMoved_ferryLayers ..).stallFrame
  rcases stallLayer_cases x m p tile s with same | ⟨layer, counted, late⟩
  · rw [same]
    exact waits
  · rw [late]
    exact waits.trans (stallFrame_countLate ..)

theorem stallFrame_layerBoundary (o : SchedOwner) (s : State) : StallFrame s (layerBoundary o s) := ⟨rfl, rfl⟩

/-- A stalled step leaves the replies as they were. -/
theorem StallFrame.replies {u t : State} (h : StallFrame u t) : t.replies = u.replies := (congrArg State.replies h.frame :)

end Sys2Proof.Machine
end

section
/-!
PROOFS. EMBED (R401, R409, R417): what names a model, the embeddings of its inputs, and a stream from flash that fails its checks.
-/

namespace Sys2Proof.Machine

open Sys2Proof

/- Replies made stand when what has ended settles -/

/-- The replies of u stand in t. -/
def RepliesStand (u t : State) : Prop := u.replies ⊆ t.replies

theorem RepliesStand.refl (s : State) : RepliesStand s s := List.Subset.refl _
theorem RepliesStand.trans {s u t : State} (first : RepliesStand s u) (second : RepliesStand u t) : RepliesStand s t := List.Subset.trans first second
theorem RepliesStand.of_eq {u t : State} (same : t.replies = u.replies) : RepliesStand u t := by
  unfold RepliesStand
  rw [same]
  exact List.Subset.refl _

theorem RepliesStand.ite {c : Prop} [Decidable c] {s u t : State} (yes : RepliesStand s u) (no : RepliesStand s t) : RepliesStand s (if c then u else t) := by
  split
  · exact yes
  · exact no

theorem RepliesStand.foldl {α : Type} {f : State → α → State} (step : ∀ s a, RepliesStand s (f s a)) (l : List α) (s : State) :
    RepliesStand s (l.foldl f s) :=
  List.foldlRecOn l f (motive := RepliesStand s) (RepliesStand.refl s) fun u so a _ => so.trans (step u a)

theorem repliesStand_dropUnits (owner : Nat) (s : State) : RepliesStand s (dropUnits owner s) :=
  RepliesStand.of_eq (congrArg State.replies (Keeps.foldl (fun u n => keeps_unmap owner n u) (s.mappedIn owner 0 (2 ^ 40)) s).frame :)

theorem repliesStand_endIndex (i : Nat) (f : Index → Index) (x : Index) (s : State) : RepliesStand s (endIndex i f x s) :=
  RepliesStand.ite (repliesStand_dropUnits _ { s with indexes := kvMod i f s.indexes }) (RepliesStand.refl _)

theorem repliesStand_unloadModel (slot : Nat) (s : State) : RepliesStand s (unloadModel slot s) :=
  RepliesStand.foldl (f := fun s n => closeStream n s) (fun s _ => RepliesStand.refl s) (s.streamsOn slot) s

/-- A line in the range of a retirement. -/
def Retiring.covers (r : Retiring) (f : LineFault) : Bool := f.line.page.any r.pages.contains

/-- One retirement whose command has run, or has gone, is recorded. -/
def dropRetired (r : Retiring) (s : State) : State :=
  modLanding (fun x => { x with
    retiring := x.retiring.filter fun q => decide (q.order ≠ r.order)
    retired := (x.retired ++ r.pages).eraseDups
    faults := x.faults.map fun f => if r.covers f then { f with line := f.line.moved } else f }) (writeRoot s)

def answerRetired (r : Retiring) (c : Option Cmd) (s : State) : State :=
  match c with
  | none => s
  | some c => reply c stOk (leBytes 4 r.count ++ leBytes 4 s.poolMib) s

def State.retires (s : State) (r : Retiring) : Option Cmd := s.cmds.find? fun c => decide (c.order = r.order) && c.live

def recordRetired (mine : Retiring → Option Cmd) (s : State) (r : Retiring) : State :=
  if (s.landing.faults.any fun f => !f.poisoned && r.covers f) ∨ (mine r).any fun c => decide (c.phase ≠ .waiting .lines) then s
  else answerRetired r (mine r) (dropRetired r s)

theorem settleRetiring_eq (s : State) : settleRetiring s = settleWindows (s.landing.retiring.foldl (recordRetired s.retires) s) := rfl

def endIndexOf (s : State) (x : Nat × Index) : State :=
  match x.2.ending with
  | some o => if s.indexBusy x.1 o then s else endIndex x.1 Index.dormant x.2 s
  | none => if x.2.state = .building ∧ !s.buildOpen x.1 then endIndex x.1 Index.unbuilt x.2 s else s

def endModelOf (s : State) (m : Nat × Model) : State :=
  match m.2.ending with
  | some o => if s.modelBusy m.1 o then s else unloadModel m.1 s
  | none => s

theorem settleEnds_eq (s : State) : settleEnds s = settleRetiring ((s.indexes.foldl endIndexOf s).models.foldl endModelOf (s.indexes.foldl endIndexOf s)) :=
  rfl

theorem dropRetired_replies (r : Retiring) (s : State) : (dropRetired r s).replies = s.replies := (congrArg State.replies (keeps_writeRoot s).frame :)

theorem repliesStand_answerRetired (r : Retiring) (c : Option Cmd) (s : State) : RepliesStand s (answerRetired r c s) := by
  cases c with
  | none => exact RepliesStand.refl s
  | some c => exact (moves_reply ..).replies

theorem repliesStand_recordRetired (mine : Retiring → Option Cmd) (s : State) (r : Retiring) : RepliesStand s (recordRetired mine s r) :=
  RepliesStand.ite (RepliesStand.refl s) ((RepliesStand.of_eq (dropRetired_replies r s)).trans (repliesStand_answerRetired ..))

theorem repliesStand_settleWindows (s : State) : RepliesStand s (settleWindows s) :=
  RepliesStand.of_eq (congrArg State.replies (lineWork_settleWindows s).frame :)

theorem repliesStand_settleRetiring (s : State) : RepliesStand s (settleRetiring s) := by
  rw [settleRetiring_eq]
  exact (RepliesStand.foldl (repliesStand_recordRetired s.retires) s.landing.retiring s).trans (repliesStand_settleWindows _)

theorem repliesStand_endIndexOf (s : State) (x : Nat × Index) : RepliesStand s (endIndexOf s x) := by
  unfold endIndexOf
  split
  · exact RepliesStand.ite (RepliesStand.refl s) (repliesStand_endIndex ..)
  · exact RepliesStand.ite (repliesStand_endIndex ..) (RepliesStand.refl s)

theorem repliesStand_endModelOf (s : State) (m : Nat × Model) : RepliesStand s (endModelOf s m) := by
  unfold endModelOf
  split
  · exact RepliesStand.ite (RepliesStand.refl s) (repliesStand_unloadModel ..)
  · exact RepliesStand.refl s

theorem repliesStand_settleEnds (s : State) : RepliesStand s (settleEnds s) := by
  rw [settleEnds_eq]
  exact ((RepliesStand.foldl repliesStand_endIndexOf s.indexes s).trans (RepliesStand.foldl repliesStand_endModelOf _ _)).trans
    (repliesStand_settleRetiring _)

/- The stream checks (R182) -/

/-- A stream that passed, perhaps after a rebuild, is used; another is counted, and its commands end. -/
theorem streamCheck_cases (bad good : State → State) (s : State) :
    (∃ b, Checked s true b ∧ streamCheck bad good s = good b) ∨ ∃ b, Checked s false b ∧ streamCheck bad good s = bad b := by
  unfold streamCheck Checked takeFree
  dsimp only
  cases whole : Config.storeGood s.free with
  | true => exact .inl ⟨_, .inl ⟨rfl, rfl, rfl⟩, rfl⟩
  | false => cases rebuilt : Config.storeRepaired s.free with
    | true => exact .inl ⟨_, .inr (.inl ⟨rfl, rfl, rfl, rfl⟩), rfl⟩
    | false => exact .inr ⟨_, .inr (.inr ⟨rfl, rfl, rfl, rfl⟩), rfl⟩

/-- Checks change what the media count, and take a free value. -/
theorem checked_frame {s u : State} {good : Bool} (h : Checked s good u) : u = { s with free := s.free + 1, media := u.media } := by
  rcases h with ⟨-, -, rfl⟩ | ⟨-, -, -, rfl⟩ | ⟨-, -, -, rfl⟩ <;> rfl

/-- A command in a session that is open, whose stream fails, completes MEDIA_UNCORRECTABLE. -/
theorem endStreamed_replies {s : State} {k : CmdKey} {c : Cmd} (found : findCmd k s = some c) (open_ : (s.session k.session).phase = .opened)
    (runs : c.phase = .received) : Replies (endStreamed [k] s) c stMediaUncorrectable [] [] := by
  have key : c.key = k := by simpa using List.find?_some found
  have ends : endStreamed [k] s = settleEnds (endCmd stMediaUncorrectable s { c with ra := true }) := by
    unfold endStreamed
    rw [List.foldl_cons, found]
    rfl
  have gone : ¬ ((giveUp { c with ra := true } s).session c.key.session).phase = .held := by
    rw [State.session, (ended_giveUp _ s).sessions, key, ← State.session, open_]
    exact nofun
  rcases endCmd_cases stMediaUncorrectable s { c with ra := true } with ⟨replied, -⟩ | fails
  · exact absurd (runs.symm.trans replied) nofun
  · rcases fail_cases (({ c with ra := true } : Cmd).stalledLate s) stMediaUncorrectable (giveUp { c with ra := true } s) with made | ⟨held, -⟩
    · obtain ⟨r, own, -, -, -, status, payload, acts, -, -, frame⟩ :=
        putReply_answered (({ c with ra := true } : Cmd).stalledLate s) stMediaUncorrectable false [] 0 [] (giveUp { c with ra := true } s)
      rw [ends, fails, made]
      refine ⟨r, repliesStand_settleEnds _ ?_, own, status, payload, acts⟩
      rw [frame]
      exact List.mem_append_right _ List.mem_cons_self
    · exact absurd held gone

/- A model is named -/

/-- A command names a placed model that its session may use. -/
structure Named (s : State) (c : Cmd) (m : Model) (handle : Nat) : Prop where
  there : kvGet (handle % 64) s.models = some m
  stays : s.unloadAhead (handle % 64) c.order = false
  count : m.count = handle / 64
  placed : m.state = .placed ∨ m.state = .placing

theorem namingModel_named {s : State} {c : Cmd} {m : Model} {handle : Nat} (named : Named s c m handle) {user : Model → Bool} (may : user m = true)
    (f : Model → State → State) : namingModel user c handle f s = f m s := by
  unfold namingModel
  rw [named.there]
  have known : ¬ (m.count ≠ handle / 64 ∨ (!user m) = true) := by simp [named.count, may]
  have stored : m.state ≠ .unavailable := by rcases named.placed with h | h <;> (rw [h]; decide)
  have use : ¬ (m.state ≠ .placed ∧ m.state ≠ .placing) := fun ⟨a, b⟩ => named.placed.elim a b
  dsimp only
  rw [named.stays, if_neg nofun, if_neg known, if_neg stored, if_neg use]

theorem modelled_passes {s : State} (keys : s.keysPresent = true) (c : Cmd) (f : State → State) : modelled c f s = f s := by
  unfold modelled
  rw [keys]
  rfl

/- The work of a model's own programs -/

theorem shareWork_frame (ctxs : List Nat) (s : State) : shareWork ctxs s = { s with free := s.free + 1, acct := (shareWork ctxs s).acct } := by
  have accounts : ∀ (l : List (Nat × Nat)) (f : Nat × Nat → AccCounts → AccCounts) (u : State),
      l.foldl (fun u x => account (some x.1) (f x) u) u = { u with acct := (l.foldl (fun u x => account (some x.1) (f x) u) u).acct } := by
    intro l f u
    induction l generalizing u with
    | nil => rfl
    | cons x l ih =>
      rw [List.foldl_cons]
      calc _ = _ := ih _
        _ = _ := by rw [account_frame]
  exact accounts ..

/- EMBED -/

/-- The inputs of an EMBED. -/
def embedIds (p img : List Byte) : List (List Nat) :=
  (List.range (fieldAt p 4 4)).map fun i => (List.range (imgInput img)).map fun j => fieldAt p (16 + 4 * (i * imgInput img + j)) 4

def embedKib (p img : List Byte) : Nat := kib4 (fieldAt p 4 4 * imgOutBytes img + 32 * trainLen (fieldAt p 4 4 * imgOutBytes img))

/-- An EMBED whose step has read the layers completes with its embeddings. -/
def answerEmbed (c : Cmd) (img : List Byte) (s : State) : State :=
  let (free, s) := takeFree (freeWork c.key.ctx s)
  complete c stOk false ((embedIds c.payload img).flatMap (freeEmbedding img free)) (embedKib c.payload img) [] s

/-- An EMBED payload is in order for a model's image (Table 13-5). -/
structure EmbedOk (p img : List Byte) : Prop where
  reserved : fieldAt p 8 8 = 0
  kind : imgKind img = 2
  some_ : 1 ≤ fieldAt p 4 4
  length : p.length = 16 + 4 * fieldAt p 4 4 * imgInput img
  bytes : fieldAt p 4 4 * imgOutBytes img ≤ 16777216
  ids : ∀ i < fieldAt p 4 4 * imgInput img, fieldAt p (16 + 4 * i) 4 < imgVocab img

/-- Formats of embeddings take whole bytes. -/
theorem length_embedding {img : List Byte} (low : 6 ≤ imgOutFormat img) (free : Nat) (input : List Nat) :
    (freeEmbedding img free input).length = imgOutBytes img := by
  have whole : 8 ∣ fmtBits (imgOutFormat img) := by
    unfold fmtBits
    split
    · omega
    · split
      · omega
      · split <;> decide
  unfold freeEmbedding imgOutBytes
  rw [length_flatMap_const (n := fmtBits (imgOutFormat img) / 8) fun _ _ => leBytes_length .., List.length_range, Nat.mul_div_assoc _ whole, Nat.mul_comm]

section
variable {s : State} {c : Cmd} {x : Ctx} {m : Model}

theorem exec_embed (h : ReadyCtx s c.key 0x52 c x) (keys : s.keysPresent = true) (named : Named s c m (fieldAt c.payload 0 4))
    (may : bit m.sessions c.key.session = true) (order : EmbedOk c.payload m.image) (heads : m.heads = true)
    (fits : s.resultsFit c (embedKib c.payload m.image) = true) : exec (.embed c.key) s =
      .next (throughLayers (fieldAt c.payload 0 4 % 64) m (decide (c.cls ≠ 0)) [c.key] (answerEmbed c m.image) (seat c.key.ctx 1 s)) := by
  refine congrArg Host.Outcome.next ((withCtx_ready embed h).trans ?_)
  have ids := order.ids
  have length := order.length
  have some_ := order.some_
  have bytes := order.bytes
  unfold embed
  rw [modelled_passes keys]
  dsimp only
  rw [if_neg (by rw [order.reserved]; omega), withModel, namingModel_named named may]
  have inOrder : ¬ (imgKind m.image ≠ 2 ∨ fieldAt c.payload 4 4 = 0 ∨ c.payload.length ≠ 16 + 4 * fieldAt c.payload 4 4 * imgInput m.image ∨
      16777216 < fieldAt c.payload 4 4 * imgOutBytes m.image ∨
      (!(List.range (fieldAt c.payload 4 4 * imgInput m.image)).all fun i => decide (fieldAt c.payload (16 + 4 * i) 4 < imgVocab m.image)) = true ∨
      (!m.heads) = true) := by
    have all : ((List.range (fieldAt c.payload 4 4 * imgInput m.image)).all fun i => decide (fieldAt c.payload (16 + 4 * i) 4 < imgVocab m.image)) = true :=
      List.all_eq_true.2 fun i mem => decide_eq_true (ids i (List.mem_range.1 mem))
    rintro (kind | none_ | other | many | bad | tail)
    · exact kind order.kind
    · omega
    · exact other length
    · omega
    · rw [all] at bad
      exact absurd bad nofun
    · rw [heads] at tail
      exact absurd tail nofun
  have room : ¬ (!s.resultsFit c (embedKib c.payload m.image)) = true := by rw [fits]; exact nofun
  exact (if_neg inOrder).trans (if_neg room)

/-- The embeddings, in a session that is open. -/
theorem answerEmbed_answered {op : Nat} (h : ReadyCtx s c.key op c x) {b : State} (sessions : b.sessions = s.sessions) {img : List Byte}
    (low : 6 ≤ imgOutFormat img) : ∃ u body, u = { b with acct := u.acct, free := b.free + 2 } ∧ body.length = fieldAt c.payload 4 4 * imgOutBytes img ∧
      Answered u (answerEmbed c img b) c stOk body [] := by
  have work := shareWork_frame [c.key.ctx] b
  have kept : ({ freeWork c.key.ctx b with free := (freeWork c.key.ctx b).free + 1 } : State).sessions = s.sessions := by
    rw [freeWork, work]
    exact sessions
  refine ⟨_, _, ?_, ?_, h.completes stOk false ((embedIds c.payload img).flatMap (freeEmbedding img (freeWork c.key.ctx b).free))
    (embedKib c.payload img) [] kept⟩
  · rw [freeWork, work]
  · rw [length_flatMap_const (n := imgOutBytes img) fun input _ => length_embedding low _ input, embedIds, List.length_map, List.length_range, Nat.mul_comm]

end

/-- What the checks of a stream leave is what the layers were read from, but for counts. -/
theorem checked_sessions {s u : State} {good : Bool} (h : Checked s good u) : u.sessions = s.sessions := (congrArg State.sessions (checked_frame h) :)

theorem checked_cmds {s u : State} {good : Bool} (h : Checked s good u) : u.cmds = s.cmds := (congrArg State.cmds (checked_frame h) :)

theorem layersRead_sessions {s u : State} {keys : List CmdKey} (h : LayersRead s u keys) : u.sessions = s.sessions := (congrArg State.sessions h :)

theorem layersRead_cmds {s u : State} {keys : List CmdKey} (h : LayersRead s u keys) : u.cmds = s.cmds := (congrArg State.cmds h :)

theorem Settled.cmds {u t : State} (h : Settled u t) : t.cmds = u.cmds := (congrArg State.cmds h.1 :)

theorem Settled.replies {u t : State} (h : Settled u t) : t.replies = u.replies := (congrArg State.replies h.1 :)

theorem Settled.streams_ {u t : State} (h : Settled u t) (slot : Nat) : t.streams_ slot = u.streams_ slot :=
  h.reads (fun s => s.streams_ slot) fun _ _ _ _ _ => rfl

theorem findCmd_congr {s t : State} (same : t.cmds = s.cmds) (k : CmdKey) : findCmd k t = findCmd k s := by
  unfold findCmd
  rw [same]

section
variable {s : State} {c : Cmd} {x : Ctx} {m : Model} {slot : Nat} {batch : Bool}

/-- An EMBED whose step reads every layer completes with its embeddings, or, when its stream from flash fails the checks, MEDIA_UNCORRECTABLE. -/
theorem embed_reads (h : ReadyCtx s c.key 0x52 c x) {img : List Byte} (low : 6 ≤ imgOutFormat img)
    (ready : StepReady (seat c.key.ctx 1 s) slot m batch [c.key] none) : ∃ v w, Seated s v c.key.ctx ∧ LayersRead v w [c.key] ∧
      ((∃ b u body, (if s.streams_ slot then Checked w true b else b = w) ∧ u = { b with acct := u.acct, free := b.free + 2 } ∧
        body.length = fieldAt c.payload 4 4 * imgOutBytes img ∧
        Answered u (throughLayers slot m batch [c.key] (answerEmbed c img) (seat c.key.ctx 1 s)) c stOk body []) ∨
      (s.streams_ slot = true ∧ ∃ b, Checked w false b ∧
        Replies (throughLayers slot m batch [c.key] (answerEmbed c img) (seat c.key.ctx 1 s)) c stMediaUncorrectable [] [])) := by
  have seated := seat_seated c.key.ctx 1 s
  obtain ⟨w, read, does⟩ := throughLayers_reads ready
  refine ⟨seat c.key.ctx 1 s, w, seated, read, ?_⟩
  have sessions : w.sessions = s.sessions := (layersRead_sessions read).trans seated.1.sessions
  have found : findCmd c.key w = some c := (findCmd_congr ((layersRead_cmds read).trans seated.1.cmds) c.key).trans h.found
  rw [does, seated.1.streams_]
  cases mode : s.streams_ slot with
  | false =>
    obtain ⟨u, body, frame, length, answered⟩ := answerEmbed_answered h sessions low
    exact .inl ⟨w, u, body, rfl, frame, length, answered⟩
  | true =>
    rcases streamCheck_cases (endStreamed [c.key]) (answerEmbed c img) w with ⟨b, good, goes⟩ | ⟨b, bad, goes⟩
    · obtain ⟨u, body, frame, length, answered⟩ := answerEmbed_answered h ((checked_sessions good).trans sessions) low
      refine .inl ⟨b, u, body, good, frame, length, ?_⟩
      rw [if_pos rfl, goes]
      exact answered
    · refine .inr ⟨rfl, b, bad, ?_⟩
      rw [if_pos rfl, goes]
      refine endStreamed_replies ((findCmd_congr (checked_cmds bad) c.key).trans found) ?_ h.received
      rw [State.session, checked_sessions bad, sessions]
      exact h.opened

/-- While a tile is missing it waits for it. -/
theorem embed_stalls {done : State → State} {tile : Nat} {keys : List CmdKey} {n : Nat} (ready : StepReady (seat n 1 s) slot m batch keys (some tile)) :
    let t := throughLayers slot m batch keys done (seat n 1 s)
    (∃ y ∈ t.steps, y.keys = keys ∧ y.next = tile) ∧ t.replies = s.replies ∧
      t.cmds.map (fun d => { d with lt := false }) = s.cmds.map fun d => { d with lt := false } := by
  intro t
  have seated := (seat_seated n 1 s).1
  obtain ⟨y, p, own, does⟩ := throughLayers_stalls ready
  have stalls : t = stallLayer y m p tile (layerBoundary (.model slot) (seat n 1 s)) := does done
  have frame : StallFrame (seat n 1 s) t := stalls ▸ (stallFrame_layerBoundary ..).trans (stallFrame_stallLayer ..)
  refine ⟨⟨{ y with next := tile }, ?_, own, rfl⟩, frame.replies.trans seated.replies, frame.cmds.trans ?_⟩
  · rw [stalls, stallLayer_steps]
    exact List.mem_append_right _ List.mem_cons_self
  · rw [State.besideLate, seated.cmds]

end

end Sys2Proof.Machine
end

section
/-!
PROOFS. SCAN_EMBED (R265, R268 to R272, R401): the embeddings of the survivors of a scan.
-/

namespace Sys2Proof.Machine

open Sys2Proof

/- Scans do not show to the placement engine -/

theorem Settled.withScans {u t : State} (h : Settled u t) (scans : List Scan) (segs : List Segment) :
    Settled (u.withScans scans segs) (t.withScans scans segs) := by
  obtain ⟨frame, contexts, counts, searches, runs⟩ := h
  refine ⟨?_, contexts, counts, searches, runs⟩
  calc t.withScans scans segs = _ := congrArg (fun z : State => z.withScans scans segs) frame
    _ = _ := rfl

theorem seated_withScans {u t : State} {n : Nat} (h : Seated u t n) (scans : List Scan) (segs : List Segment) :
    Seated (u.withScans scans segs) (t.withScans scans segs) n := ⟨h.1.withScans scans segs, h.2⟩

theorem layersRead_withScans {t z : State} {keys : List CmdKey} {scans : List Scan} {segs : List Segment} (h : LayersRead (t.withScans scans segs) z keys)
    (others : List Scan) : LayersRead (t.withScans others segs) { z with scans := others } keys := by
  calc ({ z with scans := others } : State) = _ := congrArg (fun z : State => { z with scans := others }) h
    _ = _ := rfl

/-- Engines held do not change what scans are charged. -/
theorem charged_scanning (s : State) (k : CmdKey) (es : List Extent) : Charged (s.scanning k es).scans s := by
  unfold Charged State.scanning holdEngines modScan
  dsimp only
  rw [List.map_map, lookUp_scans]
  refine List.map_congr_left fun q _ => ?_
  dsimp only [Function.comp]
  split <;> rfl

/-- A scan that goes on is where it was but for its engines and the map cache. -/
theorem scanning_eq (s : State) (k : CmdKey) (es : List Extent) :
    s.scanning k es = s.withScans (s.scanning k es).scans (lookUp (s.scanSegs es) s).media.segments := rfl

/-- With its entry as it was, it is the state after the lookups. -/
theorem scanning_reset (s : State) (k : CmdKey) (es : List Extent) : { s.scanning k es with scans := s.scans } = lookUp (s.scanSegs es) s := rfl

theorem stepReady_withScans {t : State} {slot : Nat} {m : Model} {batch : Bool} {keys : List CmdKey} {missing : Option Nat} (scans : List Scan)
    (segs : List Segment) (ready : StepReady t slot m batch keys missing) : StepReady (t.withScans scans segs) slot m batch keys missing := ready

theorem streams_withScans (t : State) (slot : Nat) (scans : List Scan) (segs : List Segment) : (t.withScans scans segs).streams_ slot = t.streams_ slot := rfl

theorem lookUp_eq (s : State) (segs : List Nat) : lookUp segs s = s.withScans s.scans (lookUp segs s).media.segments := rfl

/- SCAN_EMBED -/

/-- A survivor of which the model makes an embedding. -/
def embedded (m : Model) (free : Nat) (v : Survivor) : List Byte :=
  { v with body := freeEmbedding m.image free (imgInputOf m.image v.body) }.bytes (b2n v.cut + 2 * b2n (decide (4 * imgInput m.image < v.body.length)))

/-- The payload of a SCAN_EMBED's reply. -/
def embedPayload (m : Model) (q : Pred) (cut : ScanCut) (free : Nat) : List Byte :=
  let vs := cut.units.flatMap (unitSurvivors q)
  let body := vs.flatMap (embedded m free)
  scanHead cut (badRanges cut.bad).length vs.length body.length ++ body ++ (badRanges cut.bad).flatMap badBytes

/-- A SCAN_EMBED whose step has read the layers, and that has read so many units, completes. -/
def answerEmbedded (c : Cmd) (m : Model) (q : Pred) (cut : ScanCut) (read : Nat) (s : State) : State :=
  let (free, s) := takeFree (freeWork c.key.ctx (hostReads read s))
  complete c cut.status (decide (cut.bad ≠ [])) (embedPayload m q cut free) (2 * fieldAt c.payload 4 4 / 1024) [] s

/-- With survivors, a step of the model reads its layers first. -/
def embedSurvivors (c : Cmd) (m : Model) (q : Pred) (cut : ScanCut) (read : Nat) (s : State) : State :=
  if cut.units.flatMap (unitSurvivors q) = [] then answerEmbedded c m q cut read s
  else throughLayers (fieldAt c.payload 8 4 % 64) m (decide (c.cls ≠ 0)) [c.key] (answerEmbedded c m q cut read) (seat c.key.ctx 1 s)

/-- Bytes of a survivor with its embedding. -/
def embedSize (m : Model) (u : UnitScan) : Nat := (16 + roundUp (imgOutBytes m.image) 8) * u.survivors.length

def runEmbeds (c : Cmd) (m : Model) (q : Scan) (s : State) : State :=
  runScan c (extentsOf c) q (bit (fieldAt c.payload 2 1) 0) (fieldAt c.payload 4 4) (fun s u => scanUnit q.pred c s u.2.1 u.1 u.2.2) (embedSize m)
    (embedSurvivors c m q.pred) s

/-- A SCAN_EMBED payload is in order (Table 8-11). -/
structure ScanEmbedOk (s : State) (session : Nat) (p : List Byte) : Prop where
  head : scanHeadOk p = true
  length : p.length = 16 + 16 * fieldAt p 1 1
  reserved : fieldAt p 3 1 = 0
  most : outputMaxOk (fieldAt p 4 4) = true
  extents : s.extentsOk session (scanExtents p) = true

section
variable {s : State} {c : Cmd} {x : Ctx} {q : Scan} {m : Model} (h : ReadyCtx s c.key 0x32 c x)
include h

theorem exec_scanEmbed (keys : s.keysPresent = true) (found : s.scanOf c.key = some q) (target : q.pred.target = 1)
    (order : ScanEmbedOk s c.key.session c.payload) (named : Named s c m (fieldAt c.payload 8 4)) (own : m.loader = c.key.ctx)
    (kind : imgKind m.image = 2) : exec (.scanEmbed c.key) s = .next (runEmbeds c m q s) := by
  refine congrArg Host.Outcome.next ((withCtx_ready scanEmbed h).trans ?_)
  unfold scanEmbed
  dsimp only
  rw [found]
  have extents : s.extentsOk c.key.session (extentsAt c.payload 16 (fieldAt c.payload 1 1)) = true := order.extents
  refine (stored_passes (by simp [order.head, ← order.length, order.reserved, order.most, extents, target]) keys _).trans ?_
  exact (namingModel_named named (decide_eq_true own) _).trans (if_neg fun other => other kind)

end

theorem sum_embedSize (m : Model) (q : Pred) (us : List UnitScan) :
    (us.map (embedSize m)).sum = (us.flatMap (unitSurvivors q)).length * (16 + roundUp (imgOutBytes m.image) 8) := by
  induction us with
  | nil => simp
  | cons u us ih =>
    have survivors : (unitSurvivors q u).length = u.survivors.length := List.length_map ..
    rw [List.map_cons, List.sum_cons, ih, List.flatMap_cons, List.length_append, Nat.add_mul, survivors, embedSize, Nat.mul_comm]

theorem embedPayload_whole (m : Model) (q : Pred) (us : List UnitScan) (free : Nat) : embedPayload m q ⟨none, us, [], false⟩ free =
    scanReplyHead us 0 (us.flatMap (unitSurvivors q)).length ((us.flatMap (unitSurvivors q)).flatMap (embedded m free)).length ++
      (us.flatMap (unitSurvivors q)).flatMap (embedded m free) := by
  unfold embedPayload
  dsimp only
  rw [scanHead_whole rfl, badRanges_nil, List.flatMap_nil, List.append_nil]
  rfl

/-- The embeddings of the survivors, in a session that is open: the scan's own entry does not show. -/
theorem answerEmbedded_answered {s : State} {c : Cmd} {x : Ctx} {op : Nat} (h : ReadyCtx s c.key op c x) {z : State} (sessions : z.sessions = s.sessions)
    {scans : List Scan} (others : z.scans.filter (fun q => decide (q.key ≠ c.key)) = scans.filter fun q => decide (q.key ≠ c.key))
    (m : Model) (q : Pred) {us : List UnitScan} (read : Nat) : ∃ u body, u = { hostReads read { z with scans := scans } with acct := u.acct, free := z.free + 2 } ∧
      Answered u (answerEmbedded c m q ⟨none, us, [], false⟩ read z) c stOk
        (scanReplyHead us 0 (us.flatMap (unitSurvivors q)).length body.length ++ body) [] := by
  have work := shareWork_frame [c.key.ctx] (hostReads read z)
  change freeWork c.key.ctx (hostReads read z) = _ at work
  have kept : ({ freeWork c.key.ctx (hostReads read z) with free := (freeWork c.key.ctx (hostReads read z)).free + 1 } : State).sessions = s.sessions := by
    exact (congrArg State.sessions work :).trans ((hostReads_sessions read z).trans sessions)
  have left : (freeWork c.key.ctx (hostReads read z)).scans = z.scans := by
    exact (congrArg State.scans work :).trans (hostReads_scans read z)
  have answered := h.completes stOk false (embedPayload m q ⟨none, us, [], false⟩ (freeWork c.key.ctx (hostReads read z)).free)
    (2 * fieldAt c.payload 4 4 / 1024) [] kept
  rw [embedPayload_whole] at answered
  refine ⟨{ freeWork c.key.ctx (hostReads read z) with free := (freeWork c.key.ctx (hostReads read z)).free + 1, scans := scans },
    (us.flatMap (unitSurvivors q)).flatMap (embedded m (freeWork c.key.ctx (hostReads read z)).free), ?_,
    Answered.ofScans (l := (freeWork c.key.ctx (hostReads read z)).scans) ?_ ?_⟩
  · rw [work]
    rfl
  · rw [left]
    exact others
  · unfold answerEmbedded takeFree
    dsimp only
    rw [embedPayload_whole]
    exact answered

/-- So once a step has read the layers from where the context was seated, whatever the scans hold and wherever the map cache stands. -/
theorem embedded_reads {s p : State} {c : Cmd} {x : Ctx} {op : Nat} (h : ReadyCtx s c.key op c x) (seated : Seated s p c.key.ctx) {slot : Nat} {m : Model}
    {batch : Bool} (ready : StepReady p slot m batch [c.key] none) (mode : s.streams_ slot = false) {scans : List Scan} (segs : List Segment)
    (others : scans.filter (fun q => decide (q.key ≠ c.key)) = s.scans.filter fun q => decide (q.key ≠ c.key)) (q : Pred) (us : List UnitScan) (read : Nat) :
    ∃ u v body, (∃ y, Seated (s.withScans s.scans segs) y c.key.ctx ∧ LayersRead y v [c.key]) ∧
      u = { hostReads read v with acct := u.acct, free := s.free + 2 } ∧
      Answered u (throughLayers slot m batch [c.key] (answerEmbedded c m q ⟨none, us, [], false⟩ read) (p.withScans scans segs)) c stOk
        (scanReplyHead us 0 (us.flatMap (unitSurvivors q)).length body.length ++ body) [] := by
  obtain ⟨z, through, does⟩ := throughLayers_reads (stepReady_withScans scans segs ready)
  have sessions : z.sessions = s.sessions := (layersRead_sessions through).trans seated.1.sessions
  have left : z.scans = scans := (congrArg State.scans through :)
  have free : z.free = s.free := (congrArg State.free through :).trans seated.1.free
  rw [← left] at others
  obtain ⟨u, body, frame, answered⟩ := answerEmbedded_answered h sessions others m q (us := us) read
  rw [free] at frame
  refine ⟨u, _, body, ⟨_, seated_withScans seated _ segs, layersRead_withScans through s.scans⟩, frame, ?_⟩
  rw [does, streams_withScans, seated.1.streams_, mode]
  exact answered

section
variable {s : State} {c : Cmd} {x : Ctx} {q : Scan} {m : Model}
  (place : q.sieves ≠ [] ∨ s.enginePlace c.key (s.scanSieves (s.scanUnits (extentsOf c))) = true)
  (in_ : UnitsIn s c ((s.scanUnits (extentsOf c)).map (·.2))) (whole : ∀ u ∈ s.scanned c q.pred (extentsOf c), u.bad = none)
  (fits : ((s.scanned c q.pred (extentsOf c)).flatMap (unitSurvivors q.pred)).length * (16 + roundUp (imgOutBytes m.image) 8) ≤ fieldAt c.payload 4 4)
  (below : s.stagedKib c q < q.kib)
include place in_ whole fits below

/-- A SCAN_EMBED that is not stopped goes on to the embeddings of all survivors. -/
theorem runEmbeds_finishes : runEmbeds c m q s = embedSurvivors c m q.pred ⟨none, s.scanned c q.pred (extentsOf c), [], false⟩
    (s.scanned c q.pred (extentsOf c)).length (s.scanning c.key (extentsOf c)) := by
  have room : ((s.scanned c q.pred (extentsOf c)).map (embedSize m)).sum ≤ fieldAt c.payload 4 4 := (sum_embedSize ..).le.trans fits
  have finished := runScan_finishes (skip := bit (fieldAt c.payload 2 1) 0) (go := embedSurvivors c m q.pred) (by omega) place in_ room (.inr below)
  rwa [cutScan_fits room (.inl whole), seenUnits_whole whole, lostUnits_whole whole] at finished

/-- Where a step has read the layers for it, or none is needed, it completes OK with one result for each survivor. -/
theorem runEmbeds_answered (h : ReadyCtx s c.key 0x32 c x) (ready : (s.scanned c q.pred (extentsOf c)).flatMap (unitSurvivors q.pred) = [] ∨
      StepReady (seat c.key.ctx 1 s) (fieldAt c.payload 8 4 % 64) m (decide (c.cls ≠ 0)) [c.key] none)
    (mode : s.streams_ (fieldAt c.payload 8 4 % 64) = false) : ∃ u v body,
      (if (s.scanned c q.pred (extentsOf c)).flatMap (unitSurvivors q.pred) = [] then v = lookUp (s.scanSegs (extentsOf c)) s
        else ∃ y, Seated (lookUp (s.scanSegs (extentsOf c)) s) y c.key.ctx ∧ LayersRead y v [c.key]) ∧
      u = { hostReads (s.scanned c q.pred (extentsOf c)).length v with acct := u.acct, free := s.free + 2 } ∧
      Answered u (runEmbeds c m q s) c stOk (scanReplyHead (s.scanned c q.pred (extentsOf c)) 0
        ((s.scanned c q.pred (extentsOf c)).flatMap (unitSurvivors q.pred)).length body.length ++ body) [] := by
  have others : (s.scanning c.key (extentsOf c)).scans.filter (fun q => decide (q.key ≠ c.key)) = s.scans.filter fun q => decide (q.key ≠ c.key) :=
    (scanning_others s c.key (extentsOf c) 0).trans (by rw [hostReads_scans, lookUp_scans])
  rw [runEmbeds_finishes place in_ whole fits below, embedSurvivors]
  by_cases none_ : (s.scanned c q.pred (extentsOf c)).flatMap (unitSurvivors q.pred) = []
  · obtain ⟨u, body, frame, answered⟩ := answerEmbedded_answered h (scanning_sessions s c.key (extentsOf c)) others m q.pred
      (us := s.scanned c q.pred (extentsOf c)) (s.scanned c q.pred (extentsOf c)).length
    rw [scanning_reset, scanning_free] at frame
    exact ⟨u, _, body, by rw [if_pos none_], frame, by rwa [if_pos none_]⟩
  · have placed : seat c.key.ctx 1 (s.scanning c.key (extentsOf c)) = (seat c.key.ctx 1 s).withScans (s.scanning c.key (extentsOf c)).scans
        (lookUp (s.scanSegs (extentsOf c)) s).media.segments :=
      (congrArg (seat c.key.ctx 1) (scanning_eq s c.key (extentsOf c))).trans (seat_withScans (charged_scanning s c.key (extentsOf c)) c.key.ctx 1)
    obtain ⟨u, v, body, read, frame, answered⟩ := embedded_reads h (seat_seated c.key.ctx 1 s) (ready.resolve_left none_) mode
      (lookUp (s.scanSegs (extentsOf c)) s).media.segments others q.pred (s.scanned c q.pred (extentsOf c)) (s.scanned c q.pred (extentsOf c)).length
    rw [← lookUp_eq] at read
    rw [← placed] at answered
    exact ⟨u, v, body, by rwa [if_neg none_], frame, by rwa [if_neg none_]⟩

end

end Sys2Proof.Machine
end

section
/-!
PROOFS. Streams (R410 to R416): what GEN_OPEN opens, when GEN_STEP waits or answers from the record, and what GEN_CLOSE closes.
-/

namespace Sys2Proof.Machine

open Sys2Proof

/- GEN_OPEN (R409 to R413) -/

/-- What looks at no recency of the map cache reads the same after lookups. -/
theorem lookedUp_reads {s t : State} (h : LookedUp s t) {β : Type} (f : State → β)
    (same : ∀ l, f { s with media := { s.media with segments := l } } = f s) : f t = f s := by
  rw [h]
  exact same _

/-- The block references of a GEN_OPEN payload, and the unit that one names. -/
def blockRefs (p : List Byte) : List (List Byte) := (List.range (fieldAt p 10 1)).map fun i => slice p (64 + 4 * fieldAt p 8 2 + 16 * i) 16

def refUnit (r : List Byte) : Nat := fieldAt r 4 8 / 16

/-- The tokens of a GEN_OPEN: those in its payload, and those that its block references name. -/
def inlineTokens (p : List Byte) : List Nat := (List.range (fieldAt p 8 2)).map fun i => fieldAt p (64 + 4 * i) 4

def State.namedTokens (s : State) (p : List Byte) : List Nat := (blockRefs p).flatMap fun r =>
  let d := (s.unitData (fieldAt r 0 1) (refUnit r)).getD (zeros 65536)
  (List.range (fieldAt r 14 2)).map fun i => fieldAt d (4096 * (fieldAt r 4 8 % 16) + 4 * (fieldAt r 12 2 + i)) 4

def State.promptOf (s : State) (p : List Byte) : List Nat :=
  if bit (fieldAt p 11 1) 0 then inlineTokens p ++ s.namedTokens p else s.namedTokens p ++ inlineTokens p

def promptLength (p : List Byte) : Nat := fieldAt p 8 2 + ((blockRefs p).map fun r => fieldAt r 14 2).sum

/-- The stream that a GEN_OPEN opens. -/
def openedStream (c : Cmd) (x : Ctx) (m : Model) (prompt : List Nat) (now : Nat) : Stream :=
  let p := c.payload
  { ctx := c.key.ctx, cls := x.cls, admitted := decide (x.cls = .interactive), slot := fieldAt p 0 4 % 64,
    maxContext := fieldAt p 4 4, prompt := prompt, tokens := [], pos := none, replies := [], ended := 0,
    stops := ((List.range 4).map fun i => fieldAt p (32 + 4 * i) 4).filter fun v => decide (v ≠ 0xFFFFFFFF),
    sample := bit (fieldAt p 11 1) 1, temperature := fieldAt p 12 4, topP := fieldAt p 16 4, topK := fieldAt p 20 4,
    seed := fieldAt p 24 8, kvKib := kvPagesKib m (fieldAt p 4 4), lastOut := now, opened := false }

/-- A GEN_OPEN waits for its first token. -/
def awaitToken (n : Nat) (c : Cmd) : Cmd := { c with phase := .waiting (.token n), stagedKib := 0, tally := 0 }

/-- The first layers are ferried to the plot that runs the context, if one does. -/
def ferryFirst (slot : Nat) (m : Model) (n : Nat) (s : State) : State :=
  match s.runsOn n with
  | none => s
  | some q => ferryLayers slot m q n [n] m.firstTile s

/-- The stream is opened, and its context looks for a plot. -/
def openStream (c : Cmd) (m : Model) (n : Nat) (st : Stream) (s : State) : State :=
  modCmd c.key (awaitToken n) (ferryFirst st.slot m c.key.ctx (seat c.key.ctx 1 { s with streams := kvSet n st s.streams }))

theorem Settled.modCmd {u t : State} (h : Settled u t) (k : CmdKey) (f : Cmd → Cmd) : Settled (modCmd k f u) (modCmd k f t) := by
  obtain ⟨frame, contexts, counts, searches, runs⟩ := h
  refine ⟨?_, contexts, counts, searches, runs⟩
  calc Machine.modCmd k f t = _ := congrArg (Machine.modCmd k f) frame
    _ = _ := rfl

theorem tilesMoved_ferryFirst (slot : Nat) (m : Model) (n : Nat) (s : State) : TilesMoved s (ferryFirst slot m n s) := by
  unfold ferryFirst
  split
  · exact TilesMoved.refl s
  · exact tilesMoved_ferryLayers ..

theorem openStream_seated (c : Cmd) (m : Model) (n : Nat) (st : Stream) (s : State) :
    Seated (modCmd c.key (awaitToken n) { s with streams := kvSet n st s.streams }) (openStream c m n st s) c.key.ctx := by
  obtain ⟨settled, runs⟩ := seat_seated c.key.ctx 1 { s with streams := kvSet n st s.streams }
  have moved := tilesMoved_ferryFirst st.slot m c.key.ctx (seat c.key.ctx 1 { s with streams := kvSet n st s.streams })
  have contexts : (openStream c m n st s).contexts = (seat c.key.ctx 1 { s with streams := kvSet n st s.streams }).contexts :=
    (congrArg State.contexts moved.frame :)
  refine ⟨(settled.trans moved.settled).modCmd c.key (awaitToken n), fun x there => ?_⟩
  rw [contexts] at there
  exact runs x there

/-- A GEN_OPEN is in order for a model, and its tokens can be read. -/
structure GenOpenOk (s : State) (c : Cmd) (m : Model) (n : Nat) : Prop where
  length : 64 ≤ c.payload.length
  fields : genFieldsOk c.payload m.image = true
  heads : m.heads = true
  refs : ∀ r ∈ blockRefs c.payload, s.refOk c.key.session r = true
  some_ : 1 ≤ promptLength c.payload
  fewer : promptLength c.payload < fieldAt c.payload 4 4
  in_ : UnitsIn s c ((blockRefs c.payload).map fun r => (fieldAt r 0 1, refUnit r))
  whole : ∀ r ∈ blockRefs c.payload, s.badUnits c (fieldAt r 0 1) [refUnit r] = []
  known : ∀ i ∈ s.promptOf c.payload, i < imgVocab m.image
  number : kvFree s.streams 1024 = some n
  fits : (modCmd c.key (fun d => { d with stagedKib := 0 }) s).fits c.key.ctx (kvPagesKib m (fieldAt c.payload 4 4)) = true

def refReads (p : List Byte) : List (Nat × Nat × Nat) := (blockRefs p).map fun r => (fieldAt r 0 1, refUnit r, 0xFFFF)

theorem exec_genOpen {s : State} {c : Cmd} {x : Ctx} {m : Model} {n : Nat} (h : ReadyCtx s c.key 0x53 c x) (keys : s.keysPresent = true)
    (named : Named s c m (fieldAt c.payload 0 4)) (may : bit m.sessions c.key.session = true) (order : GenOpenOk s c m n) :
    exec (.genOpen c.key) s = .next (openStream c m n (openedStream c x m (s.promptOf c.payload) s.now)
      (lookUp (s.unitSegments (refReads c.payload)) s)) := by
  refine congrArg Host.Outcome.next ((withCtx_ready genOpen h).trans ?_)
  have looked := lookedUp_lookUp (s.unitSegments (refReads c.payload)) s
  have among : ∀ u ∈ refReads c.payload, (u.1, u.2.1) ∈ (blockRefs c.payload).map fun r => (fieldAt r 0 1, refUnit r) := by
    intro u mem
    obtain ⟨r, there, rfl⟩ := List.mem_map.1 mem
    exact List.mem_map_of_mem there
  have inOrder : (genFieldsOk c.payload m.image && m.heads && (blockRefs c.payload).all (s.refOk c.key.session) && decide (1 ≤ promptLength c.payload) &&
      decide (promptLength c.payload < fieldAt c.payload 4 4)) = true := by
    simp [order.fields, order.heads, order.some_, order.fewer, List.all_eq_true.2 order.refs]
  unfold genOpen
  rw [modelled_passes keys]
  dsimp only
  rw [if_neg (Nat.not_lt.2 order.length), withModel, namingModel_named named may]
  refine (if_neg (by rw [Bool.not_eq_true, Bool.not_eq_false']; exact inOrder)).trans ((unitsIn_goesOn order.in_ among _).trans ?_)
  generalize lookUp (s.unitSegments (refReads c.payload)) s = w at looked
  have bad : ∀ r, w.badUnits c (fieldAt r 0 1) [refUnit r] = s.badUnits c (fieldAt r 0 1) [refUnit r] := fun r =>
    lookedUp_reads looked (fun s => s.badUnits c (fieldAt r 0 1) [refUnit r]) fun _ => rfl
  have prompt : w.promptOf c.payload = s.promptOf c.payload := lookedUp_reads looked (fun s => s.promptOf c.payload) fun _ => rfl
  have streams : w.streams = s.streams := lookedUp_reads looked State.streams fun _ => rfl
  have now : w.now = s.now := lookedUp_reads looked State.now fun _ => rfl
  have fits : (modCmd c.key (fun d => { d with stagedKib := 0 }) w).fits c.key.ctx (kvPagesKib m (fieldAt c.payload 4 4)) = true :=
    (lookedUp_reads looked (fun s => (modCmd c.key (fun d => { d with stagedKib := 0 }) s).fits c.key.ctx (kvPagesKib m (fieldAt c.payload 4 4)))
      fun _ => rfl).trans order.fits
  have readable : ¬ ((blockRefs c.payload).any fun r => decide (w.badUnits c (fieldAt r 0 1) [refUnit r] ≠ [])) = true := by
    rw [List.any_eq_true]
    rintro ⟨r, there, unread⟩
    exact of_decide_eq_true unread ((bad r).trans (order.whole r there))
  have known : ¬ ((w.promptOf c.payload).any fun t => decide (imgVocab m.image ≤ t)) = true := by
    rw [List.any_eq_true, prompt]
    rintro ⟨i, there, above⟩
    exact absurd (order.known i there) (Nat.not_lt.2 (of_decide_eq_true above))
  have number : kvFree w.streams 1024 = some n := by rw [streams, order.number]
  rw [← prompt, ← now]
  refine (if_neg readable).trans ((if_neg known).trans ?_)
  rw [number]
  exact if_neg (by rw [fits]; exact nofun)

/- GEN_STEP (R414, R415) -/

/-- A GEN_STEP of a running stream is in order. -/
structure GenStepOk (s : State) (c : Cmd) (st : Stream) (last : Nat) : Prop where
  length : c.payload.length = 16
  reserved2 : fieldAt c.payload 2 2 = 0
  reserved8 : fieldAt c.payload 8 8 = 0
  stream : s.streamOf (fieldAt c.payload 0 2) c.key.ctx = some st
  stays : s.unloadAhead st.slot c.order = false
  pos : st.pos = some last

/-- A GEN_STEP waits for the next position, or one among the last is answered from the record, or it is refused. -/
def stepStream (c : Cmd) (st : Stream) (last : Nat) (s : State) : State :=
  if fieldAt c.payload 4 4 = last + 1 ∧ st.ended = 0 then modCmd c.key (fun d => { d with phase := .waiting (.token (fieldAt c.payload 0 2)) }) s
  else match st.replies.find? fun r => decide (r.1 = fieldAt c.payload 4 4) with
    | some r => complete c stOk false (tokenReply (fieldAt c.payload 0 2) r) 0 [.tokenOut (fieldAt c.payload 0 2)] s
    | none => fail c stInvalid s

section
variable {s : State} {c : Cmd} {x : Ctx} {st : Stream} {last : Nat}

theorem exec_genStep (h : ReadyCtx s c.key 0x54 c x) (keys : s.keysPresent = true) (order : GenStepOk s c st last) :
    exec (.genStep c.key) s = .next (stepStream c st last s) := by
  refine congrArg Host.Outcome.next ((withCtx_ready genStep h).trans ?_)
  unfold genStep
  rw [modelled_passes keys]
  dsimp only
  rw [if_pos ⟨order.length, order.reserved2, order.reserved8⟩, order.stream]
  dsimp only
  rw [order.stays, if_neg nofun, order.pos]
  rfl

theorem stepStream_waits (next : fieldAt c.payload 4 4 = last + 1) (runs : st.ended = 0) :
    stepStream c st last s = { s with cmds := withPhase s c.key (.waiting (.token (fieldAt c.payload 0 2))) } := if_pos ⟨next, runs⟩

theorem stepStream_record (h : ReadyCtx s c.key 0x54 c x) (other : fieldAt c.payload 4 4 ≠ last + 1) {r : Nat × Nat × Nat}
    (record : st.replies.find? (fun r => decide (r.1 = fieldAt c.payload 4 4)) = some r) :
    Answered s (stepStream c st last s) c stOk (tokenReply (fieldAt c.payload 0 2) r) [.tokenOut (fieldAt c.payload 0 2)] := by
  unfold stepStream
  rw [if_neg fun both => other both.1, record]
  exact h.completes stOk false _ 0 _ rfl

end

/- GEN_CLOSE (R416) -/

/-- Streams closed one after the other. -/
def closeStreams (l : List Nat) (s : State) : State := l.foldl (fun s n => closeStream n s) s

theorem closeStreams_frame (l : List Nat) (s : State) : closeStreams l s = { s with streams := (closeStreams l s).streams } := by
  induction l generalizing s with
  | nil => rfl
  | cons n l ih =>
    calc closeStreams (n :: l) s = _ := ih (closeStream n s)
      _ = _ := rfl

theorem mem_kvDel_iff {α : Type} {k : Nat} {t : KV α} (sorted : kvSorted t = true) {e : Nat × α} : e ∈ kvDel k t ↔ e ∈ t ∧ e.1 ≠ k := by
  refine ⟨fun mem => ⟨mem_kvDel mem, fun own => ?_⟩, fun ⟨mem, other⟩ => ?_⟩
  · have there := kvGet_of_mem (kvSorted_kvDel k t sorted) mem
    rw [own, kvGet_kvDel_same k t sorted] at there
    exact absurd there nofun
  · refine mem_of_kvGet ?_
    rw [kvGet_kvDel_other t other.symm]
    exact kvGet_of_mem sorted mem

theorem mem_closeStreams {l : List Nat} {s : State} (sorted : kvSorted s.streams = true) {e : Nat × Stream} :
    e ∈ (closeStreams l s).streams ↔ e ∈ s.streams ∧ e.1 ∉ l := by
  induction l generalizing s with
  | nil => exact ⟨fun mem => ⟨mem, List.not_mem_nil⟩, And.left⟩
  | cons n l ih =>
    have closed : e ∈ (closeStream n s).streams ↔ e ∈ s.streams ∧ e.1 ≠ n := mem_kvDel_iff sorted
    have rest := ih (s := closeStream n s) (kvSorted_kvDel n s.streams sorted)
    rw [closed] at rest
    refine rest.trans ?_
    rw [List.mem_cons, not_or, and_assoc]

/-- The numbers of a context's streams. -/
def State.streamsOf (s : State) (n : Nat) : List Nat := (s.streams.filter fun t => decide (t.2.ctx = n)).map (·.1)

theorem mem_streamsOf {s : State} (sorted : kvSorted s.streams = true) {n : Nat} {e : Nat × Stream} (mem : e ∈ s.streams) :
    e.1 ∈ s.streamsOf n ↔ e.2.ctx = n := by
  refine ⟨fun named => ?_, fun own => List.mem_map_of_mem (List.mem_filter.2 ⟨mem, decide_eq_true own⟩)⟩
  obtain ⟨d, listed, same⟩ := List.mem_map.1 named
  obtain ⟨there, own⟩ := List.mem_filter.1 listed
  have both : some d.2 = some e.2 := by rw [← kvGet_of_mem sorted there, ← kvGet_of_mem sorted mem, same]
  rw [← Option.some.inj both]
  exact of_decide_eq_true own

/-- The context's streams are closed, and the others stay. -/
theorem mem_closeStreamsOf {s : State} (sorted : kvSorted s.streams = true) (n : Nat) (e : Nat × Stream) :
    e ∈ (closeStreams (s.streamsOf n) s).streams ↔ e ∈ s.streams ∧ e.2.ctx ≠ n :=
  (mem_closeStreams sorted).trans (and_congr_right fun mem => not_congr (mem_streamsOf sorted mem))

section
variable {s : State} {c : Cmd} {x : Ctx} (h : ReadyCtx s c.key 0x55 c x) (keys : s.keysPresent = true)
include h keys

/-- With no payload, and no earlier GEN_OPEN or GEN_STEP of the context outstanding, every stream of the context closes. -/
theorem exec_genClose_all (all : c.payload = [])
    (last : ∀ d ∈ s.cmds, d.live = true → d.order < c.order → d.key.ctx = c.key.ctx → d.key.queue = .work → d.opcode ≠ 0x53 ∧ d.opcode ≠ 0x54) :
    exec (.genClose c.key) s = .next (reply c stOk [] (closeStreams (s.streamsOf c.key.ctx) s)) := by
  refine congrArg Host.Outcome.next ((withCtx_ready genClose h).trans ?_)
  have free : ¬ (s.cmds.any fun d => d.live && decide (d.order < c.order) && decide (d.key.ctx = c.key.ctx) && decide (d.key.queue = .work) &&
      (decide (d.opcode = 0x53) || decide (d.opcode = 0x54))) = true := by
    rw [List.any_eq_true]
    rintro ⟨d, mem, ahead⟩
    simp only [Bool.and_eq_true, Bool.or_eq_true, decide_eq_true_eq] at ahead
    obtain ⟨⟨⟨⟨live, earlier⟩, own⟩, work⟩, names⟩ := ahead
    obtain ⟨noOpen, noStep⟩ := last d mem live earlier own work
    exact names.elim noOpen noStep
  unfold genClose
  rw [modelled_passes keys]
  exact (if_pos all).trans (if_neg free)

theorem exec_genClose_one {st : Stream} (length : c.payload.length = 8) (reserved : allZero (slice c.payload 2 6) = true)
    (stream : s.streamOf (fieldAt c.payload 0 2) c.key.ctx = some st) :
    exec (.genClose c.key) s = .next (reply c stOk [] (closeStream (fieldAt c.payload 0 2) s)) := by
  refine congrArg Host.Outcome.next ((withCtx_ready genClose h).trans ?_)
  have some_ : c.payload ≠ [] := fun none_ => by
    rw [none_] at length
    exact absurd length (by decide)
  have inOrder : ¬ (c.payload.length ≠ 8 ∨ (!allZero (slice c.payload 2 6)) = true ∨ (s.streamOf (fieldAt c.payload 0 2) c.key.ctx).isNone = true) := by
    simp [length, reserved, stream]
  unfold genClose
  rw [modelled_passes keys]
  exact (if_neg some_).trans (if_neg inOrder)

end

end Sys2Proof.Machine
end

section
/-!
PROOFS. Generation steps (R45, R413): what they leave as it was, and the GEN_STEPs that they answer.
-/

namespace Sys2Proof.Machine

open Sys2Proof

/- What a generation step may change -/

/-- t is u after work on streams of these numbers: no other stream changed, none closed, and the replies made stand. -/
structure GenWork (ns : List Nat) (u t : State) : Prop where
  frame : t = { u with
    streams := t.streams, cmds := t.cmds, replies := t.replies, nextReply := t.nextReply, acct := t.acct, free := t.free, steps := t.steps
    plots := t.plots, scans := t.scans, trains := t.trains
    landing := { u.landing with
      faults := t.landing.faults, schedules := t.landing.schedules, lateArrivals := t.landing.lateArrivals, leadCapped := t.landing.leadCapped } }
  others : ∀ n, n ∉ ns → kvGet n t.streams = kvGet n u.streams
  open_ : ∀ n, (kvGet n u.streams).isSome = true → (kvGet n t.streams).isSome = true
  replies : RepliesStand u t

theorem GenWork.trans {ns : List Nat} {s u t : State} (first : GenWork ns s u) (second : GenWork ns u t) : GenWork ns s t where
  frame := by
    calc t = _ := second.frame
      _ = _ := by rw [first.frame]
  others n out := (second.others n out).trans (first.others n out)
  open_ n there := second.open_ n (first.open_ n there)
  replies := first.replies.trans second.replies

/-- Work that leaves all streams. -/
theorem GenWork.of_streams {ns : List Nat} {u t : State} (frame : t = { u with
    streams := t.streams, cmds := t.cmds, replies := t.replies, nextReply := t.nextReply, acct := t.acct, free := t.free, steps := t.steps
    plots := t.plots, scans := t.scans, trains := t.trains
    landing := { u.landing with
      faults := t.landing.faults, schedules := t.landing.schedules, lateArrivals := t.landing.lateArrivals, leadCapped := t.landing.leadCapped } })
    (streams : t.streams = u.streams) (replies : RepliesStand u t) : GenWork ns u t :=
  ⟨frame, fun n _ => by rw [streams], fun n there => by rwa [streams], replies⟩

theorem GenWork.refl (ns : List Nat) (s : State) : GenWork ns s s := GenWork.of_streams rfl rfl (RepliesStand.refl s)

theorem GenWork.sessions {ns : List Nat} {u t : State} (h : GenWork ns u t) : t.sessions = u.sessions := (congrArg State.sessions h.frame :)

theorem GenWork.foldl {α : Type} {ns : List Nat} {f : State → α → State} {l : List α} (step : ∀ a ∈ l, ∀ s, GenWork ns s (f s a)) (s : State) :
    GenWork ns s (l.foldl f s) :=
  List.foldlRecOn l f (motive := GenWork ns s) (GenWork.refl ns s) fun u so a mem => so.trans (step a mem u)

theorem StallFrame.genWork {ns : List Nat} {u t : State} (h : StallFrame u t) : GenWork ns u t := by
  refine GenWork.of_streams ?_ (congrArg State.streams h.frame :) (RepliesStand.of_eq h.replies)
  calc t = _ := h.frame
    _ = _ := by rw [h.frame]

theorem genWork_layersRead {ns : List Nat} {u t : State} {keys : List CmdKey} (h : LayersRead u t keys) : GenWork ns u t := by
  refine GenWork.of_streams ?_ (congrArg State.streams h :) (RepliesStand.of_eq (congrArg State.replies h :))
  calc t = _ := h
    _ = _ := by rw [h]

/-- A completion in any session. -/
theorem genWork_complete (ns : List Nat) (c : Cmd) (status : Nat) (sh : Bool) (payload : List Byte) (kib : Nat) (acts : List Act) (s : State) :
    GenWork ns s (complete c status sh payload kib acts s) := by
  have made : GenWork ns s (putReply c status sh payload kib acts s) := GenWork.of_streams rfl rfl (List.subset_append_left _ _)
  have waits : GenWork ns s (modCmd c.key (fun c => { c with phase := .waiting (.quota status sh payload kib acts), stagedKib := 0 }) s) :=
    GenWork.of_streams rfl rfl (RepliesStand.refl s)
  unfold complete
  split
  · exact made
  · split
    · exact waits
    · exact made

theorem genWork_shareWork (ns ctxs : List Nat) (s : State) : GenWork ns s (shareWork ctxs s) := by
  have work := shareWork_frame ctxs s
  refine GenWork.of_streams ?_ (congrArg State.streams work :) (RepliesStand.of_eq (congrArg State.replies work :))
  calc shareWork ctxs s = _ := work
    _ = _ := by rw [work]

/- A token (R413 to R415) -/

/-- The stream with its next token, and what the record keeps of it. -/
def Stream.advance (t : Stream) (vocab free : Nat) : Stream × (Nat × Nat × Nat) :=
  let tok := Config.token free % vocab
  let pos := match t.pos with
    | none => 0
    | some q => q + 1
  let kind := if t.stops.contains tok then 1 else if t.maxContext ≤ t.prompt.length + pos + 1 then 2 else 0
  let r := (pos, tok, kind)
  ({ t with pos := some pos, tokens := t.tokens ++ [tok], replies := (r :: t.replies).take 4, ended := kind }, r)

def State.vocabOf (s : State) (slot : Nat) : Nat := ((kvGet slot s.models).map fun m => imgVocab m.image).getD 1

theorem giveToken_some {s : State} {n : Nat} {t : Stream} (there : kvGet n s.streams = some t) (c : Cmd) : giveToken c n s =
    complete c stOk false (tokenReply n (t.advance (s.vocabOf t.slot) s.free).2) 0 [.tokenOut n]
      { s with free := s.free + 1, streams := kvSet n (t.advance (s.vocabOf t.slot) s.free).1 s.streams } := by
  unfold giveToken
  rw [there]
  rfl

theorem giveToken_none {s : State} {n : Nat} (gone : kvGet n s.streams = none) (c : Cmd) : giveToken c n s = s := by
  unfold giveToken
  rw [gone]

/-- One of the streams changed. -/
theorem genWork_setStream {ns : List Nat} {n : Nat} (own : n ∈ ns) (st : Stream) (s : State) :
    GenWork ns s { s with free := s.free + 1, streams := kvSet n st s.streams } where
  frame := rfl
  others i out := kvGet_kvSet_other _ _ fun same => out (same ▸ own)
  open_ i some_ := by
    by_cases same : n = i
    · subst same
      exact congrArg Option.isSome (kvGet_kvSet_same ..)
    · exact (congrArg Option.isSome (kvGet_kvSet_other _ _ same)).trans some_
  replies := RepliesStand.refl s

theorem genWork_giveToken {ns : List Nat} {n : Nat} (own : n ∈ ns) (c : Cmd) (s : State) : GenWork ns s (giveToken c n s) := by
  cases there : kvGet n s.streams with
  | none =>
    rw [giveToken_none there]
    exact GenWork.refl ns s
  | some t =>
    rw [giveToken_some there]
    exact (genWork_setStream own (t.advance (s.vocabOf t.slot) s.free).1 s).trans (genWork_complete ..)

/-- On an open stream it answers a command whose session is open. -/
theorem giveToken_answers {s : State} {c : Cmd} {n : Nat} (there : (kvGet n s.streams).isSome = true) (open_ : (s.session c.key.session).phase = .opened) :
    ∃ r ∈ (giveToken c n s).replies, r.key = c.key ∧ r.status = stOk ∧ .tokenOut n ∈ r.acts := by
  obtain ⟨t, there⟩ := Option.isSome_iff_exists.1 there
  obtain ⟨r, key, -, -, -, status, -, acts, -, -, frame⟩ := complete_answered (c := c) stOk false (tokenReply n (t.advance (s.vocabOf t.slot) s.free).2) 0
    [.tokenOut n] { s with free := s.free + 1, streams := kvSet n (t.advance (s.vocabOf t.slot) s.free).1 s.streams } (.inr (by
      rw [State.session] at open_ ⊢
      exact fun held => absurd (open_.symm.trans held) nofun))
  rw [giveToken_some there, frame]
  exact ⟨r, List.mem_append_right _ List.mem_cons_self, key, status, by rw [acts]; exact List.mem_cons_self⟩

theorem genWork_prefill {ns : List Nat} {n : Nat} (own : n ∈ ns) (c : Cmd) (s : State) : GenWork ns s (prefill c n s) := by
  have work : GenWork ns s (freeWork c.key.ctx s) := genWork_shareWork ns [c.key.ctx] s
  have goesOn : GenWork ns (freeWork c.key.ctx s) (modCmd c.key (fun c => { c with tally := c.tally + 512 }) (freeWork c.key.ctx s)) :=
    GenWork.of_streams rfl rfl (RepliesStand.refl _)
  unfold prefill
  dsimp only
  split
  · exact work.trans (genWork_giveToken own c _)
  · exact work.trans goesOn

/- A step of a model's streams -/

/-- The GEN_STEPs of a class that wait, and the GEN_OPEN whose prompt goes on. -/
def State.stepsFor (s : State) (slot : Nat) (batch : Bool) : List (Cmd × Nat) :=
  (s.tokenWaits 0x54 slot).filter fun x => (kvGet x.2 s.streams).any fun t => decide (t.cls = if batch then Cls.batch else .interactive)

def State.chunkFor (s : State) (slot : Nat) (batch : Bool) : List (Cmd × Nat) := if batch then [] else (s.tokenWaits 0x53 slot).take 1

def served (keys : List CmdKey) (l : List (Cmd × Nat)) : List (Cmd × Nat) := l.filter fun x => keys.contains x.1.key

/-- The work of a step is shared among the streams that it serves. -/
def shareSteps (steps : List (Cmd × Nat)) (s : State) : State := if steps = [] then s else shareWork (steps.map fun x => x.1.key.ctx) s

/-- With all layers read, every served GEN_STEP has its token, and a chunk of a prompt is prefilled. -/
def giveTokens (steps chunk : List (Cmd × Nat)) (s : State) : State :=
  chunk.foldl (fun s x => prefill x.1 x.2 s) (steps.foldl (fun s x => giveToken x.1 x.2 s) (shareSteps steps s))

theorem genWork_shareSteps (ns : List Nat) (steps : List (Cmd × Nat)) (s : State) : GenWork ns s (shareSteps steps s) := by
  unfold shareSteps
  split
  · exact GenWork.refl ns s
  · exact genWork_shareWork ..

theorem generation_some {s : State} {slot : Nat} {m : Model} (there : kvGet slot s.models = some m) (batch : Bool) : generation slot batch s =
    if served (s.servedKeys slot m batch) (s.stepsFor slot batch ++ s.chunkFor slot batch) = [] then
      { s with steps := s.steps.filter fun x => decide (x.keys ≠ s.servedKeys slot m batch) }
    else throughLayers slot m batch (s.servedKeys slot m batch) (giveTokens (served (s.servedKeys slot m batch) (s.stepsFor slot batch))
      (served (s.servedKeys slot m batch) (s.chunkFor slot batch))) s := by
  unfold generation
  rw [there]
  rfl

theorem tokenWaits_streams {s : State} {op slot : Nat} {x : Cmd × Nat} (mem : x ∈ s.tokenWaits op slot) : x.2 ∈ s.streamsOn slot := by
  obtain ⟨c, -, waits⟩ := List.mem_filterMap.1 mem
  split at waits
  · split at waits
    · next held =>
      rw [← Option.some.inj waits]
      exact List.contains_iff_mem.1 held.2.1
    · exact absurd waits nofun
  · exact absurd waits nofun

section
variable {ns : List Nat} {steps chunk : List (Cmd × Nat)} (ofSteps : ∀ x ∈ steps, x.2 ∈ ns)
include ofSteps

theorem genWork_tokens (s : State) : GenWork ns s (steps.foldl (fun s x => giveToken x.1 x.2 s) s) :=
  GenWork.foldl (fun x mem s => genWork_giveToken (ofSteps x mem) x.1 s) s

variable (ofChunk : ∀ x ∈ chunk, x.2 ∈ ns)
include ofChunk

theorem genWork_giveTokens (s : State) : GenWork ns s (giveTokens steps chunk s) :=
  ((genWork_shareSteps ns steps s).trans (genWork_tokens ofSteps _)).trans
    (GenWork.foldl (fun x mem s => genWork_prefill (ofChunk x mem) x.1 s) _)

/-- Every served GEN_STEP on an open stream, whose session is open, is answered. -/
theorem giveTokens_answers {s : State} {d : Cmd} {n : Nat} (mem : (d, n) ∈ steps) (there : (kvGet n s.streams).isSome = true)
    (open_ : (s.session d.key.session).phase = .opened) :
    ∃ r ∈ (giveTokens steps chunk s).replies, r.key = d.key ∧ r.status = stOk ∧ .tokenOut n ∈ r.acts := by
  obtain ⟨before, after, list⟩ := List.append_of_mem mem
  have first : ∀ x ∈ before, x.2 ∈ ns := fun x mem => ofSteps x (list ▸ List.mem_append_left _ mem)
  have later : ∀ x ∈ after, x.2 ∈ ns := fun x mem => ofSteps x (list ▸ List.mem_append_right _ (List.mem_cons_of_mem _ mem))
  have work := (genWork_shareSteps ns steps s).trans (genWork_tokens first (shareSteps steps s))
  obtain ⟨r, made, answers⟩ := giveToken_answers (c := d) (work.open_ n there) (by rw [State.session, work.sessions, ← State.session, open_])
  refine ⟨r, ?_, answers⟩
  unfold giveTokens
  rw [show steps.foldl (fun s x => giveToken x.1 x.2 s) (shareSteps steps s) = after.foldl (fun s x => giveToken x.1 x.2 s)
    (giveToken d n (before.foldl (fun s x => giveToken x.1 x.2 s) (shareSteps steps s))) by rw [list, List.foldl_append, List.foldl_cons]]
  exact (GenWork.foldl (ns := ns) (fun x mem s => genWork_prefill (ofChunk x mem) x.1 s) _).replies ((genWork_tokens later _).replies made)

end

/- The step -/

/-- In no streaming mode a step of a model's commands does nothing, stalls, or reads the layers and does what it does. -/
theorem throughLayers_cases {s : State} {slot : Nat} (mode : s.streams_ slot = false) (m : Model) (batch : Bool) (keys : List CmdKey) (done : State → State) :
    throughLayers slot m batch keys done s = s ∨ StallFrame s (throughLayers slot m batch keys done s) ∨
      ∃ r, LayersRead s r keys ∧ throughLayers slot m batch keys done s = done r := by
  cases step : s.stepOf slot m batch keys with
  | none => exact .inl (by rw [throughLayers, step])
  | some x => cases runs : s.runsOn x.ctx with
    | none => exact .inl (by rw [throughLayers, step]; dsimp only; rw [runs])
    | some p => cases missing : s.firstMissing x m p with
      | none =>
        obtain ⟨r, read, does⟩ := throughLayers_reads ⟨x, p, step, runs, missing⟩
        exact .inr (.inr ⟨r, read, by rw [does, mode]; rfl⟩)
      | some tile =>
        obtain ⟨y, q, -, does⟩ := throughLayers_stalls ⟨x, p, step, runs, missing⟩
        refine .inr (.inl ?_)
        rw [does]
        exact (stallFrame_layerBoundary ..).trans (stallFrame_stallLayer ..)

section
variable {s : State} {slot : Nat} {g : Model} (there : kvGet slot s.models = some g) (mode : s.streams_ slot = false)

theorem served_streams {s : State} {slot : Nat} (keys : List CmdKey) (batch : Bool) :
    (∀ x ∈ served keys (s.stepsFor slot batch), x.2 ∈ s.streamsOn slot) ∧ ∀ x ∈ served keys (s.chunkFor slot batch), x.2 ∈ s.streamsOn slot := by
  refine ⟨fun x mem => tokenWaits_streams (List.mem_of_mem_filter (List.mem_of_mem_filter mem)), fun x mem => ?_⟩
  have waits := List.mem_of_mem_filter mem
  unfold State.chunkFor at waits
  split at waits
  · exact absurd waits List.not_mem_nil
  · exact tokenWaits_streams (List.mem_of_mem_take waits)

include there mode

theorem genWork_generation (batch : Bool) : GenWork (s.streamsOn slot) s (generation slot batch s) := by
  obtain ⟨ofSteps, ofChunk⟩ := served_streams (s := s) (slot := slot) (s.servedKeys slot g batch) batch
  rw [generation_some there]
  split
  · exact GenWork.of_streams rfl rfl (RepliesStand.refl s)
  · rcases throughLayers_cases mode g batch (s.servedKeys slot g batch) (giveTokens (served (s.servedKeys slot g batch) (s.stepsFor slot batch))
      (served (s.servedKeys slot g batch) (s.chunkFor slot batch))) with same | stalls | ⟨r, read, does⟩
    · rw [same]
      exact GenWork.refl _ s
    · exact stalls.genWork
    · rw [does]
      exact (genWork_layersRead read).trans (genWork_giveTokens ofSteps ofChunk r)

/-- A step whose tiles stand ready answers the GEN_STEPs that it serves. -/
theorem generation_answers {batch : Bool} (ready : StepReady s slot g batch (s.servedKeys slot g batch) none) {d : Cmd} {n : Nat} {st : Stream}
    (waits : (d, n) ∈ s.tokenWaits 0x54 slot) (serves : d.key ∈ s.servedKeys slot g batch) (stream : kvGet n s.streams = some st)
    (cls : st.cls = if batch then .batch else .interactive) (open_ : (s.session d.key.session).phase = .opened) :
    ∃ r ∈ (generation slot batch s).replies, r.key = d.key ∧ r.status = stOk ∧ .tokenOut n ∈ r.acts := by
  obtain ⟨ofSteps, ofChunk⟩ := served_streams (s := s) (slot := slot) (s.servedKeys slot g batch) batch
  have mem : (d, n) ∈ served (s.servedKeys slot g batch) (s.stepsFor slot batch) := by
    refine List.mem_filter.2 ⟨List.mem_filter.2 ⟨waits, ?_⟩, List.contains_iff_mem.2 serves⟩
    rw [stream]
    exact decide_eq_true cls
  have some_ : served (s.servedKeys slot g batch) (s.stepsFor slot batch ++ s.chunkFor slot batch) ≠ [] := by
    rw [served, List.filter_append]
    exact List.ne_nil_of_mem (List.mem_append_left _ mem)
  obtain ⟨r, read, does⟩ := throughLayers_reads ready
  have layers := genWork_layersRead (ns := s.streamsOn slot) read
  rw [generation_some there, if_neg some_, does, mode]
  exact giveTokens_answers ofSteps ofChunk mem (layers.open_ n (by rw [stream]; rfl)) (by rw [State.session, layers.sessions, ← State.session, open_])

end

end Sys2Proof.Machine
end

section
/-!
PROOFS. O44: EMBED, SCAN_EMBED and the streams of generation, clause by clause.
-/

namespace Sys2Proof.Proofs

open Sys2Proof Sys2Proof.Machine

/-- Settles O44: a command that names a model looks for a plot, by which its step stands as it stood, and reads the layers there; streams open, run
and close. The plot a step runs on and the stall at its first missing tile are log entry 191, the stream check of each step is log entry 201. -/
theorem modelWork : Obligations.ModelWork := by
  unfold Obligations.ModelWork
  intro s k c x m keys p Named_ img
  have names : ∀ {handle : Nat}, Named_ handle → Named s c m handle := fun ⟨there, stays, count, _, placed⟩ => ⟨there, stays, count, placed⟩
  refine ⟨?embed, ?scanEmbed, ?genOpen, ?genStep, ?step, ?genClose⟩
  case embed =>
    intro h named n bytes reserved kind some_ length most heads ids low high fits slot batch placed
    obtain rfl := h.toReady.key
    have run := exec_embed h keys (names named) named.2.2.2.1 ⟨reserved, kind, some_, length, most, ids⟩ heads fits
    refine ⟨fun ready => ?_, fun tile missing => ⟨_, run, embed_stalls missing⟩⟩
    obtain ⟨v, w, does⟩ := embed_reads h low ready
    exact ⟨_, v, w, run, does⟩
  case scanEmbed =>
    intro q h named scan target own kind n most es units vs head length reserved most_ extents place in_ whole fits below slot ready mode
    obtain rfl := h.toReady.key
    have run := exec_scanEmbed h keys scan target ⟨head, length, reserved, most_, extents⟩ (names named) own kind
    obtain ⟨u, v, body, read, frame, answered⟩ := runEmbeds_answered place in_ whole fits below h ready mode
    exact ⟨_, u, v, lookUp (s.scanSegs es) s, body, lookedUp_lookUp _ s, run, read, frame, answered⟩
  case genOpen =>
    intro n h named r refs unitOf inline named_ prompt total length fields heads refsOk some_ fewer in_ whole known number fits
    obtain rfl := h.toReady.key
    have run := exec_genOpen h keys (names named) named.2.2.2.1 ⟨length, fields, heads, refsOk, some_, fewer, in_, whole, known, number, fits⟩
    exact ⟨_, openedStream c x m (s.promptOf p) s.now, lookUp (s.unitSegments (refReads p)) s, lookedUp_lookUp _ s, run, rfl, rfl, rfl, rfl, rfl, rfl, rfl, rfl, rfl,
      openStream_seated ..⟩
  case genStep =>
    intro st last h length reserved2 reserved8 stream stays pos
    obtain rfl := h.toReady.key
    have run := exec_genStep h keys ⟨length, reserved2, reserved8, stream, stays, pos⟩
    refine ⟨fun next runs => ?_, fun r other record => ⟨_, run, stepStream_record h other record⟩⟩
    rw [run, stepStream_waits next runs]
  case step =>
    intro slot batch g there mode
    have work := genWork_generation there mode batch
    exact ⟨_, rfl, work.frame, work.others, fun ready d n st waits serves stream cls open_ => generation_answers there mode ready waits serves stream cls open_⟩
  case genClose =>
    intro h sorted
    obtain rfl := h.toReady.key
    refine ⟨fun all last => ⟨closeStreams (s.streamsOf c.key.ctx) s, _, exec_genClose_all h keys all last, closeStreams_frame .., ?_, mem_closeStreamsOf sorted _⟩,
      fun st length reserved stream => ⟨_, exec_genClose_one h keys length reserved stream, ?_⟩⟩
    · exact h.completes stOk false [] 0 [] (congrArg State.sessions (closeStreams_frame (s.streamsOf c.key.ctx) s) :)
    · exact h.completes stOk false [] 0 [] rfl

end Sys2Proof.Proofs
end
